-- ==== Sys2Proof/Word.lean ====
section
/-! DEFINITION. Words, the canonical sparse map used for every large table of the module, and the exact
value of a floating-point number (02_arithmetic R31-R33). -/

namespace Sys2Proof

/-- A register word (00_scope R6). -/
abbrev Word := BitVec 32
/-- A device address (08_memory_tiers R231), a host address, or a 64-bit operand. -/
abbrev Addr := BitVec 64
/-- One byte. -/
abbrev Byte := BitVec 8

/-- A sparse table: entries by strictly rising key; an unlisted key holds the table's resting value. -/
abbrev SMap (α : Type) := List (Nat × α)

namespace SMap
variable {α : Type}

def get? : SMap α → Nat → Option α
  | [], _ => none
  | (k, v) :: r, i => if i < k then none else if i = k then some v else get? r i

def getD (m : SMap α) (i : Nat) (d : α) : α := ((get? m i).getD d)

def has (m : SMap α) (i : Nat) : Bool := (get? m i).isSome

/-- Writes one entry, keeping the keys strictly rising. -/
def insert : SMap α → Nat → α → SMap α
  | [], i, a => [(i, a)]
  | (k, v) :: r, i, a =>
      if i < k then (i, a) :: (k, v) :: r else if i = k then (i, a) :: r else (k, v) :: insert r i a

def erase : SMap α → Nat → SMap α
  | [], _ => []
  | (k, v) :: r, i => if i < k then (k, v) :: r else if i = k then r else (k, v) :: erase r i

/-- Writes one entry of a table whose resting value is `d`: a value equal to `d` is not listed. -/
def put [DecidableEq α] (m : SMap α) (i : Nat) (a d : α) : SMap α :=
  if a = d then erase m i else insert m i a

def keys (m : SMap α) : List Nat := m.map (·.1)
def vals (m : SMap α) : List α := m.map (·.2)

/-- Keeps the entries that satisfy `p`. -/
def keep (m : SMap α) (p : Nat → α → Bool) : SMap α := m.filter (fun e => p e.1 e.2)

/-- Changes every value, key by key. -/
def mapVals {β : Type} (m : SMap α) (f : Nat → α → β) : SMap β := m.map (fun e => (e.1, f e.1 e.2))

/-- Keys strictly rising from `lo` on. -/
def sortedFrom : Nat → SMap α → Bool
  | _, [] => true
  | lo, (k, _) :: r => decide (lo ≤ k) && sortedFrom (k + 1) r

/-- The canonical form: keys strictly rising. -/
def sorted (m : SMap α) : Bool := sortedFrom 0 m

end SMap

/-- A set of numbers, strictly rising. -/
abbrev NSet := SMap Unit
namespace NSet
def mem (s : NSet) (i : Nat) : Bool := SMap.has s i
def add (s : NSet) (i : Nat) : NSet := SMap.insert s i ()
def del (s : NSet) (i : Nat) : NSet := SMap.erase s i
end NSet

/-- Bits hi..lo of a number. -/
def bitsOf (x hi lo : Nat) : Nat := (x >>> lo) % 2 ^ (hi + 1 - lo)
/-- Bit i of a number. -/
def bitOf (x i : Nat) : Bool := x.testBit i
/-- Bits hi..lo of a register word, as a number. -/
def Wbits (w : Word) (hi lo : Nat) : Nat := bitsOf w.toNat hi lo
/-- 1 or 0. -/
def b2n (b : Bool) : Nat := if b then 1 else 0
/-- Rounds x up to a multiple of n, in units of n. -/
def ceilDiv (x n : Nat) : Nat := (x + n - 1) / n
/-- The signed value of an n-bit pattern. -/
def sext (n x : Nat) : Int := if x.testBit (n - 1) then (x : Int) - 2 ^ n else x

/-- The value of a floating-point number: (−1)^neg × mag × 2^exp, an infinity, or NaN (R31, R34: the
payload and sign of a NaN are not kept). -/
inductive FVal where
  | fin (neg : Bool) (mag : Nat) (exp : Int)
  | inf (neg : Bool)
  | nan
deriving DecidableEq, Repr

/-- A binary format of the table "Element and scale formats" (R31). `top` says what the largest exponent
holds. -/
inductive FTop where
  | ieee      -- infinities and NaNs
  | oneNan    -- E4M3: only S.1111.111 is NaN
  | numbers   -- E2M1, E3M2, E2M3: finite values only
deriving DecidableEq, Repr

structure FFmt where
  ebits : Nat
  mbits : Nat
  bias  : Nat
  top   : FTop
deriving DecidableEq, Repr

/-- The element formats of the array and of the writeback stage (R31, R36). -/
inductive ElemFmt where
  | e2m1 | e3m2 | e2m3 | e4m3 | e5m2 | mxint8 | bf16 | fp16 | fp32 | fp64 | int32 | int8 | bf16split
deriving DecidableEq, Repr

end Sys2Proof
end

