-- ==== Sys2Proof/Args.lean ====
section
/-! DEFINITION. The operand types of the commands: package numbers, host accessors, upsets, readings, link frames
and debug requests. -/

namespace Sys2Proof

abbrev CoreId := Fin 288
abbrev JobId := Fin 256
abbrev SessId := Fin 16384
abbrev PortId := Fin 24
abbrev MemDie := Fin 8
abbrev ChanId := Fin 64

/-- The two PCIe ports (12 R385). -/
inductive HostPort where
  | a | b
deriving DecidableEq, Repr

/-- Who makes a register or BAR access (12 R387-R389; 16 R493): the PF of a port, a VF of a port, JTAG, or
control-processor firmware. -/
inductive Acc where
  | pf (port : HostPort)
  | vf (port : HostPort) (n : Fin 64)
  | jtag
  | firmware
deriving DecidableEq, Repr

/-- What a read of external memory may meet besides a corrected or uncorrectable error: a GDDR7 line whose TAG is that of
another (09 R267); a transfer that fails its CRC n + 1 times, where the fifth failure is final (R268); a codeword decoded
after n + 1 re-reads, where the fourth step is the soft decode (R284); a flash read that times out, or one that meets an
uncorrectable error of its channel's buffer (R298). -/
inductive ReadErr where
  | tag | crc (n : Fin 5) | reread (n : Fin 4) | timeout | buffer
deriving DecidableEq, Repr

/-- What the hardware's checkers find in a step: nothing; a corrected error, an uncorrectable error, or an uncorrectable
codeword that a mirror serves, in one of the places the step reads, counted from 0 (granules, pages or images; where it reads
one place, any count names it); a corrected or uncorrectable error of the accumulator memory; a corrected or uncorrectable
error of an engine's own buffer; a weight register parity error; a failed check on a mesh link of a die; an uncorrectable error in
the entry of a routing, window, handle or origin table or the log record that the step reads (11 R383; 14 R437); an uncorrectable
line of the reserved region of GDDR7, numbered from its start (09 R267); or a failed IDE check of the TLP of a stream (12
R397). -/
inductive Upset where
  | none | at (e : ReadErr) (place : Nat) | ce (place : Nat) | ue (place : Nat) | accCE | accUE | bufCE | bufUE | parity
  | linkUE (die : Nat) | tableUE | mirrorServe (place : Nat) | rsvdUE (line : Nat) | ideFail (stream : Fin 4)
deriving DecidableEq, Repr

/-- What a read of a GDDR7 line finds (09 R267). -/
inductive LineRead where
  | clean | corrected | double | tagMismatch
deriving DecidableEq, Repr

/-- A received link frame (11 R337, R339): its header fields and whether tag and FEC verified. -/
structure LinkFrame where
  seq : Nat
  ack : Nat
  nak : Bool
  idle : Bool
  creditOrbit : Nat
  creditBulk : Nat
  creditMgmt : Nat
  creditTime : Nat
  fecCe : Nat
  fecOk : Bool
  tagOk : Bool
deriving DecidableEq, Repr

/-- A debug access through JTAG (17 R520). -/
inductive JtagReq where
  | idcode
  | readMem (addr : Addr) (len : Nat)
  | readVreg (core : CoreId) (reg : Fin 32)
  | readReg (off : BitVec 28)
  | writeReg (off : BitVec 28) (value : Word)
deriving DecidableEq, Repr

end Sys2Proof
end

