-- ==== Sys2Proof/Machine/TypesIO.lean ====
section
/-! DEFINITION. Data of the external memories, of the Toruf fabric, of orbits and of time: what State holds of
chapters 09 and 11. Plain data only. -/

namespace Sys2Proof.Machine
open Sys2Proof

/-! ### GDDR7, write-combining buffer, inkwell, FTL (09) -/

/-- A WCB entry: byte mask, bytes (as one little-endian number of 128 bytes) and allocation time (R272). -/
structure WcbEnt where
  line : Nat
  mask : Nat
  data : Nat
  at_ : Nat
deriving DecidableEq, Repr

/-- A partial write held on a full WCB (R276). -/
structure WcbHeld where
  line : Nat
  mask : Nat
  data : Nat
  since : Nat
deriving DecidableEq, Repr

/-- One way of a set in CACHE mode, most recently used first in its list (R279). -/
structure CacheWay where
  tag : Nat
  dirty : Bool
deriving DecidableEq, Repr

/-- An inkwell: cache sets in CACHE mode; whether a mode change runs and to which mode (R278-R280). -/
structure Ink where
  sets : SMap (List CacheWay)
  changeTo : Option Bool
deriving DecidableEq, Repr

/-- A NAND erase block: reads since its last erase, erases, whether it is retired, the pages programmed since its last erase,
and whether its valid units are on their way to other blocks (R286-R288). -/
structure NandBlk where
  reads : Nat
  erases : Nat
  retired : Bool
  fill : Nat
  moving : Bool
deriving DecidableEq, Repr

/-- The header of a programmed page: its logical unit, by granule name / 4, and its write sequence number (R281); whether its
command has committed (R291); whether it holds the secondary copy of a mirrored unit (R285). -/
structure NandPage where
  unit_ : Nat
  wseq : Nat
  committed : Bool
  mirror : Bool
deriving DecidableEq, Repr

/-- A program in progress: its command, its logical unit, its page, whether it writes a secondary copy, and the mapped page
whose unit it moves (R283, R285-R287). -/
structure Prog where
  uid : Nat
  key : Nat
  page : Nat
  mirror : Bool
  move : Option Nat
deriving DecidableEq, Repr

/-- A page that a command has programmed and that is not mapped yet (R283). -/
structure NewPage where
  uid : Nat
  key : Nat
  page : Nat
  mirror : Bool
deriving DecidableEq, Repr

/-- One FTL (R281-R291). A physical page is named by 4,096 × its block + its place there. `map` gives the page of each mapped
unit, `mir` that of its secondary copy; `ckMap` and `ckMir` are the last checkpoint of both, and `journal` holds the changes
since, oldest first: copy, unit and the page, none for one that is unmapped. `erases` are the erases in progress, by number. -/
structure Ftl where
  blks : SMap NandBlk
  pages : SMap NandPage
  map : SMap Nat
  mir : SMap Nat
  ckMap : SMap Nat
  ckMir : SMap Nat
  journal : List (Bool × Nat × Option Nat)
  written : List NewPage
  progs : SMap Prog
  erases : SMap Nat
  nextProg : Nat
  wseq : Nat
  seqRunning : Bool
  closed : Bool
  pwrJournal : Bool
deriving DecidableEq, Repr

/-! ### Fabric (11) -/

/-- A multicast entry (R352). -/
structure McEnt where
  valid : Bool
  local_ : Bool
  did : Nat
  ports : Nat
deriving DecidableEq, Repr

/-- A packet (R343). Payload bytes least significant first; `route` is the source-route unit: hop count, index
and egress ports (R345). -/
structure Packet where
  typ : Nat
  vc : Nat
  sealed : Bool
  dst : Nat
  src : Nat
  ttl : Nat
  tag : Nat
  addr : Nat
  stamp : Nat
  route : Option (List Nat × Nat)
  payload : List Nat
deriving DecidableEq, Repr

/-! ### Scheduled traffic on the mesh (01 R18-R21; 08 R237; 11 R370) -/

/-- What a scheduled flit does when it reaches its destination block's network port: a semaphore signal; the request of a
copy to the block that holds the source; a flit of a copy, with the device address of its 512 bytes, their SEAL, and
whether it is the copy's last; the report of a copy's last write; a word for an egress port; a word of the ORBIT channel for a core. -/
inductive Load where
  | signal (core sem value tag act : Nat)
  | copyReq (core job uid act : Nat)
  | copyData (core job uid act : Nat) (last : Bool) (addr : Nat) (data : List Nat) (sl : Bool)
  | copyReport (core job uid act : Nat)
  | toPort (port : Nat) (pkt : Packet)
  | toCore (port : Nat) (pkt : Packet)
deriving DecidableEq, Repr

/-- A scheduled flit on its way: source and destination die, the links still before it, and the NOC cycle in which it is due
on the first of them, or at its destination's port. -/
structure Flit where
  src : Nat
  dst : Nat
  path : List Nat
  due : Nat
  load : Load
deriving DecidableEq, Repr

/-- Flits that wait at a block's network port: the first NOC cycle in which the next may leave, the dies of its path, how
many of them have left and how many there are, and what they carry (of a copy: its first flit's load). `job` is the job
they belong to. -/
structure PortJob where
  ready : Nat
  src : Nat
  dst : Nat
  sent : Nat
  total : Nat
  job : Nat
  load : Load
deriving DecidableEq, Repr

/-- Who waits for a response (R357, R360, R350): an action of a command, an entry of a job's prefetch list, a remote
atomic, the mailbox. -/
inductive ReqOwner where
  | cmd (uid : Nat) (act : Nat)
  | pf (job : Nat) (idx : Nat)
  | rop
  | mailbox
deriving DecidableEq, Repr

/-- An outstanding request: type, remote DID, remote offset, bytes still expected, the local device address of the
data, the local T3 address, time of sending (R357, R361). -/
structure Req where
  typ : Nat
  did : Nat
  addr : Nat
  left : Nat
  local_ : Nat
  t3 : Nat
  sentAt : Nat
  owner : ReqOwner
deriving DecidableEq, Repr

/-- A received PTP message, in the form its row gives it (R376, R377). -/
inductive PtpMsg where
  | sync (domain : Nat) (offset : Int)
  | delayReq (domain : Nat)
  | delayResp (domain : Nat) (delay : Int)
  | announce (domain : Nat)
  | other (msgType : Nat)
deriving DecidableEq, Repr

/-- What crosses from a port's link layer to the NOC at a fixed latency: packets of the ORBIT channel and messages of the
TIME channel (01 R29). -/
inductive RelLoad where
  | pkt (p : Packet)
  | ptp (m : PtpMsg)
deriving DecidableEq, Repr

/-- A received word of a deterministic crossing that waits for its slot: what it is, the slot, and the cycle of its writing
(01 R27, R28, R366). -/
structure RelWord where
  load : RelLoad
  slot : Nat
  writtenAt : Nat
deriving DecidableEq, Repr

/-- A link frame a transmitter keeps until it is acknowledged: its sequence number and resends (R339). -/
structure TxFrame where
  seq : Nat
  sentAt : Nat
  resends : Nat
deriving DecidableEq, Repr

/-- An access from outside the cores that waits for a granule marked PENDING (08 R256): a host write, as granule, offset
and bytes, or a packet that arrived on a port. -/
inductive HeldAcc where
  | host (key off : Nat) (bytes : List Nat)
  | rx (port : Nat) (p : Packet)
deriving DecidableEq, Repr

/-- One Toruf port (R336-R342, R365). -/
structure Port where
  up : Bool
  wasUp : Bool
  downAt : Nat
  training : Bool
  authFail : Bool
  peerDid : Nat
  peerPort : Nat
  keyGen : Nat
  keyId : Nat
  txKey : BitVec 256
  rxKey : BitVec 256
  txSalt : BitVec 32
  rxSalt : BitVec 32
  txSeq : Nat
  rxSeq : Nat
  unacked : List TxFrame
  creditOrbit : Nat
  creditBulk : Nat
  creditMgmt : Nat
  creditTime : Nat
  queued : List Packet
  release : List RelWord
  calDone : Bool
  calLeft : Nat
  calMin : Nat
  calMax : Nat
  calSeen : Bool
  rptTokens : Nat
  rptAt : Nat
  supplyOff : Bool
deriving DecidableEq, Repr

/-- The fabric router's tables and outstanding requests by tag (R351, R352, R355, R356, R370), and
requests that wait for a free tag. -/
structure Fab where
  rt : SMap Nat
  mc : SMap McEnt
  orr : SMap (BitVec 128)
  win : SMap (BitVec 128)
  hdl : SMap (Nat × Nat × Nat)
  reqs : SMap Req
  reqWait : List (Packet × Req)
  ports : SMap Port
  mbStatus : Nat
  mbBusy : Bool
  ropStatus : Nat
  ropBusy : Bool
  ropRes : Nat
deriving DecidableEq, Repr

/-- R363. -/
inductive OrbState where
  | none | locking | locked | aligned | running | lost
deriving DecidableEq, Repr

/-- Orbit state (R363-R373). `occ` counts ARITH cycles;
`lastHb` is the OCC from which a missing heartbeat is counted; `haltDue` says that the halt at the first boundary
after LOST is still to come. -/
structure Orb where
  state : OrbState
  cause : Nat
  pllRef : Bool
  holdover : Bool
  occ : Nat
  armed : Bool
  epoch : Nat
  lastHb : Nat
  haltDue : Bool
deriving DecidableEq, Repr

/-- The TIME block (R375-R378): nanoseconds with 32 fractional bits, the servo's peer delay and last Sync, and
the presence of the inputs. `acc` carries the fifths of a TIME clock of the ARITH clock. -/
structure Tim where
  ns : Nat
  acc : Nat
  synced : Bool
  offset : Int
  peerDelay : Int
  lastSync : Nat
  lastPps : Nat
  ppsEdge : Option Nat
  ppsOk : Bool
  refOk : Bool
  holdover : Bool
deriving DecidableEq, Repr

/-! ### Host ports (12) -/

/-- An aperture entry (R390). -/
structure Aperture where
  valid : Bool
  wr : Bool
  job : Nat
  func : Nat
  slot : Nat
  base : Nat
deriving DecidableEq, Repr

/-- An object that the DOE mailbox is receiving or answering (R396, R397). -/
structure DoeObj where
  protocol : Nat
  bytes : List Nat
deriving DecidableEq, Repr

/-- A selective IDE stream: whether it is Secure, and its key (R397). -/
structure IdeStream where
  secure : Bool
  key : BitVec 256
deriving DecidableEq, Repr

/-- One PCIe port (R385-R404). `ide` holds the streams that are not as a reset leaves them, Insecure and with no key. `unmasked` and `pendingVec` are keyed by function × 2048 + vector; an unlisted
vector is masked, as the MSI-X table is after a reset. -/
structure Pcie where
  perst : Bool
  linkUp : Bool
  width : Nat
  flit : Bool
  speed : Nat
  downAt : Nat
  perstAt : Nat
  hostLost : Bool
  numVfs : Nat
  aps : SMap Aperture
  vfJobs : SMap (BitVec 256)
  unmasked : NSet
  pendingVec : NSet
  doe : Option DoeObj
  adoptResult : Nat
  ide : SMap IdeStream
deriving DecidableEq, Repr

/-! ### Security engine (13) -/

/-- A FULL key slot: the content key, named by the blob it came from, and PACKAGE_ID (R416). -/
structure KeySlot where
  key : BitVec 256
  pkgId : BitVec 128
deriving DecidableEq, Repr

/-- The state of the CTR_DRBG: Key and V (R408). -/
structure Drbg where
  key : BitVec 256
  v : BitVec 128
deriving DecidableEq, Repr

/-- The security engine (R408-R432): key slots, the release key KREL, the boot nonce, the DRBG and how often it has been
seeded, open SPDM sessions. -/
structure Sec where
  keys : SMap KeySlot
  krel : BitVec 384
  bootNonce : BitVec 384
  drbg : Drbg
  seeds : Nat
  spdmA : SMap Nat
  spdmB : SMap Nat
  pendingBlocks : Bool
  windowOpen : Bool
  resetBlocks : NSet
  fuseErr : Bool
deriving DecidableEq, Repr

/-! ### Faults (14) -/

/-- One fault report or package log record (R453, R454). -/
structure Rec where
  blk : Nat
  src : Nat
  reaction : Nat
  masked : Bool
  err : Bool
  origin : Bool
  time : Nat
  addr : Nat
  master : Nat
  access : Nat
deriving DecidableEq, Repr

/-- An entry of the origin table (R462); times in nanoseconds. -/
structure OrgEnt where
  origin : Nat
  kinds : Nat
  count : Nat
  first : Nat
  last : Nat
  reporter : Nat
deriving DecidableEq, Repr

/-- Fault collection: reports on their way by die, the package log (unread records, oldest first, with the
write and read counts), origin table, polls missed, reports sent (last time by origin × 8 + kind, and the times of
the last ones), ERR_OUT_N held for a reset, and block resets requested by reaction 3, by die × 1024 + page
(R445-R463). -/
structure Flt where
  reports : SMap (List Rec)
  log : List Rec
  logWr : Nat
  logRd : Nat
  irqPend : Bool
  org : SMap OrgEnt
  missed : SMap Nat
  lost : NSet
  sentRpt : SMap Nat
  sentAt : List Nat
  errHold : Bool
  blkRst : NSet
deriving DecidableEq, Repr

/-! ### Power, boot, device state (15) -/

/-- R467. -/
inductive DevState where
  | boot | ready | test | recovery
deriving DecidableEq, Repr

/-- The power manager (R469-R475): retained dies (cause: 0 not placed, 1 THERM_CRIT, 2 DIE_RST_TIMEOUT), dies
waking, dies under die reset, dies gated by THERM_WARN, run lengths of R474, regulators at fault, and what the
1 ms readings were. -/
structure Pwr where
  retained : SMap Nat
  waking : NSet
  resetting : SMap Nat
  warm : NSet
  crit : NSet
  g : Nat
  overRun : Nat
  belowRun : Nat
  hard : Bool
  vrFault : Nat
  temps : SMap Nat
  watts : Nat
  energyRest : Nat
  heldInReset : Bool
deriving DecidableEq, Repr

/-- A boot flash image slot (R482): whether it verifies, VERSION and SVN. -/
structure ImgSlot where
  ok : Bool
  version : Nat
  svn : Nat
deriving DecidableEq, Repr

/-- Boot and firmware life cycle (R481-R487). Slot and PREF numbers: false A, true B. -/
structure Boot where
  slotA : ImgSlot
  slotB : ImgSlot
  pref : Bool
  unconfirmed : Bool
  runSlot : Bool
  runs : Bool
  staging : Option Nat
  staged : Bool
  trial : Bool
  window : Bool
  fusedSvn : Nat
  romRecovery : Bool
deriving DecidableEq, Repr

/-- A device reset that is requested: KIND of the table "Reset causes" and BLK_ID (R451, R501). -/
structure RstReq where
  kind : Nat
  blk : Nat
  since : Nat
deriving DecidableEq, Repr

/-- What the module drove outwards (the model's own record). -/
inductive Out where
  | pcieWrite (port : Nat) (addr : Nat) (bytes : List Nat)
  | msix (port func vec : Nat)
  | readData (value : Nat)
  | readPoison
  | unsupported
  | packet (port : Nat) (p : Packet)
  | linkNak (port : Nat)
  | resend (port : Nat) (seq : Nat)
  | spdm (port : Nat) (busy : Bool) (resp : List Nat)
  | bus (bytes : List Nat)
  | jtag (bytes : List Nat)
deriving DecidableEq, Repr

end Sys2Proof.Machine
end

