-- ==== Sys2Proof/Syntax.lean ====
section
/-! DEFINITION. The commands of the block: one constructor per row of opcode_table.json, with the operands that
say what arrives from outside (a host access, a packet, a reading, an upset the checkers find). -/

namespace Sys2Proof
open Sys2Proof.Machine (Packet)

/-- The commands of the block, one per row of opcode_table.json. -/
inductive Instr where
  /-- RUN_SEGMENT (R111). -/
  | runSegment (uid : Nat) (ev : Upset)
  /-- COPY_TILES_COPY (R239). -/
  | copyTilesCopy (uid : Nat) (ev : Upset)
  /-- ALLOC (R245). -/
  | alloc (uid : Nat)
  /-- CLAIM (R245). -/
  | claim (uid : Nat)
  /-- EVICT (R245). -/
  | evict (uid : Nat)
  /-- STAGE (R239). -/
  | stage (uid : Nat) (ev : Upset)
  /-- SLOT_OUT (R195). -/
  | slotOut (uid : Nat) (ev : Upset)
  /-- SLOT_IN (R195). -/
  | slotIn (uid : Nat) (ev : Upset)
  /-- PAGE_STAGE (R139). -/
  | pageStage (uid : Nat) (ev : Upset)
  /-- PAGE_UNSTAGE (R239). -/
  | pageUnstage (uid : Nat) (ev : Upset)
  /-- FORK_SESSION (R162). -/
  | forkSession (uid : Nat)
  /-- FREE_PAGES (R163). -/
  | freePages (uid : Nat)
  /-- PUBLISH (R322). -/
  | publish (uid : Nat) (ev : Upset)
  /-- FENCE (R311). -/
  | fence (uid : Nat) (ev : Upset)
  /-- SET_QUOTA (R248). -/
  | setQuota (uid : Nat)
  /-- PREEMPT (R324). -/
  | preempt (uid : Nat) (ev : Upset)
  /-- LOAD_SEALED (R421). -/
  | loadSealed (uid : Nat) (ev : Upset)
  /-- SQ_DOORBELL (R306). -/
  | sqDoorbell (acc : Acc) (job : JobId) (queue : Fin 3) (value : Word)
  /-- CQ_DOORBELL (R306). -/
  | cqDoorbell (acc : Acc) (job : JobId) (value : Word)
  /-- DESCRIPTOR_FETCH (R307). -/
  | descriptorFetch (job : JobId) (queue : Fin 3) (desc : Option (BitVec 512)) (ev : Upset)
  /-- COMMIT (R317). -/
  | commit (uid : Nat) (ns : Nat)
  /-- COMPLETION_ENTRY (R312). -/
  | completionEntry (uid : Nat)
  /-- CQ_ABANDON (R313). -/
  | cqAbandon (uid : Nat)
  /-- SLICE_END (R323). -/
  | sliceEnd (job : JobId)
  /-- OVERRUN_EXPIRY (R325). -/
  | overrunExpiry (uid : Nat)
  /-- VICTIM_OUT (R326). -/
  | victimOut (uid : Nat) (ev : Upset)
  /-- NOP (R104). -/
  | nopAct (core : CoreId) (job : JobId)
  /-- PASS (R78). -/
  | passAct (core : CoreId) (job : JobId) (ev : Upset)
  /-- WRITEBACK (R110). -/
  | writebackAct (core : CoreId) (job : JobId) (ev : Upset)
  /-- VECTOR (R525). -/
  | vectorAct (core : CoreId) (job : JobId) (vreg : Fin 32) (ev : Upset)
  /-- COPY (R237). -/
  | copyAct (core : CoreId) (job : JobId) (ev : Upset)
  /-- SIGNAL (R119). -/
  | signalAct (core : CoreId) (job : JobId) (ev : Upset)
  /-- WAIT (R119). -/
  | waitAct (core : CoreId) (job : JobId)
  /-- WAIT_COMPLETE (R119). -/
  | waitComplete (core : CoreId) (job : JobId)
  /-- SIGNAL_ARRIVAL (R120). -/
  | signalArrival (n : Nat)
  /-- SEM_TIMEOUT (R125). -/
  | semTimeout (core : CoreId) (job : JobId)
  /-- SCHED_SLIP (R128). -/
  | schedSlip (core : CoreId)
  /-- NOC_SLIP (R128). -/
  | nocSlip (die : Fin 48)
  /-- RELOAD_TOKEN (R88). -/
  | reloadToken (core : CoreId) (ev : Upset)
  /-- WASH_LOAD (R89). -/
  | washLoad (core : CoreId) (ev : Upset)
  /-- SHADOW_FILL (R84). -/
  | shadowFill (core : CoreId) (ev : Upset)
  /-- PASS_SLOT (R528). -/
  | passSlot (core : CoreId) (ev : Upset)
  /-- ATTENTION_PREFILL (R144). -/
  | attentionPrefill (core : CoreId) (job : JobId) (ev : Upset)
  /-- ATTENTION_DECODE (R152). -/
  | attentionDecode (core : CoreId) (job : JobId) (ev : Upset)
  /-- PARTIAL_MERGE (R154). -/
  | partialMerge (core : CoreId) (job : JobId) (ev : Upset)
  /-- COMET_CHUNK (R183). -/
  | cometChunk (core : CoreId) (job : JobId) (ev : Upset)
  /-- FP64_SLICING (R51). -/
  | fp64Slicing (core : CoreId) (job : JobId) (ev : Upset)
  /-- FP64_RECOMBINATION (R54). -/
  | fp64Recombination (core : CoreId) (job : JobId) (ev : Upset)
  /-- CONVOLUTION_FEED (R208). -/
  | convolutionFeed (core : CoreId) (job : JobId) (ev : Upset)
  /-- POOLING (R216). -/
  | pooling (core : CoreId) (job : JobId) (ev : Upset)
  /-- QUILL_LAYER (R223). -/
  | quillLayer (core : CoreId) (job : JobId) (ev : Upset)
  /-- CORE_HALT (R108). -/
  | coreHalt (acc : Acc) (core : CoreId) (halt : Bool)
  /-- CORE_STEP (R108). -/
  | coreStep (acc : Acc) (core : CoreId)
  /-- CNT_CLR (R130). -/
  | cntClr (acc : Acc) (die : Fin 64) (page : Fin 1024)
  /-- ACTIVATE (R300). -/
  | activate (acc : Acc) (job : JobId) (rec : Option (List Byte))
  /-- DESTROY (R331). -/
  | destroy (acc : Acc) (job : JobId)
  /-- BIND (R304). -/
  | bind (acc : Acc) (job : JobId) (sess : SessId)
  /-- UNBIND (R304). -/
  | unbind (acc : Acc) (job : JobId) (sess : SessId)
  /-- SQ_ERR_CLEAR (R306). -/
  | sqErrClear (acc : Acc) (job : JobId)
  /-- DECLARATION_WRITE (R333). -/
  | declarationWrite (acc : Acc) (job : JobId) (reg : Fin 11) (value : Word)
  /-- PREFETCH_LIST_SET (R252). -/
  | prefetchListSet (acc : Acc) (job : JobId) (value : Word)
  /-- PREFETCH_ENTRY_ISSUE (R254). -/
  | prefetchEntryIssue (md : MemDie) (job : JobId) (idx : Nat) (ev : Upset)
  /-- PREFETCH_ENTRY_DONE (R254). -/
  | prefetchEntryDone (md : MemDie) (job : JobId) (idx : Nat) (ev : Upset)
  /-- PENDING_READ_RESUME (R256). -/
  | pendingReadResume (core : CoreId) (job : JobId)
  /-- SWAP_OUT_START (R195). -/
  | swapOutStart (sid : Nat)
  /-- SWAP_TRANSFER_END (R195). -/
  | swapTransferEnd (sid : Nat) (ev : Upset)
  /-- INSTALL (R418). -/
  | install (acc : Acc) (ev : Upset)
  /-- ERASE (R418). -/
  | erase (acc : Acc)
  /-- PCIE_ADOPT (R402). -/
  | pcieAdopt (acc : Acc) (job : JobId)
  /-- RELEASE (R400). -/
  | release (acc : Acc)
  /-- MGMT_CLAIM (R403). -/
  | mgmtClaim (acc : Acc)
  /-- PCIE_VF_JOBS (R388). -/
  | pcieVfJobs (acc : Acc) (n : Fin 8) (value : Word)
  /-- BOOT_STAGE (R485). -/
  | bootStage (acc : Acc)
  /-- BOOT_STAGE_END (R485). -/
  | bootStageEnd (result : Fin 9) (version : Word) (svn : BitVec 6)
  /-- BOOT_DISCARD (R485). -/
  | bootDiscard (acc : Acc)
  /-- BOOT_ACTIVATE (R486). -/
  | bootActivate (acc : Acc)
  /-- ACTIVATION_WINDOW_END (R486). -/
  | activationWindowEnd (digestOk : Bool)
  /-- BOOT_CONFIRM (R487). -/
  | bootConfirm (acc : Acc)
  /-- RESET (R476). -/
  | devReset (acc : Acc)
  /-- DEVICE_RESET (R451). -/
  | deviceReset
  /-- TEST_ENTER (R467). -/
  | testEnter (acc : Acc)
  /-- TEST_LEAVE (R467). -/
  | testLeave (acc : Acc)
  /-- RECOVER (R467). -/
  | recover (acc : Acc)
  /-- DIE_RESET (R479). -/
  | dieReset (acc : Acc) (die : Fin 64)
  /-- DIE_RST_TIMEOUT (R501). -/
  | dieRstTimeout (die : Fin 48)
  /-- BLOCK_RESET (R478). -/
  | blockReset (acc : Acc) (die : Fin 64) (page : Fin 1024)
  /-- PWR_REQ (R470). -/
  | pwrReq (acc : Acc) (die : Fin 48) (on : Bool)
  /-- DIE_WAKE (R470). -/
  | dieWake (die : Fin 48)
  /-- INKWELL_MODE_WRITE (R278). -/
  | inkwellModeWrite (acc : Acc) (md : MemDie) (cache : Bool)
  /-- INKWELL_MODE_CHANGE_END (R280). -/
  | inkwellModeChangeEnd (md : MemDie) (ev : Upset)
  /-- LOCK_REQ (R364). -/
  | lockReq (acc : Acc)
  /-- PLL_LOCK_HELD (R363). -/
  | pllLockHeld
  /-- ORB_START (R367). -/
  | orbStart (acc : Acc)
  /-- RUN (R368). -/
  | runOrbit (acc : Acc)
  /-- DISBAND (R374). -/
  | disband (acc : Acc)
  /-- EPOCH_BOUNDARY (R368). -/
  | epochBoundary
  /-- HB_MISS (R372). -/
  | hbMiss
  /-- ORBIT_LOCK_LOST (R372). -/
  | orbitLockLost (cause : Fin 6)
  /-- CAL_REQ (R365). -/
  | calReq (acc : Acc) (port : PortId)
  /-- RETRAIN (R340). -/
  | retrain (acc : Acc) (port : PortId)
  /-- HANDLE_OPEN (R356). -/
  | handleOpen (acc : Acc)
  /-- HANDLE_FREE (R356). -/
  | handleFree (acc : Acc)
  /-- MAILBOX_START (R350). -/
  | mailboxStart (acc : Acc) (value : Word)
  /-- REMOTE_ATOMIC (R360). -/
  | remoteAtomic (acc : Acc) (value : Word) (ev : Upset)
  /-- TIME_STEP (R375). -/
  | timeStep (acc : Acc) (value : Word)
  /-- FLT_INJECT (R465). -/
  | fltInject (acc : Acc) (die : Fin 64) (page : Fin 1024) (src : Fin 32)
  /-- FLT_STAT_CLEAR (R440). -/
  | fltStatClear (acc : Acc) (die : Fin 64) (page : Fin 1024) (value : Word)
  /-- IRQ_PEND_CLEAR (R457). -/
  | irqPendClear (acc : Acc)
  /-- FLTAG_LOG_RD_WRITE (R502). -/
  | fltagLogRdWrite (acc : Acc) (value : Word)
  /-- ORG_W0_READ (R504). -/
  | orgW0Read (acc : Acc)
  /-- LO_READ_LATCH (R131). -/
  | loReadLatch (acc : Acc) (off : BitVec 28)
  /-- REGISTER_WRITE (R494). -/
  | registerWrite (acc : Acc) (off : BitVec 28) (be : BitVec 4) (value : Word)
  /-- BAR2_READ (R392). -/
  | bar2Read (acc : Acc) (off : BitVec 36) (len : Nat) (ev : Upset)
  /-- BAR2_WRITE (R391). -/
  | bar2Write (acc : Acc) (off : BitVec 36) (bytes : List Byte) (ev : Upset)
  /-- PERST_ASSERT (R477). -/
  | perstAssert (port : HostPort)
  /-- PERST_DEASSERT (R398). -/
  | perstDeassert (port : HostPort)
  /-- HOST_LOST (R400). -/
  | hostLost (port : HostPort)
  /-- FLR (R480). -/
  | flr (acc : Acc)
  /-- MSIX_UNMASK (R394). -/
  | msixUnmask (acc : Acc) (vec : Fin 2048)
  /-- CPL_TIMEOUT (R404). -/
  | cplTimeout (port : HostPort) (addr : Addr)
  /-- SPDM_REQUEST (R411). -/
  | spdmRequest (port : HostPort) (protocol : Fin 256) (len : Nat) (request : List Byte)
  /-- DOE_ABORT (R396). -/
  | doeAbort (port : HostPort)
  /-- LINK_ESTABLISHMENT (R336). -/
  | linkEstablishment (port : PortId) (keyGroup : BitVec 16) (peerDid : BitVec 16) (peerPort : Fin 32) (serial : BitVec 64) (nonce : BitVec 256) (confirm : BitVec 128)
  /-- LINK_FRAME_RX (R339). -/
  | linkFrameRx (port : PortId) (frame : LinkFrame)
  /-- REPLAY_TIMEOUT (R339). -/
  | replayTimeout (port : PortId)
  /-- LINK_RETRAIN (R340). -/
  | linkRetrain (port : PortId)
  /-- LINK_DOWN (R340). -/
  | linkDown (port : PortId)
  /-- REKEY (R338). -/
  | rekey (port : PortId)
  /-- FIXED_LATENCY_RELEASE (R27). -/
  | fixedLatencyRelease (port : PortId) (lateAt : Nat)
  /-- FORWARD (R353). -/
  | forward (port : PortId) (pkt : Packet) (ev : Upset)
  /-- PUT (R357). -/
  | put (port : PortId) (pkt : Packet) (ev : Upset)
  /-- PUT_ACK (R357). -/
  | putAck (port : PortId) (pkt : Packet)
  /-- GET_REQ (R357). -/
  | getReq (port : PortId) (pkt : Packet) (ev : Upset)
  /-- GET_RESP (R357). -/
  | getResp (port : PortId) (pkt : Packet)
  /-- ATOMIC (R360). -/
  | atomic (port : PortId) (pkt : Packet) (ev : Upset)
  /-- ATOMIC_RESP (R360). -/
  | atomicResp (port : PortId) (pkt : Packet)
  /-- NACK (R361). -/
  | nack (port : PortId) (pkt : Packet)
  /-- REQUEST_TIMEOUT (R361). -/
  | requestTimeout (tag : Fin 1024)
  /-- ORBIT_DATA (R370). -/
  | orbitData (port : PortId) (pkt : Packet)
  /-- ORBIT_SIGNAL (R370). -/
  | orbitSignal (port : PortId) (pkt : Packet)
  /-- CAL (R365). -/
  | cal (port : PortId) (pkt : Packet)
  /-- CAL_ECHO (R365). -/
  | calEcho (port : PortId) (pkt : Packet) (rtt : BitVec 16)
  /-- START (R367). -/
  | startRx (port : PortId) (pkt : Packet) (late : Bool)
  /-- HEARTBEAT (R368). -/
  | heartbeat (port : PortId) (pkt : Packet)
  /-- HALT (R373). -/
  | haltRx (port : PortId) (pkt : Packet)
  /-- MGMT_RD (R349). -/
  | mgmtRd (port : PortId) (pkt : Packet)
  /-- MGMT_WR (R349). -/
  | mgmtWr (port : PortId) (pkt : Packet)
  /-- MGMT_RESP (R350). -/
  | mgmtResp (port : PortId) (pkt : Packet)
  /-- FAULT_REPORT (R462). -/
  | faultReport (port : PortId) (pkt : Packet)
  /-- PTP_SYNC (R377). -/
  | ptpSync (port : PortId) (stamp : BitVec 16) (domain : Fin 256) (offset : Int)
  /-- PTP_PDELAY_REQ (R376). -/
  | ptpPdelayReq (port : PortId) (stamp : BitVec 16) (domain : Fin 256) (request : List Byte)
  /-- PTP_PDELAY_RESP (R376). -/
  | ptpPdelayResp (port : PortId) (stamp : BitVec 16) (domain : Fin 256) (delay : Int)
  /-- PTP_ANNOUNCE (R376). -/
  | ptpAnnounce (port : PortId) (stamp : BitVec 16) (domain : Fin 256)
  /-- PTP_DISCARD (R376). -/
  | ptpDiscard (port : PortId) (stamp : BitVec 16) (domain : Fin 256) (msgType : Fin 16)
  /-- PTP_INTERVAL (R376). -/
  | ptpInterval (port : PortId) (kind : Fin 3)
  /-- TIME_SYNC_LOST (R377). -/
  | timeSyncLost
  /-- PPS_EDGE (R378). -/
  | ppsEdge
  /-- TIME_PPS_LOST (R378). -/
  | timePpsLost
  /-- TIME_REF_LOST (R378). -/
  | timeRefLost
  /-- GDDR_TEMP_READ (R270). -/
  | gddrTempRead (ch : ChanId) (reading : Option (BitVec 8))
  /-- SCRUB (R269). -/
  | scrub (ch : ChanId) (result : LineRead)
  /-- WCB_WRITE (R272). -/
  | wcbWrite (md : MemDie) (line : Nat) (mask : BitVec 128) (bytes : BitVec 1024) (ev : Upset)
  /-- WCB_FLUSH_AGE (R273). -/
  | wcbFlushAge (md : MemDie) (line : Nat) (ev : Upset)
  /-- WCB_FULL_WAIT (R276). -/
  | wcbFullWait (md : MemDie) (ev : Upset)
  /-- READ_DISTURB_RELOCATION (R286). -/
  | readDisturbRelocation (sd : Fin 2) (blk : Nat)
  /-- WEAR_LEVELING (R287). -/
  | wearLeveling (sd : Fin 2) (src : Nat) (dst : Nat)
  /-- NAND_OPERATION_END (R288). -/
  | nandOperationEnd (sd : Fin 2) (op : Nat) (ok : Bool)
  /-- ONFI_TIMEOUT (R298). -/
  | onfiTimeout (ch : Fin 32) (kind : Fin 3) (op : Nat)
  /-- POWER_LOSS (R289). -/
  | powerLoss
  /-- POWER_ON_RESET (R476). -/
  | powerOnReset (byModRst : Bool) (strap : Bool) (slotA : Bool) (slotB : Bool) (fuseOk : Bool)
  /-- MOD_RST_N_ASSERT (R476). -/
  | modRstNAssert
  /-- BOOT_READY (R484). -/
  | bootReady (clean : Bool)
  /-- PWR_IN_OV (R471). -/
  | pwrInOv
  /-- PMBUS_POLL (R471). -/
  | pmbusPoll (vin : BitVec 16) (iin : BitVec 16) (rails : BitVec 24)
  /-- POWER_EVAL (R472). -/
  | powerEval (watts : BitVec 16)
  /-- DIE_TEMP_READ (R475). -/
  | dieTempRead (temps : List (BitVec 8))
  /-- FLTAG_REPORT (R454). -/
  | fltagReport (die : Fin 64) (ev : Upset)
  /-- COLLECTOR_POLL (R456). -/
  | collectorPoll (answered : BitVec 64)
  /-- ORIGIN_CLOSE (R463). -/
  | originClose (entry : Fin 64) (ev : Upset)
  /-- CP_WATCHDOG (R437). -/
  | cpWatchdog (hc : Fin 2) (cp : Fin 4)
  /-- PORT_SUPPLY_OVERCURRENT (R507). -/
  | portSupplyOvercurrent (port : PortId)
  /-- MGMT_BUS_READ (R518). -/
  | mgmtBusRead (dev : Fin 2) (off : Nat) (len : Nat)
  /-- JTAG_ACCESS (R520). -/
  | jtagAccess (req : JtagReq)
  /-- ACTION_COMPLETION (R66). -/
  | actionCompletion (core : CoreId) (job : JobId) (act : Nat) (ev : Upset)
  /-- DIE_RESET_END (R479). -/
  | dieResetEnd (die : Fin 48)
  /-- BOOT_TRAIN_FAIL (R484). -/
  | bootTrainFail (ch : ChanId)
  /-- POWER_LOSS_SEQUENCE_END (R510). -/
  | powerLossSequenceEnd (above46 : Bool)
  /-- REF10M_IN_RESTORED (R378). -/
  | ref10mInRestored
  /-- PCIE_LINK_DOWN (R400). -/
  | pcieLinkDown (port : HostPort)
  /-- PCIE_LINK_UP (R400). -/
  | pcieLinkUp (port : HostPort) (speed : Fin 7) (width : Fin 9) (flit : Bool)
deriving DecidableEq, Repr

end Sys2Proof
end

