-- ==== Sys2Proof/Config.lean ====
section
/-! DEFINITION. What one K64 fixes and the spec leaves open: opaque constants, of which nothing can be proved.
Each is named in the assumption log. -/

namespace Sys2Proof.Config
open Sys2Proof

/-- The n-th free 32-bit value (log 3). -/
opaque freeWord : Nat → Word
/-- The n-th free vector register content (03 R66; log 3). -/
opaque freeVreg : Nat → BitVec 8192
/-- The count of a semaphore that a command has left undefined (04 R123; log 3): by occasion and semaphore. -/
opaque freeSem : Nat → Nat → BitVec 16
/-- The bytes a debug or management read returns where the spec gives no content (log 3): by position. -/
opaque freeByte : Nat → Nat → Byte

/-- Which of the results within the error limit the vector unit gives on a binary32 input (02 R63), by FUNC (log 12). -/
opaque fn32 : Nat → BitVec 32 → BitVec 32
/-- The same on a binary64 input (02 R63), by FUNC (log 12). -/
opaque fn64 : Nat → BitVec 64 → BitVec 64
/-- The formats a VECTOR Convert reads and writes, by the action's first word (04 R104 names no field; log 13). -/
opaque convertKind : BitVec 32 → Nat

/-- The 16-bit tag the queue manager assigns to a command (04 R122; log 4). -/
opaque cmdTag : Nat → BitVec 16
/-- The check code in DETAIL of a BAD_DESCRIPTOR entry (10 R313 numbers none), by command (log 3). -/
opaque checkCode : Nat → BitVec 16
/-- The physical GDDR7 granule of a storage granule (09 R264; log 5). -/
opaque physGranule : Nat → Nat
/-- The memory die whose inkwell holds the staged copy of a page (05 R139, 08 R239; log 5). -/
opaque stageDie : Nat → Nat
/-- The first of the contiguous logical units of an object's T4 copy (09 R282; log 5). -/
opaque unitBase : Nat → Nat
/-- The last page of an erase block (09 R281; log 6). -/
opaque lastPage : BitVec 12
/-- Erase blocks of one storage die (09 R287; log 6). -/
opaque dieBlocks : Nat
/-- The SECDED code of a GDDR7 data line, over its 512 data bits and its SEAL, POISON and TAG (09 R265; log 5). -/
opaque secded : Nat → Nat → BitVec 11
/-- Erase blocks in the initial spare pool (09 R288; log 6). -/
opaque spareInit : Nat
/-- NAND packages that answered at boot, and boot-time training of the ONFI channels (09; log 6). -/
opaque onfiPresent : Nat → BitVec 2

/-- The fused module serial (11 FABR_ID_SERIAL; log 9). -/
opaque serial : BitVec 64
/-- The fused key group (11, 16; log 9). -/
opaque keyGroup : BitVec 16
/-- The ordering variant: F08 (00 R3; log 9). -/
opaque f08 : Bool
/-- The factory test fuse is closed (14 R464; log 9). -/
opaque ftClosed : Bool
/-- Fused minimum SVN at manufacture (15 R482; log 9). -/
opaque fusedSvn : BitVec 6
/-- Boot flash slot contents at manufacture: verifies, VERSION, SVN; A then B (15 R481; log 9). -/
opaque slotOk : Bool → Bool
opaque slotVersion : Bool → BitVec 32
opaque slotSvn : Bool → BitVec 6
/-- PREF at manufacture (15 R481; log 9). -/
opaque bootPref : Bool

/-- HMAC-SHA-384 of a message under a key (13 R408; log 8). -/
opaque hmac384 : List Nat → List Nat → BitVec 384
/-- SHA-384 (13 R411, R417; log 8). -/
opaque sha384 : List Nat → BitVec 384
/-- One block of AES-256 (13 R408; log 8). -/
opaque aes256 : BitVec 256 → BitVec 128 → BitVec 128
/-- AES-256-XTS encryption of a data unit under a key and a tweak (13 R428; log 8). -/
opaque aesXts : BitVec 512 → BitVec 128 → List Nat → List Nat
/-- AES-256-GCM opening: key, IV, additional data and ciphertext with its tag to plaintext, none where the tag fails (13 R418,
R420; log 8). -/
opaque gcmOpen : BitVec 256 → List Nat → List Nat → List Nat → Option (List Nat)
/-- The public half X ‖ Y of a P-384 key (13 R409; log 8). -/
opaque p384Pub : BitVec 384 → List Nat
/-- Full validation of a P-384 public key (13 R418; log 8). -/
opaque p384Valid : List Nat → Bool
/-- The ECC CDH shared secret of a private key and a public one (13 R418; log 8). -/
opaque ecdh : BitVec 384 → List Nat → List Nat
/-- The n-th seed from the entropy source (13 R408; log 8). -/
opaque entropy : Nat → BitVec 384
/-- The fused secrets (13 R407; log 8). -/
opaque identitySeed : BitVec 384
opaque memoryRoot : BitVec 256
opaque fabricKey : BitVec 256
/-- The certificates of Faleel's root and intermediate CA (13 R410; log 8). -/
opaque rootCert : List Nat
opaque midCert : List Nat
/-- The device certificate, from public key, module serial and key group (13 R410; log 8). -/
opaque deviceCert : List Nat → BitVec 64 → BitVec 16 → List Nat
/-- The answer of the SPDM responder to a request, from the measurement blocks (index, value type, value), the certificate
chain, the open sessions of the port and the random value drawn for it (13 R411; log 8). -/
opaque spdmAnswer : List Nat → List (Nat × Nat × List Nat) → List Nat → Nat → BitVec 256 → List Nat
/-- The SPDM sessions that are open after a request, from those open before it (13 R411; log 8). -/
opaque spdmOpen : List Nat → Nat → Nat
/-- The stream and key that an IDE_KM request of a Secured CMA/SPDM session programs, from the sessions open (12 R397; log 8). -/
opaque ideKm : List Nat → Nat → Option (Fin 4 × BitVec 256)
/-- The digest in a measurement block: block, version, SVN, slot of the image (13 R412; log 8). -/
opaque digest : Nat → Nat → Nat → Nat → List Nat
/-- The 16 bytes of block 7 from the security configuration (13 R412; log 8). -/
opaque block7 : List Nat → List Nat
/-- Block 0xFE, the device mode, by device state (13 R412; log 8). -/
opaque deviceMode : Nat → Nat × List Nat
/-- The PTP servo's new rate from offset and old rate (11 R377; log 14). -/
opaque servoRate : Int → Word → Word
/-- FRU memory of the management bus (17 R518; log 9). -/
opaque fruByte : Nat → Byte
/-- The JEDEC manufacturer identity in the IDCODE of the JTAG port (17 R520; log 9). -/
opaque jedecId : BitVec 11

end Sys2Proof.Config
end

