-- ==== Sys2Proof/Machine/Arith.lean ====
section
/-! DEFINITION. Number formats, rounding and exact arithmetic (02_arithmetic R31-R62). Every operation is
exact on `FVal` and rounds once at its end. -/

namespace Sys2Proof.Machine
open Sys2Proof

def fE2M1 : FFmt := ⟨2, 1, 1, .numbers⟩
def fE3M2 : FFmt := ⟨3, 2, 3, .numbers⟩
def fE2M3 : FFmt := ⟨2, 3, 1, .numbers⟩
def fE4M3 : FFmt := ⟨4, 3, 7, .oneNan⟩
def fE5M2 : FFmt := ⟨5, 2, 15, .ieee⟩
def fBF16 : FFmt := ⟨8, 7, 127, .ieee⟩
def fFP16 : FFmt := ⟨5, 10, 15, .ieee⟩
def fFP32 : FFmt := ⟨8, 23, 127, .ieee⟩
def fFP64 : FFmt := ⟨11, 52, 1023, .ieee⟩

/-- Bits of a format, sign included. -/
def fWidth (f : FFmt) : Nat := 1 + f.ebits + f.mbits
/-- The exponent of the least significant bit of a subnormal. -/
def fQmin (f : FFmt) : Int := 1 - (f.bias : Int) - f.mbits
/-- The magnitude bits of the largest finite value (R31). -/
def fMaxBits (f : FFmt) : Nat :=
  match f.top with
  | .ieee => (2 ^ f.ebits - 1) * 2 ^ f.mbits - 1
  | .oneNan => 2 ^ (f.ebits + f.mbits) - 2
  | .numbers => 2 ^ (f.ebits + f.mbits) - 1
/-- The canonical NaN of R34. -/
def fNanBits (f : FFmt) : Nat :=
  match f.top with
  | .ieee => if f.ebits = 5 && f.mbits = 2 then 0x7F else (2 ^ f.ebits - 1) * 2 ^ f.mbits + 2 ^ (f.mbits - 1)
  | .oneNan => 2 ^ (f.ebits + f.mbits) - 1
  | .numbers => 0
def fInfBits (f : FFmt) : Nat := (2 ^ f.ebits - 1) * 2 ^ f.mbits

/-- The value of a bit pattern (R31, R33: subnormals at their exact value). -/
def fDecode (f : FFmt) (x : Nat) : FVal :=
  let neg := x.testBit (f.ebits + f.mbits)
  let mag := x % 2 ^ (f.ebits + f.mbits)
  let e := mag >>> f.mbits
  let m := mag % 2 ^ f.mbits
  if f.top = .ieee && e = 2 ^ f.ebits - 1 then (if m = 0 then .inf neg else .nan)
  else if f.top = .oneNan && mag = 2 ^ (f.ebits + f.mbits) - 1 then .nan
  else if e = 0 then .fin neg m (fQmin f)
  else .fin neg (m + 2 ^ f.mbits) (fQmin f + ((e : Int) - 1))

/-- mag × 2^(-k), rounded to an integer, ties to even. -/
def rneShift (mag k : Nat) : Nat :=
  if Nat.log2 mag + 1 < k then 0 else
  let q := mag >>> k
  let r := mag % 2 ^ k
  if 2 * r > 2 ^ k || (2 * r = 2 ^ k && k ≠ 0 && q % 2 = 1) then q + 1 else q

/-- How a magnitude is rounded to an integer number of quanta: to nearest even, or stochastically with the
16 random bits of R58. -/
inductive RndMode where
  | rne
  | sr (rnd : Nat)
deriving DecidableEq, Repr

/-- R58: up when the random bits lie below the fraction of 2^16. -/
def rndShift (m : RndMode) (mag k : Nat) : Nat :=
  match m with
  | .rne => rneShift mag k
  | .sr rnd =>
    if Nat.log2 mag + 17 < k then 0 else
    let q := mag >>> k
    let fr := ((mag % 2 ^ k) * 65536) >>> k
    if rnd < fr then q + 1 else q

/-- The rounded magnitude bits of mag × 2^exp, the exponent range unbounded above (R33, R39, R58). -/
def fRoundMag (f : FFmt) (m : RndMode) (mag : Nat) (exp : Int) : Nat :=
  if mag = 0 then 0 else
  let q : Int := max (exp + (Nat.log2 mag : Int) - f.mbits) (fQmin f)
  let sig := if q ≤ exp then mag <<< (exp - q).toNat else rndShift m mag (q - exp).toNat
  (q - fQmin f).toNat * 2 ^ f.mbits + sig

/-- What a finite value whose rounded result lies beyond the largest finite value becomes (R56, R57). -/
inductive OvfRule where
  | toInf | saturate
deriving DecidableEq, Repr

/-- A value in a format (R33, R34, R56). -/
def fEncode (f : FFmt) (m : RndMode) (o : OvfRule) (v : FVal) : Nat :=
  let s (neg : Bool) : Nat := if neg then 2 ^ (f.ebits + f.mbits) else 0
  match v with
  | .nan => fNanBits f
  | .inf neg => (match f.top with | .ieee => fInfBits f | _ => fMaxBits f) + s neg
  | .fin neg mag exp =>
    let b := fRoundMag f m mag exp
    if b ≤ fMaxBits f then b + s neg
    else (match o, f.top with | .toInf, .ieee => fInfBits f | _, _ => fMaxBits f) + s neg

/-- Round to nearest even in binary32. -/
def rne32 (v : FVal) : Nat := fEncode fFP32 .rne .toInf v
def rne64 (v : FVal) : Nat := fEncode fFP64 .rne .toInf v
def val32 (x : Nat) : FVal := fDecode fFP32 x
def val64 (x : Nat) : FVal := fDecode fFP64 x

def fNeg : FVal → FVal
  | .fin n m e => .fin (!n) m e
  | .inf n => .inf (!n)
  | .nan => .nan
def fAbs : FVal → FVal
  | .fin _ m e => .fin false m e
  | .inf _ => .inf false
  | .nan => .nan
def fIsZero : FVal → Bool
  | .fin _ 0 _ => true
  | _ => false
def fIsNeg : FVal → Bool
  | .fin n _ _ => n
  | .inf n => n
  | .nan => false
/-- neither ∞ nor NaN -/
def fIsFin : FVal → Bool
  | .fin .. => true
  | _ => false

/-- The integer of ±mag. -/
def sInt (neg : Bool) (mag : Nat) : Int := if neg then -(mag : Int) else mag

/-- The exact sum (IEEE 754-2019 specials; an exact zero of opposite signs is +0). -/
def fAdd (a b : FVal) : FVal :=
  match a, b with
  | .nan, _ => .nan
  | _, .nan => .nan
  | .inf x, .inf y => if x = y then .inf x else .nan
  | .inf x, _ => .inf x
  | _, .inf y => .inf y
  | .fin na ma ea, .fin nb mb eb =>
    let e := min ea eb
    let i : Int := sInt na (ma <<< (ea - e).toNat) + sInt nb (mb <<< (eb - e).toNat)
    if i = 0 then .fin (na && nb) 0 e else .fin (decide (i < 0)) i.natAbs e

/-- The exact product; ∞ × 0 is NaN. -/
def fMul (a b : FVal) : FVal :=
  match a, b with
  | .nan, _ => .nan
  | _, .nan => .nan
  | .inf x, .inf y => .inf (x != y)
  | .inf x, .fin n m _ => if m = 0 then .nan else .inf (x != n)
  | .fin n m _, .inf y => if m = 0 then .nan else .inf (n != y)
  | .fin na ma ea, .fin nb mb eb => .fin (na != nb) (ma * mb) (ea + eb)

def fSub (a b : FVal) : FVal := fAdd a (fNeg b)
/-- The exact fused multiply-add. -/
def fFma (a b c : FVal) : FVal := fAdd (fMul a b) c

/-- A quotient carried far enough for one correct rounding: 1,200 more bits than binary64 needs of any
operand, with a sticky bit. -/
def fDiv (a b : FVal) : FVal :=
  match a, b with
  | .nan, _ => .nan
  | _, .nan => .nan
  | .inf _, .inf _ => .nan
  | .inf x, .fin n _ _ => .inf (x != n)
  | .fin n _ _, .inf y => .fin (n != y) 0 0
  | .fin na ma ea, .fin nb mb eb =>
    if mb = 0 then (if ma = 0 then .nan else .inf (na != nb))
    else if ma = 0 then .fin (na != nb) 0 0
    else
      let k := Nat.log2 mb + 70
      let q := (ma <<< k) / mb
      let r := (ma <<< k) % mb
      .fin (na != nb) (2 * q + (if r = 0 then 0 else 1)) (ea - eb - k - 1)

/-- The integer square root, bit by bit. -/
def isqrtFrom : Nat → Nat → Nat → Nat
  | 0, _, r => r
  | i + 1, n, r => let r' := r + 2 ^ i; isqrtFrom i n (if r' * r' ≤ n then r' else r)

/-- A square root carried far enough for one correct rounding, with a sticky bit. -/
def fSqrt (a : FVal) : FVal :=
  match a with
  | .nan => .nan
  | .inf true => .nan
  | .inf false => .inf false
  | .fin n m e =>
    if m = 0 then .fin n 0 0
    else if n then .nan
    else
      let odd := e % 2 ≠ 0
      let m1 := if odd then 2 * m else m
      let e1 := if odd then e - 1 else e
      let x := m1 <<< 128
      let r := isqrtFrom (Nat.log2 x / 2 + 1) x 0
      .fin false (2 * r + (if r * r = x then 0 else 1)) (e1 / 2 - 64 - 1)

/-- Ordering of two values that are not NaN; −0 lies below +0 (R61). -/
def fLess (a b : FVal) : Bool :=
  match a, b with
  | .nan, _ => false
  | _, .nan => false
  | .inf x, .inf y => x && !y
  | .inf x, _ => x
  | _, .inf y => !y
  | .fin na ma ea, .fin nb mb eb =>
    let e := min ea eb
    let i := sInt na (ma <<< (ea - e).toNat)
    let j := sInt nb (mb <<< (eb - e).toNat)
    if i = j then na && !nb else decide (i < j)

/-- Numeric comparison, in which −0 equals +0. -/
def fEqNum (a b : FVal) : Bool :=
  match a, b with
  | .fin .., .fin .. => fIsZero (fAdd a (fNeg b))
  | .inf x, .inf y => x == y
  | _, _ => false
def fLtNum (a b : FVal) : Bool := fLess a b && !fEqNum a b

/-- R61. -/
def fMin (a b : FVal) : FVal :=
  if a = .nan || b = .nan then .nan else if fLess b a then b else a
def fMax (a b : FVal) : FVal :=
  if a = .nan || b = .nan then .nan else if fLess a b then b else a

/-- Multiplication by a power of two, exact. -/
def fScale (v : FVal) (k : Int) : FVal :=
  match v with
  | .fin n m e => .fin n m (e + k)
  | w => w

/-- An integer as a value. -/
def fOfInt (i : Int) : FVal := .fin (decide (i < 0)) i.natAbs 0

/-- floor(log2 |v|) of a finite value that is not zero. -/
def fLog2 : FVal → Int
  | .fin _ m e => (Nat.log2 m : Int) + e
  | _ => 0

/-- Truncation toward zero to an integer, of a finite value. -/
def fTrunc : FVal → Int
  | .fin n m e => sInt n (if 0 ≤ e then m <<< e.toNat else m >>> (-e).toNat)
  | _ => 0
/-- Rounding to nearest even to an integer, of a finite value. -/
def fRint : FVal → Int
  | .fin n m e => sInt n (if 0 ≤ e then m <<< e.toNat else rneShift m (-e).toNat)
  | _ => 0

/-- FP to INT32 (R60): NaN gives 0, beyond the range saturates. -/
def toInt32 (rtz : Bool) (v : FVal) : Nat :=
  match v with
  | .nan => 0
  | .inf true => 2 ^ 31
  | .inf false => 2 ^ 31 - 1
  | w =>
    let i := if rtz then fTrunc w else fRint w
    if i < -(2 ^ 31) then 2 ^ 31 else if i > 2 ^ 31 - 1 then 2 ^ 31 - 1 else (i % 2 ^ 32).toNat

/-- R45: the fixed pairwise tree; the unpaired part moves up unchanged. -/
def pairUp {α : Type} (f : α → α → α) : List α → List α
  | a :: b :: r => f a b :: pairUp f r
  | l => l
def pairTree {α : Type} (f : α → α → α) : Nat → List α → Option α
  | _, [] => none
  | _, [x] => some x
  | 0, x :: _ => some x
  | n + 1, l => pairTree f n (pairUp f l)
/-- The pairwise tree over a whole list. -/
def treeOf {α : Type} (f : α → α → α) (l : List α) (d : α) : α := (pairTree f l.length l).getD d

def add32 (a b : Nat) : Nat := rne32 (fAdd (val32 a) (val32 b))
def mul32 (a b : Nat) : Nat := rne32 (fMul (val32 a) (val32 b))
def sub32 (a b : Nat) : Nat := rne32 (fSub (val32 a) (val32 b))
def fma32 (a b c : Nat) : Nat := rne32 (fFma (val32 a) (val32 b) (val32 c))
def div32 (a b : Nat) : Nat := rne32 (fDiv (val32 a) (val32 b))
def add64 (a b : Nat) : Nat := rne64 (fAdd (val64 a) (val64 b))
def max32 (a b : Nat) : Nat := rne32 (fMax (val32 a) (val32 b))
/-- INT32 addition, wrapping (R47 keeps it from wrapping). -/
def addI32 (a b : Nat) : Nat := (a + b) % 2 ^ 32

/-- R45: the combination of parts, then the initial value last. -/
def combineParts (parts : List Nat) (initial : Option Nat) : Nat :=
  let t := treeOf add32 parts 0
  match initial with
  | none => t
  | some i => add32 i t

/-! ### MX blocks (R32, R38-R41) -/

/-- The E8M0 scale of a block; none is NaN. -/
def e8m0 (e : Nat) : Option Int := if e = 255 then none else some ((e : Int) - 127)

/-- The element's value; an MXINT8 element with integer i is i × 2^−6. -/
def elemVal (f : ElemFmt) (x : Nat) : FVal :=
  match f with
  | .e2m1 => fDecode fE2M1 x
  | .e3m2 => fDecode fE3M2 x
  | .e2m3 => fDecode fE2M3 x
  | .e4m3 => fDecode fE4M3 x
  | .e5m2 => fDecode fE5M2 x
  | .mxint8 => fScale (fOfInt (sext 8 x)) (-6)
  | .bf16 => fDecode fBF16 x
  | .bf16split => fDecode fBF16 x
  | .fp16 => fDecode fFP16 x
  | .fp32 => fDecode fFP32 x
  | .fp64 => fDecode fFP64 x
  | .int32 => fOfInt (sext 32 x)
  | .int8 => fOfInt (sext 8 x)

/-- R38, R40: the block value from products, exact. A NaN, ∞ × 0 or infinities of both signs give NaN by
exact addition. -/
def blockSum (prods : List FVal) : FVal := prods.foldl fAdd (.fin false 0 0)

/-- R39-R41: the block value, scales applied; a zero block contributes +0. -/
def blockValue (sa sb : Nat) (prods : List FVal) : FVal :=
  match e8m0 sa, e8m0 sb with
  | some ea, some eb =>
    let v := fScale (blockSum prods) (ea + eb)
    if fIsZero v then .fin false 0 0 else v
  | _, _ => .nan

/-- R39: s ← RNE32(s + v). -/
def addBlock (s : Nat) (v : FVal) : Nat := rne32 (fAdd (val32 s) v)
/-- R42: s ← RNE32(s + a × w). -/
def addSingle (s : Nat) (a w : FVal) : Nat := rne32 (fFma a w (val32 s))

/-! ### FP32 by three-pass split (R48) -/

def maxBF16 (neg : Bool) : Nat := fMaxBits fBF16 + (if neg then 0x8000 else 0)

/-- R48: (hi, lo) of an FP32 value. -/
def splitBF16 (x : Nat) : Nat × Nat :=
  match val32 x with
  | .nan => (fNanBits fBF16, 0)
  | .inf n => (fInfBits fBF16 + (if n then 0x8000 else 0), 0)
  | v =>
    let hi := fEncode fBF16 .rne .saturate v
    (hi, fEncode fBF16 .rne .toInf (fSub v (fDecode fBF16 hi)))

/-! ### Sliced FP64 (R51-R54) -/

/-- R51: the smallest integer E with |a| < 2^E for every element; 0 for a row of zeros. -/
def rowExp (row : List FVal) : Int :=
  (row.foldl (fun (acc : Option Int) v =>
    if fIsZero v || !fIsFin v then acc
    else match acc with | none => some (fLog2 v + 1) | some e => some (max e (fLog2 v + 1))) none).getD 0

/-- R51: the S digits of a scaled element, most significant first. -/
def sliceDigits : Nat → FVal → List Int
  | 0, _ => []
  | s + 1, rem =>
    let t := fScale rem 6
    let d := fTrunc t
    d :: sliceDigits s (fSub t (fOfInt d))

/-- R52: a row or column with an ∞ or a NaN is marked. -/
def rowNonFinite (row : List FVal) : Bool := row.any (fun v => !fIsFin v)

/-- The (i, j) pairs of one n of R54, i rising. -/
def diagPairs (s n : Nat) : List (Nat × Nat) :=
  ((List.range (s + 1)).filter (fun i => decide (1 ≤ i) && decide (i < n) && decide (n - i ≤ s))).map
    (fun i => (i, n - i))

/-- R54: the recombination of one output element; p c i j is the INT32 slice product. -/
def recombine (s nchunks : Nat) (p : Nat → Nat → Nat → Int) (e : Int) : Nat :=
  let chunk (c : Nat) : Nat :=
    (List.range s).foldl (fun cc k =>
      let n := s + 1 - k
      (diagPairs s n).foldl (fun a ij =>
        rne64 (fAdd (val64 a) (fScale (fOfInt (p c ij.1 ij.2)) (-6 * (n : Int))))) cc) 0
  let c := (List.range nchunks).foldl (fun a k => add64 a (chunk k)) 0
  rne64 (fScale (val64 c) e)

/-! ### CRC-32C (R58) -/

def crcBit (c : Nat) : Nat := if c % 2 = 1 then (c >>> 1) ^^^ 0x82F63B78 else c >>> 1
def crcByte (c b : Nat) : Nat :=
  crcBit (crcBit (crcBit (crcBit (crcBit (crcBit (crcBit (crcBit (c ^^^ b))))))))
/-- CRC-32C over bytes: polynomial 0x1EDC6F41 reflected, initial and final XOR of all ones. -/
def crc32c (bs : List Nat) : Nat := (bs.foldl crcByte 0xFFFFFFFF) ^^^ 0xFFFFFFFF

/-- The n bytes of a number, least significant first. -/
def leBytes : Nat → Nat → List Nat
  | 0, _ => []
  | n + 1, x => x % 256 :: leBytes n (x / 256)

/-- The number of a list of bytes, least significant first. -/
def ofLeBytes : List Nat → Nat
  | [] => 0
  | b :: r => b + 256 * ofLeBytes r

/-- R58: the random bits of an output element. -/
def srBits (seed index : Nat) : Nat := (crc32c (leBytes 4 seed ++ leBytes 4 index)) % 65536

/-! ### Writeback conversion (R56, R57) -/

/-- emax of R57. -/
def mxEmax : ElemFmt → Int
  | .e2m1 => 2 | .e3m2 => 4 | .e2m3 => 2 | .e4m3 => 8 | .e5m2 => 15
  | _ => 0

/-- One element of an MX block after scaling (R57 step 4). -/
def mxElem (f : ElemFmt) (m : RndMode) (v : FVal) : Nat :=
  match f with
  | .e2m1 => fEncode fE2M1 m .saturate v
  | .e3m2 => fEncode fE3M2 m .saturate v
  | .e2m3 => fEncode fE2M3 m .saturate v
  | .e4m3 => fEncode fE4M3 m .saturate v
  | .e5m2 => fEncode fE5M2 m .saturate v
  | _ =>
    match v with
    | .fin n mag e =>
      let i := min 127 (if -6 ≤ e then mag <<< (e + 6).toNat else rndShift m mag (-6 - e).toNat)
      if n then (256 - i) % 256 else i
    | _ => 0

/-- R57: the scale byte and elements of one block; `vs` are its valid elements with their rounding mode. -/
def mxQuant (f : ElemFmt) (vs : List (FVal × RndMode)) : Nat × List Nat :=
  if vs.any (fun v => !fIsFin v.1) then (255, vs.map (fun _ => 0))
  else
    let nz := vs.filter (fun v => !fIsZero v.1)
    match nz with
    | [] => (0x7F, vs.map (fun v => mxElem f .rne v.1))
    | h :: t =>
      let top := t.foldl (fun a v => max a (fLog2 v.1)) (fLog2 h.1)
      let x := max (-127) (min 127 (top - mxEmax f))
      ((x + 127).toNat, vs.map (fun v => mxElem f v.2 (fScale v.1 (-x))))

/-- R56: one element converted to a format without a block scale. -/
def cvtElem (f : ElemFmt) (m : RndMode) (sat : Bool) (v : FVal) : Nat :=
  let o := if sat then OvfRule.saturate else OvfRule.toInf
  match f with
  | .fp32 => rne32 v
  | .bf16 => fEncode fBF16 m o v
  | .fp16 => fEncode fFP16 m o v
  | .fp64 => rne64 v
  | .int32 => toInt32 false v
  | .int8 => ((fRint v) % 256).toNat
  | g => mxElem g m v

end Sys2Proof.Machine
end

