-- ==== Sys2Proof/Machine/Crypto.lean ====
section
/-! DEFINITION. Key derivation, random values and the module's keys and certificates (13 R407-R410, R418, R420, R429, R430).
The primitives are opaque (log 8). -/

namespace Sys2Proof.Machine
open Sys2Proof

/-- The n bytes of a number, most significant first. -/
def beBytes (n x : Nat) : List Nat := (leBytes n x).reverse
def ofBeBytes (l : List Nat) : Nat := ofLeBytes l.reverse
/-- The bytes of an ASCII string. -/
def ascii (s : String) : List Nat := s.toList.map Char.toNat

/-! ### The KDF of NIST SP 800-108r1 in counter mode (R408) -/

/-- Derives `bits` bits: PRF outputs for the counter 1, 2, …, before Label ‖ 0x00 ‖ Context ‖ L. -/
def kdf (key label ctx : List Nat) (bits : Nat) : Nat :=
  let n := (bits + 383) / 384
  let fixed := label ++ [0] ++ ctx ++ beBytes 4 bits
  let all := (List.range n).foldl (fun s i => s * 2 ^ 384 + (Config.hmac384 key (beBytes 4 (i + 1) ++ fixed)).toNat) 0
  all / 2 ^ (384 * n - bits)

/-- The order n of P-384 (NIST SP 800-186). -/
def p384Order : Nat := 2 ^ 384 - 0x389CB27E0BC8D220A7E5F24DB74F58851313E695333AD68D
/-- d = (c mod (n − 1)) + 1 of FIPS 186-5 appendix A.2.1. -/
def p384Key (c : Nat) : BitVec 384 := BitVec.ofNat 384 (c % (p384Order - 1) + 1)

/-! ### CTR_DRBG of NIST SP 800-90A with AES-256 (R408) -/

/-- n blocks of AES-256 in counter mode, after V. -/
def drbgBlocks (g : Drbg) (n : Nat) : Nat :=
  (List.range n).foldl (fun s i => s * 2 ^ 128 + (Config.aes256 g.key (g.v + BitVec.ofNat 128 (i + 1))).toNat) 0
def drbgUpdate (g : Drbg) (x : BitVec 384) : Drbg :=
  let t := BitVec.ofNat 384 (drbgBlocks g 3) ^^^ x
  ⟨BitVec.ofNat 256 (t.toNat / 2 ^ 128), BitVec.ofNat 128 t.toNat⟩
def drbgSeed (x : BitVec 384) : Drbg := drbgUpdate ⟨0, 0⟩ x
/-- Draws n bytes. -/
def drbgDraw (g : Drbg) (n : Nat) : Drbg × Nat :=
  let k := (n + 15) / 16
  (drbgUpdate { g with v := g.v + BitVec.ofNat 128 k } 0, drbgBlocks g k / 2 ^ (8 * (16 * k - n)))

/-- A new release key pair (R409): 448 random bits c. -/
def newKrel (x : Sec) : Sec :=
  let r := drbgDraw x.drbg 56
  { x with drbg := r.1, krel := p384Key r.2 }
/-- What a boot draws: the DRBG is seeded; the boot nonce and KREL are new (R408, R409). -/
def bootSec (x : Sec) : Sec :=
  let r := drbgDraw (drbgSeed (Config.entropy x.seeds)) 48
  newKrel { x with drbg := r.1, bootNonce := BitVec.ofNat 384 r.2, seeds := x.seeds + 1 }

/-! ### The keys of R409 and the certificate chain of R410 -/

/-- The identity key IDK. -/
def idk : BitVec 384 := p384Key (kdf (beBytes 48 Config.identitySeed.toNat) (ascii "K64 IDENTITY") [] 448)
/-- The memory keys KMEM2, of one boot, and KMEM4. -/
def kmem2 (x : Sec) : Nat := kdf (beBytes 32 Config.memoryRoot.toNat) (ascii "K64 MEM T2") (beBytes 48 x.bootNonce.toNat) 512
def kmem4 : Nat := kdf (beBytes 32 Config.memoryRoot.toNat) (ascii "K64 MEM T4") [] 512

/-- The certificate chain in the write-protected area of the boot flash, in the SPDM form (log 8): length, digest of the root,
root CA, intermediate CA, device certificate. -/
def certChain : List Nat :=
  let certs := Config.rootCert ++ Config.midCert ++ Config.deviceCert (Config.p384Pub idk) Config.serial Config.keyGroup
  leBytes 2 (52 + certs.length) ++ [0, 0] ++ beBytes 48 (Config.sha384 Config.rootCert).toNat ++ certs
/-- SPDM certificate slots: the chain is slot 0, slots 1 to 7 are empty. -/
def certSlot (i : Nat) : Option (List Nat) := if i = 0 then some certChain else none
/-- The answer to GET_CERTIFICATE, by the message forms of SPDM 1.3 (log 8): a portion of the chain, or ERROR with ErrorCode
InvalidRequest. -/
def certAnswer (req : List Nat) : List Nat :=
  let ver := (req[0]?).getD 0
  let slot := (req[2]?).getD 0 % 16
  let num (i : Nat) : Nat := ofLeBytes ((req.drop i).take 2)
  match certSlot slot with
  | none => [ver, 0x7F, 0x01, 0]
  | some l =>
    if req.length < 8 || l.length ≤ num 4 then [ver, 0x7F, 0x01, 0]
    else
      let part := (l.drop (num 4)).take (num 6)
      [ver, 0x02, slot, 0] ++ leBytes 2 part.length ++ leBytes 2 (l.length - num 4 - part.length) ++ part

/-! ### Opening what the weight owner sealed (R417, R418, R420) -/

/-- Opens a wrap blob under KREL: the content key and PACKAGE_ID, none where a check fails. -/
def unwrapBlob (krel : BitVec 384) (bs : List Nat) : Option (BitVec 256 × BitVec 128) :=
  let at_ (i n : Nat) : List Nat := (bs.drop i).take n
  let dig := beBytes 48 (Config.sha384 (Config.p384Pub krel)).toNat
  if ofLeBytes (at_ 0 4) ≠ 1 || at_ 100 48 ≠ dig || !Config.p384Valid (at_ 4 96) then none
  else
    let prk := beBytes 48 (Config.hmac384 (List.replicate 48 0) (Config.ecdh krel (at_ 4 96))).toNat
    let kek := kdf prk (ascii "K64 KEY RELEASE") (beBytes 8 Config.serial.toNat ++ dig ++ at_ 148 16) 256
    match Config.gcmOpen (BitVec.ofNat 256 kek) (at_ 164 12) (at_ 0 176) (at_ 176 48) with
    | some k => some (BitVec.ofNat 256 (ofBeBytes k), BitVec.ofNat 128 (ofLeBytes (at_ 148 16)))
    | none => none

/-- Opens chunk c of a package: its IV is NONCE_BASE ‖ c, its additional data the header's 256 bytes. -/
def openChunk (key : BitVec 256) (c : Nat) (hdr ct : List Nat) : Option (List Nat) :=
  Config.gcmOpen key ((hdr.drop 32).take 8 ++ beBytes 4 c) (hdr.take 256) ct

/-! ### Link keys (R429, R430) -/

/-- What an end of a link sends: module serial, port number and nonce. -/
structure LinkEnd where
  serial : Nat
  port : Nat
  nonce : Nat
deriving DecidableEq, Repr
def endBytes (e : LinkEnd) : List Nat := beBytes 8 e.serial ++ [e.port] ++ beBytes 32 e.nonce
/-- End a of a link is this one: the lower serial, or the lower port number of equal serials. -/
def isEndA (own peer : LinkEnd) : Bool :=
  decide (own.serial < peer.serial) || (own.serial == peer.serial && decide (own.port < peer.port))
/-- The 832 bits of a link. -/
def linkBits (own peer : LinkEnd) : Nat :=
  let ctx := if isEndA own peer then endBytes own ++ endBytes peer else endBytes peer ++ endBytes own
  kdf (beBytes 32 Config.fabricKey.toNat) (ascii "TORUF LINK") ctx 832
/-- This end's keys and salts: sending, receiving. -/
def linkKeys (own peer : LinkEnd) : (BitVec 256 × BitVec 32) × (BitVec 256 × BitVec 32) :=
  let x := linkBits own peer
  let ab := (BitVec.ofNat 256 (x / 2 ^ 576), BitVec.ofNat 32 (x / 2 ^ 288))
  let ba := (BitVec.ofNat 256 (x / 2 ^ 320), BitVec.ofNat 32 (x / 2 ^ 256))
  if isEndA own peer then (ab, ba) else (ba, ab)
/-- The confirmation value that an end sends: the first 16 B of the HMAC under the confirm key. -/
def confirmTag (own peer sender : LinkEnd) : BitVec 128 :=
  BitVec.ofNat 128 ((Config.hmac384 (beBytes 32 (linkBits own peer % 2 ^ 256))
    (ascii "CONFIRM" ++ beBytes 8 sender.serial ++ [sender.port])).toNat / 2 ^ 256)
/-- A direction's next key and salt at a rekey. -/
def rekeyed (key : BitVec 256) (count : Nat) : BitVec 256 × BitVec 32 :=
  let x := kdf (beBytes 32 key.toNat) (ascii "TORUF REKEY") (beBytes 4 count) 288
  (BitVec.ofNat 256 (x / 2 ^ 32), BitVec.ofNat 32 x)

end Sys2Proof.Machine
end

