-- ==== Sys2Proof/Machine/TypesCore.lean ====
section
/-! DEFINITION. Data of the cores, of memory and of the queue managers: what State holds of chapters 01 to 08
and 10. Plain data only. -/

namespace Sys2Proof.Machine
open Sys2Proof

/-! ### The segment program image (04 R101-R104) -/

/-- One dimension entry (R103): planned extent, source of the run-time extent, role, tile size. -/
structure DimEnt where
  p : Nat
  extSrc : Nat
  role : Nat
  t : Nat
deriving DecidableEq, Repr

/-- One loop descriptor (R103). -/
structure LoopD where
  level : Nat
  dim : Nat
  padTime : Bool
  ptrlist : Bool
  start : Nat
  count : Nat
  padCyc : Nat
  strides : List Int
deriving DecidableEq, Repr

/-- One action descriptor: its eight words, w0 first (R104). -/
structure ActionD where
  w : List Nat
deriving DecidableEq, Repr

/-- A decoded segment program image (R101-R104). `itemM` is A_M of a FOLDED program that has started (R117). -/
structure Image where
  orbit : Bool
  batchMode : Nat
  srSeed : Nat
  slices : Nat
  batchBase : Nat
  aStride : Nat
  aPitch : Nat
  cStride : Nat
  cPitch : Nat
  itemM : Nat
  dims : List DimEnt
  loops : List LoopD
  actions : List ActionD
deriving DecidableEq, Repr

/-- A pointer-list entry (R115). -/
structure PtrEnt where
  a : Nat
  b : Nat
  c : Nat
  extM : Nat
  extN : Nat
  extK : Nat
deriving DecidableEq, Repr

/-- One item of the walk of R107: an action to issue, with idx of every level and valid of every dimension as the
pseudocode holds them then, the run-time extents in force (R116) and the pointer-list entry; or an iteration skipped. -/
inductive Item where
  | act (ai : Nat) (idx : List Nat) (valid : List Nat) (ext : List Nat) (ptr : Option PtrEnt)
  | skip (pad : Nat)
deriving DecidableEq, Repr

/-- What runs on an engine of the core (R66, R108). -/
inductive EngKind where
  | pass | writeback | vector | copy | quill
deriving DecidableEq, Repr

/-- An action that has issued and has not completed. `blocks` are the accumulator blocks it writes or reads
(16 blocks of 32 × 32 per bank, numbered bank × 16 + block), with their modes when it issued (R526), and `region` the
partition and sub-array it reads (R529); `item` is its place in the walk. `pos` of the `len` cycles of its work are done,
`held` are rows or elements read that a later cycle of it needs, `sealedIn` says that a source is sealed; `flying` says
that flits of a copy or the report of its last write are still on their way. `ev` is the upset it is to meet. -/
structure RunAct where
  id : Nat
  kind : EngKind
  blocks : List Nat
  item : Item
  doneSem : Option Nat
  bestEffort : Bool
  started : Bool
  since : Nat
  doneAt : Nat
  endAt : Nat
  region : Nat × Nat
  modes : SMap Nat
  pos : Nat
  len : Nat
  held : List (List Nat)
  sealedIn : Bool
  flying : Bool
  vreg : Nat
  ev : Upset
deriving DecidableEq, Repr

/-- The program context of one job on one core (04 R102-R126). `slipFrom` is the cycle from which a wait that is a slip
has still to be counted (R127, R130), `swapFrom` the one from which a comet action waits for a swap-in (06 R194). -/
structure Ctx where
  uid : Nat
  image : Image
  exts : List Nat
  todo : List Item
  readyAt : Nat
  curAct : Nat
  curIdx : List Nat
  waitFrom : Option Nat
  heldFrom : Option Nat
  nextId : Nat
  running : List RunAct
  argmax : SMap (Nat × Nat)
  lastRegion : SMap (List Nat)
  fenceBE : Bool
  stepOk : Bool
  gateFrom : Option Nat
  slipFrom : Nat
  swapFrom : Option Nat
deriving DecidableEq, Repr

/-! ### The matrix array (03) -/

/-- One row of weight registers: 128 words of 16 bits and, in a block-tail row, 128 scale bytes (R72, R74). -/
structure PRow where
  w : List Nat
  sc : List Nat
deriving DecidableEq, Repr

/-- A pass that has issued: its owner, its action, and its slot on a partitioned array (R87-R95, R528). -/
structure PassRun where
  job : Nat
  uid : Nat
  actId : Nat
  item : Item
  act : ActionD
  issuedAt : Nat
  slot : Nat
  ev : Upset
deriving DecidableEq, Repr

/-- A pass on its way through the array (R78-R80): its first cycle, the next cycle of it to be worked, the weights that
are active for it, and what has been read of it: by vector, the activation words that have entered, the block scales with
them, and the initial sums. -/
structure PassFly where
  run : PassRun
  c0 : Nat
  next : Nat
  wts : SMap PRow
  words : SMap (List Nat)
  scales : SMap (List Nat)
  inits : SMap (List Nat)
deriving DecidableEq, Repr

/-- The array's registers and the progress of its loads and passes. Rows that are not listed hold zeros; `full`
lists the full shadow registers as row × 4 + strip of 32 columns; `loading` says that a token has entered before the
fill behind it has written every row (R86, R87); `flight` are the passes whose sums are not all written; `dead` are the
sub-arrays of killed commands, which the next wash clears (R99). -/
structure Arr where
  active : SMap PRow
  shadow : SMap PRow
  full : NSet
  fillPtr : Nat
  fillFrom : Nat
  waiting : List PassRun
  current : List PassRun
  lastWord : Nat
  drainedAt : Nat
  lastNorth : Bool
  part : Nat
  slotNo : Nat
  slotStart : Nat
  loading : Bool
  fresh : Bool
  flight : List PassFly
  dead : NSet
deriving DecidableEq, Repr

/-- What one core holds beside its scratchpad and its registers (03 R66, 04 R118). `bankSpans` are the waits for a bank
that are counted already, as half-open ranges of cycles (R71); `semUndef` are ranges of semaphores whose counts are undefined since
a command ended (R123): first, count, and the free value they take. -/
structure CoreSt where
  ctxs : SMap Ctx
  arr : Arr
  acc : SMap Nat
  accMode : SMap Nat
  wrote : SMap Nat
  readOut : SMap Nat
  sems : SMap Nat
  semUndef : List (Nat × Nat × Nat)
  vregs : SMap (BitVec 8192)
  vsealed : NSet
  slipWin : Nat
  slipBase : Nat
  nocBase : Nat
  bankSpans : List (Nat × Nat)
deriving DecidableEq, Repr

/-- A semaphore signal on its way (R120, R122): destination, value, tag, the first ARITH cycle in which it is visible,
and the action that sent it, none for a signal of another device. -/
structure Sig where
  core : Nat
  sem : Nat
  value : Nat
  tag : Nat
  visibleAt : Nat
  act : Option Nat
deriving DecidableEq, Repr

/-! ### Memory (08) -/

/-- One copy of an object in one tier (R242). `newBy` is the command that created it, until that commits. -/
structure CopySt where
  present : Bool
  freePend : Bool
  payer : Nat
  holds : Nat
  claims : BitVec 256
  newBy : Nat
deriving DecidableEq, Repr

/-- An object table entry that is VALID (R242); an OID that is not listed is free. -/
structure Obj where
  size : Nat
  shared : Bool
  ro : Bool
  mirror : Bool
  t1die : Nat
  creator : Nat
  shareTag : Nat
  c1 : CopySt
  c2 : CopySt
  c4 : CopySt
  newBy : Nat
deriving DecidableEq, Repr

/-! ### Pages, slots, sessions (05, 06, 10) -/

/-- A page state table entry (05 R136). -/
structure Pst where
  pins : Nat
  refcnt : Nat
  pool : Nat
  res : Nat
  closed : Bool
  top : Nat
  gen : Nat
  poison : Bool
  job : Nat
deriving DecidableEq, Repr

/-- A page-list entry (R137). -/
structure PEnt where
  fill : Nat
  gen : Nat
  pid : Nat
deriving DecidableEq, Repr

/-- One page list of a session, with its version (R137, R161). -/
structure PList where
  ents : List PEnt
  version : Nat
deriving DecidableEq, Repr

/-- The residency states of a state slot (06 R192). -/
inductive SlotState where
  | free | resident | swappingOut | swapped | swappingIn
deriving DecidableEq, Repr

/-- A slot table entry (R192) and the opposite swap queued behind a transfer (R195). -/
structure Slot where
  pins : Nat
  refcnt : Nat
  state : SlotState
  sel : Bool
  zero : Bool
  poison : Bool
  swapPend : Bool
  job : Nat
  gen : Nat
  arenaIdx : Nat
  layer : Nat
  version : Nat
  queuedOpp : Bool
deriving DecidableEq, Repr

/-- A session (10 R304): its job, page lists by layer × 256 + group, tail references by comet layer (SID, GEN),
and seal key slot: whether it has one, and its number (13 R432). -/
structure Sess where
  job : Option Nat
  lists : SMap PList
  tails : SMap (Nat × Nat)
  keyValid : Bool
  keySlot : Nat
deriving DecidableEq, Repr

/-! ### Jobs (10) -/

/-- One CORE_ENT of a placement record (R301). -/
structure CoreEnt where
  core : Nat
  banks : Nat
  part : Nat
  subarr : Nat
  semFirst : Nat
  semCount : Nat
deriving DecidableEq, Repr

/-- A placement record (R301): core entries by rising core, quill cores by die, reservation masks by
die × 4 + link (N, E, S, W). -/
structure Placement where
  cores : List CoreEnt
  quill : SMap Nat
  rsv : SMap Nat
deriving DecidableEq, Repr

/-- A submission queue: its fetch position, its recorded tail, and whether SQ_ERR has stopped it (R306, R307). -/
structure SQ where
  fetch : Nat
  tail : Nat
  stopped : Bool
deriving DecidableEq, Repr

/-- The progress of one prefetch list entry (08 R253-R255); a transfer names its engine and
the source copy it holds; a transfer with T3 that failed is broken. -/
inductive PfState where
  | eligible
  | transfer (eng : Nat) (src : Option (Nat × Nat))
  | broken (eng : Nat) (src : Option (Nat × Nat))
  | finished
deriving DecidableEq, Repr

/-- A comet layer declaration (06 R191): the three CFG words. -/
structure CometDecl where
  cfg0 : Nat
  cfg1 : Nat
  cfg2 : Nat
deriving DecidableEq, Repr

/-- A granule of a save area: where it came from and the storage granule that holds it (10 R328-R330). -/
structure SaveGran where
  key : Nat
  sid : Nat
deriving DecidableEq, Repr

structure SaveArea where
  grans : List SaveGran
  t1oids : List Nat
deriving DecidableEq, Repr

/-- One job (10 R299-R306; 08 R251-R254; 12 R400-R402). `cqHead`, `cqNext` and `cqWr` count entries consumed, slots reserved
and entries written in the present completion ring; `cqWait` says that an adopted job's ring is not yet named (12 R402); `awaits` says that the job becomes resident once its dies are awake (15 R470). -/
structure Job where
  state : Nat
  port : Nat
  resident : Bool
  awaits : Bool
  lost : Bool
  err : Nat
  sqErr : Bool
  declRej : Bool
  orphan : Bool
  place : Placement
  quota1 : Nat
  quota2 : Nat
  quota3 : Nat
  quota4 : Nat
  sq0 : SQ
  sq1 : SQ
  sq2 : SQ
  cqHead : Nat
  cqNext : Nat
  cqWr : Nat
  cqWait : Bool
  seq : Nat
  sliceStart : Nat
  pfStep : Nat
  pf : SMap PfState
  sessResult : Nat
  comets : SMap CometDecl
  save : Option SaveArea
  destroyAt : Option Nat
deriving DecidableEq, Repr

/-! ### Commands (10) -/

/-- Where a command in flight stands (R307, R308, R312, R317). -/
inductive Phase where
  | waiting      -- fetched, not started
  | running      -- started
  | worked       -- its work is done and it has requested the commit token
  | ended        -- ended, its completion entry not yet written
deriving DecidableEq, Repr

/-- A tail update of a command (06 R198): session, layer, slot written, half written, whether the slot is new,
the version pinned, and the updating core. -/
structure TailUpd where
  sess : Nat
  layer : Nat
  sid : Nat
  half : Bool
  isNew : Bool
  version : Nat
  core : Nat
deriving DecidableEq, Repr

/-- The command's own view of one page list (05 R143, R156): its entries, the version in its snapshot, whether
the command appended, and by which core. -/
structure SnapList where
  ents : List PEnt
  version : Nat
  appended : Bool
  core : Nat
deriving DecidableEq, Repr

/-- A command in flight. `slot` is its completion-ring slot (R307), `reqAt` the ARITH cycle of its commit request. -/
structure Cmd where
  job : Nat
  queue : Nat
  ringIdx : Nat
  desc : BitVec 512
  fetchedAt : Nat
  phase : Phase
  status : Nat
  detail : Nat
  retry : Bool
  committed : Bool
  cores : List Nat
  coresLeft : List Nat
  images : List Nat
  sess : List Nat
  objs : List (Nat × Nat)
  pinP : List Nat
  pinS : List (Nat × Nat)
  held : List (Nat × Nat)
  snap : SMap SnapList
  gens : SMap Nat
  newCopies : List (Nat × Nat)
  newPages : List Nat
  newSlots : List (Nat × Nat × Nat)
  upds : List TailUpd
  t4left : Nat
  swaps : List Nat
  fenceUids : List Nat
  flushLeft : List Nat
  affected : Bool
  orbit : Bool
  tag : Nat
  slot : Nat
  reqAt : Nat
  doneAt : Nat
deriving DecidableEq, Repr

/-- A device address, decoded. `obj` is a T1, T2 or T4 address. -/
inductive DevAddr where
  | t0 (core off : Nat)
  | obj (tier oid off : Nat)
  | t3 (handle off : Nat)
  | bad
deriving DecidableEq, Repr

/-- A PREEMPT in progress (R324-R326). -/
structure Pre where
  uid : Nat
  victim : Nat
  incoming : Nat
  kill : Bool
  endedAt : Option Nat
  live : List (DevAddr × Nat)
deriving DecidableEq, Repr

end Sys2Proof.Machine
end

