-- ==== Sys2Proof/Machine/Operands.lean ====
section
/-! DEFINITION. Operand forms: the floorplan, device addresses, tile formats, command descriptors, placement
records, segment program images and the walk of their loops (01 R11-R21, 04 R101-R117, 08 R231-R236,
10 R301, R309, R310). -/

namespace Sys2Proof.Machine
open Sys2Proof

/-! ### Numbers of the package (01) -/

def nCores : Nat := 288
def granBytes : Nat := 4096
/-- Bytes of a scratchpad (R66). -/
def scratchBytes : Nat := 48 * 1024 * 1024
/-- Granules of a scratchpad. -/
def scratchGrans : Nat := 12288

/-- R12: the compute die of a core. -/
def coreDie (n : Nat) : Nat := n / 6

/-- R15: the floorplan, row by row, as die IDs. -/
def floorRows : List (List Nat) :=
  [[56, 0, 1, 60, 61, 2, 3, 57], [4, 5, 48, 6, 7, 49, 8, 9], [10, 11, 12, 13, 14, 15, 16, 17],
   [18, 19, 50, 20, 21, 51, 22, 23], [24, 25, 52, 26, 27, 53, 28, 29], [30, 31, 32, 33, 34, 35, 36, 37],
   [38, 39, 54, 40, 41, 55, 42, 43], [58, 44, 45, 62, 63, 46, 47, 59]]

/-- The grid position (row, column) of a die (R15). -/
def gridPos (die : Nat) : Nat × Nat :=
  let i := floorRows.flatten.idxOf die
  (i / 8, i % 8)

/-- The die at a grid position. -/
def dieAt (row col : Nat) : Nat := (floorRows.flatten[row * 8 + col]?).getD 0

def absDiff (a b : Nat) : Nat := (a - b) + (b - a)

/-- R17: the length of the path between two dies. -/
def hops (a b : Nat) : Nat :=
  let p := gridPos a
  let q := gridPos b
  absDiff p.1 q.1 + absDiff p.2 q.2

/-- R20: the NOC cycles of a scheduled flit that meets no other. -/
def flitTime (a b : Nat) : Nat := 3 + 2 * hops a b

/-- The output link of a router toward N, E, S, W, as die × 4 + direction. -/
def linkNo (die dir : Nat) : Nat := die * 4 + dir

/-- R17: the links of a path, along the row first and then along the column. -/
def pathLinksFrom : Nat → Nat → Nat → Nat → Nat → List Nat
  | 0, _, _, _, _ => []
  | k + 1, r, c, r', c' =>
    if c < c' then linkNo (dieAt r c) 1 :: pathLinksFrom k r (c + 1) r' c'
    else if c' < c then linkNo (dieAt r c) 3 :: pathLinksFrom k r (c - 1) r' c'
    else if r < r' then linkNo (dieAt r c) 2 :: pathLinksFrom k (r + 1) c r' c'
    else if r' < r then linkNo (dieAt r c) 0 :: pathLinksFrom k (r - 1) c r' c'
    else []
def pathLinks (a b : Nat) : List Nat :=
  let p := gridPos a
  let q := gridPos b
  pathLinksFrom (hops a b) p.1 p.2 q.1 q.2

/-! ### Device addresses (08 R231) -/

/-- R231; a reserved TIER, a CORE above 287 or a reserved bit set makes it invalid. -/
def decodeAddr (a : Nat) : DevAddr :=
  let tier := bitsOf a 63 60
  if tier = 0 then
    if bitsOf a 59 57 ≠ 0 || bitsOf a 47 40 ≠ 0 || bitsOf a 39 26 ≠ 0 || bitsOf a 56 48 ≥ 288 then .bad
    else .t0 (bitsOf a 56 48) (bitsOf a 25 0)
  else if tier = 3 then .t3 (bitsOf a 59 48) (bitsOf a 47 0)
  else if tier = 1 || tier = 2 || tier = 4 then .obj tier (bitsOf a 59 40) (bitsOf a 39 0)
  else .bad

/-- The tier of a device address, 15 when it is invalid. -/
def addrTier : DevAddr → Nat
  | .t0 .. => 0
  | .obj t _ _ => t
  | .t3 .. => 3
  | .bad => 15

/-- The OFFSET field of a device address. -/
def addrOff : DevAddr → Nat
  | .t0 _ o => o
  | .obj _ _ o => o
  | .t3 _ o => o
  | .bad => 0

/-- Moves an address by a signed number of bytes; an OFFSET outside its field makes it invalid (R105). -/
def addrAdd (a : DevAddr) (i : Int) : DevAddr :=
  match a with
  | .t0 c o => if (o : Int) + i < 0 || (o : Int) + i ≥ scratchBytes then .bad else .t0 c ((o : Int) + i).toNat
  | .obj t d o => if (o : Int) + i < 0 || (o : Int) + i ≥ 2 ^ 40 then .bad else .obj t d ((o : Int) + i).toNat
  | .t3 h o => if (o : Int) + i < 0 || (o : Int) + i ≥ 2 ^ 48 then .bad else .t3 h ((o : Int) + i).toNat
  | .bad => .bad

/-- The 64 bits of a device address. -/
def encodeAddr : DevAddr → Nat
  | .t0 c o => c * 2 ^ 48 + o
  | .obj t d o => t * 2 ^ 60 + d * 2 ^ 40 + o
  | .t3 h o => 3 * 2 ^ 60 + h * 2 ^ 48 + o
  | .bad => 0

/-! ### Tile formats (08 R233) -/

/-- Granules of a stored tile by TILE_FMT; none for a reserved code. -/
def tileGrans : Nat → Option Nat
  | 0 => some 1 | 1 => some 3 | 2 => some 4 | 3 => some 5 | 4 => some 4 | 5 => some 8 | 6 => some 16
  | 7 => some 32 | _ => none
/-- Bytes of the data part by TILE_FMT. -/
def tileData : Nat → Nat
  | 0 => 4096 | 1 => 8192 | 2 => 12288 | 3 => 16384 | 4 => 16384 | 5 => 32768 | 6 => 65536 | 7 => 131072
  | _ => 0

/-- The format of a code of A_FMT, W_FMT and CVT_FMT (04). -/
def fmtOf : Nat → Option ElemFmt
  | 0 => some .e2m1 | 1 => some .e3m2 | 2 => some .e2m3 | 3 => some .e4m3 | 4 => some .e5m2
  | 5 => some .mxint8 | 6 => some .bf16 | 7 => some .fp16 | 8 => some .fp32 | 9 => some .int32
  | 10 => some .bf16split | _ => none

/-- The operand groups of R36. -/
inductive Group where
  | quad | pair | single
deriving DecidableEq, Repr

def groupOf : ElemFmt → Option Group
  | .e2m1 => some .quad
  | .e3m2 | .e2m3 | .e4m3 | .e5m2 | .mxint8 => some .pair
  | .bf16 | .fp16 => some .single
  | _ => none

/-- Elements per weight register (R36). -/
def groupElems : Group → Nat
  | .quad => 4 | .pair => 2 | .single => 1
/-- Kp: the K covered by one full pass (R36, R530). -/
def groupK (g : Group) : Nat := 128 * groupElems g
/-- Bits of one element (R31). -/
def elemBits : ElemFmt → Nat
  | .e2m1 => 4 | .e3m2 => 6 | .e2m3 => 6 | .e4m3 => 8 | .e5m2 => 8 | .mxint8 => 8 | .int8 => 8
  | .bf16 => 16 | .bf16split => 16 | .fp16 => 16 | .fp32 => 32 | .int32 => 32 | .fp64 => 64
def isMX : ElemFmt → Bool
  | .e2m1 | .e3m2 | .e2m3 | .e4m3 | .e5m2 | .mxint8 => true
  | _ => false
/-- The stored tile format of an operand (R527). -/
def tileFmtOf (f : ElemFmt) : Nat :=
  match f with
  | .e2m1 => 1 | .e3m2 => 2 | .e2m3 => 2 | .e4m3 => 3 | .e5m2 => 3 | .mxint8 => 3 | .int8 => 4
  | .bf16 => 5 | .bf16split => 5 | .fp16 => 5 | .fp32 => 6 | .int32 => 6 | .fp64 => 7

/-! ### Command descriptors (10 R309) -/

/-- Bits hi..lo of byte b on of a descriptor. -/
def dBits (d : BitVec 512) (b hi lo : Nat) : Nat := bitsOf (d.toNat >>> (8 * b)) hi lo
/-- A field of n bytes at byte b. -/
def dBytes (d : BitVec 512) (b n : Nat) : Nat := (d.toNat >>> (8 * b)) % 2 ^ (8 * n)

def dOpcode (d : BitVec 512) : Nat := dBits d 0 7 0
def dRTC (d : BitVec 512) : Bool := (dBits d 0 8 8) == 1
def dIRQ (d : BitVec 512) : Bool := (dBits d 0 9 9) == 1
def dUserTag (d : BitVec 512) : Nat := dBits d 0 31 16
/-- Bytes lo..hi−1 of a descriptor are zero. -/
def dZero (d : BitVec 512) (lo hi : Nat) : Bool := dBytes d lo (hi - lo) == 0

/-- R309: the opcode is known, no reserved bit is set, no field is out of range. -/
def descOk (d : BitVec 512) : Bool :=
  dBits d 0 15 10 == 0 && dZero d 4 8 &&
  match dOpcode d with
  | 0x01 => dZero d 52 64
  | 0x02 =>
    dBits d 8 3 0 < 9 && dBits d 8 19 19 == 0 && dBits d 8 31 23 == 0 && dBits d 12 31 20 == 0 && dZero d 38 64
    && (let op := dBits d 8 3 0
        (if 5 ≤ op then decide (1 ≤ dBytes d 32 4) && decide (dBytes d 32 4 ≤ 1024) else true))
  | 0x03 => dZero d 12 64 && dBytes d 8 2 < 16384 && dBytes d 10 2 < 16384
  | 0x04 => dBytes d 8 2 < 16384 && dBits d 10 15 2 == 0 && dZero d 22 24 && dZero d 28 64
  | 0x05 => dBits d 8 1 0 == 0 && dBits d 16 1 0 == 0 && dBits d 24 1 0 == 0 && dZero d 28 64
  | 0x06 => dBits d 8 7 3 == 0 && dZero d 9 64
  | 0x07 => dBits d 9 7 4 == 0 && dZero d 10 12 && dZero d 28 64
  | 0x08 => dBits d 10 7 2 == 0 && dZero d 11 64
  | 0x09 => dBits d 28 7 4 == 0 && dZero d 29 64
  | _ => false

/-! ### Launch block and placement record (10 R301, R310) -/

/-- n bytes at offset b of a byte string, least significant first; bytes beyond the end read as zero. -/
def sBytes (s : List Nat) (b n : Nat) : Nat := ofLeBytes ((s.drop b).take n)

/-- The numbers of the set bits of a mask, rising. -/
def setBits (n m : Nat) : List Nat := (List.range n).filter (fun i => m.testBit i)

/-- The launch block of a RUN_SEGMENT: cores, sessions, objects (tier, OID) and image addresses. -/
structure Launch where
  cores : List Nat
  coreRsv : Bool
  nSess : Nat
  nObj : Nat
  sess : List Nat
  objs : List (Nat × Nat)
  objRsv : Bool
  images : List Nat
deriving DecidableEq, Repr

def decodeLaunch (s : List Nat) : Launch :=
  let cores := setBits 288 (sBytes s 0 48)
  let nS := sBytes s 48 2
  let nO := sBytes s 50 2
  let ob (i : Nat) := sBytes s (320 + 8 * i) 8
  { cores := cores
    coreRsv := (sBytes s 0 48) >>> 288 != 0 || sBytes s 52 12 != 0
    nSess := nS
    nObj := nO
    sess := (List.range (min nS 128)).map (fun i => sBytes s (64 + 2 * i) 2)
    objs := (List.range (min nO 64)).map (fun i => (bitsOf (ob i) 27 24, bitsOf (ob i) 19 0))
    objRsv := (List.range (min nO 64)).any (fun i => bitsOf (ob i) 23 20 != 0 || bitsOf (ob i) 63 28 != 0)
    images := (List.range cores.length).map (fun i => sBytes s (832 + 8 * i) 8) }

/-- Bytes of the largest placement record: 608 and 16 per core (R301). -/
def placeBytes : Nat := 5216

/-- Sub-arrays of a partition (03 R92). -/
def partSubs : Nat → Nat
  | 0 => 1 | 1 => 2 | 2 => 4 | _ => 16

/-- R301: the placement record, or none where activation fails on a field. -/
def decodePlacement (s : List Nat) : Option Placement :=
  let cores := setBits 288 (sBytes s 0 48)
  let ent (i n : Nat) : CoreEnt :=
    { core := n, banks := sBytes s (608 + 16 * i) 4, part := bitsOf (sBytes s (612 + 16 * i) 4) 17 16,
      subarr := bitsOf (sBytes s (612 + 16 * i) 4) 15 0,
      semFirst := bitsOf (sBytes s (616 + 16 * i) 4) 7 0, semCount := bitsOf (sBytes s (616 + 16 * i) 4) 24 16 }
  let rsvBad (i : Nat) : Bool :=
    bitsOf (sBytes s (612 + 16 * i) 4) 31 18 != 0 || bitsOf (sBytes s (616 + 16 * i) 4) 31 25 != 0 ||
    bitsOf (sBytes s (616 + 16 * i) 4) 15 8 != 0 || sBytes s (620 + 16 * i) 4 != 0
  let ents := cores.zipIdx.map (fun p => ent p.2 p.1)
  let quillBad := (List.range 48).any (fun d =>
    let q := sBytes s (48 + d) 1
    bitsOf q 6 3 != 0 || (q.testBit 7 && bitsOf q 2 0 > 5))
  let bad := (sBytes s 0 48) >>> 288 != 0 || quillBad
    || cores.zipIdx.any (fun p => rsvBad p.2)
    || ents.any (fun e => (e.part != 0 && e.subarr == 0) || e.subarr >>> partSubs e.part != 0
        || e.semFirst + e.semCount > 256)
  if bad then none else
  some { cores := ents
         quill := (List.range 48).filterMap (fun d =>
           let q := sBytes s (48 + d) 1
           if q.testBit 7 then some (d, bitsOf q 2 0) else none)
         rsv := (List.range 256).filterMap (fun i =>
           let m := sBytes s (96 + 2 * i) 2
           if m = 0 then none else some (i, m)) }

/-- R302: an entry with P1 and an empty SUBARR holds sub-array 0. -/
def entSubs (e : CoreEnt) : Nat := if e.part = 0 && e.subarr = 0 then 1 else e.subarr

def rangesMeet (a n b m : Nat) : Bool := decide (a < b + m) && decide (b < a + n)

/-- R302: two placements conflict on a core. -/
def entConflict (a b : CoreEnt) : Bool :=
  (entSubs a &&& entSubs b) != 0 || (a.banks &&& b.banks) != 0 || a.part != b.part
    || (a.semCount != 0 && b.semCount != 0 && rangesMeet a.semFirst a.semCount b.semFirst b.semCount)

def placeEnt (p : Placement) (core : Nat) : Option CoreEnt := p.cores.find? (fun e => e.core == core)

/-- The cores on which two placements conflict. -/
def conflictCores (p q : Placement) : List Nat :=
  (p.cores.filter (fun a => (q.cores.any (fun b => a.core == b.core && entConflict a b)))).map (·.core)

/-! ### Segment program images (04 R101-R106) -/

def hdrWord (s : List Nat) (i : Nat) : Nat := sBytes s (4 * i) 4

/-- The length of the image that a header announces (R101). -/
def imageLen (hdr : List Nat) : Nat :=
  64 + 16 * bitsOf (hdrWord hdr 0) 19 16 + 32 * bitsOf (hdrWord hdr 0) 11 8 + 32 * bitsOf (hdrWord hdr 1) 12 0

/-- Reads an image; the reserved bits and ranges of header, dimension entries and loop descriptors are checked
(R103, R106). -/
def decodeImage (s : List Nat) : Option Image :=
  let w := hdrWord s
  let nd := bitsOf (w 0) 19 16
  let nl := bitsOf (w 0) 11 8
  let na := bitsOf (w 1) 12 0
  let d0 := 64
  let l0 := d0 + 16 * nd
  let a0 := l0 + 32 * nl
  let dim (i : Nat) : DimEnt :=
    { p := sBytes s (d0 + 16 * i) 4, extSrc := bitsOf (sBytes s (d0 + 16 * i + 4) 4) 31 24,
      role := bitsOf (sBytes s (d0 + 16 * i + 4) 4) 18 16, t := bitsOf (sBytes s (d0 + 16 * i + 4) 4) 15 0 }
  let dimBad (i : Nat) : Bool :=
    bitsOf (sBytes s (d0 + 16 * i + 4) 4) 23 19 != 0 || sBytes s (d0 + 16 * i + 8) 8 != 0
    || (dim i).p == 0 || (dim i).p ≥ 2 ^ 31 || (dim i).t == 0 || (dim i).role == 7
    || ((dim i).extSrc ≥ 8 && (dim i).extSrc != 255)
  let lw (i k : Nat) := sBytes s (l0 + 32 * i + 4 * k) 4
  let loop (i : Nat) : LoopD :=
    { level := bitsOf (lw i 0) 23 21, dim := bitsOf (lw i 0) 18 16, padTime := (lw i 0).testBit 1,
      ptrlist := (lw i 0).testBit 0, start := lw i 1, count := lw i 2, padCyc := lw i 3,
      strides := [sext 32 (lw i 4), sext 32 (lw i 5), sext 32 (lw i 6), sext 32 (lw i 7)] }
  let loopBad (i : Nat) : Bool :=
    bitsOf (lw i 0) 31 24 != 0 || bitsOf (lw i 0) 20 19 != 0 || bitsOf (lw i 0) 15 2 != 0
    || (loop i).level != i || (loop i).dim ≥ nd
  let hdrBad := bitsOf (w 0) 31 24 != 1 || bitsOf (w 0) 23 20 != 0 || bitsOf (w 0) 15 12 != 0
    || bitsOf (w 0) 7 0 != 0 || bitsOf (w 1) 31 13 != 0 || bitsOf (w 2) 31 4 != 0 || bitsOf (w 2) 2 2 != 0
    || bitsOf (w 2) 1 0 == 3 || bitsOf (w 4) 31 4 != 0 || !(bitsOf (w 4) 3 0 == 0 ||
      (4 ≤ bitsOf (w 4) 3 0 && bitsOf (w 4) 3 0 ≤ 9)) || sBytes s 44 20 != 0
    || nd == 0 || nd > 8 || nl == 0 || nl > 6 || na == 0 || na > 4096
  if hdrBad || (List.range nd).any dimBad || (List.range nl).any loopBad
    || !((List.range nl).map (fun i => (loop i).dim)).Nodup then none else
  some { orbit := (w 2).testBit 3, batchMode := bitsOf (w 2) 1 0, srSeed := w 3, slices := bitsOf (w 4) 3 0,
         batchBase := w 5 + 2 ^ 32 * w 6, aStride := w 7, aPitch := w 8, cStride := w 9, cPitch := w 10, itemM := 1,
         dims := (List.range nd).map dim, loops := (List.range nl).map loop,
         actions := (List.range na).map (fun i =>
           ⟨(List.range 8).map (fun k => sBytes s (a0 + 32 * i + 4 * k) 4)⟩) }

def aw (a : ActionD) (k : Nat) : Nat := (a.w[k]?).getD 0
def aType (a : ActionD) : Nat := bitsOf (aw a 0) 31 28
def aLevel (a : ActionD) : Nat := bitsOf (aw a 0) 27 25
def aPhase (a : ActionD) : Nat := bitsOf (aw a 0) 24 23
/-! PASS fields -/
def aLoadMode (a : ActionD) : Nat := bitsOf (aw a 0) 22 21
def aNorth (a : ActionD) : Bool := (aw a 0).testBit 20
def aInit (a : ActionD) : Bool := (aw a 0).testBit 19
def aBank (a : ActionD) : Nat := bitsOf (aw a 0) 18 18
def aInt32 (a : ActionD) : Bool := (aw a 0).testBit 17
def aSub (a : ActionD) : Nat := bitsOf (aw a 0) 15 12
def aAfmt (a : ActionD) : Nat := bitsOf (aw a 0) 11 8
def aWfmt (a : ActionD) : Nat := bitsOf (aw a 0) 7 4
def aPart (a : ActionD) : Nat := bitsOf (aw a 0) 3 2
def aKpart (a : ActionD) : Nat := bitsOf (aw a 1) 23 16
def aMt (a : ActionD) : Nat := bitsOf (aw a 1) 7 0
/-! WRITEBACK fields -/
def aArgmax (a : ActionD) : Bool := (aw a 0).testBit 17
def aArgmaxVal (a : ActionD) : Bool := (aw a 0).testBit 16
def aMxAxisM (a : ActionD) : Bool := (aw a 0).testBit 15
def aCvtSat (a : ActionD) : Bool := (aw a 0).testBit 14
def aCvtSR (a : ActionD) : Bool := (aw a 0).testBit 13
def aCvtFmt (a : ActionD) : Nat := bitsOf (aw a 0) 11 8
def aCombine (a : ActionD) : Nat := bitsOf (aw a 0) 7 0
/-! VECTOR, COPY, SIGNAL, WAIT, MICRO fields -/
def aVop (a : ActionD) : Nat := bitsOf (aw a 0) 15 8
def aFunc (a : ActionD) : Nat := bitsOf (aw a 0) 7 4
def aFp64 (a : ActionD) : Bool := (aw a 0).testBit 0
def aLen (a : ActionD) : Nat := bitsOf (aw a 4) 15 0
def aClassBE (a : ActionD) : Bool := (aw a 0).testBit 16
def aDoneEn (a : ActionD) : Bool := (aw a 0).testBit 9
def aDoneSem (a : ActionD) : Nat := bitsOf (aw a 0) 7 0
def aCopyRemote (a : ActionD) : Bool := (aw a 7).testBit 31
def aFence (a : ActionD) : Bool := (aw a 0).testBit 16
def aValue (a : ActionD) : Nat := bitsOf (aw a 0) 15 0
def aSigRemote (a : ActionD) : Bool := (aw a 1).testBit 17
def aSigCore (a : ActionD) : Nat := bitsOf (aw a 1) 16 8
def aSem (a : ActionD) : Nat := bitsOf (aw a 1) 7 0
def aMicro (a : ActionD) : Nat := bitsOf (aw a 0) 15 8

/-- Largest M_t of a partition (03 R92). -/
def partMt : Nat → Nat
  | 0 => 128 | 1 => 128 | 2 => 64 | _ => 32
/-- Rows and columns of a sub-array (R92). -/
def partRows : Nat → Nat
  | 0 => 128 | 1 => 128 | 2 => 64 | _ => 32
def partCols : Nat → Nat
  | 0 => 128 | 1 => 64 | 2 => 64 | _ => 32
/-- Pass slot length (R92, R94). -/
def partSlot : Nat → Nat
  | 1 => 322 | 2 => 194 | 3 => 128 | _ => 0

/-- A scratchpad operand word has no reserved bit set and an OFFSET inside the scratchpad (R105, R106). -/
def opWordOk (w : Nat) : Bool :=
  bitsOf w 25 0 < scratchBytes && bitsOf w 27 26 == 0 && bitsOf w 31 30 == 0
/-- A VECTOR source: an operand word, or a bank read (R525). -/
def srcWordOk (w : Nat) : Bool := if w.testBit 31 then bitsOf w 29 14 == 0 else opWordOk w

/-- The operand words that an action uses (R105), for the checks of R106. -/
def usedOps (a : ActionD) : List Nat :=
  match aType a with
  | 1 =>
    let scaled := match fmtOf (aAfmt a) with
      | some f => isMX f && !aInt32 a
      | none => false
    [aw a 2, aw a 3] ++ (if scaled then [aw a 4, aw a 5] else [])
  | 2 => [aw a 1] ++ (if aCombine a > 1 then [aw a 2] else []) ++
      (if (match fmtOf (aCvtFmt a) with | some f => isMX f | none => false) then [aw a 3] else []) ++
      (if aArgmax a then [aw a 4] else [])
  | 3 => [aw a 3]
  | _ => []

/-- The parameter words of a microprogram have no reserved bit or code set, and their operand words an OFFSET inside the
scratchpad (R106). A word that only a control block makes an operand is checked when its action issues. -/
def microWordsOk (a : ActionD) : Bool :=
  let ops (l : List Nat) : Bool := l.all (fun i => opWordOk (aw a i))
  let offs (l : List Nat) : Bool := l.all (fun i => bitsOf (aw a i) 31 26 == 0)
  let zero (l : List Nat) : Bool := l.all (fun i => aw a i == 0)
  match aMicro a with
  | 0x01 | 0x02 => offs [1, 6] && ops [2, 3, 5] && zero [7]
  | 0x03 => ops [1, 4, 6] && (!(aw a 7).testBit 24 || opWordOk (aw a 5)) && bitsOf (aw a 2) 31 7 == 0
      && bitsOf (aw a 7) 27 25 == 0 && bitsOf (aw a 7) 15 9 == 0 && decide (bitsOf (aw a 7) 31 28 ≤ 8)
  | 0x10 => offs [1, 6] && ops [2, 3, 4] && zero [7]
  | 0x20 => ops [1, 2, 3] && decide (aw a 4 ≤ 1) && zero [5, 6, 7]
  | 0x21 => ops [1, 2, 3] && zero [4, 5, 6, 7]
  | 0x30 => ops [1, 2, 4, 6]
  | 0x31 => ops [1, 2, 3] && zero [4, 5, 6, 7]
  | 0x32 => ops [1, 6] && decodeAddr (aw a 2 + 2 ^ 32 * aw a 3) != .bad && decodeAddr (aw a 4 + 2 ^ 32 * aw a 5) != .bad
  | _ => false

/-- Does the VECTOR operation read source 2 (R525)? -/
def vopReads2 (v : Nat) : Bool := v ∈ [1, 2, 3, 4, 5, 7, 8, 14]

/-- Functions with an FP64 limit (02 R63): reciprocal, rsqrt, exp, exp2, log, log2, sin, cos, tanh. -/
def funcFP64 (f : Nat) : Bool := f ≤ 8

def dimP (im : Image) (d : Nat) : Nat := ((im.dims[d]?).map (·.p)).getD 0
def dimT (im : Image) (d : Nat) : Nat := ((im.dims[d]?).map (·.t)).getD 1
def loopOfDim (im : Image) (d : Nat) : Option LoopD := im.loops.find? (fun l => l.dim == d)
def dimOfRole (im : Image) (r : Nat) : Option Nat := (im.dims.zipIdx.find? (fun p => p.1.role == r)).map (·.2)
def loopRole (im : Image) (l : LoopD) : Nat := ((im.dims[l.dim]?).map (·.role)).getD 7

/-- R220: the N loop encloses the K loop directly or is innermost, covers every channel, and N is planned at
most 65,536; without an N loop, N is planned at most 128. -/
def argmaxLoopsOk (im : Image) : Bool :=
  match im.loops.find? (fun l => loopRole im l == 1) with
  | some l =>
    let inner := match im.loops.find? (fun k => loopRole im k == 2) with
      | some k => l.level + 1 == k.level
      | none => l.level + 1 == im.loops.length
    inner && l.start == 0 && l.count == 0 && decide (dimP im l.dim ≤ 65536)
  | none =>
    match dimOfRole im 1 with
    | some d => decide (dimP im d ≤ 128)
    | none => true

/-- R106: the checks of one action. `shared` and `part` describe the core; `sigOk` says that a core is in the
command's core set. -/
def actionOk (im : Image) (shared : Bool) (part : Nat) (coreSet : List Nat) (a : ActionD) : Bool :=
  let nl := im.loops.length
  let opsOk := (usedOps a).all opWordOk
  decide (aLevel a < nl) && opsOk &&
  match aType a with
  | 0 => bitsOf (aw a 0) 22 0 == 0 && (a.w.drop 1).all (· == 0)
  | 1 =>
    (match fmtOf (aAfmt a), fmtOf (aWfmt a) with
     | some fa, some fw =>
       (match groupOf fa, groupOf fw with
        | some ga, some gw =>
          decide (ga = gw) && (!aNorth a || gw == .single)
          && (!aInt32 a || (fa == .mxint8 && fw == .mxint8))
          && (match dimOfRole im 2 with
              | some d =>
                decide (aKpart a * groupK ga < dimT im d) && (!aInt32 a || decide (dimP im d ≤ 65536))
              | none => aKpart a == 0)
        | _, _ => false)
     | _, _ => false)
    && aLoadMode a != 3 && bitsOf (aw a 0) 16 16 == 0 && bitsOf (aw a 0) 1 0 == 0
    && bitsOf (aw a 1) 31 24 == 0 && bitsOf (aw a 1) 15 8 == 0 && aw a 6 == 0 && aw a 7 == 0
    && decide (1 ≤ aMt a) && decide (aMt a ≤ partMt (aPart a)) && decide (aSub a < partSubs (aPart a))
    && (!shared || aPart a == part)
    && aLevel a + 1 == nl && decide (aPhase a < 2)
  | 2 =>
    (fmtOf (aCvtFmt a)).isSome && bitsOf (aw a 0) 22 19 == 0 && bitsOf (aw a 0) 12 12 == 0
    && decide (1 ≤ aCombine a) && decide (aCombine a ≤ 64)
    && (aCvtFmt a != 9 || im.actions.any (fun p => aType p == 1 && aBank p == aBank a && aInt32 p))
    && (!im.actions.any (fun p => aType p == 1 && aBank p == aBank a)
        || (aLevel a + 1 == nl && aPhase a == 3) || decide (aLevel a + 1 < nl))
    && (!aArgmax a || argmaxLoopsOk im) && aw a 5 == 0 && aw a 6 == 0 && aw a 7 == 0
  | 3 =>
    decide (1 ≤ aVop a) && decide (aVop a ≤ 14) && bitsOf (aw a 0) 22 16 == 0 && bitsOf (aw a 0) 3 1 == 0
    && (aVop a != 10 || (decide (aFunc a ≤ 11) && (!aFp64 a || funcFP64 (aFunc a))))
    && srcWordOk (aw a 1) && (!vopReads2 (aVop a) || srcWordOk (aw a 2))
    && bitsOf (aw a 4) 31 16 == 0 && (a.w.drop 5).all (· == 0)
  | 4 =>
    bitsOf (aw a 0) 22 17 == 0 && bitsOf (aw a 0) 15 10 == 0 && bitsOf (aw a 0) 8 8 == 0
    && bitsOf (aw a 5) 31 6 == 0 && bitsOf (aw a 5) 3 2 == 0 && bitsOf (aw a 6) 27 16 == 0
    && (tileGrans (bitsOf (aw a 6) 31 28)).isSome && bitsOf (aw a 7) 30 16 == 0
    && decodeAddr (aw a 1 + 2 ^ 32 * aw a 2) != .bad && decodeAddr (aw a 3 + 2 ^ 32 * aw a 4) != .bad
    && !(aCopyRemote a && (aClassBE a || !im.orbit)) && (aCopyRemote a || bitsOf (aw a 7) 15 0 == 0)
  | 5 =>
    bitsOf (aw a 0) 22 17 == 0 && bitsOf (aw a 1) 31 18 == 0 && bitsOf (aw a 2) 31 16 == 0
    && decide (1 ≤ aValue a) && (a.w.drop 3).all (· == 0)
    && (if aSigRemote a then im.orbit && decide (aSigCore a < 288) else coreSet.contains (aSigCore a))
  | 6 => bitsOf (aw a 0) 22 16 == 0 && bitsOf (aw a 1) 31 8 == 0 && decide (1 ≤ aValue a)
         && (a.w.drop 2).all (· == 0)
  | 7 => bitsOf (aw a 0) 22 16 == 0 && bitsOf (aw a 0) 7 0 == 0
         && microWordsOk a
  | _ => false

/-- The PASS that the walk issues first, with its index: PASS actions stand at the innermost level, where a PROLOGUE comes
before an EPILOGUE (R104, R107, R109). -/
def firstPass (im : Image) : Option (ActionD × Nat) :=
  match im.actions.zipIdx.find? (fun p => aType p.1 == 1 && aPhase p.1 == 0) with
  | some p => some p
  | none => im.actions.zipIdx.find? (fun p => aType p.1 == 1)

/-- The first PASS of an image, where it names KEEP (R83); else the number of its actions. -/
def keptFirst (im : Image) : Nat :=
  match firstPass im with
  | some (a, i) => if aLoadMode a = 2 then i else im.actions.length
  | none => im.actions.length

/-- R106, R109: the checks over the whole image. -/
def imageOk (im : Image) (shared : Bool) (part : Nat) (coreSet : List Nat) : Bool :=
  let kLoops := im.loops.filter (fun l => loopRole im l == 2)
  decide (kLoops.length ≤ 1) && kLoops.all (fun l => l.level + 1 == im.loops.length)
  && im.loops.all (fun l => !l.ptrlist || (im.batchMode == 1 && loopRole im l == 3))
  && (im.batchMode != 1 || (im.loops.filter (·.ptrlist)).length == 1)
  && keptFirst im == im.actions.length
  && im.actions.all (actionOk im shared part coreSet)

/-! ### The walk of the loop nest (R107, R112, R116) -/

/-- Indices of the actions of one level and phase, in image order. -/
def actsAt (im : Image) (l ph : Nat) : List Nat :=
  (im.actions.zipIdx.filter (fun p => aLevel p.1 == l && aPhase p.1 == ph)).map (·.2)

def extOf (ext : List Nat) (d : Nat) : Nat := (ext[d]?).getD 0

/-- Replaces the extents of the M, N and K dimensions by an entry's (R116). -/
def ptrExts (im : Image) (ext : List Nat) (e : PtrEnt) : List Nat :=
  im.dims.zipIdx.map (fun p =>
    if p.1.role == 0 then e.extM else if p.1.role == 1 then e.extN else if p.1.role == 2 then e.extK
    else extOf ext p.2)

/-- idx and valid of the pseudocode of R107, as the walk leaves them. -/
structure WalkSt where
  idx : List Nat
  valid : List Nat
deriving DecidableEq, Repr

/-- valid of a dimension whose tile i is the current one (R107). -/
def tileValid (im : Image) (ext : List Nat) (d i : Nat) : Nat := min (dimT im d) (extOf ext d - i * dimT im d)

/-- The extents of a pointer-list entry limit the M, N and K dimensions that no loop walks from the iteration on that takes
the entry (R116). -/
def ptrValid (im : Image) (ext : List Nat) (w : WalkSt) : WalkSt :=
  { w with valid := w.valid.zipIdx.map (fun p =>
      if (loopOfDim im p.2).isNone && ((im.dims[p.2]?).map (·.role)).getD 7 < 3 then tileValid im ext p.2 0 else p.1) }

/-- R107. `n` is the number of levels still to walk. -/
def walk (im : Image) (ptrs : List PtrEnt) : Nat → List LoopD → List Nat → Option PtrEnt → WalkSt → List Item × WalkSt
  | 0, _, _, _, w => ([], w)
  | _, [], _, _, w => ([], w)
  | n + 1, l :: rest, ext, ptr, w =>
    let d := (im.dims[l.dim]?).getD ⟨1, 255, 6, 1⟩
    let issue (ph : Nat) (w : WalkSt) (ex : List Nat) (p : Option PtrEnt) : List Item :=
      (actsAt im l.level ph).map (fun a => Item.act a w.idx w.valid ex p)
    let cnt := if l.count ≠ 0 then l.count else ceilDiv d.p d.t - l.start
    let tiles := ceilDiv (extOf ext l.dim) d.t
    let iter (acc : List (List Item) × WalkSt) (k : Nat) : List (List Item) × WalkSt :=
      let i := l.start + k
      let ent := if l.ptrlist then ptrs[i]? else ptr
      let dead := l.ptrlist && (match ent with
        | some e => e.extM == 0 || e.extN == 0 || e.extK == 0
        | none => true)
      if i ≥ tiles || dead then ([.skip (if l.padTime then l.padCyc else 0)] :: acc.1, acc.2)
      else
        let ex := if l.ptrlist then (match ent with | some e => ptrExts im ext e | none => ext) else ext
        let w0 : WalkSt := ⟨acc.2.idx.set l.level i, acc.2.valid.set l.dim (tileValid im ex l.dim i)⟩
        let w1 := if l.ptrlist then ptrValid im ex w0 else w0
        let (inner, w2) := walk im ptrs n rest ex ent w1
        (issue 1 w2 ex ent :: inner :: issue 0 w1 ex ent :: acc.1, w2)
    let (body, wl) := (List.range cnt).foldl iter ([], w)
    (issue 2 w ext ptr ++ (body.reverse).flatten ++ issue 3 wl ext ptr, wl)

/-- Before the walk every index is 0, and valid is that of tile 0 (log 67). -/
def walkImage (im : Image) (ptrs : List PtrEnt) (ext : List Nat) : List Item :=
  (walk im ptrs im.loops.length im.loops ext none
    ⟨List.replicate im.loops.length 0, (List.range im.dims.length).map (fun d => tileValid im ext d 0)⟩).1

/-- The run-time extents of the dimensions (R103, R111). -/
def runExts (im : Image) (a : List Nat) : List Nat :=
  im.dims.map (fun d => if d.extSrc = 255 then d.p else (a[d.extSrc]?).getD 0)

/-- The tile index of dimension d in a list of indices by level. -/
def tileIdx (im : Image) (idx : List Nat) (d : Nat) : Nat :=
  match loopOfDim im d with
  | some l => (idx[l.level]?).getD 0
  | none => 0

/-- valid of the dimension of a role, `dflt` when the program has none. -/
def validRole (im : Image) (valid : List Nat) (r dflt : Nat) : Nat :=
  match dimOfRole im r with
  | some d => (valid[d]?).getD 0
  | none => dflt

/-- R105: the bytes that the enclosing loops add to an operand of a slot. Under R117 the M loop adds nothing to
slots 0 and 2 of a folded program. -/
def strideSum (im : Image) (idx : List Nat) (slot : Nat) : Int :=
  (im.loops.map (fun l =>
    match idx[l.level]? with
    | some i =>
      if im.batchMode == 2 && (slot == 0 || slot == 2) && loopRole im l == 0 then 0
      else (i : Int) * ((l.strides[slot]?).getD 0)
    | none => 0)).foldl (· + ·) 0

/-- The pointer that an entry adds to slots 0, 1 and 2 (R105, R116). -/
def ptrOf (p : Option PtrEnt) (slot : Nat) : Nat :=
  match p with
  | some e => if slot = 0 then e.a else if slot = 1 then e.b else if slot = 2 then e.c else 0
  | none => 0

end Sys2Proof.Machine
end

