-- ==== Sys2Proof/Machine/State.lean ====
section
/-! DEFINITION. The state of the K64: every register, table, queue, buffer and pin the spec gives the module, and
the queue of waiting commands. Plain data. -/

namespace Sys2Proof.Machine
open Sys2Proof

/-- Faults of the model, which has none: the module's own faults are state, and every command has a next state. -/
inductive Fault where
deriving DecidableEq, Repr

/-- Refusals of the model. -/
inductive Refusal where
  /-- The command has no meaning yet. Raised by Dispatch. Safe: nothing can be proved of what it does. -/
  | notModelled (mnemonic : String)
deriving DecidableEq, Repr

/-! ### Resting values of the sparse tables -/

def emptySQ : SQ := ⟨0, 0, false⟩

/-- A FREE job (10 R300: every quota 0, no sessions). -/
def freeJob : Job :=
  { state := 0, port := 0, resident := false, awaits := false, lost := false, err := 0, sqErr := false, declRej := false,
    orphan := false, place := ⟨[], [], []⟩, quota1 := 0, quota2 := 0, quota3 := 0, quota4 := 0,
    sq0 := emptySQ, sq1 := emptySQ, sq2 := emptySQ, cqHead := 0, cqNext := 0, cqWr := 0, cqWait := false, seq := 0,
    sliceStart := 0, pfStep := 0, pf := [], sessResult := 0, comets := [], save := none, destroyAt := none }

/-- An unbound session. -/
def freeSess : Sess := ⟨none, [], [], false, 0⟩

/-- A free page (05 R136). -/
def freePst : Pst := ⟨0, 0, 0, 0, false, 0, 0, false, 0⟩

/-- A FREE slot (06 R192). -/
def freeSlot : Slot := ⟨0, 0, .free, false, false, false, false, 0, 0, 0, 0, 0, false⟩

/-- An array with zero registers, empty shadows and no passes (03 R83, R100). -/
def idleArr : Arr :=
  { active := [], shadow := [], full := [], fillPtr := 0, fillFrom := 0, waiting := [], current := [],
    lastWord := 0, drainedAt := 0, lastNorth := false, part := 0, slotNo := 0, slotStart := 0, loading := false, fresh := true,
    flight := [], dead := [] }

/-- A core that runs nothing, its registers cleared (03 R100). -/
def idleCore : CoreSt :=
  { ctxs := [], arr := idleArr, acc := [], accMode := [], wrote := [], readOut := [], sems := [], semUndef := [], vregs := [],
    vsealed := [], slipWin := 0, slipBase := 0, nocBase := 0, bankSpans := [] }

def idleInk : Ink := ⟨[], none⟩
def idleFtl : Ftl := ⟨[], [], [], [], [], [], [], [], [], [], 0, 0, false, false, false⟩

/-- A Toruf port that is down. -/
def downPort : Port :=
  { up := false, wasUp := false, downAt := 0, training := false, authFail := false, peerDid := 0, peerPort := 0,
    keyGen := 0, keyId := 0, txKey := 0, rxKey := 0, txSalt := 0, rxSalt := 0, txSeq := 0, rxSeq := 0, unacked := [], creditOrbit := 0, creditBulk := 0,
    creditMgmt := 0, creditTime := 0, queued := [], release := [], calDone := false, calLeft := 0, calMin := 0,
    calMax := 0, calSeen := false, rptTokens := 256, rptAt := 0, supplyOff := false }

def emptyFab : Fab :=
  { rt := [], mc := [], orr := [], win := [], hdl := [], reqs := [], reqWait := [], ports := [], mbStatus := 0,
    mbBusy := false, ropStatus := 0, ropBusy := false, ropRes := 0 }

def noOrbit : Orb := ⟨.none, 0, false, false, 0, false, 0, 0, false⟩

def zeroTime : Tim :=
  { ns := 0, acc := 0, synced := false, offset := 0, peerDelay := 0, lastSync := 0, lastPps := 0, ppsEdge := none, ppsOk := false,
    refOk := false, holdover := false }

/-- A PCIe port in PERST# (17 R512: the input is pulled down). -/
def resetPcie : Pcie :=
  { perst := true, linkUp := false, width := 0, flit := false, speed := 0, downAt := 0, perstAt := 0,
    hostLost := false, numVfs := 0, aps := [], vfJobs := [],
    unmasked := [], pendingVec := [], doe := none, adoptResult := 0, ide := [] }

/-- The security engine before it has drawn anything. -/
def emptySec : Sec :=
  { keys := [], krel := 0, bootNonce := 0, drbg := ⟨0, 0⟩, seeds := 0, spdmA := [], spdmB := [],
    pendingBlocks := false, windowOpen := false, resetBlocks := [], fuseErr := false }
def resetSec : Sec := bootSec emptySec

def emptyFlt : Flt :=
  { reports := [], log := [], logWr := 0, logRd := 0, irqPend := false, org := [], missed := [], lost := [],
    sentRpt := [], sentAt := [], errHold := false, blkRst := [] }

def resetPwr : Pwr :=
  { retained := [], waking := [], resetting := [], warm := [], crit := [], g := 64, overRun := 0, belowRun := 0,
    hard := false, vrFault := 0, temps := [], watts := 0, energyRest := 0, heldInReset := false }

def factorySlot (b : Bool) : ImgSlot :=
  ⟨Config.slotOk b, (Config.slotVersion b).toNat, (Config.slotSvn b).toNat⟩

def resetBoot : Boot :=
  { slotA := factorySlot false, slotB := factorySlot true, pref := Config.bootPref, unconfirmed := false,
    runSlot := Config.bootPref, runs := true, staging := none, staged := false, trial := false, window := false,
    fusedSvn := Config.fusedSvn.toNat, romRecovery := false }

/-! ### The state -/

/-- Memory (08): bytes of every storage granule at granule × 4096 + offset, SEAL and POISON marks by storage
granule, granule-table roots, PENDING marks, the accesses that wait for a PENDING granule, oldest first (R256), the object
table, and the count of storage granules named. -/
structure Mem where
  bytes : List Host.Cell
  sealMk : NSet
  poison : NSet
  roots : SMap Nat
  marks : SMap (List (Nat × Nat))
  waiting : List HeldAcc
  objs : SMap Obj
  granCtr : Nat
deriving DecidableEq, Repr

/-- The queue managers (10): jobs, commands in flight, commit requests in order, the completed commands whose entry is
still to be written in the order of their completion (R312), PREEMPTs, sessions, page state table, slot table, the count of
commands named, and the doorbell writes not yet served, oldest first, as job, queue and tail. -/
structure Qm where
  jobs : SMap Job
  cmds : SMap Cmd
  commitQ : List Nat
  doneQ : List Nat
  pres : List Pre
  sess : SMap Sess
  pst : SMap Pst
  slots : SMap Slot
  uidCtr : Nat
  bells : List (Nat × Nat × Nat)
deriving DecidableEq, Repr

/-- The external memories' engines (09). `rsvdPoison` holds the granules of the reserved region whose lines carry POISON
(09 R266, R269). -/
structure Ext where
  wcb : SMap (List WcbEnt)
  wcbHeld : SMap (List WcbHeld)
  inks : SMap Ink
  sensorFails : SMap Nat
  ftl : SMap Ftl
  rsvdPoison : NSet
deriving DecidableEq, Repr

/-- The module. `regs` holds every register word that differs from its reset value, by BAR0 offset; `latch` the
values latched for _HI and other words (04 R131, 16 R504). `flits` are the scheduled flits on the mesh, oldest first, and
`ports` the queues at the blocks' network ports: of core n at n, of the inkwell of memory die m at 512 + m, of fabric die f
at 1024 + f (01 R20). -/
structure Dev where
  now : Nat
  freeCtr : Nat
  regs : SMap Word
  latch : SMap Word
  cores : SMap CoreSt
  sigs : List Sig
  flits : List Flit
  ports : SMap (List PortJob)
  mem : Mem
  qm : Qm
  ext : Ext
  fab : Fab
  orb : Orb
  tim : Tim
  pcieA : Pcie
  pcieB : Pcie
  mgmtPortB : Bool
  sec : Sec
  flt : Flt
  state : DevState
  factoryTest : Bool
  powerLost : Bool
  modRst : Bool
  pwr : Pwr
  boot : Boot
  rst : Option RstReq
  out : List Out
deriving DecidableEq, Repr

/-- The block: its module and the queue of waiting commands, first in, first out. -/
structure State where
  pending : List Instr
  dev : Dev
deriving DecidableEq, Repr

def emptyMem : Mem := ⟨[], [], [], [], [], [], [], 0⟩
def emptyQm : Qm := ⟨[], [], [], [], [], [], [], [], 1, []⟩
def emptyExt : Ext := ⟨[], [], [], [], [], []⟩

/-- The module right after power-on reset (15 R477, R484: state BOOT). -/
def resetDev : Dev :=
  { now := 0, freeCtr := 0, regs := [], latch := [], cores := [], sigs := [], flits := [], ports := [], mem := emptyMem,
    qm := emptyQm, ext := emptyExt, fab := emptyFab, orb := noOrbit, tim := zeroTime, pcieA := resetPcie,
    pcieB := resetPcie, mgmtPortB := false, sec := resetSec, flt := emptyFlt, state := .boot,
    factoryTest := false, powerLost := false, modRst := false, pwr := resetPwr, boot := resetBoot, rst := none,
    out := [] }

/-- The block right after reset, no command waiting. -/
def State.reset : State := { pending := [], dev := resetDev }

end Sys2Proof.Machine
end

