-- ==== Sys2Proof/Machine/TypesRegs.lean ====
section
/-! DEFINITION. Kinds of register pages and rows of their register tables (16 R490-R500). -/

namespace Sys2Proof.Machine
open Sys2Proof

/-- The block of a page (16 R500, table "Block pages"). -/
inductive Blk where
  | core | cdie | comet | quill | gddr | memd | wcb | inkwell | fabp | fabr | time | pcie | sec | boot | fltag
  | dev | pwr | qmgr | qmgrJ | onfi | ftl
deriving DecidableEq, Repr

/-- One register of a page: offset, bits a write sets (RW), bits a 1 clears (W1C), reset value, and whether
CNT_CLR clears it. -/
structure RegRow where
  off : Nat
  rw : Nat
  w1c : Nat
  rst : Nat
  cnt : Bool
deriving DecidableEq, Repr

/-- What the first-error capture of a detection holds (14 R443): address, master class and ID, job, access kind
and length. -/
structure Cap where
  addr : Nat
  cls : Nat
  id : Nat
  job : Option Nat
  kind : Nat
  len : Nat
deriving DecidableEq, Repr

/-- How a bus write ends: performed, ignored, or counted as a BAR0 access error (16 R491, R494). -/
inductive WrRes where
  | done | ignored | error
deriving DecidableEq, Repr

end Sys2Proof.Machine
end

