-- ==== Sys2Proof/Machine/Regs.lean ====
section
/-! DEFINITION. The register tables of the module: pages, reset values, the sparse register file, counters
(16 R490-R500, 04 R131). -/

namespace Sys2Proof.Machine
open Sys2Proof

/-! ### Tables of the pages: offset, RW bits, W1C bits, reset value, counter -/

def rowsHdr0 : List RegRow :=
  [⟨0x000, 0x00000000, 0x00000000, 0x00000000, false⟩, ⟨0x004, 0x00000000, 0x00000000, 0x00000100, false⟩,
   ⟨0x008, 0x00000000, 0x00000000, 0x00000000, false⟩, ⟨0x00C, 0x00000004, 0x00000000, 0x00000001, false⟩,
   ⟨0x010, 0x00000000, 0x00000000, 0x00000002, false⟩, ⟨0x020, 0x00000000, 0xFFFFFFFF, 0x00000000, false⟩,
   ⟨0x024, 0xFFFFFFFF, 0x00000000, 0x00000000, false⟩, ⟨0x028, 0xFFFFFFFF, 0x00000000, 0x00000000, false⟩,
   ⟨0x030, 0x00000000, 0x00000000, 0x00000000, false⟩, ⟨0x034, 0x00000000, 0x00000000, 0x00000000, false⟩,
   ⟨0x038, 0x00000000, 0x00000000, 0x00000000, false⟩, ⟨0x03C, 0x00000000, 0x00000000, 0x00000000, false⟩,
   ⟨0x040, 0x00000000, 0x00000000, 0x00000000, false⟩, ⟨0x044, 0x00000000, 0x00000000, 0x00000000, false⟩,
   ⟨0x048, 0x00000000, 0x00000000, 0x00000000, false⟩, ⟨0x04C, 0x00000000, 0x00000000, 0x00000000, false⟩,
   ⟨0x080, 0x00000000, 0x000000FF, 0x00000000, false⟩, ⟨0x084, 0x000000FF, 0x00000000, 0x00000000, false⟩]
def rowsHdr : List RegRow := rowsHdr0
def rowsCore0 : List RegRow :=
  [⟨0x100, 0x00000001, 0x00000000, 0x00000000, false⟩, ⟨0x104, 0x00000000, 0x00000000, 0x00000000, false⟩,
   ⟨0x108, 0x00000000, 0x00000000, 0x00000000, false⟩, ⟨0x10C, 0x00000000, 0x00000000, 0x00000000, false⟩,
   ⟨0x110, 0x00000000, 0x00000000, 0x00000000, false⟩, ⟨0x114, 0x00000000, 0x00000000, 0x00000000, false⟩,
   ⟨0x118, 0x00000000, 0x00000000, 0x00000000, false⟩, ⟨0x11C, 0x00000000, 0x00000000, 0x00000000, false⟩,
   ⟨0x120, 0x00000000, 0x00000000, 0x00000000, false⟩, ⟨0x124, 0x00000000, 0x00000000, 0x00000000, false⟩,
   ⟨0x130, 0x00000000, 0x00000000, 0x00000000, true⟩, ⟨0x134, 0x00000000, 0x00000000, 0x00000000, true⟩,
   ⟨0x138, 0x00000000, 0x00000000, 0x00000000, true⟩, ⟨0x13C, 0x00000000, 0x00000000, 0x00000000, true⟩,
   ⟨0x140, 0x00000000, 0x00000000, 0x00000000, true⟩, ⟨0x144, 0x00000000, 0x00000000, 0x00000000, true⟩,
   ⟨0x148, 0x00000000, 0x00000000, 0x00000000, true⟩, ⟨0x14C, 0x00000000, 0x00000000, 0x00000000, true⟩,
   ⟨0x150, 0x00000000, 0x00000000, 0x00000000, true⟩, ⟨0x160, 0xFFFFFFFF, 0x00000000, 0x00000000, false⟩]
def rowsCore1 : List RegRow :=
  [⟨0x164, 0xFFFFFFFF, 0x00000000, 0x00100000, false⟩, ⟨0x168, 0xFFFFFFFF, 0x00000000, 0x01000000, false⟩]
def rowsCore : List RegRow := rowsCore0 ++ rowsCore1
def rowsCdie0 : List RegRow :=
  [⟨0x100, 0x00000000, 0x00000000, 0x00000000, false⟩, ⟨0x104, 0x00000000, 0x00000000, 0x00000000, false⟩,
   ⟨0x108, 0x00000000, 0x00000000, 0x00000000, false⟩, ⟨0x110, 0x00000000, 0x00000000, 0x00000000, false⟩,
   ⟨0x114, 0x00000000, 0x00000000, 0x00000000, false⟩, ⟨0x118, 0x00000000, 0x00000000, 0x00000000, false⟩,
   ⟨0x11C, 0x00000000, 0x00000000, 0x00000000, false⟩, ⟨0x120, 0x00000000, 0x00000000, 0x00000000, true⟩,
   ⟨0x124, 0x00000000, 0x00000000, 0x00000000, true⟩, ⟨0x128, 0x00000000, 0x00000000, 0x00000000, true⟩,
   ⟨0x12C, 0x00000000, 0x00000000, 0x00000000, true⟩, ⟨0x130, 0xFFFFFFFF, 0x00000000, 0x00000000, false⟩]
def rowsCdie : List RegRow := rowsCdie0
def rowsComet0 : List RegRow :=
  [⟨0x100, 0x00000000, 0x00000000, 0x00000000, false⟩, ⟨0x104, 0x00000000, 0x00000000, 0x00000000, false⟩,
   ⟨0x110, 0x00FFFFFF, 0x00000000, 0x00000000, false⟩, ⟨0x114, 0x00000000, 0x00000000, 0x00000000, false⟩,
   ⟨0x118, 0x00000000, 0x00000000, 0x00000000, false⟩, ⟨0x11C, 0x00000000, 0x00000000, 0x00000000, false⟩,
   ⟨0x120, 0x00000000, 0x00000000, 0x00000000, false⟩, ⟨0x130, 0x00000000, 0x00000000, 0x00000000, true⟩,
   ⟨0x134, 0x00000000, 0x00000000, 0x00000000, true⟩, ⟨0x138, 0x00000000, 0x00000000, 0x00000000, true⟩,
   ⟨0x13C, 0x00000000, 0x00000000, 0x00000000, true⟩, ⟨0x140, 0x00000000, 0x00000000, 0x00000000, true⟩,
   ⟨0x144, 0x00000000, 0x00000000, 0x00000000, true⟩, ⟨0x148, 0x00000000, 0x00000000, 0x00000000, true⟩,
   ⟨0x14C, 0x00000000, 0x00000000, 0x00000000, true⟩]
def rowsComet : List RegRow := rowsComet0
def rowsQuill0 : List RegRow :=
  [⟨0x100, 0x00000000, 0x00000000, 0x00000000, false⟩, ⟨0x104, 0x00000000, 0x00000000, 0x00000000, false⟩,
   ⟨0x108, 0x00000000, 0x00000000, 0x00000000, false⟩, ⟨0x130, 0x00000000, 0x00000000, 0x00000000, true⟩,
   ⟨0x134, 0x00000000, 0x00000000, 0x00000000, true⟩, ⟨0x138, 0x00000000, 0x00000000, 0x00000000, true⟩,
   ⟨0x13C, 0x00000000, 0x00000000, 0x00000000, true⟩, ⟨0x140, 0x00000000, 0x00000000, 0x00000000, true⟩]
def rowsQuill : List RegRow := rowsQuill0
def rowsGddrCh0 : List RegRow :=
  [⟨0x100, 0x00000000, 0x00000000, 0x00000000, false⟩, ⟨0x104, 0x800000FF, 0x00000000, 0x8000000C, false⟩,
   ⟨0x108, 0x00000000, 0x00000000, 0x00000000, false⟩, ⟨0x10C, 0x00000000, 0x00000000, 0x00000000, false⟩,
   ⟨0x130, 0x00000000, 0x00000000, 0x00000000, true⟩, ⟨0x134, 0x00000000, 0x00000000, 0x00000000, true⟩,
   ⟨0x138, 0x00000000, 0x00000000, 0x00000000, true⟩, ⟨0x13C, 0x00000000, 0x00000000, 0x00000000, true⟩,
   ⟨0x140, 0x00000000, 0x00000000, 0x00000000, true⟩, ⟨0x144, 0x00000000, 0x00000000, 0x00000000, true⟩]
def rowsGddrCh : List RegRow := rowsGddrCh0
def rowsMemd0 : List RegRow :=
  [⟨0x100, 0x00000000, 0x00000000, 0x00000000, false⟩, ⟨0x104, 0x00000000, 0x00000000, 0x00000000, false⟩,
   ⟨0x108, 0x00000000, 0x00000000, 0x00000000, false⟩, ⟨0x130, 0x00000000, 0x00000000, 0x00000000, true⟩,
   ⟨0x134, 0x00000000, 0x00000000, 0x00000000, true⟩, ⟨0x138, 0x00000000, 0x00000000, 0x00000000, true⟩]
def rowsMemd : List RegRow := rowsMemd0
def rowsWcb0 : List RegRow :=
  [⟨0x100, 0x00000000, 0x00000000, 0x00000000, false⟩, ⟨0x104, 0x00000FFF, 0x00000000, 0x000007D0, false⟩,
   ⟨0x108, 0x07FF07FF, 0x00000000, 0x03000380, false⟩, ⟨0x10C, 0x00000000, 0x00000000, 0x00000000, false⟩,
   ⟨0x130, 0x00000000, 0x00000000, 0x00000000, true⟩, ⟨0x134, 0x00000000, 0x00000000, 0x00000000, true⟩,
   ⟨0x138, 0x00000000, 0x00000000, 0x00000000, true⟩, ⟨0x13C, 0x00000000, 0x00000000, 0x00000000, true⟩,
   ⟨0x140, 0x00000000, 0x00000000, 0x00000000, true⟩, ⟨0x144, 0x00000000, 0x00000000, 0x00000000, true⟩,
   ⟨0x148, 0x00000000, 0x00000000, 0x00000000, true⟩]
def rowsWcb : List RegRow := rowsWcb0
def rowsInkwell0 : List RegRow :=
  [⟨0x100, 0x00000100, 0x00000000, 0x00000100, false⟩, ⟨0x104, 0x00000000, 0x00020000, 0x00000100, false⟩,
   ⟨0x108, 0x00000000, 0x00000000, 0x00000000, false⟩, ⟨0x130, 0x00000000, 0x00000000, 0x00000000, true⟩,
   ⟨0x134, 0x00000000, 0x00000000, 0x00000000, true⟩, ⟨0x138, 0x00000000, 0x00000000, 0x00000000, true⟩,
   ⟨0x13C, 0x00000000, 0x00000000, 0x00000000, true⟩]
def rowsInkwell : List RegRow := rowsInkwell0
def rowsFtl0 : List RegRow :=
  [⟨0x100, 0x00000000, 0x00000000, 0x00000000, false⟩, ⟨0x104, 0x00000000, 0x00000000, 0x00000000, false⟩,
   ⟨0x108, 0x00000000, 0x00000000, 0x00000000, false⟩, ⟨0x10C, 0xFFFFFFFF, 0x00000000, 0x000186A0, false⟩,
   ⟨0x110, 0x00000000, 0x00000000, 0x00000000, false⟩, ⟨0x114, 0x00000000, 0x00000000, 0x00000000, false⟩,
   ⟨0x130, 0x00000000, 0x00000000, 0x00000000, true⟩, ⟨0x134, 0x00000000, 0x00000000, 0x00000000, true⟩,
   ⟨0x138, 0x00000000, 0x00000000, 0x00000000, true⟩, ⟨0x13C, 0x00000000, 0x00000000, 0x00000000, true⟩,
   ⟨0x140, 0x00000000, 0x00000000, 0x00000000, true⟩, ⟨0x144, 0x00000000, 0x00000000, 0x00000000, true⟩,
   ⟨0x148, 0x00000000, 0x00000000, 0x00000000, true⟩, ⟨0x14C, 0x00000000, 0x00000000, 0x00000000, true⟩]
def rowsFtl : List RegRow := rowsFtl0
def rowsOnfiCh0 : List RegRow :=
  [⟨0x100, 0x00000000, 0x00000000, 0x00000000, false⟩, ⟨0x104, 0x00000000, 0x00000000, 0x00000000, false⟩,
   ⟨0x130, 0x00000000, 0x00000000, 0x00000000, true⟩, ⟨0x134, 0x00000000, 0x00000000, 0x00000000, true⟩,
   ⟨0x138, 0x00000000, 0x00000000, 0x00000000, true⟩, ⟨0x13C, 0x00000000, 0x00000000, 0x00000000, true⟩]
def rowsOnfiCh : List RegRow := rowsOnfiCh0
def rowsFabp0 : List RegRow :=
  [⟨0x100, 0x00000011, 0x00000000, 0x00000001, false⟩, ⟨0x104, 0x00000000, 0x00000000, 0x00000000, false⟩,
   ⟨0x108, 0x0000FFFF, 0x00000000, 0x00000000, false⟩, ⟨0x10C, 0x000000FF, 0x00000000, 0x00000008, false⟩,
   ⟨0x110, 0x00000000, 0x00000000, 0x00000000, false⟩, ⟨0x130, 0x00000000, 0x00000000, 0x00000000, true⟩,
   ⟨0x134, 0x00000000, 0x00000000, 0x00000000, true⟩, ⟨0x138, 0x00000000, 0x00000000, 0x00000000, true⟩,
   ⟨0x13C, 0x00000000, 0x00000000, 0x00000000, true⟩, ⟨0x140, 0x00000000, 0x00000000, 0x00000000, true⟩,
   ⟨0x144, 0x00000000, 0x00000000, 0x00000000, true⟩, ⟨0x148, 0x00000000, 0x00000000, 0x00000000, true⟩]
def rowsFabp : List RegRow := rowsFabp0
def rowsFabr0 : List RegRow :=
  [⟨0x100, 0x00000000, 0x00000000, 0x00000000, false⟩, ⟨0x104, 0x0000FFFF, 0x00000000, 0x00000000, false⟩,
   ⟨0x108, 0x0000FFFF, 0x00000000, 0x00000000, false⟩, ⟨0x10C, 0x00000000, 0x00000000, 0x00000000, false⟩,
   ⟨0x110, 0x00000000, 0x00000000, 0x00000000, false⟩, ⟨0x114, 0x00000000, 0x00000000, 0x00000018, false⟩,
   ⟨0x118, 0x0000FFFF, 0x00000000, 0x00000400, false⟩, ⟨0x11C, 0x00FFFFFF, 0x00000000, 0x000003E8, false⟩,
   ⟨0x120, 0x00007FFF, 0x00000000, 0x00000000, false⟩, ⟨0x124, 0xDF1F0000, 0x00000000, 0x00000000, false⟩,
   ⟨0x128, 0x00000FFF, 0x00000000, 0x00000000, false⟩, ⟨0x12C, 0xC000FFFF, 0x00000000, 0x00000000, false⟩,
   ⟨0x130, 0x00FFFFFF, 0x00000000, 0x00000000, false⟩, ⟨0x134, 0x00000FFF, 0x00000000, 0x00000000, false⟩,
   ⟨0x138, 0xFFFFFFFF, 0x00000000, 0x00000000, false⟩, ⟨0x13C, 0xFFFFFFFF, 0x00000000, 0x00000000, false⟩,
   ⟨0x140, 0xFFFFFFFF, 0x00000000, 0x00000000, false⟩, ⟨0x144, 0x8000FFFF, 0x00000000, 0x00000000, false⟩,
   ⟨0x148, 0x00000FFF, 0x00000000, 0x00000000, false⟩, ⟨0x14C, 0xFFFF01FF, 0x00000000, 0x00000000, false⟩]
def rowsFabr1 : List RegRow :=
  [⟨0x150, 0x03FFFFFF, 0x00000000, 0x00000000, false⟩, ⟨0x154, 0xFFFFFFFF, 0x00000000, 0x00000000, false⟩,
   ⟨0x158, 0xFFFFFFFF, 0x00000000, 0x00000000, false⟩, ⟨0x15C, 0x00000FFF, 0x00000000, 0x00000000, false⟩,
   ⟨0x160, 0x00FFFFFF, 0x00000000, 0x00000000, false⟩, ⟨0x164, 0x00000FFF, 0x00000000, 0x00000000, false⟩,
   ⟨0x168, 0x00000000, 0x00000000, 0x00000000, false⟩, ⟨0x16C, 0x00000000, 0x00000000, 0x00000000, false⟩,
   ⟨0x170, 0x7F00FFFF, 0x00000000, 0x00000000, false⟩, ⟨0x174, 0x0FFFFFFF, 0x00000000, 0x00000000, false⟩,
   ⟨0x178, 0xFFFFFFFF, 0x00000000, 0x00000000, false⟩, ⟨0x17C, 0x00000000, 0x00000000, 0x00000000, false⟩,
   ⟨0x180, 0x70FF0FFF, 0x00000000, 0x00000000, false⟩, ⟨0x184, 0xFFFFFFFF, 0x00000000, 0x00000000, false⟩,
   ⟨0x188, 0xFFFFFFFF, 0x00000000, 0x00000000, false⟩, ⟨0x18C, 0xFFFFFFFF, 0x00000000, 0x00000000, false⟩,
   ⟨0x190, 0xFFFFFFFF, 0x00000000, 0x00000000, false⟩, ⟨0x194, 0xFFFFFFFF, 0x00000000, 0x00000000, false⟩,
   ⟨0x198, 0xFFFFFFFF, 0x00000000, 0x00000000, false⟩, ⟨0x19C, 0x00000000, 0x00000000, 0x00000000, false⟩]
def rowsFabr2 : List RegRow :=
  [⟨0x1A0, 0x00000000, 0x00000000, 0x00000000, false⟩, ⟨0x1A4, 0x00000000, 0x00000000, 0x00000000, false⟩,
   ⟨0x1C0, 0xFFFF9F0F, 0x00000000, 0x00000000, false⟩, ⟨0x1C4, 0x00000000, 0x00000000, 0x00000000, false⟩,
   ⟨0x1C8, 0x00000000, 0x00000000, 0x00000000, false⟩, ⟨0x1CC, 0xFFFFFFFF, 0x00000000, 0x00100000, false⟩,
   ⟨0x1D0, 0xFFFFFFFF, 0x00000000, 0x00000000, false⟩, ⟨0x1D4, 0xFFFFFFFF, 0x00000000, 0x00000000, false⟩,
   ⟨0x1D8, 0x00000000, 0x00000000, 0x00000000, false⟩, ⟨0x1DC, 0x00000000, 0x00000000, 0x00000000, false⟩,
   ⟨0x1E0, 0x00000000, 0x00000000, 0x00000000, false⟩, ⟨0x1E4, 0x00000000, 0x00000000, 0x00000000, false⟩,
   ⟨0x200, 0x00000000, 0x00000000, 0x00000000, true⟩, ⟨0x204, 0x00000000, 0x00000000, 0x00000000, true⟩,
   ⟨0x208, 0x00000000, 0x00000000, 0x00000000, true⟩, ⟨0x20C, 0x00000000, 0x00000000, 0x00000000, true⟩,
   ⟨0x210, 0x00000000, 0x00000000, 0x00000000, true⟩, ⟨0x214, 0x00000000, 0x00000000, 0x00000000, true⟩]
def rowsFabr : List RegRow := rowsFabr0 ++ rowsFabr1 ++ rowsFabr2
def rowsTime0 : List RegRow :=
  [⟨0x100, 0x007F3F1E, 0x00000000, 0x00000000, false⟩, ⟨0x104, 0x00000000, 0x00000000, 0x00000000, false⟩,
   ⟨0x108, 0x00FFFFFF, 0x00000000, 0x00000000, false⟩, ⟨0x10C, 0x00000000, 0x00000000, 0x00000000, false⟩,
   ⟨0x110, 0x00000000, 0x00000000, 0x00000000, false⟩, ⟨0x114, 0x00000000, 0x00000000, 0x00000000, false⟩,
   ⟨0x118, 0xFFFFFFFF, 0x00000000, 0x00000000, false⟩, ⟨0x11C, 0x00000000, 0x00000000, 0x00000000, false⟩,
   ⟨0x120, 0xFFFFFFFF, 0x00000000, 0x00000000, false⟩, ⟨0x124, 0x0000FFFF, 0x00000000, 0x00000000, false⟩,
   ⟨0x128, 0xFFFFFFFF, 0x00000000, 0x00000000, false⟩, ⟨0x12C, 0x00000000, 0x00000000, 0x00000000, false⟩,
   ⟨0x130, 0x00000000, 0x00000000, 0x00000000, true⟩, ⟨0x134, 0x00000000, 0x00000000, 0x00000000, true⟩,
   ⟨0x138, 0x00000000, 0x00000000, 0x00000000, true⟩, ⟨0x13C, 0x00000000, 0x00000000, 0x00000000, true⟩]
def rowsTime : List RegRow := rowsTime0
def rowsPcie0 : List RegRow :=
  [⟨0x100, 0x00000008, 0x00000000, 0x00000008, false⟩, ⟨0x104, 0x00000000, 0x00000000, 0x00000000, false⟩,
   ⟨0x130, 0x00000000, 0x00000000, 0x00000000, true⟩, ⟨0x134, 0x00000000, 0x00000000, 0x00000000, true⟩,
   ⟨0x138, 0x00000000, 0x00000000, 0x00000000, true⟩, ⟨0x13C, 0x00000000, 0x00000000, 0x00000000, true⟩,
   ⟨0x140, 0x00000000, 0x00000000, 0x00000000, true⟩, ⟨0x144, 0x00000000, 0x00000000, 0x00000000, true⟩,
   ⟨0x148, 0x00000000, 0x00000000, 0x00000000, true⟩, ⟨0x14C, 0x00000000, 0x00000000, 0x00000000, true⟩,
   ⟨0x150, 0x00000000, 0x00000000, 0x00000000, true⟩, ⟨0x160, 0x0000003F, 0x00000000, 0x00000000, false⟩,
   ⟨0x164, 0xFFFFFFFF, 0x00000000, 0x00000000, false⟩, ⟨0x168, 0xFFFFFFFF, 0x00000000, 0x00000000, false⟩,
   ⟨0x16C, 0xFFFFFFFF, 0x00000000, 0x00000000, false⟩, ⟨0x170, 0xFFFFFFFF, 0x00000000, 0x00000000, false⟩,
   ⟨0x174, 0xFFFFFFFF, 0x00000000, 0x00000000, false⟩, ⟨0x178, 0xFFFFFFFF, 0x00000000, 0x00000000, false⟩,
   ⟨0x17C, 0xFFFFFFFF, 0x00000000, 0x00000000, false⟩, ⟨0x180, 0xFFFFFFFF, 0x00000000, 0x00000000, false⟩]
def rowsPcie1 : List RegRow :=
  [⟨0x190, 0x000001FF, 0x00000000, 0x00000000, false⟩, ⟨0x194, 0xC0FF3F3F, 0x00000000, 0x00000000, false⟩,
   ⟨0x198, 0xFFFFFFFF, 0x00000000, 0x00000000, false⟩, ⟨0x19C, 0xFFFFFFFF, 0x00000000, 0x00000000, false⟩,
   ⟨0x1A0, 0x00000000, 0x00000000, 0x00000000, false⟩, ⟨0x1A4, 0x00000000, 0x00000000, 0x00000000, false⟩,
   ⟨0x1B0, 0x00000000, 0x00000000, 0x00000000, false⟩, ⟨0x1B4, 0x00000000, 0x00000000, 0x00000000, false⟩,
   ⟨0x1B8, 0x00000000, 0x00000000, 0x00000000, false⟩, ⟨0x1BC, 0x00000000, 0x00000000, 0x00000000, false⟩,
   ⟨0x1C0, 0x00000000, 0x00000000, 0x00000000, false⟩, ⟨0x1C4, 0x00000000, 0x00000000, 0x00000000, false⟩,
   ⟨0x1C8, 0x00000000, 0x00000000, 0x00000000, false⟩, ⟨0x1CC, 0x00000000, 0x00000000, 0x00000000, false⟩]
def rowsPcie : List RegRow := rowsPcie0 ++ rowsPcie1
def rowsQmgr0 : List RegRow :=
  [⟨0x100, 0x00000000, 0x00000000, 0x00000000, false⟩, ⟨0x104, 0x00000000, 0x00000000, 0x00000000, false⟩,
   ⟨0x108, 0x0000FFFF, 0x00000000, 0x000000C8, false⟩, ⟨0x130, 0x00000000, 0x00000000, 0x00000000, true⟩,
   ⟨0x134, 0x00000000, 0x00000000, 0x00000000, true⟩, ⟨0x138, 0x00000000, 0x00000000, 0x00000000, true⟩]
def rowsQmgr : List RegRow := rowsQmgr0
def rowsQmgrj0 : List RegRow :=
  [⟨0x100, 0x00000004, 0x00000000, 0x00000000, false⟩, ⟨0x104, 0x00000000, 0x0000000C, 0x00000000, false⟩,
   ⟨0x108, 0xFFFFFFFF, 0x00000000, 0x00000000, false⟩, ⟨0x10C, 0x0000FFFF, 0x00000000, 0x00000000, false⟩,
   ⟨0x110, 0xFFFFFFFF, 0x00000000, 0x00000000, false⟩, ⟨0x114, 0xFFFFFFFF, 0x00000000, 0x00000000, false⟩,
   ⟨0x118, 0xFFFFFFFF, 0x00000000, 0x00000000, false⟩, ⟨0x11C, 0xFFFFFFFF, 0x00000000, 0x00000000, false⟩,
   ⟨0x120, 0x0000FFFF, 0x00000000, 0x00000000, false⟩, ⟨0x130, 0xFFFFFFFF, 0x00000000, 0x00000000, false⟩,
   ⟨0x134, 0xFFFFFFFF, 0x00000000, 0x00000000, false⟩, ⟨0x138, 0xFFFFFFFF, 0x00000000, 0x00000000, false⟩,
   ⟨0x13C, 0xFFFFFFFF, 0x00000000, 0x00000000, false⟩, ⟨0x140, 0xFFFFFFFF, 0x00000000, 0x00000000, false⟩,
   ⟨0x144, 0xFFFFFFFF, 0x00000000, 0x00000000, false⟩, ⟨0x148, 0xFFFFFFFF, 0x00000000, 0x00000000, false⟩,
   ⟨0x14C, 0xFFFFFFFF, 0x00000000, 0x00000000, false⟩, ⟨0x150, 0x07FFFFFF, 0x00000000, 0x00004444, false⟩,
   ⟨0x160, 0x00000000, 0x00000000, 0x00000000, false⟩, ⟨0x164, 0x00000000, 0x00000000, 0x00000000, false⟩]
def rowsQmgrj1 : List RegRow :=
  [⟨0x168, 0x00000000, 0x00000000, 0x00000000, false⟩, ⟨0x16C, 0x00000000, 0x00000000, 0x00000000, false⟩,
   ⟨0x170, 0x00000000, 0x00000000, 0x00000000, false⟩, ⟨0x174, 0x00000000, 0x00000000, 0x00000000, false⟩,
   ⟨0x178, 0x00000000, 0x00000000, 0x00000000, false⟩, ⟨0x17C, 0x00000000, 0x00000000, 0x00000000, false⟩,
   ⟨0x180, 0xFFFFFFFF, 0x00000000, 0x00000000, false⟩, ⟨0x184, 0xFFFFFFFF, 0x00000000, 0x00000000, false⟩,
   ⟨0x188, 0xFF1FFFFF, 0x00000000, 0x01000000, false⟩, ⟨0x18C, 0x00000000, 0x00000000, 0x00000000, false⟩,
   ⟨0x190, 0x00000000, 0x00000000, 0x00000000, true⟩, ⟨0x1A0, 0x8FF701FF, 0x00000000, 0x00000000, false⟩,
   ⟨0x1A4, 0x00FFFFFF, 0x00000000, 0x00000000, false⟩, ⟨0x1A8, 0x8FF701FF, 0x00000000, 0x00000000, false⟩,
   ⟨0x1AC, 0x00FFFFFF, 0x00000000, 0x00000000, false⟩, ⟨0x1B0, 0x8FF701FF, 0x00000000, 0x00000000, false⟩,
   ⟨0x1B4, 0x00FFFFFF, 0x00000000, 0x00000000, false⟩, ⟨0x1B8, 0x8FF701FF, 0x00000000, 0x00000000, false⟩,
   ⟨0x1BC, 0x00FFFFFF, 0x00000000, 0x00000000, false⟩, ⟨0x1C0, 0x000003FF, 0x00000000, 0x00000000, false⟩]
def rowsQmgrj2 : List RegRow :=
  [⟨0x1C4, 0x9FFF7F07, 0x00000000, 0x00000000, false⟩, ⟨0x1C8, 0x01FFFFFF, 0x00000000, 0x00000000, false⟩,
   ⟨0x1CC, 0x03FFFFFF, 0x00000000, 0x00000000, false⟩, ⟨0x1D0, 0x00000000, 0x00000000, 0x00000000, false⟩,
   ⟨0x1D4, 0x00000000, 0x00000000, 0x00000000, false⟩, ⟨0x1E0, 0x00000000, 0x00000000, 0x00000000, true⟩,
   ⟨0x1E4, 0x00000000, 0x00000000, 0x00000000, true⟩, ⟨0x1E8, 0x00000000, 0x00000000, 0x00000000, false⟩]
def rowsQmgrj : List RegRow := rowsQmgrj0 ++ rowsQmgrj1 ++ rowsQmgrj2
def rowsSec0 : List RegRow :=
  [⟨0x100, 0x00000000, 0x00000000, 0x00000000, false⟩, ⟨0x104, 0x00000000, 0x00000001, 0x00000000, false⟩,
   ⟨0x108, 0x00000000, 0x00000000, 0x00000000, false⟩, ⟨0x10C, 0x00000000, 0x00000000, 0x00000000, false⟩,
   ⟨0x110, 0x00000000, 0x00000000, 0x00000000, false⟩, ⟨0x120, 0x00000FFF, 0x00000000, 0x00000000, false⟩,
   ⟨0x124, 0xFFFFFFFF, 0x00000000, 0x00000000, false⟩, ⟨0x128, 0xFFFFFFFF, 0x00000000, 0x00000000, false⟩,
   ⟨0x12C, 0x00000000, 0x00000000, 0x00000000, false⟩, ⟨0x130, 0x00000000, 0x00000000, 0x00000000, false⟩,
   ⟨0x134, 0x00000000, 0x00000000, 0x00000000, false⟩, ⟨0x140, 0x00003FFF, 0x00000000, 0x00000000, false⟩,
   ⟨0x144, 0x0000001F, 0x00000000, 0x00000000, false⟩, ⟨0x180, 0x00000000, 0x00000000, 0x00000000, true⟩,
   ⟨0x184, 0x00000000, 0x00000000, 0x00000000, true⟩, ⟨0x188, 0x00000000, 0x00000000, 0x00000000, true⟩,
   ⟨0x18C, 0x00000000, 0x00000000, 0x00000000, true⟩, ⟨0x190, 0x00000000, 0x00000000, 0x00000000, true⟩,
   ⟨0x194, 0x00000000, 0x00000000, 0x00000000, true⟩]
def rowsSec : List RegRow := rowsSec0
def rowsFltag0 : List RegRow :=
  [⟨0x100, 0x00000000, 0x00000000, 0x00000000, false⟩, ⟨0x104, 0x00000000, 0x00000001, 0x00000000, false⟩,
   ⟨0x108, 0x0000FFFF, 0x00000000, 0x00000000, false⟩, ⟨0x10C, 0x000003FF, 0x00000000, 0x0000000A, false⟩,
   ⟨0x110, 0x00000000, 0x00000000, 0x00000000, false⟩, ⟨0x114, 0x0000FFFF, 0x00000000, 0x00000000, false⟩,
   ⟨0x118, 0x0000FFFF, 0x00000000, 0x00000000, false⟩, ⟨0x120, 0x00000000, 0x00000000, 0x00000000, false⟩,
   ⟨0x124, 0x00000000, 0x00000000, 0x00000000, false⟩, ⟨0x128, 0x00000000, 0x00000000, 0x00000000, false⟩,
   ⟨0x12C, 0x00000000, 0x00000000, 0x00000000, false⟩, ⟨0x130, 0x00000000, 0x00000000, 0x00000000, false⟩,
   ⟨0x134, 0x00000000, 0x00000000, 0x00000000, false⟩, ⟨0x138, 0x00000000, 0x00000000, 0x00000000, false⟩,
   ⟨0x13C, 0x00000000, 0x00000000, 0x00000000, false⟩, ⟨0x140, 0x0000003F, 0x00000000, 0x00000000, false⟩,
   ⟨0x144, 0x00000000, 0x00000000, 0x00000000, false⟩, ⟨0x148, 0x00000000, 0x00000000, 0x00000000, false⟩,
   ⟨0x14C, 0x00000000, 0x00000000, 0x00000000, false⟩, ⟨0x150, 0x00000000, 0x00000000, 0x00000000, false⟩]
def rowsFltag1 : List RegRow :=
  [⟨0x154, 0x00000000, 0x00000000, 0x00000000, false⟩, ⟨0x158, 0x00000000, 0x00000000, 0x00000000, false⟩,
   ⟨0x15C, 0x00000000, 0x00000000, 0x00000000, false⟩, ⟨0x180, 0x00000000, 0x00000000, 0x00000000, true⟩,
   ⟨0x184, 0x00000000, 0x00000000, 0x00000000, true⟩, ⟨0x188, 0x00000000, 0x00000000, 0x00000000, true⟩,
   ⟨0x18C, 0x00000000, 0x00000000, 0x00000000, true⟩, ⟨0x190, 0x00000000, 0x00000000, 0x00000000, true⟩]
def rowsFltag : List RegRow := rowsFltag0 ++ rowsFltag1
def rowsPwr0 : List RegRow :=
  [⟨0x100, 0x00000000, 0x00000000, 0x00000000, false⟩, ⟨0x104, 0x00000000, 0x00000000, 0x00400000, false⟩,
   ⟨0x108, 0x00000FFF, 0x00000000, 0x00000E10, false⟩, ⟨0x10C, 0x00000000, 0x00000000, 0x00000000, false⟩,
   ⟨0x110, 0x00000000, 0x00000000, 0x00000000, false⟩, ⟨0x120, 0x00000000, 0x00000000, 0x00000000, false⟩,
   ⟨0x124, 0x00000000, 0x00000000, 0x00000000, false⟩, ⟨0x128, 0x00000000, 0x00000000, 0x00000000, false⟩,
   ⟨0x12C, 0x00000000, 0x00000000, 0x00000000, false⟩, ⟨0x140, 0x00000000, 0x00000000, 0x00000000, false⟩,
   ⟨0x144, 0x00000000, 0x00000000, 0x00000000, false⟩, ⟨0x148, 0x00000000, 0x00000000, 0x00000000, false⟩,
   ⟨0x14C, 0x00000000, 0x00000000, 0x00000000, false⟩, ⟨0x150, 0x00000000, 0x00000000, 0x00000000, false⟩,
   ⟨0x154, 0x00000000, 0x00000000, 0x00000000, false⟩, ⟨0x158, 0x00000000, 0x00000000, 0x00000000, false⟩,
   ⟨0x15C, 0x00000000, 0x00000000, 0x00000000, false⟩, ⟨0x160, 0x00000000, 0x00000000, 0x00000000, false⟩,
   ⟨0x164, 0x00000000, 0x00000000, 0x00000000, false⟩, ⟨0x168, 0x00000000, 0x00000000, 0x00000000, false⟩]
def rowsPwr1 : List RegRow :=
  [⟨0x16C, 0x00000000, 0x00000000, 0x00000000, false⟩, ⟨0x170, 0x00000000, 0x00000000, 0x00000000, false⟩,
   ⟨0x174, 0x00000000, 0x00000000, 0x00000000, false⟩, ⟨0x178, 0x00000000, 0x00000000, 0x00000000, false⟩,
   ⟨0x17C, 0x00000000, 0x00000000, 0x00000000, false⟩, ⟨0x180, 0x00000000, 0x00000000, 0x00000000, false⟩,
   ⟨0x1A0, 0x00000000, 0x00000000, 0x00000000, true⟩, ⟨0x1A4, 0x00000000, 0x00000000, 0x00000000, true⟩,
   ⟨0x1A8, 0x00000000, 0x00000000, 0x00000000, true⟩, ⟨0x1AC, 0x00000000, 0x00000000, 0x00000000, true⟩,
   ⟨0x1B0, 0x00000000, 0x00000000, 0x00000000, true⟩]
def rowsPwr : List RegRow := rowsPwr0 ++ rowsPwr1
def rowsBoot0 : List RegRow :=
  [⟨0x100, 0x00000000, 0x00000000, 0x00000000, false⟩, ⟨0x104, 0x00000000, 0x00000000, 0x00000000, false⟩,
   ⟨0x108, 0xFFFFFFFF, 0x00000000, 0x00000000, false⟩, ⟨0x10C, 0xFFFFFFFF, 0x00000000, 0x00000000, false⟩,
   ⟨0x110, 0x00FFFFFF, 0x00000000, 0x00000000, false⟩, ⟨0x114, 0x00000000, 0x00000000, 0x00000000, false⟩,
   ⟨0x118, 0x00000000, 0x00000000, 0x00000000, false⟩, ⟨0x11C, 0x00000000, 0x00000000, 0x00000000, false⟩,
   ⟨0x130, 0x00000000, 0x00000000, 0x00000000, true⟩, ⟨0x134, 0x00000000, 0x00000000, 0x00000000, true⟩]
def rowsBoot : List RegRow := rowsBoot0
def rowsDev0 : List RegRow :=
  [⟨0x100, 0x00000002, 0x00000000, 0x00000000, false⟩, ⟨0x104, 0x00000000, 0x00000000, 0x00000000, false⟩,
   ⟨0x108, 0x00000000, 0x00000000, 0x00000000, false⟩, ⟨0x10C, 0x0000003F, 0x00000000, 0x00000000, false⟩,
   ⟨0x110, 0x00000000, 0x00000000, 0x00000001, false⟩, ⟨0x114, 0x00000000, 0x00000000, 0x00000000, false⟩,
   ⟨0x118, 0x00000000, 0x00000000, 0x00000000, false⟩, ⟨0x11C, 0x00000000, 0x00000000, 0x00000000, false⟩,
   ⟨0x120, 0x00000000, 0x00000000, 0x00000000, false⟩, ⟨0x124, 0x00000000, 0x00000000, 0x00000000, false⟩,
   ⟨0x130, 0x00000000, 0x00000000, 0x00000001, false⟩, ⟨0x134, 0x00000000, 0x00000000, 0x00000000, true⟩]
def rowsDev : List RegRow := rowsDev0

/-! ### Pages (R490, R500) -/

/-- The block of a page of a die; none for a page the table "Block pages" does not list. -/
def blkAt (die page : Nat) : Option Blk :=
  if die < 48 then
    if page < 6 then some .core else if page = 16 then some .cdie else if page = 17 then some .comet
    else if page = 18 then some .quill else none
  else if die < 56 then
    if page < 8 then some .gddr else if page = 16 then some .memd else if page = 17 then some .wcb
    else if page = 18 then some .inkwell else none
  else if die < 60 then
    if page < 6 then some .fabp else if page = 16 then some .fabr
    else if die = 56 && page = 17 then some .time else none
  else if die = 60 then
    if page = 0 then some .pcie else if page = 1 then some .sec else if page = 2 then some .boot
    else if page = 3 then some .fltag else if page = 4 then some .dev else if page = 0x100 then some .qmgr
    else if 0x200 ≤ page && page < 0x300 then some .qmgrJ else none
  else if die = 61 then
    if page = 0 then some .pcie else if page = 1 then some .pwr else if page = 0x100 then some .qmgr else none
  else if die < 64 then
    if page < 16 then some .onfi else if page = 16 then some .ftl else none
  else none

def blkType : Blk → Nat
  | .core => 0x10 | .cdie => 0x13 | .comet => 0x11 | .quill => 0x12 | .gddr => 0x23 | .memd => 0x20
  | .wcb => 0x21 | .inkwell => 0x22 | .fabp => 0x30 | .fabr => 0x31 | .time => 0x32 | .pcie => 0x40
  | .sec => 0x42 | .boot => 0x45 | .fltag => 0x43 | .dev => 0x46 | .pwr => 0x44 | .qmgr => 0x41
  | .qmgrJ => 0x41 | .onfi => 0x51 | .ftl => 0x50

/-- INSTANCE of a page (R500). -/
def blkInst (die page : Nat) : Nat :=
  match blkAt die page with
  | some .core => die * 6 + page
  | some .cdie | some .comet | some .quill => die
  | some .gddr => (die - 48) * 8 + page
  | some .memd | some .wcb | some .inkwell => die - 48
  | some .fabp => (die - 56) * 6 + page
  | some .fabr => die - 56
  | some .pcie | some .qmgr => die - 60
  | some .qmgrJ => 0x100 + (page - 0x200)
  | some .onfi => (die - 62) * 16 + page
  | some .ftl => die - 62
  | _ => 0

/-- BLK_ID (R497). -/
def blkIdOf (die page : Nat) : Nat :=
  match blkAt die page with
  | some b => blkType b * 2 ^ 24 + die * 2 ^ 16 + blkInst die page
  | none => 0

/-- NSRC (14 R436). -/
def blkNsrc : Blk → Nat
  | .core => 7 | .comet => 3 | .quill => 2 | .cdie => 2 | .memd => 2 | .wcb => 1 | .inkwell => 1 | .gddr => 5
  | .fabp => 4 | .fabr => 5 | .time => 4 | .pcie => 5 | .qmgr => 4 | .qmgrJ => 0 | .sec => 5 | .fltag => 8
  | .pwr => 8 | .boot => 5 | .dev => 2 | .ftl => 6 | .onfi => 2
/-- NEVT (R498). -/
def blkNevt : Blk → Nat
  | .dev | .pwr | .boot | .sec | .inkwell => 1
  | .fabr => 3
  | _ => 0
/-- BLK_CTRL.RST_REQ is implemented (R476, R497). -/
def blkRstCtl : Blk → Bool
  | .dev | .pwr | .boot | .qmgr | .qmgrJ | .sec | .fltag => false
  | _ => true
/-- BLK_CTRL.PWR_REQ is implemented. -/
def blkPwrCtl : Blk → Bool
  | .cdie => true
  | _ => false
/-- BLK_CAP. -/
def blkCapOf (b : Blk) : Nat :=
  b2n (blkPwrCtl b) * 2 ^ 17 + b2n (blkRstCtl b) * 2 ^ 16 + blkNevt b * 16 + blkNsrc b

/-- Sources of a block whose default reaction is Log only, as bits. -/
def logOnly : Blk → Nat
  | .core => 0x40 | .cdie => 0x02 | .gddr => 0x08 | .ftl => 0x38 | .fabp => 0x02 | .fabr => 0x0C | .time => 0x08
  | .pcie => 0x18 | .sec => 0x0A | .fltag => 0x82 | .boot => 0x05 | .pwr => 0x48 | .dev => 0x01
  | _ => 0
/-- Sources whose default reaction is Non-maskable trap (R438), as bits. -/
def trapSrc : Blk → Nat
  | .gddr => 0x02 | .sec => 0x10 | .fltag => 0x38
  | _ => 0

/-- The reset value of FLT_REACT (R438): the default reaction of each source, and ERR from Non-maskable trap on. -/
def reactReset (b : Blk) : Nat :=
  ((List.range (blkNsrc b)).map (fun s =>
    (if (trapSrc b).testBit s then 10 else if (logOnly b).testBit s then 0 else 1) * 16 ^ s)).foldl (· + ·) 0

def rowsOf : Blk → List RegRow
  | .core => rowsCore | .cdie => rowsCdie | .comet => rowsComet | .quill => rowsQuill | .gddr => rowsGddrCh
  | .memd => rowsMemd | .wcb => rowsWcb | .inkwell => rowsInkwell | .fabp => rowsFabp | .fabr => rowsFabr
  | .time => rowsTime | .pcie => rowsPcie | .sec => rowsSec | .boot => rowsBoot | .fltag => rowsFltag
  | .dev => rowsDev | .pwr => rowsPwr | .qmgr => rowsQmgr | .qmgrJ => rowsQmgrj | .onfi => rowsOnfiCh
  | .ftl => rowsFtl

/-- The row of a register of a block, header included. The semaphore counts of a CORE page are read only. -/
def findRow (b : Blk) (reg : Nat) : Option RegRow :=
  if b = .core && 0x200 ≤ reg && reg < 0x400 && reg % 4 = 0 then some ⟨reg, 0, 0, 0, false⟩
  else if reg < 0x100 then rowsHdr.find? (fun r => r.off == reg)
  else (rowsOf b).find? (fun r => r.off == reg)

/-! ### The register file -/

/-- The BAR0 offset of a register (R490). -/
def regOff (die page reg : Nat) : Nat := die * 2 ^ 22 + page * 2 ^ 12 + reg
def offDie (off : Nat) : Nat := bitsOf off 27 22
def offPage (off : Nat) : Nat := bitsOf off 21 12
def offReg (off : Nat) : Nat := bitsOf off 11 0

/-- The reset value of a register word (R499). -/
def resetWord (off : Nat) : Word :=
  match blkAt (offDie off) (offPage off) with
  | none => 0
  | some b =>
    if offReg off = 0x028 then BitVec.ofNat 32 (reactReset b)
    else match findRow b (offReg off) with
      | some r => BitVec.ofNat 32 r.rst
      | none => 0

/-- A register word of the sparse register file. -/
def raw (d : Dev) (off : Nat) : Nat := (SMap.getD d.regs off (resetWord off)).toNat
def setRaw (d : Dev) (off v : Nat) : Dev :=
  { d with regs := SMap.put d.regs off (BitVec.ofNat 32 v) (resetWord off) }

/-- A register word of a page. -/
def rg (d : Dev) (die page reg : Nat) : Nat := raw d (regOff die page reg)
def setRg (d : Dev) (die page reg v : Nat) : Dev := setRaw d (regOff die page reg) v

/-- A 64-bit register pair, LO at `reg`. -/
def rg64 (d : Dev) (die page reg : Nat) : Nat := rg d die page reg + 2 ^ 32 * rg d die page (reg + 4)
def setRg64 (d : Dev) (die page reg v : Nat) : Dev :=
  setRg (setRg d die page reg (v % 2 ^ 32)) die page (reg + 4) (v / 2 ^ 32 % 2 ^ 32)

/-- Counts n events; a counter saturates at its largest value (R131). -/
def bump (d : Dev) (die page reg n : Nat) : Dev :=
  setRg d die page reg (min (rg d die page reg + n) (2 ^ 32 - 1))
/-- Counts n on a 64-bit counter (R131). -/
def bump64 (d : Dev) (die page reg n : Nat) : Dev :=
  setRg64 d die page reg (min (rg64 d die page reg + n) (2 ^ 64 - 1))

/-- Returns a page to its reset values. -/
def resetPage (d : Dev) (die page : Nat) : Dev :=
  let lo := regOff die page 0
  { d with regs := SMap.keep d.regs (fun k _ => decide (k < lo) || decide (lo + 4096 ≤ k))
           latch := SMap.keep d.latch (fun k _ => decide (k < lo) || decide (lo + 4096 ≤ k)) }

/-- Returns the registers of a page from 0x100 on to their reset values: a block reset keeps the header's
FLT_* fields (15 R478). INT_STAT, INT_EN and BLK_CTRL reset with the block. -/
def resetBlockRegs (d : Dev) (die page : Nat) : Dev :=
  let lo := regOff die page 0
  { d with regs := SMap.keep d.regs (fun k _ =>
      decide (k < lo) || decide (lo + 4096 ≤ k) || (decide (lo + 0x020 ≤ k) && decide (k < lo + 0x080))) }

/-- CNT_CLR: sets every counter of a page to 0 (R130, R131). -/
def clearCounters (d : Dev) (die page : Nat) : Dev :=
  match blkAt die page with
  | none => d
  | some b =>
    { d with regs := SMap.keep d.regs (fun k _ =>
        !(offDie k == die && offPage k == page && decide (0x100 ≤ offReg k) &&
          (match findRow b (offReg k) with
           | some r => r.cnt
           | none => false))) }

/-! ### Places of often used pages -/

def pgPcie (p : HostPort) : Nat := match p with | .a => 60 | .b => 61
def portNo (p : HostPort) : Nat := match p with | .a => 0 | .b => 1
def qPage : Nat := 0x100
def jPage (j : Nat) : Nat := 0x200 + j
/-- A register of a job page (10 R331: pages 0x200 to 0x2FF of HC0). -/
def rj (d : Dev) (j reg : Nat) : Nat := rg d 60 (jPage j) reg
def setRj (d : Dev) (j reg v : Nat) : Dev := setRg d 60 (jPage j) reg v
def rj64 (d : Dev) (j reg : Nat) : Nat := rg64 d 60 (jPage j) reg
/-- A register of core n's page. -/
def rc (d : Dev) (n reg : Nat) : Nat := rg d (n / 6) (n % 6) reg
def setRc (d : Dev) (n reg v : Nat) : Dev := setRg d (n / 6) (n % 6) reg v
def fpDie (port : Nat) : Nat := 56 + port / 6
/-- A register of a Toruf port's page. -/
def rp (d : Dev) (port reg : Nat) : Nat := rg d (fpDie port) (port % 6) reg
def setRp (d : Dev) (port reg v : Nat) : Dev := setRg d (fpDie port) (port % 6) reg v
/-- The FABR register of FD0: the fabric router's registers are those of FD0's page (log 17). -/
def rf (d : Dev) (reg : Nat) : Nat := rg d 56 16 reg
def setRf (d : Dev) (reg v : Nat) : Dev := setRg d 56 16 reg v

/-- Records a DEV_BAR0_ERR_CNT event is Flags.lean's; the count itself is here (R491, R494). -/
def countBar0Err (d : Dev) : Dev := bump d 60 4 0x134 1

/-- Sets an event bit of a page's INT_STAT (R498). -/
def pageEvent (d : Dev) (die page bit : Nat) : Dev :=
  setRg d die page 0x080 (rg d die page 0x080 ||| 2 ^ bit)

/-- The module is held in reset: by MOD_RST_N, or by a power-loss sequence that has ended (15 R476; 17 R510). -/
def held (d : Dev) : Bool := d.modRst || d.pwr.heldInReset

/-- Appends what the module drives outwards. -/
def emit (d : Dev) (o : Out) : Dev := { d with out := d.out ++ [o] }

end Sys2Proof.Machine
end

