-- ==== Sys2Proof/Machine/Flags.lean ====
section
/-! DEFINITION. Fault flags: latching, first-error capture, reactions, reports to FLTAG, fabric fault reports,
the origin table, ERR_OUT_N (14 R439-R463), and the sending of packets on the Toruf ports that reports need
(11 R341, R342, R346-R354). -/

namespace Sys2Proof.Machine
open Sys2Proof

/-! ### Time and packets -/

/-- The integer nanoseconds of the time counter (11 R375, 14 R444). -/
def timeNs (d : Dev) : Nat := d.tim.ns / 2 ^ 32 % 2 ^ 64

def ownDid (d : Dev) : Nat := rf d 0x104
def mgrDid (d : Dev) : Nat := rf d 0x108

def fabPort (d : Dev) (p : Nat) : Port := SMap.getD d.fab.ports p downPort
def setPort (d : Dev) (p : Nat) (q : Port) : Dev :=
  { d with fab := { d.fab with ports := SMap.put d.fab.ports p q downPort } }

/-- Orbit mode in the sense of 15 R473. -/
def orbitMode (d : Dev) : Bool :=
  match d.orb.state with
  | .locking | .locked | .aligned | .running => true
  | _ => false

/-- The STAMP of a packet leaving now (R346). -/
def stampNow (d : Dev) : Nat := (if orbitMode d then d.orb.occ else d.now) % 65536

/-- Bytes of a packet (R343). -/
def pktBytes (p : Packet) : Nat := 16 + (if p.route.isSome then 16 else 0) + p.payload.length
/-- Credit units of a packet (R341). -/
def pktUnits (p : Packet) : Nat := ceilDiv (pktBytes p) 64

def creditOf (q : Port) (vc : Nat) : Nat :=
  match vc with
  | 0 => q.creditOrbit | 1 => q.creditBulk | 2 => q.creditMgmt | _ => q.creditTime
def takeCredit (q : Port) (vc n : Nat) : Port :=
  match vc with
  | 0 => { q with creditOrbit := q.creditOrbit - n }
  | 1 => { q with creditBulk := q.creditBulk - n }
  | 2 => { q with creditMgmt := q.creditMgmt - n }
  | _ => { q with creditTime := q.creditTime - n }

/-- A packet enters the transmitting link layer of a port: it is stamped, takes a link frame that the
transmitter keeps, and is counted (R339, R341, R346). The last 64 frames are kept. -/
def txNow (d : Dev) (port : Nat) (p : Packet) : Dev :=
  let q := fabPort d port
  let p' := if p.vc = 0 || p.vc = 3 then { p with stamp := stampNow d } else p
  let fr : TxFrame := ⟨q.txSeq, d.now, 0⟩
  let q' := { takeCredit q p.vc (pktUnits p) with
                txSeq := q.txSeq + 1
                unacked := (q.unacked ++ [fr]).drop (q.unacked.length + 1 - 64) }
  let d1 := setPort d port q'
  emit (bump d1 (fpDie port) (port % 6) 0x148 1) (.packet port p')

/-- Priority of a VC at a packet boundary: TIME, ORBIT, MGMT, BULK (R342). -/
def vcPrio : List Nat := [3, 0, 2, 1]

/-- Sends one waiting packet whose VC holds the credits, in the priority of R342, oldest first. -/
def drainOne (d : Dev) (port : Nat) : Option Dev :=
  let q := fabPort d port
  let ready (vc : Nat) : Option Packet :=
    match q.queued.find? (fun p => p.vc == vc) with
    | some p => if pktUnits p ≤ creditOf q vc then some p else none
    | none => none
  match vcPrio.findSome? ready with
  | some p => some (txNow (setPort d port { q with queued := q.queued.erase p }) port p)
  | none => none

/-- Sends waiting packets while credits allow. -/
def drainPort : Nat → Dev → Nat → Dev
  | 0, d, _ => d
  | n + 1, d, port =>
    match drainOne d port with
    | some d' => drainPort n d' port
    | none => d

/-- Queues a packet on a port and sends what the credits allow (R341, R342). -/
def sendPort (d : Dev) (port : Nat) (p : Packet) : Dev :=
  let q := fabPort d port
  drainPort (q.queued.length + 1) (setPort d port { q with queued := q.queued ++ [p] }) port

/-- Queued BULK credit units of a port (R353). -/
def bulkQueued (q : Port) : Nat := ((q.queued.filter (fun p => p.vc == 1)).map pktUnits).foldl (· + ·) 0

/-- The port a routed packet takes, and whether a BULK packet took the alternate (R353); none when the entry is
not valid or every port it names is down (R354). -/
def routePort (d : Dev) (vc dst : Nat) : Option (Nat × Bool) :=
  let e := SMap.getD d.fab.rt dst 0
  if !e.testBit 31 then none else
  let pr := bitsOf e 28 24
  let al := bitsOf e 20 16
  let pu := (fabPort d pr).up
  let au := e.testBit 30 && (fabPort d al).up
  if vc = 1 then
    if !pu then (if au then some (al, true) else none)
    else if au && decide (rf d 0x118 ≤ bulkQueued (fabPort d pr)) &&
        decide (bulkQueued (fabPort d al) < bulkQueued (fabPort d pr)) then some (al, true)
    else some (pr, false)
  else if pu then some (pr, false) else if au then some (al, false) else none

/-- The port number that stands for a packet the device sends to itself (log 19). -/
def loopPort : Nat := 24

/-- Sends a packet of this device toward its DST: none when no route exists (R353, R354). A group takes packets of the MGMT VC
alone; one is copied to every port of its entry's mask, and to this device when LOCAL = 1 (R352). -/
def sendRouted (d : Dev) (p : Packet) : Option Dev :=
  if p.dst = ownDid d then some (emit d (.packet loopPort p))
  else if p.dst ≥ 0x8000 then
    match SMap.get? d.fab.mc (p.dst % 4096) with
    | some e =>
      if e.valid && e.did = p.dst && p.vc == 2 then
        some ((setBits 24 e.ports).foldl (fun d port => if (fabPort d port).up then sendPort d port p else d)
          (if e.local_ then emit d (.packet loopPort { p with dst := ownDid d }) else d))
      else none
    | none => none
  else match routePort d p.vc p.dst with
    | some (port, alt) => some (sendPort (if alt then bump d 56 16 0x204 1 else d) port p)
    | none => none

/-! ### Capture and latching -/

/-- A detection by an internal check with no access (R443). -/
def noCap : Cap := ⟨0, 0, 0, none, 8, 0⟩

/-- FLT_MASTER of a capture. -/
def capMaster (c : Cap) : Nat :=
  c.cls * 2 ^ 28 + (match c.job with | some j => 2 ^ 24 + j * 2 ^ 16 | none => 0) + c.id % 65536
/-- FLT_ACCESS of a capture. -/
def capAccess (src : Nat) (c : Cap) : Nat := 2 ^ 31 + src * 2 ^ 24 + c.kind * 2 ^ 20 + min c.len 0xFFFF

def fltStat (d : Dev) (die page : Nat) : Nat := rg d die page 0x020

/-- The reaction code carried out (R445, R446; 15 R476: reaction 3 acts as 2 where block reset is ignored), and
whether the source's ERR bit has effect. -/
def reactionOf (d : Dev) (die page src : Nat) : Nat × Bool :=
  let r := rg d die page 0x028
  let masked := (rg d die page 0x024).testBit src
  let code := bitsOf r (4 * src + 2) (4 * src)
  let code := if masked && code ≠ 2 then 0 else code
  let code := if code = 3 && !(match blkAt die page with | some b => blkRstCtl b | none => false) then 2 else code
  (code, r.testBit (4 * src + 3) && !masked)

/-- R442, R441: one detection on a page: the bit, the capture or the merge count. -/
def markPage (d : Dev) (die page src : Nat) (c : Cap) : Dev :=
  let held := (rg d die page 0x03C).testBit 31
  let d1 := setRg d die page 0x020 (fltStat d die page ||| 2 ^ src)
  if held then bump d1 die page 0x048 1
  else
    let d2 := setRg64 d1 die page 0x030 c.addr
    let d3 := setRg d2 die page 0x038 (capMaster c)
    let d4 := setRg d3 die page 0x03C (capAccess src c)
    let d5 := setRg64 d4 die page 0x040 (timeNs d)
    setRg d5 die page 0x048 0

/-- The report of a source whose bit went from 0 to 1 (R453). -/
def reportOf (d : Dev) (die page src : Nat) (c : Cap) : Rec :=
  let held := (rg d die page 0x03C).testBit 31
  let (code, err) := reactionOf d die page src
  { blk := blkIdOf die page, src := src, reaction := code,
    masked := (rg d die page 0x024).testBit src, err := err || code == 4, origin := false, time := timeNs d,
    addr := if held then 0 else c.addr % 2 ^ 64, master := if held then 0 else capMaster c,
    access := if held then 0 else capAccess src c }

/-- Puts a report on its way from a die's collector (R453). -/
def queueReport (d : Dev) (die : Nat) (r : Rec) : Dev :=
  { d with flt := { d.flt with
      reports := SMap.insert d.flt.reports die (SMap.getD d.flt.reports die [] ++ [r]) } }

/-- Reactions 3 and 4: a block reset or a device reset is requested (R445, R450, R451; log 18). -/
def requestResets (d : Dev) (die page code : Nat) : Dev :=
  if code = 3 then { d with flt := { d.flt with blkRst := NSet.add d.flt.blkRst (die * 1024 + page) } }
  else if code = 4 then
    { d with flt := { d.flt with errHold := true }
             rst := match d.rst with
               | some r => some r
               | none => some ⟨4, blkIdOf die page, d.now⟩ }
  else d

/-- Latching of one source (R439-R445): answers the reaction carried out on a 0 to 1 transition. -/
def latchCore (d : Dev) (die page src : Nat) (c : Cap) : Dev × Option Nat :=
  let d1 := markPage d die page src c
  if (fltStat d die page).testBit src then (d1, none)
  else
    let r := reportOf d die page src c
    (requestResets (queueReport d1 die r) die page r.reaction, some r.reaction)

/-- What a fabric fault report says beside its origin and kind (R459): port, BLK_ID, source bit, address. -/
def reportPacket (d : Dev) (origin kind port blk src addr : Nat) : Packet :=
  { typ := 15, vc := 2, sealed := false, dst := rg d 60 3 0x108, src := ownDid d, ttl := 63, tag := 0, addr := 0,
    stamp := 0, route := none,
    payload := leBytes 2 origin ++ [kind, port] ++ leBytes 4 0 ++ leBytes 8 (timeNs d) ++ leBytes 4 blk
      ++ [src] ++ leBytes 3 0 ++ leBytes 8 addr }

/-- FLTAG_HOLD in nanoseconds. -/
def holdNs (d : Dev) : Nat := rg d 60 3 0x10C * 1000000

/-- The device a report is sent to, none when no reports are sent (16, FLTAG_RPT_DID). -/
def rptDid (d : Dev) : Option Nat :=
  let x := rg d 60 3 0x108
  if x = 0 || x ≥ 0x8000 then none else some x

/-- R460: may a report for this pair be sent now? -/
def rptAllowed (d : Dev) (origin kind : Nat) : Bool :=
  let t := timeNs d
  let recent := d.flt.sentAt.filter (fun x => decide (t < x + 1000000))
  (match SMap.get? d.flt.sentRpt (origin * 8 + kind) with
   | some l => decide (l + holdNs d ≤ t)
   | none => true) && decide (recent.length < 64)

/-- Takes a report into the origin table (R462): the new table and the FLTAG source that latches, if any. -/
def originTake (d : Dev) (origin kind reporter : Nat) : Dev × Option (Nat × Cap) :=
  let t := timeNs d
  let bit := 2 ^ (kind - 1)
  match d.flt.org.find? (fun e => e.2.origin == origin) with
  | some (k, e) =>
    let e' : OrgEnt := { e with count := min (e.count + 1) (2 ^ 32 - 1), kinds := e.kinds ||| bit, last := t }
    ({ d with flt := { d.flt with org := SMap.insert d.flt.org k e' } }, none)
  | none =>
    match (List.range 64).find? (fun k => !SMap.has d.flt.org k) with
    | some k =>
      ({ d with flt := { d.flt with org := SMap.insert d.flt.org k ⟨origin, bit, 1, t, t, reporter⟩ } },
       some (0, ⟨origin, 7, reporter, none, 0, 0⟩))
    | none => (d, some (1, ⟨origin, 7, reporter, none, 0, 0⟩))

/-- R459: a report that is discarded on receipt. -/
def rptValid (origin kind : Nat) : Bool :=
  decide (1 ≤ origin) && decide (origin < 0x8000) && decide (1 ≤ kind) && decide (kind ≤ 6)

/-- The report kind and origin DID of a latched source (R458): LINK_DOWN, LINK_AUTH, ORBIT_LOCK_LOST,
TIME_SYNC_LOST. Answers kind, origin, reporting port. -/
def fabKind (d : Dev) (die page src : Nat) : Option (Nat × Nat × Nat) :=
  match blkAt die page with
  | some .fabp =>
    let port := blkInst die page
    if src = 0 then some (1, (fabPort d port).peerDid, port)
    else if src = 2 then some (2, (fabPort d port).peerDid, port)
    else none
  | some .fabr =>
    if src = 0 && (d.orb.cause = 1 || d.orb.cause = 3) then
      let up := bitsOf (rf d 0x1C0) 12 8
      some (4, (fabPort d up).peerDid, up)
    else none
  | some .time =>
    if src = 0 then
      let up := bitsOf (rg d 56 17 0x100) 12 8
      some (5, (fabPort d up).peerDid, up)
    else none
  | _ => none

/-- R458-R460: a report is sent, or a limit drops it; answers whether RPT_DROP latches. A device with DID 0 sends none
(R347), and one that no port can carry is lost. -/
def sendReport (d : Dev) (origin kind port blk src addr : Nat) : Dev × Bool :=
  match rptDid d with
  | none => (d, false)
  | some _ =>
    if !rptAllowed d origin kind then (bump d 60 3 0x190 1, true)
    else if ownDid d = 0 then (d, false)
    else
      let t := timeNs d
      match sendRouted d (reportPacket d origin kind port blk src addr) with
      | some d' =>
        (bump { d' with flt := { d'.flt with
            sentRpt := SMap.insert d'.flt.sentRpt (origin * 8 + kind) t
            sentAt := (d'.flt.sentAt.filter (fun x => decide (t < x + 1000000))) ++ [t] } } 60 3 0x188 1, false)
      | none => (d, false)

/-- Latches a source with everything that follows from it: the reaction, and the fabric reports of R458 with the
origin table of this device (R462). `n` bounds the chain of latchings that reports cause; each needs a FLTAG
source whose bit was clear, so four suffice. -/
def latchN : Nat → Dev → Nat → Nat → Nat → Cap → Dev
  | 0, d, die, page, src, c => (latchCore d die page src c).1
  | n + 1, d, die, page, src, c =>
    match latchCore d die page src c with
    | (d1, none) => d1
    | (d1, some code) =>
      let blk := blkIdOf die page
      let one (d : Dev) (kind origin port : Nat) (addr : Nat) : Dev :=
        let d2 := match sendReport d origin kind port blk src addr with
          | (d', true) => latchN n d' 60 3 7 noCap
          | (d', false) => d'
        if rptValid origin kind then
          match originTake d2 origin kind (ownDid d) with
          | (d3, some (s, cap)) => latchN n d3 60 3 s cap
          | (d3, none) => d3
        else d2
      let d2 := match fabKind d1 die page src with
        | some (kind, origin, port) => one d1 kind origin port c.addr
        | none => d1
      if code = 3 || code = 4 then one d2 6 (ownDid d2) 0xFF c.addr else d2

/-- Latches a source of a page (R439). -/
def latch (d : Dev) (die page src : Nat) (c : Cap) : Dev := latchN 4 d die page src c

/-- Reports an event of R458 kind 3: a request to a device ended as UNREACHABLE or TTL. -/
def reportRequest (d : Dev) (origin : Nat) : Dev :=
  let d2 := match sendReport d origin 3 0xFF 0 0 0 with
    | (d', true) => latch d' 60 3 7 noCap
    | (d', false) => d'
  if rptValid origin 3 then
    match originTake d2 origin 3 (ownDid d) with
    | (d3, some (s, cap)) => latch d3 60 3 s cap
    | (d3, none) => d3
  else d2

/-! ### Named latchings -/

/-- The master of a register or BAR access (R443). -/
def accCap (a : Acc) (addr kind len : Nat) : Cap :=
  match a with
  | .pf p => ⟨addr, 6, portNo p * 256, none, kind, len⟩
  | .vf p n => ⟨addr, 6, portNo p * 256 + n.val, none, kind, len⟩
  | .jtag => ⟨addr, 0, 0, none, kind, len⟩
  | .firmware => ⟨addr, 8, 0, none, kind, len⟩

/-- A BAR0 access error: counted, and REG_ACCESS latches (16 R491, R494, R501). -/
def bar0Error (d : Dev) (a : Acc) (off : Nat) : Dev := latch (countBar0Err d) 60 4 0 (accCap a off 2 4)

/-- A fault of a job's work on a core. -/
def coreCap (core : Nat) (job : Option Nat) (addr kind len : Nat) : Cap := ⟨addr, 1, core, job, kind, len⟩
def latchCoreSrc (d : Dev) (core src : Nat) (c : Cap) : Dev := latch d (core / 6) (core % 6) src c

/-! ### Clearing (R440, R441, R443) -/

/-- ARITH cycles of 16 sync intervals, 125 ms: logSyncInterval −7 (11 R376, R377). -/
def syncLossCycles : Nat := 131250000

/-- Does the cause of a condition source persist (R439, table "Condition sources")? -/
def condPersists (d : Dev) (die page src : Nat) : Bool :=
  match blkAt die page with
  | some .gddr =>
    let step := bitsOf (rg d die page 0x100) 18 17
    (src == 3 && decide (1 ≤ step)) || (src == 4 && step == 2)
  | some .ftl =>
    (src == 1 && (rg d die page 0x104).testBit 3) || (src == 2 && (rg d die page 0x104).testBit 4)
  | some .fabp =>
    src == 0 && (rg d die page 0x100).testBit 0 && !(fabPort d (blkInst die page)).up
  | some .pcie => src == 0 && (if die = 60 then d.pcieA.hostLost else d.pcieB.hostLost)
  | some .fabr => src == 0 && d.orb.state == .lost
  | some .time =>
    let c := rg d 56 17 0x100
    (src == 0 && !c.testBit 1 && c.testBit 4 && decide (d.tim.lastSync + syncLossCycles ≤ d.now))
      || (src == 1 && c.testBit 2 && !d.tim.ppsOk) || (src == 2 && c.testBit 3 && !d.tim.refOk)
  | some .sec => src == 4 && d.sec.fuseErr
  | some .fltag => src == 3 && !d.flt.lost.isEmpty
  | _ => false

/-- A W1C write of FLT_STAT: each bit clears unless its cause persists; VALID clears when FLT_STAT becomes all
zero (R440, R441). -/
def clearStat (d : Dev) (die page mask : Nat) : Dev :=
  let st := fltStat d die page
  let st' := ((List.range 8).map (fun s =>
    if st.testBit s && (!mask.testBit s || condPersists d die page s) then 2 ^ s else 0)).foldl (· + ·) 0
  let d1 := setRg d die page 0x020 st'
  if st' = 0 then setRg d1 die page 0x03C (rg d die page 0x03C % 2 ^ 31) else d1

/-! ### ERR_OUT_N and the summaries -/

/-- ERR_OUT_N is driven low (R447). -/
def errOutLow (d : Dev) : Bool :=
  d.flt.errHold || d.regs.any (fun e =>
    offReg e.1 == 0x020 && (List.range 8).any (fun s =>
      e.2.toNat.testBit s && (reactionOf d (offDie e.1) (offPage e.1) s).2))

/-- DEV_FLT_SUM: bit d, die d has a page with FLT_STAT non-zero. -/
def fltSum (d : Dev) : Nat :=
  ((List.range 64).map (fun die =>
    if d.regs.any (fun e => offReg e.1 == 0x020 && offDie e.1 == die && e.2 != 0) then 2 ^ die else 0)).foldl
      (· + ·) 0
/-- DEV_EVT_SUM: bit d, die d has a page with INT_STAT AND INT_EN non-zero. -/
def evtSum (d : Dev) : Nat :=
  ((List.range 64).map (fun die =>
    if d.regs.any (fun e => offReg e.1 == 0x080 && offDie e.1 == die
        && (e.2.toNat &&& raw d (e.1 + 4)) != 0) then 2 ^ die else 0)).foldl (· + ·) 0

/-! ### The package log (R454, R455, R457, 16 R502, R503) -/

/-- An unread record is flagged when its ORIGIN bit is 0 and its REACTION is 1 or more (16 R503). -/
def flagged (r : Rec) : Bool := !r.origin && decide (1 ≤ r.reaction)

/-- R455: appends a record; a record that finds the log full is discarded, and LOG_OVERFLOW latches. -/
def logAppend (d : Dev) (r : Rec) : Dev :=
  if d.flt.log.length < 256 then
    bump { d with flt := { d.flt with log := d.flt.log ++ [r], logWr := (d.flt.logWr + 1) % 65536 } } 60 3 0x180 1
  else latch (bump d 60 3 0x184 1) 60 3 2 noCap

end Sys2Proof.Machine
end

