-- ==== Sys2Proof/Machine/Store.lean ====
section
/-! DEFINITION. The storage behind every tier: bytes, marks, GDDR7 lines, the inkwell caches, the write-combining buffers and
the flash maps (08 R235, R258-R262; 09 R263-R283, R291, R295). -/

namespace Sys2Proof.Machine
open Sys2Proof

/-! ### Bytes of the storage granules -/

/-- The canonical form of the byte list: keys strictly rising and no zero byte listed. -/
def memSortedFrom : Nat → List Host.Cell → Bool
  | _, [] => true
  | lo, (k, _) :: r => decide (lo ≤ k) && memSortedFrom (k + 1) r
def Memory.wf (m : List Host.Cell) : Bool := memSortedFrom 0 m && m.all (fun c => c.2 != 0)

/-- The cells of a byte string at an address, zero bytes left out. -/
def cellsAt : Nat → List Nat → List Host.Cell
  | _, [] => []
  | a, b :: r =>
    if BitVec.ofNat 8 b = 0 then cellsAt (a + 1) r else (a, BitVec.ofNat 8 b) :: cellsAt (a + 1) r

/-- Writes bytes at an address. -/
def memWrite (m : List Host.Cell) (a : Nat) (bs : List Nat) : List Host.Cell :=
  m.filter (fun c => decide (c.1 < a)) ++ cellsAt a bs ++ m.filter (fun c => decide (a + bs.length ≤ c.1))

/-- One byte: a byte that nothing has written reads zero (log 5). -/
def memByte (m : List Host.Cell) (a : Nat) : Nat :=
  match m.find? (fun c => c.1 == a) with
  | some c => c.2.toNat
  | none => 0

def memRead (m : List Host.Cell) (a n : Nat) : List Nat := (List.range n).map (fun i => memByte m (a + i))

def setBytes (d : Dev) (m : List Host.Cell) : Dev := { d with mem := { d.mem with bytes := m } }

/-! ### The write-combining buffer's view (09 R264, R272, R275) -/

/-- The memory die of a T2 storage granule. -/
def granDie (sid : Nat) : Nat := Config.physGranule sid % 64 / 8
/-- The 128 B line of a storage byte. -/
def lineOf (sid off : Nat) : Nat := sid * 32 + off / 128

def wcbFind (d : Dev) (md line : Nat) : Option WcbEnt := (SMap.getD d.ext.wcb md []).find? (fun e => e.line == line)

/-- One byte of a storage granule, merged with the WCB (R275). -/
def stByte (d : Dev) (sid off : Nat) : Nat :=
  match wcbFind d (granDie sid) (lineOf sid off) with
  | some e =>
    if e.mask.testBit (off % 128) then e.data / 256 ^ (off % 128) % 256 else memByte d.mem.bytes (sid * 4096 + off)
  | none => memByte d.mem.bytes (sid * 4096 + off)
def stRead (d : Dev) (sid off n : Nat) : List Nat := (List.range n).map (fun i => stByte d sid (off + i))

/-- Drops the WCB entries of lines that a write covers whole (R272). -/
def wcbDrop (d : Dev) (sid off n : Nat) : Dev :=
  let md := granDie sid
  let es := SMap.getD d.ext.wcb md []
  let keepE (e : WcbEnt) : Bool :=
    !(e.line / 32 == sid && decide (off ≤ e.line % 32 * 128) && decide (e.line % 32 * 128 + 128 ≤ off + n))
  if es.all keepE then d
  else { d with ext := { d.ext with wcb := SMap.put d.ext.wcb md (es.filter keepE) [] } }

/-- Writes bytes into a storage granule. -/
def stWrite (d : Dev) (sid off : Nat) (bs : List Nat) : Dev :=
  let d1 := wcbDrop d sid off bs.length
  setBytes d1 (memWrite d1.mem.bytes (sid * 4096 + off) bs)

/-! ### SEAL and POISON (08 R235, R258-R262) -/

def sealed (d : Dev) (sid : Nat) : Bool := NSet.mem d.mem.sealMk sid
def poisoned (d : Dev) (sid : Nat) : Bool := NSet.mem d.mem.poison sid
def setSeal (d : Dev) (sid : Nat) (b : Bool) : Dev :=
  { d with mem := { d.mem with
      sealMk := if b then NSet.add d.mem.sealMk sid else NSet.del d.mem.sealMk sid } }
def setPoison (d : Dev) (sid : Nat) (b : Bool) : Dev :=
  { d with mem := { d.mem with
      poison := if b then NSet.add d.mem.poison sid else NSet.del d.mem.poison sid } }

/-- What a write does to the marks of its granule (R260, R261): a whole granule takes the source's SEAL and
clears POISON; a part sets SEAL only from a sealed source. -/
def writeMarks (d : Dev) (sid off n : Nat) (fromSealed : Bool) : Dev :=
  if off = 0 && n = 4096 then setPoison (setSeal d sid fromSealed) sid false
  else if fromSealed then setSeal d sid true else d

/-! ### Granules by name (log 5) -/

/-- A granule of a scratchpad; its storage granule has the same number. -/
def gT0 (core g : Nat) : Nat := core * scratchGrans + g
/-- A granule of something in a tier: kind 1, 2, 4 an object copy; 8 a page; 9 its T1 copy; 10 a slot's T2 image;
11 a save area. -/
def gKey (kind id g : Nat) : Nat := (kind * 2 ^ 32 + id) * 2 ^ 32 + g
def gIsT0 (k : Nat) : Bool := decide (k < 2 ^ 32)
def gKind (k : Nat) : Nat := k / 2 ^ 64
def gId (k : Nat) : Nat := k / 2 ^ 32 % 2 ^ 32

def rootOf (d : Dev) (k : Nat) : Option Nat := if gIsT0 k then some k else SMap.get? d.mem.roots k
def setRoot (d : Dev) (k sid : Nat) : Dev := { d with mem := { d.mem with roots := SMap.insert d.mem.roots k sid } }

/-- Names a fresh storage granule. -/
def newGran (d : Dev) : Dev × Nat :=
  ({ d with mem := { d.mem with granCtr := d.mem.granCtr + 1 } }, 2 ^ 32 + d.mem.granCtr)

/-! ### The places of an upset -/

/-- The upset as the first place of a read sees it, as the places after it see it, and as place i sees it. -/
def evHere (ev : Upset) : Upset :=
  match ev with
  | .ce (_ + 1) | .ue (_ + 1) | .mirrorServe (_ + 1) | .at _ (_ + 1) => .none
  | e => e
def evDrop (ev : Upset) (n : Nat) : Upset :=
  match ev with
  | .ce k => if n ≤ k then .ce (k - n) else .none
  | .ue k => if n ≤ k then .ue (k - n) else .none
  | .mirrorServe k => if n ≤ k then .mirrorServe (k - n) else .none
  | .at e k => if n ≤ k then .at e (k - n) else .none
  | e => if n = 0 then e else .none
def evNext (ev : Upset) : Upset := evDrop ev 1
def evAt (ev : Upset) (i : Nat) : Upset :=
  match ev with
  | .ce k => if k = i then .ce 0 else .none
  | .ue k => if k = i then .ue 0 else .none
  | .mirrorServe k => if k = i then .mirrorServe 0 else .none
  | .at e k => if k = i then .at e 0 else .none
  | e => if i = 0 then e else .none
/-- The read is uncorrectable at its place (09 R267, R268, R298). -/
def isUE (ev : Upset) : Bool :=
  match ev with
  | .ue _ => true
  | .at .tag _ | .at .timeout _ | .at .buffer _ => true
  | .at (.crc n) _ => n == 4
  | _ => false

/-! ### GDDR7 lines (R263-R268) -/

def channelOf (sid : Nat) : Nat := Config.physGranule sid % 64
def chDie (c : Nat) : Nat := 48 + c / 8
def chPage (c : Nat) : Nat := c % 8
/-- What a fault source of a channel captures of a data line of a granule. -/
def lineCap (sid off : Nat) : Cap :=
  ⟨Config.physGranule sid * 64 + off / 64, 11, channelOf sid, none, 6, 64⟩

/-- The 34 check bits of a data line (table "Check bits of a data line"): TAG, POISON, SEAL and the code over them. -/
def checkBits (line : Nat) (data : Nat) (pois sl : Bool) : Nat :=
  let tagBits := line % 2 ^ 21 * 4 + b2n pois * 2 + b2n sl
  tagBits * 2 ^ 11 + (Config.secded data tagBits).toNat
/-- The segment of a channel-local data line, and its slot there; its check bits are bits 34 × slot to 34 × slot + 33 of the
segment's check line, whose bits [511:510] are zero (R265). -/
def lineSeg (line : Nat) : Nat × Nat := (line / 15, line % 15)
def checkLine (fields : List Nat) : Nat := (fields.take 15).zipIdx.foldl (fun s p => s + p.1 % 2 ^ 34 * 2 ^ (34 * p.2)) 0

/-- What a channel counts and latches when a line that it reads is bad, and whether the line is then uncorrectable (R267,
R268). -/
def lineRead (d : Dev) (ch : Nat) (c : Cap) (ev : Upset) : Dev × Bool :=
  let die := chDie ch
  let page := chPage ch
  let ue (d : Dev) (reg : Nat) : Dev := latch (if reg = 0 then d else bump d die page reg 1) die page 0 c
  match ev with
  | .ce _ => (bump d die page 0x130 1, false)
  | .ue _ => (ue d 0x134, true)
  | .at .tag _ => (ue d 0x138, true)
  | .at (.crc n) _ =>
    let d1 := bump d die page 0x13C (min 4 (n.val + 1))
    if n = 4 then (ue (latch d1 die page 2 c) 0x134, true) else (d1, false)
  | _ => (d, false)

/-! ### Inkwell cache (R279) -/

/-- The inkwell of a memory die is in CACHE mode (INKWELL_STAT.MODE = 1). -/
def inkCache (d : Dev) (md : Nat) : Bool := (rg d (48 + md) 18 0x104).testBit 8
def ink (d : Dev) (md : Nat) : Ink := SMap.getD d.ext.inks md idleInk
def setInk (d : Dev) (md : Nat) (x : Ink) : Dev := { d with ext := { d.ext with inks := SMap.put d.ext.inks md x idleInk } }

/-- The 128 B line of a memory die's channels that holds line l of a storage granule: granules are spread over the 64 channels,
eight of them the die's own (R264). -/
def dieLine (sid l : Nat) : Nat :=
  let g := Config.physGranule sid
  (g / 64 * 8 + g % 8) * 32 + l

/-- One access of a line through an inkwell in CACHE mode: least recently used replacement, write-back. -/
def cacheTouch (d : Dev) (md line : Nat) (write : Bool) : Dev :=
  if !inkCache d md then d
  else
    let x := ink d md
    let ways := SMap.getD x.sets (line % 294912) []
    let tag := line / 294912
    match ways.find? (fun w => w.tag == tag) with
    | some w =>
      let ws := ⟨tag, w.dirty || write⟩ :: ways.filter (fun v => v.tag != tag)
      bump (setInk d md { x with sets := SMap.put x.sets (line % 294912) ws [] }) (48 + md) 18 0x130 1
    | none =>
      let ws := ⟨tag, write⟩ :: ways
      let d1 := bump (setInk d md { x with sets := SMap.put x.sets (line % 294912) (ws.take 16) [] }) (48 + md) 18 0x134 1
      if (ws.drop 16).any (·.dirty) then bump d1 (48 + md) 18 0x138 1 else d1
/-- Lines l0 to l0 + n − 1 of a storage granule pass through the cache. -/
def cacheLines (d : Dev) (sid l0 n : Nat) (write : Bool) : Dev :=
  if !inkCache d (granDie sid) then d
  else (List.range n).foldl (fun d i => cacheTouch d (granDie sid) (dieLine sid (l0 + i)) write) d
/-- Some line of a granule is dirty in the cache. -/
def cacheDirty (d : Dev) (sid : Nat) : Bool :=
  inkCache d (granDie sid) && (List.range 32).any (fun l =>
    (SMap.getD (ink d (granDie sid)).sets (dieLine sid l % 294912) []).any (fun w =>
      w.tag == dieLine sid l / 294912 && w.dirty))

/-! ### Write-combining buffer (R272-R276, R295) -/

def wcbOf (d : Dev) (md : Nat) : List WcbEnt := SMap.getD d.ext.wcb md []
def setWcb (d : Dev) (md : Nat) (l : List WcbEnt) : Dev :=
  { d with ext := { d.ext with wcb := SMap.put d.ext.wcb md l [] } }
def wcbHeldOf (d : Dev) (md : Nat) : List WcbHeld := SMap.getD d.ext.wcbHeld md []
def setWcbHeld (d : Dev) (md : Nat) (l : List WcbHeld) : Dev :=
  { d with ext := { d.ext with wcbHeld := SMap.put d.ext.wcbHeld md l [] } }
def bumpWcb (d : Dev) (md reg n : Nat) : Dev := bump d (48 + md) 17 reg n

/-- Byte i of an entry. -/
def wcbByte (x i : Nat) : Nat := x / 256 ^ i % 256
/-- The bytes of y under mask m over those of x. -/
def wcbMerge (x y m : Nat) : Nat :=
  ofLeBytes ((List.range 128).map (fun i => if m.testBit i then wcbByte y i else wcbByte x i))

/-- Frees an entry after writing its bytes to GDDR7 (R274). -/
def wcbPut (d : Dev) (md : Nat) (e : WcbEnt) : Dev :=
  let m := (List.range 128).foldl (fun m i =>
    if e.mask.testBit i then memWrite m (e.line * 128 + i) [wcbByte e.data i] else m) d.mem.bytes
  setWcb (setBytes d m) md ((wcbOf d md).filter (fun x => x.line != e.line))

/-- Flushes an entry. A line that is uncorrectable when the flush reads it leaves the granule poisoned (R274); an
uncorrectable error in the entry itself does so too, and the entry is discarded (R295). -/
def wcbFlush (d : Dev) (md : Nat) (e : WcbEnt) (ev : Upset) : Dev :=
  let sid := e.line / 32
  let c := lineCap sid (e.line % 32 * 128)
  match ev with
  | .bufUE => latch (setPoison (setWcb d md ((wcbOf d md).filter (fun x => x.line != e.line))) sid true) (48 + md) 17 0 c
  | ev =>
    match lineRead d (channelOf sid) c ev with
    | (d1, true) => setPoison (wcbPut d1 md e) sid true
    | (d1, false) => wcbPut d1 md e

/-- Flushes a list of entries in order, counted in `reg` (none: 0); the places of the upset are the entries. -/
def wcbFlushList (md reg : Nat) : List WcbEnt → Upset → Dev → Dev
  | [], _, d => d
  | e :: r, ev, d =>
    let d1 := wcbFlush d md e (evHere ev)
    wcbFlushList md reg r (evNext ev) (if reg = 0 then d1 else bumpWcb d1 md reg 1)

/-- Flushes entries oldest first while more than `n` are held. -/
def wcbFlushTo (d : Dev) (md n : Nat) (ev : Upset) : Dev :=
  wcbFlushList md 0x140 ((wcbOf d md).take ((wcbOf d md).length - n)) ev d

/-- Flushes every entry of a memory die; a FENCE counts them, an inkwell mode change or a reset does not (R273). -/
def wcbFlushAll (d : Dev) (md : Nat) (count : Bool) (ev : Upset) : Dev :=
  wcbFlushList md (if count then 0x13C else 0) (wcbOf d md) ev d

/-- A partial write enters the WCB: it merges into a held line or allocates an entry; one that finds 1,024 entries
waits (R272, R276). The entries stand oldest first. A LOW at or above HIGH acts as HIGH − 1 (R273). -/
def wcbEnter (d : Dev) (md line mask data : Nat) (ev : Upset) : Dev :=
  match (wcbOf d md).find? (fun e => e.line == line) with
  | some e =>
    let e' : WcbEnt := { e with mask := e.mask ||| mask, data := wcbMerge e.data data mask }
    let d1 := bumpWcb (setWcb d md ((wcbOf d md).map (fun x => if x.line == line then e' else x))) md 0x130 1
    if e'.mask = 2 ^ 128 - 1 then bumpWcb (wcbFlush d1 md e' (evHere ev)) md 0x134 1 else d1
  | none =>
    if 1024 ≤ (wcbOf d md).length then
      setWcbHeld d md (wcbHeldOf d md ++ [⟨line, mask, data, d.now⟩])
    else
      let e : WcbEnt := ⟨line, mask, wcbMerge 0 data mask, d.now⟩
      let d1 := setWcb d md (wcbOf d md ++ [e])
      let hi := rg d1 (48 + md) 17 0x108 % 2048
      let lo := rg d1 (48 + md) 17 0x108 / 2 ^ 16 % 2048
      if hi ≤ (wcbOf d1 md).length then wcbFlushTo d1 md (if hi ≤ lo then hi - 1 else lo) ev else d1

/-- A write of part of a T2 storage granule: whole aligned lines go to GDDR7, partly covered ones enter the WCB, or the cached
line where the inkwell is a cache (R272, R279). -/
def t2Write (d : Dev) (sid off : Nat) (bs : List Nat) : Dev :=
  let md := granDie sid
  let n := bs.length
  let l0 := off / 128
  let l1 := (off + n + 127) / 128
  if inkCache d md then stWrite (cacheLines d sid l0 (l1 - l0) true) sid off bs
  else if off % 128 = 0 && n % 128 = 0 then stWrite d sid off bs
  else
    (List.range (l1 - l0)).foldl (fun d i =>
      let l := l0 + i
      let lo := max off (l * 128)
      let hi := min (off + n) (l * 128 + 128)
      let part := (bs.drop (lo - off)).take (hi - lo)
      if part.length = 128 then stWrite d sid (l * 128) part
      else if part.isEmpty then d
      else
        let sh := lo - l * 128
        let mask := (2 ^ part.length - 1) * 2 ^ sh
        let data := ofLeBytes part * 256 ^ sh
        if (wcbHeldOf d md).any (fun h => h.line == sid * 32 + l) then
          setWcbHeld d md (wcbHeldOf d md ++ [⟨sid * 32 + l, mask, data, d.now⟩])
        else wcbEnter d md (sid * 32 + l) mask data .none) d

/-- A granule that is stored in GDDR7: of a T2 copy, a page, a slot's image or a save area. -/
def inT2 (k : Nat) : Bool := !gIsT0 k && (gKind k == 2 || gKind k == 8 || gKind k == 10 || gKind k == 11)
/-- Writes bytes of the storage granule behind a granule of some kind. -/
def kWrite (d : Dev) (k sid off : Nat) (bs : List Nat) : Dev := if inT2 k then t2Write d sid off bs else stWrite d sid off bs

/-- Lines of a range that the WCB merges into a read, counted (R275); through a cache the lines are touched instead (R279). -/
def readLines (d : Dev) (sid off n : Nat) : Dev :=
  let md := granDie sid
  let held := ((wcbOf d md).filter (fun e => e.line / 32 == sid && decide (off < e.line % 32 * 128 + 128)
    && decide (e.line % 32 * 128 < off + n))).length
  let d1 := if held = 0 then d else bumpWcb d md 0x144 held
  cacheLines d1 sid (off / 128) ((off + n + 127) / 128 - off / 128) false

/-! ### Flash maps (R282, R283, R291) -/

def ftl (d : Dev) (sd : Nat) : Ftl := SMap.getD d.ext.ftl sd idleFtl
def setFtl (d : Dev) (sd : Nat) (x : Ftl) : Dev := { d with ext := { d.ext with ftl := SMap.put d.ext.ftl sd x idleFtl } }

/-- One change of a map: a unit takes a page, or is unmapped. -/
def mapPut (m : SMap Nat) (u : Nat) (p : Option Nat) : SMap Nat :=
  match p with
  | some q => SMap.insert m u q
  | none => SMap.erase m u
/-- Changes a map entry, of primary or secondary copies, and records the change in the journal (R283). A journal of 64 MiB, of
8 B for a change, is taken into a checkpoint (R289; log 6). -/
def mapChange (x : Ftl) (mirror : Bool) (u : Nat) (p : Option Nat) : Ftl :=
  let x1 : Ftl := if mirror then { x with mir := mapPut x.mir u p } else { x with map := mapPut x.map u p }
  if 2 ^ 23 ≤ x.journal.length then { x1 with ckMap := x1.map, ckMir := x1.mir, journal := [] }
  else { x1 with journal := x1.journal ++ [(mirror, u, p)] }
/-- The maps that the last checkpoint and the journal give (R291). -/
def replayJournal (x : Ftl) : SMap Nat × SMap Nat :=
  x.journal.foldl (fun m e => if e.1 then (m.1, mapPut m.2 e.2.1 e.2.2) else (mapPut m.1 e.2.1 e.2.2, m.2)) (x.ckMap, x.ckMir)
/-- The maps that a scan of the page headers gives: for each unit the committed page of the highest write sequence number. -/
def scanPages (x : Ftl) (mirror : Bool) : SMap Nat :=
  let best := x.pages.foldl (fun (m : SMap (Nat × Nat)) e =>
    if !e.2.committed || e.2.mirror != mirror then m
    else match SMap.get? m e.2.unit_ with
      | some b => if b.1 < e.2.wseq then SMap.insert m e.2.unit_ (e.2.wseq, e.1) else m
      | none => SMap.insert m e.2.unit_ (e.2.wseq, e.1)) []
  SMap.mapVals best (fun _ b => b.2)

/-- The units of something that is freed are unmapped. -/
def ftlUnmap (d : Dev) (kind id : Nat) : Dev :=
  let mine (u : Nat) : Bool := u / 2 ^ 30 == kind * 2 ^ 32 + id
  [0, 1].foldl (fun d sd =>
    let x := ftl d sd
    let us := (x.map.filter (fun e => mine e.1)).map (fun e => (false, e.1)) ++ (x.mir.filter (fun e => mine e.1)).map (fun e => (true, e.1))
    if us.isEmpty then d else setFtl d sd (us.foldl (fun x u => mapChange x u.1 u.2 none) x)) d
/-- A command's commit swaps the pages that it has programmed into the map (R283). -/
def ftlCommit (d : Dev) (uid : Nat) : Dev :=
  [0, 1].foldl (fun d sd =>
    let x := ftl d sd
    let mine := x.written.filter (fun w => w.uid == uid)
    if mine.isEmpty then d
    else
      let x1 := mine.foldl (fun x w =>
        let y := mapChange x w.mirror w.key (some w.page)
        match SMap.get? y.pages w.page with
        | some p => { y with pages := SMap.insert y.pages w.page { p with committed := true } }
        | none => y) x
      setFtl d sd { x1 with written := x1.written.filter (fun w => w.uid != uid) }) d
/-- A command that does not commit releases its pages, also those that are being programmed (R283). -/
def ftlDrop (d : Dev) (uid : Nat) : Dev :=
  [0, 1].foldl (fun d sd =>
    let x := ftl d sd
    if x.written.any (fun w => w.uid == uid) then setFtl d sd { x with written := x.written.filter (fun w => w.uid != uid) } else d) d

/-! ### Freeing -/

/-- Frees what a storage granule held: its bytes and marks. -/
def dropGran (d : Dev) (sid : Nat) : Dev :=
  let d1 := stWrite d sid 0 (List.replicate 4096 0)
  setPoison (setSeal d1 sid false) sid false

/-- Frees every granule of something whose name begins with kind and id. -/
def freeGrans (d : Dev) (kind id : Nat) : Dev :=
  let mine := d.mem.roots.filter (fun e => e.1 / 2 ^ 32 == kind * 2 ^ 32 + id)
  let d1 := mine.foldl (fun d e => dropGran d e.2) (if kind = 4 then ftlUnmap d kind id else d)
  { d1 with mem := { d1.mem with roots := SMap.keep d1.mem.roots (fun k _ => k / 2 ^ 32 != kind * 2 ^ 32 + id) } }

end Sys2Proof.Machine
end

