-- ==== Sys2Proof/Machine/Ops.lean ====
section
/-! DEFINITION. Named operations over memory, objects, quotas, jobs and commands (05 R135, R164, R165; 06 R192,
R193, R200; 08 R240-R262; 09 R264-R276; 10 R299-R319). -/

namespace Sys2Proof.Machine
open Sys2Proof

/-! ### Jobs and commands -/

def job (d : Dev) (j : Nat) : Job := SMap.getD d.qm.jobs j freeJob
def setJob (d : Dev) (j : Nat) (x : Job) : Dev := { d with qm := { d.qm with jobs := SMap.put d.qm.jobs j x freeJob } }
def cmd (d : Dev) (uid : Nat) : Option Cmd := SMap.get? d.qm.cmds uid
def setCmd (d : Dev) (uid : Nat) (c : Cmd) : Dev := { d with qm := { d.qm with cmds := SMap.insert d.qm.cmds uid c } }
def jobCmds (d : Dev) (j : Nat) : List (Nat × Cmd) := d.qm.cmds.filter (fun e => e.2.job == j)
def isActive (d : Dev) (j : Nat) : Bool := (job d j).state == 1
def jobPort (d : Dev) (j : Nat) : HostPort := if (job d j).port = 0 then .a else .b
def pcie (d : Dev) (p : HostPort) : Pcie := match p with | .a => d.pcieA | .b => d.pcieB
def setPcie (d : Dev) (p : HostPort) (x : Pcie) : Dev :=
  match p with
  | .a => { d with pcieA := x }
  | .b => { d with pcieB := x }
def sess (d : Dev) (s : Nat) : Sess := SMap.getD d.qm.sess s freeSess
/-- A session holds page lists: one that FREE_PAGES has emptied remains for its version alone (05 R161-R163). -/
def holdsLists (x : Sess) : Bool := x.lists.any (fun e => !e.2.ents.isEmpty)
/-- A session holds neither page lists nor tails. -/
def sessEmpty (x : Sess) : Bool := !holdsLists x && x.tails.isEmpty
def setSess (d : Dev) (s : Nat) (x : Sess) : Dev := { d with qm := { d.qm with sess := SMap.put d.qm.sess s x freeSess } }
def pst (d : Dev) (p : Nat) : Pst := SMap.getD d.qm.pst p freePst
def setPst (d : Dev) (p : Nat) (x : Pst) : Dev := { d with qm := { d.qm with pst := SMap.put d.qm.pst p x freePst } }
def slot (d : Dev) (s : Nat) : Slot := SMap.getD d.qm.slots s freeSlot
def setSlot (d : Dev) (s : Nat) (x : Slot) : Dev :=
  { d with qm := { d.qm with slots := SMap.put d.qm.slots s x freeSlot } }
def obj (d : Dev) (oid : Nat) : Option Obj := SMap.get? d.mem.objs oid
def core (d : Dev) (n : Nat) : CoreSt := SMap.getD d.cores n idleCore
def setCore (d : Dev) (n : Nat) (x : CoreSt) : Dev := { d with cores := SMap.put d.cores n x idleCore }

/-- Entries of a ring by its size field (10 R305). -/
def ringSize (f : Nat) : Nat := if f = 0 then 2 ^ 16 else if f < 4 then 2 ^ 4 else 2 ^ f
def sqSize (d : Dev) (j q : Nat) : Nat := ringSize (bitsOf (rj d j 0x150) (4 * q + 3) (4 * q))
def cqSize (d : Dev) (j : Nat) : Nat := ringSize (bitsOf (rj d j 0x150) 15 12)
def sqOf (x : Job) (q : Nat) : SQ := match q with | 0 => x.sq0 | 1 => x.sq1 | _ => x.sq2
def setSq (x : Job) (q : Nat) (s : SQ) : Job :=
  match q with
  | 0 => { x with sq0 := s }
  | 1 => { x with sq1 := s }
  | _ => { x with sq2 := s }

/-- Page bytes and granules of a job's KV pool (05 R135). -/
def poolCfg (d : Dev) (j p : Nat) : Nat := rj d j (0x1A0 + 8 * p)
def poolD (c : Nat) : Nat := bitsOf c 8 0
def poolG (c : Nat) : Nat := bitsOf c 18 16 + 1
def poolK (c : Nat) : Nat := bitsOf c 23 20
def poolV (c : Nat) : Nat := bitsOf c 27 24
def kTileGrans (fmtCode : Nat) : Nat := if fmtCode = 3 || fmtCode = 4 then 5 else 8
def headGrans (c : Nat) : Nat := ceilDiv (poolD c) 128 * (kTileGrans (poolK c) + 8)
def sumGrans (c : Nat) : Nat := ceilDiv (poolG c * (2 * poolD c + 4)) 4096
def pageGrans (c : Nat) : Nat := poolG c * headGrans c + sumGrans c

/-- Granules of one half of a slot of a comet layer (06 R191). -/
def halfGrans (cd : CometDecl) : Nat := ceilDiv (bitsOf cd.cfg0 28 16 * 512) 4096
def cometOf (d : Dev) (j layer : Nat) : CometDecl := SMap.getD (job d j).comets layer ⟨0, 0, 0⟩

/-! ### Objects, claims, usage (08 R241-R249) -/

def noCopy : CopySt := ⟨false, false, 0, 0, 0, 0⟩
def copyOf (o : Obj) (tier : Nat) : CopySt := match tier with | 1 => o.c1 | 2 => o.c2 | _ => o.c4
def setCopy (o : Obj) (tier : Nat) (c : CopySt) : Obj :=
  match tier with
  | 1 => { o with c1 := c }
  | 2 => { o with c2 := c }
  | _ => { o with c4 := c }
def setObj (d : Dev) (oid : Nat) (o : Obj) : Dev := { d with mem := { d.mem with objs := SMap.insert d.mem.objs oid o } }
def eraseObj (d : Dev) (oid : Nat) : Dev := { d with mem := { d.mem with objs := SMap.erase d.mem.objs oid } }
/-- A copy that a command may name: present, and not another command's uncommitted creation (R239, R240). -/
def copyFor (d : Dev) (uid oid tier : Nat) : Option (Obj × CopySt) :=
  match obj d oid with
  | some o =>
    let c := copyOf o tier
    if c.present && (c.newBy == 0 || c.newBy == uid) then some (o, c) else none
  | none => none
def claims (c : CopySt) (j : Nat) : Bool := c.claims.getLsbD j
/-- A claim of the job on any copy of the object; the claim of a copy that no commit has made visible does not count
(R239). -/
def anyClaim (o : Obj) (j : Nat) : Bool :=
  [1, 2, 4].any (fun t => (copyOf o t).present && (copyOf o t).newBy == 0 && claims (copyOf o t) j)
/-- R246: a job may read a copy, may write it, may claim it. -/
def mayRead (o : Obj) (j : Nat) : Bool := anyClaim o j
def mayWrite (o : Obj) (tier j : Nat) : Bool := claims (copyOf o tier) j && !o.ro
def mayClaim (d : Dev) (o : Obj) (j : Nat) : Bool := anyClaim o j || (o.shared && rj d j 0x10C == o.shareTag)

/-- Charged size of a copy (R243). -/
def chargeOf (o : Obj) (tier : Nat) : Nat := if tier = 4 && o.mirror then 2 * o.size else o.size

def sumBy {α : Type} (l : List α) (f : α → Nat) : Nat := (l.map f).foldl (· + ·) 0

/-- Generation granules of a command in a tier that hold beyond committed content (R248, R316). -/
def genCharge (d : Dev) (c : Cmd) (tier : Nat) : Nat :=
  sumBy c.gens (fun e =>
    if gKind e.1 = tier && SMap.has d.mem.roots e.1 then
      (if tier = 4 && (match obj d (gId e.1) with | some o => o.mirror | none => false) then 2 else 1) else 0)

/-- Pages that a PAGE_STAGE in flight is staging (08 R239): its list holds pid + 2^24 × GEN. -/
def stagingPids (d : Dev) (c : Cmd) : List Nat :=
  if dOpcode c.desc = 0x02 && dBits c.desc 8 3 0 = 7 && !c.committed then
    ((c.swaps.map (fun x => x % 2 ^ 24)).dedup).filter (fun p => (pst d p).res == 1)
  else []

/-- R248: the usage of a job in a tier. -/
def usage (d : Dev) (j tier : Nat) : Nat :=
  let objs := sumBy d.mem.objs (fun e =>
    let c := copyOf e.2 tier
    if c.present && c.payer == j then chargeOf e.2 tier else 0)
  let pages := sumBy d.qm.pst (fun e =>
    if e.2.job == j && (tier == 2 && e.2.res ≠ 0 || tier == 1 && e.2.res == 2) then pageGrans (poolCfg d j e.2.pool)
    else 0)
  let slots := if tier = 2 then sumBy d.qm.slots (fun e =>
    if e.2.job == j && e.2.state ≠ .free then halfGrans (cometOf d j e.2.layer) else 0) else 0
  let save := if tier = 2 then (match (job d j).save with | some s => s.grans.length | none => 0) else 0
  let gens := sumBy (jobCmds d j) (fun e => genCharge d e.2 tier)
  let staging := if tier = 1 then sumBy (jobCmds d j) (fun e =>
      sumBy (stagingPids d e.2) (fun p => pageGrans (poolCfg d j (pst d p).pool))) else 0
  if tier = 3 then (d.fab.hdl.filter (fun e => e.2.1 == j)).length
  else objs + pages + slots + save + gens + staging

def quotaOf (x : Job) (tier : Nat) : Nat :=
  match tier with
  | 1 => x.quota1 | 2 => x.quota2 | 3 => x.quota3 | _ => x.quota4

/-- Granules of an inkwell in use (R228, R316). -/
def inkUsed (d : Dev) (md : Nat) : Nat :=
  sumBy d.mem.objs (fun e => if e.2.c1.present && e.2.t1die == md then e.2.size else 0)
  + sumBy d.qm.pst (fun e => if e.2.res == 2 && Config.stageDie e.1 % 8 == md then pageGrans (poolCfg d e.2.job e.2.pool)
      else 0)
  + sumBy d.qm.cmds (fun e => sumBy e.2.gens (fun g =>
      if gKind g.1 = 1 && SMap.has d.mem.roots g.1 &&
        (match obj d (gId g.1) with | some o => o.t1die == md | none => false) then 1 else 0))
  + sumBy d.qm.cmds (fun e => sumBy (stagingPids d e.2) (fun p =>
      if Config.stageDie p % 8 == md then pageGrans (poolCfg d (pst d p).job (pst d p).pool) else 0))
def inkFree (d : Dev) (md : Nat) : Nat := 147456 - inkUsed d md
/-- Granules of a tier in use by all jobs. -/
def tierUsed (d : Dev) (tier : Nat) : Nat := sumBy (List.range 256) (fun j => usage d j tier)
/-- Free granules of T2 and T4 (R228, R229; 00 R3). -/
def tierFree (d : Dev) (tier : Nat) : Nat :=
  (if tier = 2 then 61603840 else if Config.f08 then 1953125000 else 3906250000) - tierUsed d tier

/-- May job j allocate n granules in a tier (R248, R249)? `md` is the inkwell of a T1 allocation. -/
def fits (d : Dev) (j tier n md : Nat) : Bool :=
  decide (usage d j tier + n ≤ quotaOf (job d j) tier)
    && (if tier = 1 then decide (n ≤ inkFree d md) else decide (n ≤ tierFree d tier))

/-- Frees a copy and, when it was the last one, the object (R242, R245). -/
def freeCopy (d : Dev) (oid tier : Nat) : Dev :=
  match obj d oid with
  | none => d
  | some o =>
    let o' := setCopy o tier noCopy
    let d1 := freeGrans d tier oid
    if o'.c1.present || o'.c2.present || o'.c4.present then setObj d1 oid o' else eraseObj d1 oid

/-- The jobs whose commands hold a copy. -/
def holders (d : Dev) (oid tier : Nat) : List Nat :=
  (d.qm.cmds.filter (fun e => e.2.held.contains (tier, oid))).map (·.2.job)
  ++ (d.qm.jobs.filter (fun e => e.2.pf.any (fun p =>
      match p.2 with
      | .transfer _ (some (t, o)) | .broken _ (some (t, o)) => t == tier && o == oid
      | _ => false))).map (·.1)

/-- Lowest set bit of a claim set. -/
def lowestClaim (c : BitVec 256) : Option Nat := (List.range 256).find? (fun i => c.getLsbD i)

/-- EVICT by job j (R245, rows EVICT). -/
def evictCopy (d : Dev) (oid tier j : Nat) : Dev :=
  match obj d oid with
  | none => d
  | some o =>
    let c := copyOf o tier
    if !c.present || !claims c j || c.freePend then d
    else
      let rest := c.claims &&& ~~~(1#256 <<< j)
      match lowestClaim rest with
      | some l =>
        let c' := { c with claims := rest, payer := if c.payer = j then l else c.payer }
        setObj d oid (setCopy o tier c')
      | none =>
        if c.holds = 0 then freeCopy d oid tier
        else
          match (List.range 256).find? (fun k => k != j && (holders d oid tier).contains k) with
          | some k => setObj d oid (setCopy o tier { c with claims := 1#256 <<< k, payer := k })
          | none => setObj d oid (setCopy o tier { c with claims := 0, freePend := true })

/-- ALLOC, CLAIM or STAGE on a present copy (R245, rows 2 and 3). -/
def claimCopy (d : Dev) (oid tier j : Nat) : Dev :=
  match obj d oid with
  | none => d
  | some o =>
    let c := copyOf o tier
    let c' := if c.freePend then { c with claims := 1#256 <<< j, freePend := false, payer := j }
      else { c with claims := c.claims ||| (1#256 <<< j) }
    setObj d oid (setCopy o tier c')

/-- Takes or gives back one hold on a copy; a FREE_PEND copy is freed when its holds reach 0 (R244, R245). -/
def holdCopy (d : Dev) (oid tier : Nat) : Dev :=
  match obj d oid with
  | none => d
  | some o => setObj d oid (setCopy o tier { copyOf o tier with holds := (copyOf o tier).holds + 1 })
def unholdCopy (d : Dev) (oid tier : Nat) : Dev :=
  match obj d oid with
  | none => d
  | some o =>
    let c := copyOf o tier
    let d1 := setObj d oid (setCopy o tier { c with holds := c.holds - 1 })
    if c.freePend && c.holds ≤ 1 then freeCopy d1 oid tier else d1

/-! ### Pages and slots -/

/-- R165: a page is reclaimed when REFCNT and PINS are both 0. -/
def reclaimPage (d : Dev) (pid : Nat) : Dev :=
  let p := pst d pid
  if p.refcnt = 0 && p.pins = 0 && p.res ≠ 0 then
    let d1 := freeGrans (freeGrans d 8 pid) 9 pid
    setPst d1 pid { freePst with gen := (p.gen + 1) % 65536 }
  else d
def addRefPage (d : Dev) (pid : Nat) : Dev := setPst d pid { pst d pid with refcnt := (pst d pid).refcnt + 1 }
def dropRefPage (d : Dev) (pid : Nat) : Dev :=
  reclaimPage (setPst d pid { pst d pid with refcnt := (pst d pid).refcnt - 1 }) pid
def pinPage (d : Dev) (pid : Nat) : Dev := setPst d pid { pst d pid with pins := (pst d pid).pins + 1 }
def unpinPage (d : Dev) (pid : Nat) : Dev :=
  reclaimPage (setPst d pid { pst d pid with pins := (pst d pid).pins - 1 }) pid

/-- R200: a slot is reclaimed when REFCNT and PINS are both 0. -/
def reclaimSlot (d : Dev) (sid : Nat) : Dev :=
  let s := slot d sid
  if s.refcnt = 0 && s.pins = 0 && s.state ≠ .free then
    setSlot (freeGrans d 10 sid) sid { freeSlot with gen := (s.gen + 1) % 65536 }
  else d
def addRefSlot (d : Dev) (sid : Nat) : Dev := setSlot d sid { slot d sid with refcnt := (slot d sid).refcnt + 1 }
def dropRefSlot (d : Dev) (sid : Nat) : Dev :=
  reclaimSlot (setSlot d sid { slot d sid with refcnt := (slot d sid).refcnt - 1 }) sid
def pinSlot (d : Dev) (sid : Nat) : Dev := setSlot d sid { slot d sid with pins := (slot d sid).pins + 1 }
def unpinSlot (d : Dev) (sid : Nat) : Dev :=
  reclaimSlot (setSlot d sid { slot d sid with pins := (slot d sid).pins - 1 }) sid

/-! ### A command's view of memory (10 R315, R316) -/

/-- The storage granule that a command sees for a granule: its own generation, else the committed one. -/
def viewSid (d : Dev) (uid k : Nat) : Option Nat :=
  match cmd d uid with
  | some c =>
    match SMap.get? c.gens k with
    | some s => some s
    | none => rootOf d k
  | none => rootOf d k

/-- Bytes of a granule as a command sees them; a granule that holds no content reads zero (R248). -/
def readView (d : Dev) (uid k off n : Nat) : List Nat :=
  match viewSid d uid k with
  | some s => stRead d s off n
  | none => List.replicate n 0
/-- Committed bytes of a granule (R320). -/
def readRoot (d : Dev) (k off n : Nat) : List Nat :=
  match rootOf d k with
  | some s => stRead d s off n
  | none => List.replicate n 0
def viewSealed (d : Dev) (uid k : Nat) : Bool := match viewSid d uid k with | some s => sealed d s | none => false
def viewPoison (d : Dev) (uid k : Nat) : Bool := match viewSid d uid k with | some s => poisoned d s | none => false

/-- Gives a granule's storage the content of another storage granule, marks included. -/
def copyGran (d : Dev) (src dst : Nat) : Dev :=
  setPoison (setSeal (stWrite d dst 0 (stRead d src 0 4096)) dst (sealed d src)) dst (poisoned d src)

/-- Writes a granule of committed state directly (page contents, slot images, BAR2, prefetches): its storage is
made when it holds no content. -/
def writeRoot (d : Dev) (k off : Nat) (bs : List Nat) (fromSealed : Bool) : Dev :=
  match rootOf d k with
  | some s => writeMarks (kWrite d k s off bs) s off bs.length fromSealed
  | none =>
    let (d1, s) := newGran d
    writeMarks (kWrite (setRoot d1 k s) k s off bs) s off bs.length fromSealed

/-- R316: a command's write of a granule. Answers the tier whose quota or space is exceeded, or the device. -/
def writeView (d : Dev) (uid k off : Nat) (bs : List Nat) (fromSealed : Bool) : Except Nat Dev :=
  if gIsT0 k then .ok (writeMarks (stWrite d k off bs) k off bs.length fromSealed)
  else match cmd d uid with
    | none => .ok d
    | some c =>
      match SMap.get? c.gens k with
      | some s => .ok (writeMarks (kWrite d k s off bs) s off bs.length fromSealed)
      | none =>
        let tier := gKind k
        let o := obj d (gId k)
        let md := match o with | some o => o.t1die | none => 0
        let n := if tier = 4 && (match o with | some o => o.mirror | none => false) then 2 else 1
        match rootOf d k with
        | some r =>
          if fits d c.job tier n md then
            let (d1, s) := newGran d
            let d2 := setCmd d1 uid { c with gens := SMap.insert c.gens k s }
            let d3 := if off = 0 && bs.length = 4096 then d2 else copyGran d2 r s
            .ok (writeMarks (kWrite d3 k s off bs) s off bs.length fromSealed)
          else .error tier
        | none =>
          let (d1, s) := newGran d
          let d2 := setCmd d1 uid { c with gens := SMap.insert c.gens k s }
          .ok (writeMarks (kWrite d2 k s off bs) s off bs.length fromSealed)

/-- Reads n bytes of a scratchpad. -/
def readT0 (d : Dev) (core off n : Nat) : List Nat :=
  (List.range n).map (fun i => stByte d (gT0 core ((off + i) / 4096)) ((off + i) % 4096))
/-- Writes bytes of a scratchpad, granule by granule. -/
def writeT0 (d : Dev) (core off : Nat) (bs : List Nat) (fromSealed : Bool) : Dev :=
  let n := bs.length
  let g0 := off / 4096
  let g1 := (off + n + 4095) / 4096
  (List.range (g1 - g0)).foldl (fun d i =>
    let g := g0 + i
    let lo := max off (g * 4096)
    let hi := min (off + n) ((g + 1) * 4096)
    let part := (bs.drop (lo - off)).take (hi - lo)
    if part.isEmpty then d
    else writeMarks (stWrite d (gT0 core g) (lo - g * 4096) part) (gT0 core g) (lo - g * 4096) part.length fromSealed) d
/-- Little-endian number at a scratchpad offset. -/
def numT0 (d : Dev) (core off n : Nat) : Nat := ofLeBytes (readT0 d core off n)
/-- The granules of a scratchpad range. -/
def granRange (core off n : Nat) : List Nat :=
  (List.range ((off + n + 4095) / 4096 - off / 4096)).map (fun i => gT0 core (off / 4096 + i))

/-- R105: a scratchpad range lies in banks that the job's placement owns on that core. The bank of a granule is
its number modulo 32 (R67). -/
def banksOk (d : Dev) (j core off n : Nat) : Bool :=
  match placeEnt (job d j).place core with
  | none => false
  | some e =>
    decide (off + n ≤ scratchBytes) &&
    (if n ≥ 32 * 4096 then e.banks == 0xFFFFFFFF
     else (granRange core off n).all (fun g => e.banks.testBit (g % 32)))
/-- Another job's placement owns the bank on a shared core (R96). -/
def bankForeign (d : Dev) (j core off n : Nat) : Bool :=
  d.qm.jobs.any (fun e => e.1 != j && e.2.resident &&
    (match placeEnt e.2.place core with
     | some p => (granRange core off n).any (fun g => p.banks.testBit (g % 32))
     | none => false))

/-! ### Failing and ending commands (10 R313, 14 R448) -/

def stOK : Nat := 0x00
def stEmpty : Nat := 0x01
def stShape : Nat := 0x10
def stBad : Nat := 0x11
def stKilled : Nat := 0x20
def stPoison : Nat := 0x30
def stMemUE : Nat := 0x31
def stQuota : Nat := 0x40
def stUnreach : Nat := 0x50
def stOrbit : Nat := 0x51
def stSealed : Nat := 0x60
def stFault : Nat := 0x70

/-- BAD_DESCRIPTOR's DETAIL: a free check code, as the spec numbers none (log 3), and the action index. -/
def badDetail (uid : Nat) (act : Option Nat) : Nat :=
  (Config.checkCode uid).toNat + (match act with | some a => a | none => 0xFFFFFFFF) * 2 ^ 32

/-- Jobs whose placement is resident, and the entries of their placements on a core. -/
def residentJobs (d : Dev) : List (Nat × Job) := d.qm.jobs.filter (fun e => e.2.resident)
/-- The entries of resident placements on a core. -/
def residentEnts (d : Dev) (n : Nat) : List (Nat × CoreEnt) :=
  (residentJobs d).filterMap (fun e => (placeEnt e.2.place n).map (fun c => (e.1, c)))
/-- The core is shared: its sub-arrays belong to several jobs (03 R96). -/
def coreShared (d : Dev) (n : Nat) : Bool := decide (1 < (residentEnts d n).length)

/-! ### Semaphores and slips (04 R118, R123, R127, R130) -/

/-- The semaphores that a job owns on a core, as first and count (04 R118, R126). -/
def ownSems (d : Dev) (n j : Nat) : Nat × Nat :=
  if coreShared d n then
    match placeEnt (job d j).place n with
    | some e => (e.semFirst, e.semCount)
    | none => (0, 0)
  else (0, 256)

/-- Some ranges of semaphores without those from lo to hi − 1. -/
def semCut (l : List (Nat × Nat × Nat)) (lo hi : Nat) : List (Nat × Nat × Nat) :=
  (l.map (fun r =>
    [(r.1, min (r.1 + r.2.1) lo - r.1, r.2.2), (max r.1 hi, r.1 + r.2.1 - max r.1 hi, r.2.2)].filter (fun p => p.2.1 != 0))).flatten

/-- The count of a semaphore: a free value while it is undefined (R123). -/
def semOf (d : Dev) (n sem : Nat) : Nat :=
  match (core d n).semUndef.find? (fun r => decide (r.1 ≤ sem) && decide (sem < r.1 + r.2.1)) with
  | some r => (Config.freeSem r.2.2 sem).toNat
  | none => SMap.getD (core d n).sems sem 0
def setSem (d : Dev) (n sem v : Nat) : Dev :=
  let c := core d n
  setCore d n { c with sems := SMap.put c.sems sem v 0, semUndef := semCut c.semUndef sem (sem + 1) }
/-- The semaphores of a range start at 0 (R118). -/
def clearSems (d : Dev) (n first count : Nat) : Dev :=
  let c := core d n
  setCore d n { c with sems := SMap.keep c.sems (fun k _ => !(decide (first ≤ k) && decide (k < first + count)))
                       semUndef := semCut c.semUndef first (first + count) }

/-- Adds to the cycles that a core's slips have held it (R127). -/
def slipCycles (d : Dev) (core n : Nat) : Dev := bump64 d (core / 6) (core % 6) 0x134 n

/-- The cycle in which the slip that holds a context began: a WAIT, an operand not delivered, gating, a FENCE behind a
best-effort copy (R127; 15 R472). -/
def slipSince (x : Ctx) : Option Nat :=
  match x.waitFrom, x.heldFrom, x.gateFrom with
  | some s, _, _ => some s
  | none, some s, _ => some s
  | none, none, some s => some s
  | none, none, none => if x.fenceBE then some x.readyAt else none
/-- The cycles for which a slip has held a context up to now and that are still to be counted. -/
def slipDue (d : Dev) (x : Ctx) : Nat := match slipSince x with | some s => d.now - max s x.slipFrom | none => 0
/-- Counts them when the hold ends. -/
def slipEnd (d : Dev) (n : Nat) (x : Ctx) : Dev := if slipDue d x = 0 then d else slipCycles d n (slipDue d x)
/-- CORE_SLIP_CYC, the cycles of the holds in progress included. -/
def slipCount (d : Dev) (n : Nat) : Nat :=
  min (rg64 d (n / 6) (n % 6) 0x134 + sumBy (core d n).ctxs (fun e => slipDue d e.2)) (2 ^ 64 - 1)

/-- Takes a command's work off a core. The sub-arrays of a killed command on a partitioned array are dead until the next
wash (03 R99). -/
def dropCtx (d : Dev) (uid : Nat) (killed : Bool) (n : Nat) (c : CoreSt) : CoreSt :=
  match c.ctxs.find? (fun e => e.2.uid == uid) with
  | none => c
  | some (j, _) =>
    let subs := match placeEnt (job d j).place n with | some e => setBits 16 (entSubs e) | none => []
    let own := ownSems d n j
    { c with ctxs := SMap.keep c.ctxs (fun _ x => x.uid != uid)
             semUndef := semCut c.semUndef own.1 (own.1 + own.2) ++ [(own.1, own.2, d.freeCtr)]
             arr := { c.arr with waiting := c.arr.waiting.filter (fun p => p.uid != uid)
                                 current := c.arr.current.filter (fun p => p.uid != uid)
                                 flight := c.arr.flight.filter (fun p => p.run.uid != uid)
                                 dead := if killed && c.arr.part != 0 then subs.foldl NSet.add c.arr.dead else c.arr.dead } }
/-- Takes a command's work off the cores: its slips are counted, and its semaphores are undefined (R123, R127). -/
def dropWork (d : Dev) (uid : Nat) (killed : Bool) : Dev :=
  let d1 := d.cores.foldl (fun d e => e.2.ctxs.foldl (fun d x => if x.2.uid = uid then slipEnd d e.1 x.2 else d) d) d
  if d1.cores.any (fun e => e.2.ctxs.any (fun x => x.2.uid == uid)) then
    { d1 with cores := SMap.mapVals d1.cores (dropCtx d1 uid killed), freeCtr := d1.freeCtr + 1 }
  else d1

/-- A request belongs to a command. -/
def ownedBy (uid : Nat) (r : Req) : Bool :=
  match r.owner with
  | .cmd u _ => u == uid
  | _ => false
/-- Drops every request of a command, outstanding or waiting. -/
def dropCmdReqs (d : Dev) (uid : Nat) : Dev :=
  { d with fab := { d.fab with reqs := SMap.keep d.fab.reqs (fun _ r => !ownedBy uid r)
                               reqWait := d.fab.reqWait.filter (fun x => !ownedBy uid x.2) } }

/-- The command's work is done: it requests the commit token (10 R317). -/
def requestCommit (d : Dev) (uid : Nat) : Dev :=
  match cmd d uid with
  | none => d
  | some c =>
    if c.phase = .running && c.coresLeft.isEmpty && c.t4left = 0 then
      let d1 := setCmd d uid { c with phase := .worked, reqAt := d.now }
      { d1 with qm := { d1.qm with commitQ := d1.qm.commitQ ++ [uid] } }
    else d

/-- A SLOT_OUT has nothing left to wait for when its slots are SWAPPED or FREE, a SLOT_IN when they are RESIDENT (06
R195). A slot is listed as SID + 2^24 × GEN; one that was reclaimed since is FREE. -/
def swapsDone (d : Dev) (c : Cmd) : Bool :=
  c.swaps.all (fun x =>
    let s := slot d (x % 2 ^ 24)
    if dBits c.desc 8 3 0 = 5 then s.gen != x / 2 ^ 24 || s.state == .swapped || s.state == .free
    else s.gen != x / 2 ^ 24 || s.state == .resident)
def wakeSwaps (d : Dev) : Dev :=
  d.qm.cmds.foldl (fun d e =>
    if e.2.phase = .running && dOpcode e.2.desc = 0x02 && (dBits e.2.desc 8 3 0 = 5 || dBits e.2.desc 8 3 0 = 6)
        && swapsDone d e.2 then requestCommit d e.1 else d) d

/-- The fences that wait for nothing any more once a command has completed request the token (10 R311). -/
def wakeFences (d : Dev) (uid : Nat) : Dev :=
  d.qm.cmds.foldl (fun d e =>
    if e.2.phase = .running && dOpcode e.2.desc = 0x06 && e.2.fenceUids.contains uid then
      let rest := e.2.fenceUids.filter (· != uid)
      let d1 := setCmd d e.1 { e.2 with fenceUids := rest }
      if rest.isEmpty && e.2.flushLeft.isEmpty then requestCommit d1 e.1 else d1
    else d) d

/-- A command that completes without commit is undone: its generation granules, the copies it created, and a PREEMPT that
still waits; the victim's slice begins anew where it had ended (R319, R323). -/
def undoCmd (d : Dev) (uid : Nat) (c : Cmd) : Dev :=
  if c.committed then d
  else
    let d1 := c.gens.foldl (fun d e => dropGran d e.2) (ftlDrop d uid)
    let d2 := c.newCopies.foldl (fun d t => freeCopy d t.2 t.1) d1
    match d2.qm.pres.find? (fun p => p.uid == uid) with
    | none => d2
    | some p =>
      let d3 := { d2 with qm := { d2.qm with
        pres := d2.qm.pres.filter (fun q => q.uid != uid)
        cmds := SMap.mapVals d2.qm.cmds (fun _ k => if k.job = p.victim then { k with affected := false } else k) } }
      if p.endedAt.isSome then setJob d3 p.victim { job d3 p.victim with sliceStart := d3.now } else d3

/-- Gives back a command's pins and holds (05 R164; 06 R200; 08 R244). -/
def releaseCmd (d : Dev) (c : Cmd) : Dev :=
  let d1 := c.pinP.foldl unpinPage d
  let d2 := c.newPages.foldl unpinPage d1
  let d3 := c.pinS.foldl (fun d p => unpinSlot d p.1) d2
  let d4 := c.newSlots.foldl (fun d p => unpinSlot d p.1) d3
  c.held.foldl (fun d h => unholdCopy d h.2 h.1) d4

/-- A command has completed: what it did without commit is undone, its pins and holds are released, what waits for it goes
on, and its entry is the next of its job to be written (R311, R312, R314, R319). -/
def completeCmd (d : Dev) (uid : Nat) : Dev :=
  match cmd d uid with
  | none => d
  | some c =>
    let d1 := releaseCmd (undoCmd d uid c) c
    let d2 := setCmd d1 uid { c with gens := [], newCopies := [], newPages := [], newSlots := [], pinP := [], pinS := [],
                                     held := [], doneAt := d.now }
    wakeSwaps (wakeFences { d2 with qm := { d2.qm with doneQ := d2.qm.doneQ ++ [uid] } } uid)

/-- Ends a command that has not ended: its programs stop, it sends nothing more, its place among the commit requests is
lost, and it completes without commit. -/
def endCmd (d : Dev) (uid status detail : Nat) (retry : Bool) : Dev :=
  match cmd d uid with
  | none => d
  | some c =>
    if c.phase = .ended then d
    else
      let c' := { c with phase := .ended, status := status, detail := detail % 2 ^ 64, retry := retry, coresLeft := [] }
      let d1 := dropCmdReqs (setCmd d uid c') uid
      completeCmd (dropWork { d1 with qm := { d1.qm with commitQ := d1.qm.commitQ.filter (· != uid) } } uid true) uid

def failBad (d : Dev) (uid : Nat) (act : Option Nat) : Dev := endCmd d uid stBad (badDetail uid act) false
/-- DEVICE_FAULT with the BLK_ID of the source's page (R313, 14 R448). -/
def failFault (d : Dev) (uid die page : Nat) (retry : Bool) : Dev := endCmd d uid stFault (blkIdOf die page) retry

/-- Ends every command that satisfies p, in fetch order. -/
def endAll (d : Dev) (p : Nat → Cmd → Bool) (status : Nat) (detail : Nat) (retry : Bool) : Dev :=
  (d.qm.cmds.filter (fun e => p e.1 e.2)).foldl (fun d e => endCmd d e.1 status detail retry) d

/-- A finished command that commits nothing more and needs no token: EMPTY and the like. -/
def endEmpty (d : Dev) (uid : Nat) : Dev := endCmd d uid stEmpty 0 false

/-! ### MSI-X (12 R394, R395) -/

/-- Owner function of a job: 0 the PF, n a VF of its port (R388). -/
def vfOf (d : Dev) (p : HostPort) (j : Nat) : Nat :=
  match (pcie d p).vfJobs.find? (fun e => e.2.getLsbD j) with
  | some e => e.1
  | none => 0

/-- Sends a vector of a function, or sets its pending bit when it is masked. -/
def sendVec (d : Dev) (p : HostPort) (fn vec : Nat) : Dev :=
  let x := pcie d p
  if NSet.mem x.unmasked (fn * 2048 + vec) then emit d (.msix (portNo p) fn vec)
  else setPcie d p { x with pendingVec := NSet.add x.pendingVec (fn * 2048 + vec) }
/-- Sends an event vector to each PF whose port is up. -/
def sendEventVec (d : Dev) (vec : Nat) : Dev :=
  let d1 := if d.pcieA.linkUp then sendVec d .a 0 vec else d
  if d1.pcieB.linkUp then sendVec d1 .b 0 vec else d1
/-- The completion vector of a job (R395). -/
def sendCplVec (d : Dev) (j : Nat) : Dev :=
  let p := jobPort d j
  let fn := vfOf d p j
  let v := bitsOf (rj d j 0x150) 26 16
  if (fn = 0 && v < 1024) || (fn ≠ 0 && v < 16) then sendVec d p fn v
  else bump d (pgPcie p) 0 0x150 1

/-! ### Slips (04 R127) -/

/-- The slip window of a core that holds the present cycle: windows are consecutive (R128). The NOC slips of a
die use the window of its core 0. -/
def rollWin (d : Dev) (n : Nat) : Dev :=
  let c := core d n
  let w := rc d n 0x164
  if w = 0 || d.now < c.slipWin + w then d
  else setCore d n { c with slipWin := c.slipWin + (d.now - c.slipWin) / w * w, slipBase := rc d n 0x130
                            nocBase := rg d (n / 6) 16 0x120 }
/-- Starts a core's slip window now (R128, R130). -/
def startWin (d : Dev) (n : Nat) : Dev :=
  setCore d n { core d n with slipWin := d.now, slipBase := rc d n 0x130, nocBase := rg d (n / 6) 16 0x120 }

/-- Counts a slip of a core, and the die's total. -/
def slipCore (d : Dev) (core : Nat) : Dev :=
  bump (bump (rollWin d core) (core / 6) (core % 6) 0x130 1) (core / 6) 16 0x124 1
/-- Counts a NOC slip of a source die (01 R21): CDIE, MEMD or FABR of that die. -/
def slipNoc (d : Dev) (die : Nat) : Dev :=
  if die < 48 then bump (bump (rollWin d (die * 6)) die 16 0x120 1) die 16 0x124 1
  else if die < 56 then bump d die 16 0x138 1
  else if die < 60 then bump d die 16 0x214 1
  else d

/-- Does the device advance free values: the n-th free value (log 3). -/
def freeVal (d : Dev) : Dev × Word := ({ d with freeCtr := d.freeCtr + 1 }, Config.freeWord d.freeCtr)

/-- Answers of a meaning: every command of the block has a next state. A module that is held in reset does nothing
(15 R476; 17 R510). -/
def okDev (s : State) (d : Dev) : Host.Outcome State Fault Refusal :=
  .next { s with dev := if held s.dev then s.dev else d }
/-- Answers of the meanings that act on a module held in reset too. -/
def okAny (s : State) (d : Dev) : Host.Outcome State Fault Refusal := .next { s with dev := d }

end Sys2Proof.Machine
end

