-- ==== Sys2Proof/Machine/RegBus.lean ====
section
/-! DEFINITION. Reading registers (every register that shows state), access checks, and plain register writes
(16 R490-R504, 12 R389, R399, R403, and the register tables of every chapter). -/

namespace Sys2Proof.Machine
open Sys2Proof

/-! ### Values that registers show -/

def dieRetained (d : Dev) (die : Nat) : Bool := SMap.has d.pwr.retained die
def dieResetting (d : Dev) (die : Nat) : Bool := SMap.has d.pwr.resetting die

def coreReg (d : Dev) (n reg : Nat) : Option Nat :=
  let c := core d n
  let x := (c.ctxs.head?).map (·.2)
  if reg = 0x104 then
    some (match x with
      | none => b2n ((rc d n 0x100).testBit 0) * 2
      | some x =>
        let a := (x.image.actions[x.curAct]?).getD ⟨[]⟩
        x.curAct % 4096 * 2 ^ 16 + (if x.waitFrom.isSome then aSem a * 2 ^ 8 else 0) + aLevel a * 2 ^ 5
          + b2n x.waitFrom.isSome * 4 + b2n ((rc d n 0x100).testBit 0) * 2 + 1)
  else if reg = 0x108 then
    some (match residentEnts d n with
      | [] => 0
      | (j, e) :: r => e.part * 2 ^ 16 + (if r.isEmpty then j else 2 ^ 8 + j))
  else if reg = 0x10C then some (match x with | some x => (match cmd d x.uid with | some k => k.tag | none => 0) | none => 0)
  else if 0x110 ≤ reg && reg ≤ 0x124 then
    some (match x with | some x => (x.curIdx[(reg - 0x110) / 4]?).getD 0 % 2 ^ 32 | none => 0)
  else if 0x200 ≤ reg && reg < 0x400 then
    let s := (reg - 0x200) / 4 * 2
    some (semOf d n s + 2 ^ 16 * semOf d n (s + 1))
  else if reg = 0x134 then some ((slipCount d n) % 2 ^ 32)
  else if reg = 0x138 then some ((slipCount d n) / 2 ^ 32)
  else none

def rsvMask (d : Dev) (link : Nat) : Nat :=
  (residentJobs d).foldl (fun a e => a ||| SMap.getD e.2.place.rsv link 0) 0

def cdieReg (d : Dev) (die reg : Nat) : Option Nat :=
  if reg = 0x100 then some ((gridPos die).1 * 16 + (gridPos die).2)
  else if reg = 0x104 then
    some (b2n (dieResetting d die) * 256 + ((List.range 6).map (fun i =>
      if (core d (die * 6 + i)).ctxs.isEmpty then 0 else 2 ^ i)).foldl (· + ·) 0)
  else if 0x110 ≤ reg && reg ≤ 0x11C then some (rsvMask d (die * 4 + (reg - 0x110) / 4))
  else none

/-- The words of a slot table entry (06 R192). -/
def slotWord (s : Slot) (i : Nat) : Nat :=
  match i with
  | 0 => s.pins * 2 ^ 16 + s.refcnt
  | 1 =>
    (match s.state with
     | .free => 0 | .resident => 1 | .swappingOut => 2 | .swapped => 3 | .swappingIn => 4) * 2 ^ 28
    + b2n s.sel * 2 ^ 27 + b2n s.zero * 2 ^ 26 + b2n s.poison * 2 ^ 25 + b2n s.swapPend * 2 ^ 24 + s.job * 2 ^ 16 + s.gen
  | 2 => s.layer * 2 ^ 16 + s.arenaIdx
  | _ => s.version % 2 ^ 32

/-- The home die of a slot. -/
def slotDie (d : Dev) (s : Slot) : Nat := coreDie (bitsOf (cometOf d s.job s.layer).cfg1 24 16)

/-- A core has comet work: a program with a chunk microprogram of a resident job runs on it (COMET_STAT.SHARE_MAP). -/
def hasCometWork (d : Dev) (n : Nat) : Bool :=
  (core d n).ctxs.any (fun e => (job d e.1).resident
    && e.2.image.actions.any (fun a => aType a == 7 && aMicro a == 0x10))

def cometReg (d : Dev) (die reg : Nat) : Option Nat :=
  if reg = 0x104 then
    some (b2n (d.qm.slots.any (fun e => (e.2.state == .swappingIn || e.2.state == .swappingOut) && slotDie d e.2 == die))
      * 2 ^ 18
      + ((List.range 6).map (fun i => if hasCometWork d (die * 6 + i) then 2 ^ i else 0)).foldl (· + ·) 0)
  else none

def quillReg (d : Dev) (die reg : Nat) : Option Nat :=
  if reg = 0x108 then
    some (match (residentJobs d).findSome? (fun e => SMap.get? e.2.place.quill die) with
      | some c => 256 + c
      | none => 0)
  else if reg = 0x104 then
    some (b2n ((List.range 6).any (fun i => (core d (die * 6 + i)).ctxs.any (fun e =>
      e.2.running.any (fun r => r.kind == .quill)))))
  else none

def mdReg (d : Dev) (b : Blk) (md reg : Nat) : Option Nat :=
  match b with
  | .memd =>
    if reg = 0x104 then
      some (sumBy d.qm.jobs (fun e => (e.2.pf.filter (fun p => match p.2 with
        | .transfer g _ | .broken g _ => g == md
        | _ => false)).length) * 2 ^ 16
        + ((List.range 8).map (fun i => if bitsOf (rg d (48 + md) i 0x100) 18 17 = 0 then 0 else 2 ^ i)).foldl (· + ·) 0)
    else none
  | .wcb => if reg = 0x10C then some (SMap.getD d.ext.wcb md []).length else none
  | .inkwell =>
    if reg = 0x104 then
      some (rg d (48 + md) 18 0x104 % 2 ^ 16 + b2n (ink d md).changeTo.isSome * 2 ^ 16
        + rg d (48 + md) 18 0x104 / 2 ^ 17 % 2 * 2 ^ 17)
    else if reg = 0x108 then some (if inkCache d md then 0 else inkFree d md)
    else none
  | _ => none

def fabpReg (d : Dev) (p reg : Nat) : Option Nat :=
  let q := fabPort d p
  if reg = 0x104 then
    some (q.peerDid * 2 ^ 16 + q.peerPort * 2 ^ 11
      + b2n (d.orb.pllRef && bitsOf (rf d 0x1C0) 12 8 == p) * 32 + b2n q.calDone * 16 + b2n q.authFail * 4
      + b2n q.training * 2 + b2n q.up)
  else if reg = 0x110 then some (q.calMax % 65536 * 2 ^ 16 + q.calMin % 65536)
  else none

def orbStateNo : OrbState → Nat
  | .none => 0 | .locking => 1 | .locked => 2 | .aligned => 3 | .running => 4 | .lost => 5

def fabrReg (d : Dev) (reg : Nat) : Option Nat :=
  let or' (i : Nat) : Nat := (SMap.getD d.fab.orr (rf d 0x134) 0).toNat / 2 ^ (32 * i) % 2 ^ 32
  let win (i : Nat) : Nat := (SMap.getD d.fab.win (rf d 0x148) 0).toNat / 2 ^ (32 * i) % 2 ^ 32
  let mc : McEnt := SMap.getD d.fab.mc (rf d 0x128) ⟨false, false, 0, 0⟩
  if reg = 0x10C then some (Config.serial.toNat % 2 ^ 32)
  else if reg = 0x110 then some (Config.serial.toNat / 2 ^ 32)
  else if reg = 0x114 then some (Config.keyGroup.toNat * 2 ^ 16 + 24)
  else if reg = 0x124 then some (SMap.getD d.fab.rt (rf d 0x120) 0)
  else if reg = 0x12C then some (b2n mc.valid * 2 ^ 31 + b2n mc.local_ * 2 ^ 30 + mc.did)
  else if reg = 0x130 then some mc.ports
  else if 0x138 ≤ reg && reg ≤ 0x144 then some (or' ((reg - 0x138) / 4))
  else if 0x14C ≤ reg && reg ≤ 0x158 then some (win ((reg - 0x14C) / 4))
  else if reg = 0x17C then some (b2n d.fab.mbBusy * 4 + d.fab.mbStatus)
  else if reg = 0x19C then some (d.fab.ropRes % 2 ^ 32)
  else if reg = 0x1A0 then some (d.fab.ropRes / 2 ^ 32 % 2 ^ 32)
  else if reg = 0x1A4 then some (b2n d.fab.ropBusy * 256 + d.fab.ropStatus)
  else if reg = 0x1C8 then some (b2n d.orb.pllRef * 2 ^ 16 + d.orb.cause * 2 ^ 8 + orbStateNo d.orb.state)
  else if reg = 0x1D8 then some (d.orb.occ % 2 ^ 32)
  else if reg = 0x1DC then some (d.orb.occ / 2 ^ 32 % 2 ^ 32)
  else if reg = 0x1E0 then some (d.orb.epoch % 2 ^ 32)
  else if reg = 0x1E4 then some (d.orb.epoch / 2 ^ 32 % 2 ^ 32)
  else none

def timeReg (d : Dev) (reg : Nat) : Option Nat :=
  if reg = 0x104 then
    some (b2n d.tim.holdover * 8 + b2n d.tim.refOk * 4 + b2n d.tim.ppsOk * 2 + b2n d.tim.synced)
  else if reg = 0x10C then some (d.tim.ns / 2 ^ 16 % 2 ^ 16)
  else if reg = 0x110 then some (timeNs d % 2 ^ 32)
  else if reg = 0x114 then some (timeNs d / 2 ^ 32)
  else if reg = 0x12C then some (BitVec.ofInt 32 d.tim.offset).toNat
  else none

def maskBits (n : Nat) (f : Nat → Bool) : Nat := ((List.range n).map (fun i => if f i then 2 ^ i else 0)).foldl (· + ·) 0

def vfMask (x : Pcie) (vf : Nat) : BitVec 256 := SMap.getD x.vfJobs vf 0

def pcieReg (d : Dev) (p : HostPort) (reg : Nat) : Option Nat :=
  let x := pcie d p
  let ap : Aperture := SMap.getD x.aps (rg d (pgPcie p) 0 0x190) ⟨false, false, 0, 0, 0, 0⟩
  if reg = 0x104 then
    some (x.numVfs * 2 ^ 16 + b2n d.mgmtPortB * 2 ^ 10 + b2n x.hostLost * 2 ^ 9 + b2n x.linkUp * 2 ^ 8 + x.width * 16
      + b2n x.flit * 8 + x.speed)
  else if 0x164 ≤ reg && reg ≤ 0x180 then
    some ((vfMask x (rg d (pgPcie p) 0 0x160)).toNat / 2 ^ (32 * ((reg - 0x164) / 4)) % 2 ^ 32)
  else if reg = 0x194 then
    some (b2n ap.valid * 2 ^ 31 + b2n ap.wr * 2 ^ 30 + ap.job * 2 ^ 16 + ap.func * 2 ^ 8 + ap.slot)
  else if reg = 0x198 then some (ap.base % 2 ^ 32)
  else if reg = 0x19C then some (ap.base / 2 ^ 32)
  else if reg = 0x1A4 then some x.adoptResult
  else if 0x1B0 ≤ reg && reg ≤ 0x1CC then
    let w := (reg - 0x1B0) / 4
    some (maskBits 32 (fun i => (job d (32 * w + i)).orphan))
  else none

def qmgrReg (d : Dev) (port reg : Nat) : Option Nat :=
  if reg = 0x104 then some ((d.qm.jobs.filter (fun e => e.2.state == 1 && e.2.port == port)).length)
  else if reg = 0x108 then some (max 1 (rg d (60 + port) qPage 0x108))
  else none

def sizeRead (x : Nat) : Nat := if 1 ≤ x && x < 4 then 4 else x

def jobReg (d : Dev) (j reg : Nat) : Option Nat :=
  let x := job d j
  let cd := cometOf d j (rj d j 0x1C0)
  if reg = 0x104 then
    some (x.err * 2 ^ 16 + b2n x.lost * 128 + b2n x.save.isSome * 64 + b2n x.resident * 32 + x.port * 16
      + b2n x.sqErr * 8 + b2n x.declRej * 4 + x.state)
  else if reg = 0x150 then
    let r := rj d j 0x150
    some (r / 2 ^ 16 * 2 ^ 16 + sizeRead (bitsOf r 15 12) * 2 ^ 12 + sizeRead (bitsOf r 11 8) * 2 ^ 8
      + sizeRead (bitsOf r 7 4) * 2 ^ 4 + sizeRead (bitsOf r 3 0))
  else if 0x160 ≤ reg && reg ≤ 0x16C then some (quotaOf x ((reg - 0x160) / 4 + 1) % 2 ^ 32)
  else if 0x170 ≤ reg && reg ≤ 0x17C then some (min (usage d j ((reg - 0x170) / 4 + 1)) (2 ^ 32 - 1))
  else if reg = 0x188 then
    let r := rj d j 0x188
    some ((max 1 (bitsOf r 31 24)) * 2 ^ 24 + bitsOf r 20 0)
  else if reg = 0x18C then some (x.pfStep % 2 ^ 32)
  else if reg = 0x1C4 then some cd.cfg0
  else if reg = 0x1C8 then some cd.cfg1
  else if reg = 0x1CC then some cd.cfg2
  else if reg = 0x1D4 then some x.sessResult
  else if reg = 0x1E8 then some (jobCmds d j).length
  else none

def secReg (d : Dev) (reg : Nat) : Option Nat :=
  if reg = 0x104 then
    some (b2n d.sec.pendingBlocks * 8 + b2n d.sec.windowOpen * 4 + b2n Config.ftClosed * 2 + rg d 60 1 0x104 % 2)
  else if reg = 0x134 then
    let j := bitsOf (rg d 60 1 0x120) 7 0
    some (maskBits 16 (fun i => SMap.has d.sec.keys (j * 16 + i)))
  else if reg = 0x144 then
    some (16 * b2n (sess d (rg d 60 1 0x140)).keyValid + (sess d (rg d 60 1 0x140)).keySlot)
  else none

/-- Word w of a package log record (14 R454). -/
def recWord (r : Rec) (w : Nat) : Nat :=
  match w with
  | 0 => r.blk
  | 1 => r.src + r.reaction * 2 ^ 8 + b2n r.masked * 2 ^ 11 + b2n r.err * 2 ^ 12 + b2n r.origin * 2 ^ 16
  | 2 => r.time % 2 ^ 32
  | 3 => r.time / 2 ^ 32 % 2 ^ 32
  | 4 => r.addr % 2 ^ 32
  | 5 => r.addr / 2 ^ 32 % 2 ^ 32
  | 6 => r.master
  | _ => r.access

/-- Words 1 to 6 of an origin entry (16, FLTAG_ORG_Wn). -/
def orgWord (e : Option OrgEnt) (w : Nat) : Nat :=
  match e with
  | none => 0
  | some e =>
    match w with
    | 0 => 2 ^ 31 + e.kinds * 2 ^ 16 + e.origin
    | 1 => e.count
    | 2 => e.first % 2 ^ 32
    | 3 => e.first / 2 ^ 32 % 2 ^ 32
    | 4 => e.last % 2 ^ 32
    | 5 => e.last / 2 ^ 32 % 2 ^ 32
    | _ => e.reporter

def fltagReg (d : Dev) (reg : Nat) : Option Nat :=
  if reg = 0x104 then
    some (d.flt.org.length * 2 ^ 8 + b2n (d.flt.log.length == 256) * 2 + b2n d.flt.irqPend)
  else if reg = 0x110 then some d.flt.logWr
  else if reg = 0x114 then some d.flt.logRd
  else if 0x120 ≤ reg && reg ≤ 0x13C then
    let i := (rg d 60 3 0x118 + 65536 - d.flt.logRd) % 65536
    some (match d.flt.log[i]? with
      | some r => recWord r ((reg - 0x120) / 4)
      | none => 0)
  else if reg = 0x144 then some (orgWord (SMap.get? d.flt.org (rg d 60 3 0x140)) 0)
  else if 0x148 ≤ reg && reg ≤ 0x15C then some (SMap.getD d.latch (regOff 60 3 reg) 0).toNat
  else none

/-- Power domain i is on (15 R468, R469). -/
def domainOn (d : Dev) (i : Nat) : Bool :=
  if i < 96 then i % 2 == 1 || !dieRetained d (i / 2)
  else if 112 ≤ i && i < 120 && i % 2 = 0 then
    (List.range 6).any (fun k => (rg d (56 + (i - 112) / 2) k 0x100).testBit 0)
  else true

def pwrReg (d : Dev) (reg : Nat) : Option Nat :=
  if reg = 0x104 then
    some (b2n (orbitMode d) * 2 ^ 26 + b2n d.pwr.hard * 2 ^ 25 + b2n (decide (d.pwr.g < 64)) * 2 ^ 24 + d.pwr.g * 2 ^ 16
      + d.pwr.watts % 65536)
  else if 0x120 ≤ reg && reg ≤ 0x12C then some (maskBits 32 (fun i => domainOn d (32 * ((reg - 0x120) / 4) + i)))
  else if 0x140 ≤ reg && reg ≤ 0x17C then
    let n := (reg - 0x140) / 4
    some (((List.range 4).map (fun k => SMap.getD d.pwr.temps (4 * n + k) 0 % 256 * 2 ^ (8 * k))).foldl (· + ·) 0)
  else if reg = 0x180 then some d.pwr.vrFault
  else none

def runImg (b : Boot) : ImgSlot := if b.runSlot then b.slotB else b.slotA
def stagedImg (b : Boot) : ImgSlot := if b.runs && !b.runSlot then b.slotB else b.slotA

def bootReg (d : Dev) (reg : Nat) : Option Nat :=
  let b := d.boot
  if reg = 0x104 then
    some (bitsOf (rg d 60 2 0x104) 15 12 * 2 ^ 12 + b2n b.slotB.ok * 2 ^ 9 + b2n b.slotA.ok * 2 ^ 8
      + b2n (b.staging.isSome || b.window) * 16 + b2n b.staged * 8 + b2n b.trial * 4 + rg d 60 2 0x104 / 2 % 2 * 2
      + b2n b.runSlot)
  else if reg = 0x114 then some (b.fusedSvn % 64 * 2 ^ 16 + (if b.runs then (runImg b).svn % 64 else 0))
  else if reg = 0x118 then some (if b.runs then (runImg b).version else 0)
  else if reg = 0x11C then some (if b.staged then (stagedImg b).version else 0)
  else none

def devStateNo : DevState → Nat
  | .boot => 0 | .ready => 1 | .test => 2 | .recovery => 3

def devReg (d : Dev) (reg : Nat) : Option Nat :=
  if reg = 0x100 then some (b2n (d.state == .test) * 2)
  else if reg = 0x104 then
    some (b2n d.factoryTest * 2 ^ 9 + b2n (d.state == .ready) * 2 ^ 8 + devStateNo d.state)
  else if reg = 0x108 then some (Config.keyGroup.toNat * 2 ^ 16 + b2n Config.f08)
  else if reg = 0x10C then
    let die := rg d 60 4 0x10C % 64
    some (b2n (dieResetting d die) * 256 + die)
  else if reg = 0x118 then some (fltSum d % 2 ^ 32)
  else if reg = 0x11C then some (fltSum d / 2 ^ 32)
  else if reg = 0x120 then some (evtSum d % 2 ^ 32)
  else if reg = 0x124 then some (evtSum d / 2 ^ 32)
  else none

/-- The power domain of a block's page is on (BLK_STAT.POWERED). -/
def blkPowered (d : Dev) (b : Blk) (die : Nat) : Bool :=
  if die < 48 then !dieRetained d die
  else match b with
    | .fabp => domainOn d (112 + 2 * (die - 56))
    | _ => true

/-- The page header (R497). -/
def hdrReg (d : Dev) (b : Blk) (die page reg : Nat) : Nat :=
  if reg = 0x000 then blkIdOf die page
  else if reg = 0x008 then blkCapOf b
  else if reg = 0x00C then
    rg d die page 0x00C / 4 % 2 * 4 + (if b = .fabp then rg d die page 0x100 % 2 else 1)
  else if reg = 0x010 then
    b2n ((rg d die page 0x080 &&& rg d die page 0x084) != 0) * 8 + b2n (fltStat d die page != 0) * 4
    + b2n (blkPowered d b die) * 2
    + b2n (dieResetting d die || NSet.mem d.flt.blkRst (die * 1024 + page))
  -- FLT_INJECT is write only (14 R464, R466)
  else if reg = 0x04C then 0
  else rg d die page reg

/-- The canonical page of a register: the four FABR pages are views of one state, FABR_NOC_SLIP_CNT and BLK_ID
apart (11 R381). -/
def canonOff (off : Nat) : Nat :=
  if 57 ≤ offDie off && offDie off ≤ 59 && offPage off = 16 && offReg off ≠ 0 && offReg off ≠ 0x214 then
    regOff 56 16 (offReg off)
  else off

/-- The present value of a register of a page that responds. -/
def regVal (d : Dev) (off0 : Nat) : Nat :=
  let off := canonOff off0
  let die := offDie off
  let page := offPage off
  let reg := offReg off
  match blkAt die page with
  | none => 0
  | some b =>
    if (findRow b reg).isNone then 0
    else if reg < 0x100 then hdrReg d b die page reg
    else
      let live := match b with
        | .core => coreReg d (die * 6 + page) reg
        | .cdie => cdieReg d die reg
        | .comet => cometReg d die reg
        | .quill => quillReg d die reg
        | .memd | .wcb | .inkwell => mdReg d b (die - 48) reg
        | .fabp => fabpReg d (blkInst die page) reg
        | .fabr => fabrReg d reg
        | .time => timeReg d reg
        | .pcie => pcieReg d (if die = 60 then .a else .b) reg
        | .qmgr => qmgrReg d (die - 60) reg
        | .qmgrJ => jobReg d (page - 0x200) reg
        | .sec => secReg d reg
        | .fltag => fltagReg d reg
        | .pwr => pwrReg d reg
        | .boot => bootReg d reg
        | .dev => devReg d reg
        | .gddr =>
          -- HOURS 0 reads as 1 (09, GDDR_CH_SCRUB)
          if reg = 0x104 && rg d die page reg % 256 = 0 then some (rg d die page reg + 1) else none
        | .ftl | .onfi => none
      match live with
      | some v => v
      | none => rg d die page reg

/-! ### _LO and _HI (04 R131) -/

/-- The registers latched by a read of a _LO register, as offsets in the page. -/
def loLatches (b : Blk) (reg : Nat) : List Nat :=
  if reg = 0x030 then [0x034] else if reg = 0x040 then [0x044]
  else match b with
    | .core => if reg = 0x134 then [0x138] else []
    | .quill => if reg = 0x130 then [0x134] else []
    | .ftl => if reg = 0x130 then [0x134] else if reg = 0x138 then [0x13C] else []
    | .fabr =>
      if reg ∈ [0x10C, 0x184, 0x18C, 0x194, 0x19C, 0x1D0, 0x1D8, 0x1E0] then [reg + 4] else []
    | .time => if reg = 0x110 then [0x114, 0x10C] else if reg = 0x120 then [0x124] else []
    | .sec => if reg = 0x108 then [0x10C] else []
    | .pwr => if reg = 0x1AC then [0x1B0] else []
    | .dev => if reg = 0x118 then [0x11C] else if reg = 0x120 then [0x124] else []
    | _ => []

def setLatch (d : Dev) (off v : Nat) : Dev := { d with latch := SMap.insert d.latch off (BitVec.ofNat 32 v) }
def dropLatch (d : Dev) (off : Nat) : Dev := { d with latch := SMap.erase d.latch off }

/-- R131: a read of _LO latches its partners in the same cycle. -/
def latchLo (d : Dev) (off0 : Nat) : Dev :=
  let off := canonOff off0
  match blkAt (offDie off) (offPage off) with
  | none => d
  | some b =>
    (loLatches b (offReg off)).foldl (fun d' r =>
      setLatch d' (off - offReg off + r) (regVal d (off - offReg off + r))) d

/-- 16 R504: a read of FLTAG_ORG_W0 latches words 1 to 6 of the selected entry. -/
def latchOrg (d : Dev) : Dev :=
  let e := SMap.get? d.flt.org (rg d 60 3 0x140)
  (List.range 6).foldl (fun d' i => setLatch d' (regOff 60 3 (0x148 + 4 * i)) (orgWord e (i + 1))) d

/-- A register read with its side effects: latches, and a _HI read returns the latched value once (R131; log 16). -/
def readEffect (d : Dev) (off0 : Nat) : Dev × Nat :=
  let off := canonOff off0
  if off = regOff 60 3 0x144 then (latchOrg d, regVal d off)
  else
    let isOrg := regOff 60 3 0x148 ≤ off && off ≤ regOff 60 3 0x15C
    match SMap.get? d.latch off with
    | some v => if isOrg then (d, v.toNat) else (dropLatch d off, v.toNat)
    | none => (latchLo d off, regVal d off)

/-! ### Who may access what (R389, R399, R403, R495, R496) -/

/-- A job is one of a function's own (12 R388): the function holds it, and owns it through its port when it is
not FREE. -/
def ownJob (d : Dev) (p : HostPort) (fn j : Nat) : Bool :=
  (if fn = 0 then vfOf d p j == 0 else (vfMask (pcie d p) fn).getLsbD j)
    && ((job d j).state == 0 || (job d j).port == portNo p)

/-- The register an access names: a VF's BAR0 maps the job pages of its own jobs (R389, R490). -/
def accTarget (d : Dev) (a : Acc) (off : Nat) : Option Nat :=
  match a with
  | .vf p n =>
    let j := off / 4096
    if off < 2 ^ 20 && n.val ≠ 0 && ownJob d p n.val j then some (canonOff (regOff 60 (jPage j) (off % 4096))) else none
  | _ => some (canonOff (off % 2 ^ 28))

/-- Pages that respond before READY, in BOOT and in a RECOVERY that the ROM entered (R399). -/
def earlyPage (b : Blk) : Bool :=
  match b with
  | .dev | .pcie | .boot | .sec | .fltag => true
  | _ => false
def pageResponds (d : Dev) (a : Acc) (b : Blk) : Bool :=
  match a with
  | .pf _ | .vf _ _ =>
    if d.state == .boot || (d.state == .recovery && d.boot.romRecovery) then earlyPage b else true
  | _ => true

/-- What a read of a register returns to its accessor (R399, R492, R495, R496). -/
def accRead (d : Dev) (a : Acc) (off : Nat) : Dev × Nat :=
  match accTarget d a off with
  | none => (d, 0)
  | some t =>
    match blkAt (offDie t) (offPage t) with
    | none => (d, 0)
    | some b =>
      if !pageResponds d a b then (d, 0)
      else if dieRetained d (offDie t) then
        (d, if offReg t = 0 then regVal d t
            else if offReg t = 0x010 then regVal d t else 0)
      else if dieResetting d (offDie t) && b ≠ .cdie then (d, 0)
      else readEffect d t

/-- Pages under the management-port rule (R403; 15 R485 for BOOT). -/
def mgmtPage (b : Blk) : Bool :=
  match b with
  | .dev | .pwr | .fltag | .boot => true
  | _ => false

/-- Decides a register write: the register to write, if the write is performed, and the device with what the
decision itself does (R389, R399, R400, R403, R495, R496). -/
def accWrite (d : Dev) (a : Acc) (off : Nat) : Dev × Option Nat :=
  match accTarget d a off with
  | none => (d, none)
  | some t =>
    match blkAt (offDie t) (offPage t) with
    | none => (d, none)
    | some b =>
      if !pageResponds d a b then (d, none)
      else if dieRetained d (offDie t) then (d, if b = .cdie && offReg t = 0x00C then some t else none)
      else if dieResetting d (offDie t) then (d, none)
      else match a with
        | .pf .b =>
          if mgmtPage b && !d.mgmtPortB then
            (latch (bump d 61 0 0x14C 1) 61 0 4 (accCap a t 2 4), none)
          else if b = .pcie && offDie t = 61 && d.pcieB.linkUp then
            ({ d with pcieB := { d.pcieB with hostLost := false } }, some t)
          else (d, some t)
        | .pf .a =>
          if b = .pcie && offDie t = 60 && d.pcieA.linkUp then
            ({ d with pcieA := { d.pcieA with hostLost := false } }, some t)
          else (d, some t)
        | _ => (d, some t)

/-- Is a write to this offset of a row's register performed, and on which device? Used by the rows that are a
write of one register. -/
def regGate (d : Dev) (a : Acc) (off : Nat) : Option Dev × Dev :=
  match accWrite d a off with
  | (d1, some _) => (some d1, d1)
  | (d1, none) => (none, d1)

/-- Runs an operation behind the access checks of a register write. -/
def withReg (d : Dev) (a : Acc) (off : Nat) (f : Dev → Dev) : Dev :=
  match accWrite d a off with
  | (d1, some _) => f d1
  | (d1, none) => d1

/-- The offset at which a function reaches a register of a job page (R389). -/
def jobOff (a : Acc) (j reg : Nat) : Nat :=
  match a with
  | .vf _ _ => j * 4096 + reg
  | _ => regOff 60 (jPage j) reg

/-! ### Plain register writes (R6, R7, R494) -/

/-- Replaces bits hi..lo of a word. -/
def putBits (w hi lo v : Nat) : Nat := w - bitsOf w hi lo * 2 ^ lo + v % 2 ^ (hi + 1 - lo) * 2 ^ lo

/-- R494: the word a write leaves in a register with ranged fields, and whether a field was out of range and kept
its old value. `old` is the word before, `v` the bits to write. -/
def rangeFix (b : Blk) (reg old v : Nat) : Nat × Bool :=
  let keepIf (bad : Bool) (hi lo : Nat) (x : Nat × Bool) : Nat × Bool :=
    if bad then (putBits x.1 hi lo (bitsOf old hi lo), true) else x
  let clampF (hi lo mn mx : Nat) : Nat × Bool := (putBits v hi lo (min mx (max mn (bitsOf v hi lo))), false)
  if reg = 0x028 then
    ((List.range 8).foldl (fun x s =>
      if bitsOf v (4 * s + 2) (4 * s) ≥ 5 then putBits x (4 * s + 2) (4 * s) (bitsOf old (4 * s + 2) (4 * s)) else x) v,
     false)
  else match b with
    | .wcb =>
      if reg = 0x104 then clampF 11 0 250 2000
      else if reg = 0x108 then keepIf (bitsOf v 10 0 = 0 || bitsOf v 10 0 > 1024) 10 0 (v, false)
      else (v, false)
    | .ftl => if reg = 0x10C then clampF 31 0 10000 1000000 else (v, false)
    | .pwr => if reg = 0x108 then clampF 11 0 1500 3600 else (v, false)
    | .fltag => if reg = 0x10C then clampF 9 0 1 1000 else (v, false)
    | .fabr =>
      if reg = 0x11C then keepIf (v < 10) 31 0 (v, false)
      else if reg = 0x124 then keepIf (bitsOf v 28 24 > 23) 28 24 (keepIf (bitsOf v 20 16 > 23) 20 16 (v, false))
      else if reg = 0x14C then keepIf (bitsOf v 27 24 > 2) 27 24 (keepIf (bitsOf v 8 0 > 287) 8 0 (v, false))
      else if reg = 0x170 then keepIf (bitsOf v 28 24 > 23) 28 24 (v, false)
      else if reg = 0x1C0 then keepIf (bitsOf v 3 0 > 12) 3 0 (keepIf (bitsOf v 12 8 > 23) 12 8 (v, false))
      else if reg = 0x1CC then keepIf (v < 16384) 31 0 (v, false)
      else (v, false)
    | .time => if reg = 0x100 then keepIf (bitsOf v 12 8 > 23) 12 8 (v, false) else (v, false)
    | .pcie =>
      if reg = 0x160 then keepIf (v = 0) 5 0 (v, false)
      else if reg = 0x194 then keepIf (bitsOf v 13 8 ≠ 0 && bitsOf v 5 0 > 3) 5 0 (v, false)
      else if reg = 0x198 then keepIf (v % 4096 ≠ 0) 31 0 (v, false)
      else (v, false)
    | .boot =>
      if reg = 0x108 then keepIf (v % 4096 ≠ 0) 31 0 (v, false)
      else if reg = 0x110 then keepIf (v < 8192 || v > 15728640 || v % 4096 ≠ 0) 23 0 (v, false)
      else (v, false)
    | .sec => if reg = 0x124 then keepIf (v % 4096 ≠ 0) 31 0 (v, false) else (v, false)
    | .qmgrJ =>
      if reg = 0x188 then keepIf (bitsOf v 20 0 > 1048576) 20 0 (v, false)
      else if reg = 0x1A0 || reg = 0x1A8 || reg = 0x1B0 || reg = 0x1B8 then
        let D := bitsOf v 8 0
        keepIf (D % 32 ≠ 0 || D < 32 || D > 256) 8 0
          (keepIf (!(bitsOf v 23 20 ∈ [3, 4, 6, 7])) 23 20 (keepIf (!(bitsOf v 27 24 ∈ [6, 7])) 27 24 (v, false)))
      else if reg = 0x1C4 then
        keepIf (bitsOf v 28 16 = 0 || bitsOf v 28 16 > 4096) 28 16
          (keepIf (bitsOf v 14 8 = 0 || bitsOf v 14 8 > 64) 14 8 (keepIf (bitsOf v 2 0 > 4) 2 0 (v, false)))
      else if reg = 0x1C8 then keepIf (bitsOf v 24 16 > 287) 24 16 (v, false)
      else if reg = 0x1CC then keepIf (v % 4096 ≠ 0) 25 0 (v, false)
      else (v, false)
    | _ => (v, false)

/-- Writes word i of a 128-bit table entry. -/
def putWord128 (e : BitVec 128) (i v : Nat) : BitVec 128 := BitVec.ofNat 128 (putBits e.toNat (32 * i + 31) (32 * i) v)

/-- Stores the word of a register write where the register's state lives. A write of CDIE_NOC_SLIP_THRESH begins the count of
the die's NOC slips anew; the window, which is that of core 0, goes on (04 R128; log 58). -/
def storeReg (d : Dev) (b : Blk) (die page reg v : Nat) : Dev :=
  match b with
  | .fabr =>
    if reg = 0x124 then
      { d with fab := { d.fab with rt := SMap.put d.fab.rt (rf d 0x120) v 0 } }
    else if reg = 0x12C then
      let e : McEnt := SMap.getD d.fab.mc (rf d 0x128) ⟨false, false, 0, 0⟩
      let e' : McEnt := ⟨v.testBit 31, v.testBit 30, bitsOf v 15 0, e.ports⟩
      { d with fab := { d.fab with mc := SMap.put d.fab.mc (rf d 0x128) e' ⟨false, false, 0, 0⟩ } }
    else if reg = 0x130 then
      let e : McEnt := SMap.getD d.fab.mc (rf d 0x128) ⟨false, false, 0, 0⟩
      let e' : McEnt := { e with ports := v }
      { d with fab := { d.fab with mc := SMap.put d.fab.mc (rf d 0x128) e' ⟨false, false, 0, 0⟩ } }
    else if 0x138 ≤ reg && reg ≤ 0x144 then
      let i := rf d 0x134
      let t := SMap.put d.fab.orr i (putWord128 (SMap.getD d.fab.orr i 0) ((reg - 0x138) / 4) v) 0
      { d with fab := { d.fab with orr := t } }
    else if 0x14C ≤ reg && reg ≤ 0x158 then
      let i := rf d 0x148
      let t := SMap.put d.fab.win i (putWord128 (SMap.getD d.fab.win i 0) ((reg - 0x14C) / 4) v) 0
      { d with fab := { d.fab with win := t } }
    else setRg d die page reg v
  | .pcie =>
    let p : HostPort := if die = 60 then .a else .b
    let x := pcie d p
    let i := rg d die page 0x190
    let e : Aperture := SMap.getD x.aps i ⟨false, false, 0, 0, 0, 0⟩
    let put (e' : Aperture) : Dev := setPcie d p { x with aps := SMap.put x.aps i e' ⟨false, false, 0, 0, 0, 0⟩ }
    if reg = 0x194 then put ⟨v.testBit 31, v.testBit 30, bitsOf v 23 16, bitsOf v 13 8, bitsOf v 5 0, e.base⟩
    else if reg = 0x198 then put { e with base := e.base / 2 ^ 32 * 2 ^ 32 + v }
    else if reg = 0x19C then put { e with base := v * 2 ^ 32 + e.base % 2 ^ 32 }
    else setRg d die page reg v
  | .sec =>
    if reg = 0x144 then
      let s := rg d 60 1 0x140
      setSess d s { sess d s with keyValid := v.testBit 4, keySlot := v % 16 }
    else setRg d die page reg v
  | .core =>
    let d1 := setRg d die page reg v
    if reg = 0x160 || reg = 0x164 then startWin d1 (die * 6 + page) else d1
  | .comet =>
    let d1 := setRg d die page reg v
    -- COMET_SLOT_Wn show the entry as it was when COMET_SLOT_SEL was last written
    if reg = 0x110 then
      (List.range 4).foldl (fun d' i => setRg d' die page (0x114 + 4 * i) (slotWord (slot d v) i)) d1
    else d1
  | .cdie =>
    let d1 := setRg d die page reg v
    if reg = 0x130 then setCore d1 (die * 6) { core d1 (die * 6) with nocBase := rg d1 die 16 0x120 } else d1
  | _ => setRg d die page reg v

/-- A write of a whole register with no action of its own: RW fields take the written value under R494, written
ones clear W1C bits, everything else is ignored (R6, R7). Answers whether a field was out of range. -/
def plainWrite (d : Dev) (off v : Nat) : Dev × Bool :=
  let die := offDie off
  let page := offPage off
  let reg := offReg off
  match blkAt die page with
  | none => (d, false)
  | some b =>
    match findRow b reg with
    | none => (d, false)
    | some r =>
      if r.rw = 0 && r.w1c = 0 then (d, false)
      else
        let old := if r.rw = 0 then rg d die page reg
          else if reg < 0x100 then rg d die page reg else regVal d off
        let (v', bad) := rangeFix b reg (old &&& r.rw) (v &&& r.rw)
        let new := (old &&& (0xFFFFFFFF - r.rw)) + v'
        let new := new &&& (0xFFFFFFFF - (v &&& r.w1c))
        (storeReg d b die page reg new, bad)

end Sys2Proof.Machine
end

