-- ==== Sys2Proof/Machine/Flash.lean ====
section
/-! DEFINITION. The flash translation layer: blocks, pages, programs, erases, moves (09 R281-R291). -/

namespace Sys2Proof.Machine
open Sys2Proof

/-! ### Units, blocks and pages -/

/-- The number of the logical unit that holds granules 4u to 4u + 3: a copy's units are contiguous (R282). -/
def unitNo (u : Nat) : Nat := Config.unitBase (u / 2 ^ 30) + u % 2 ^ 30
/-- The storage die that serves a granule of a T4 copy (R281). -/
def sdOf (k : Nat) : Nat := unitNo (k / 4) % 2
def sdDie (sd : Nat) : Nat := 62 + sd

/-! ### What GDDR7 and flash hold (R265; 13 R428) -/

/-- JOB of the tweak of a granule: the CREATOR of its object, the job of its page or slot, the saved job of a save area. -/
def restJob (d : Dev) (k : Nat) : Nat :=
  match gKind k with
  | 8 | 9 => (pst d (gId k)).job
  | 10 => (slot d (gId k)).job
  | 11 => gId k
  | _ => match obj d (gId k) with
    | some o => o.creator
    | none => 0
/-- The 128-bit XTS tweak: JOB in its top 8 bits. -/
def restTweak (j low : Nat) : BitVec 128 := BitVec.ofNat 128 (j * 2 ^ 120 + low)
/-- Line l of a T2 granule as its channel stores it: sealed content encrypted under KMEM2, other content in clear. -/
def storedLine (d : Dev) (k sid l : Nat) : List Nat :=
  let data := memRead d.mem.bytes (sid * 4096 + 64 * l) 64
  let g := Config.physGranule sid
  if sealed d sid then
    Config.aesXts (BitVec.ofNat 512 (kmem2 d.sec)) (restTweak (restJob d k) ((g / 64 * 64 + l) * 64 + g % 64)) data
  else data
/-- A granule of T4 as its storage die stores it: sealed content encrypted under KMEM4. -/
def storedFlash (d : Dev) (k sid : Nat) : List Nat :=
  let data := memRead d.mem.bytes (sid * 4096) 4096
  if sealed d sid then Config.aesXts (BitVec.ofNat 512 kmem4) (restTweak (restJob d k) (unitNo (k / 4) * 4 + k % 4)) data else data
/-- The check bits that the channel holds for line l of a T2 granule (R264-R266), over the line as it stores it (log 5). -/
def lineCheck (d : Dev) (k sid l : Nat) : Nat :=
  checkBits (Config.physGranule sid / 64 * 64 + l) (ofLeBytes (storedLine d k sid l)) (poisoned d sid) (sealed d sid)

def freshBlk : NandBlk := ⟨0, 0, false, 0, false⟩
def nandBlk (x : Ftl) (b : Nat) : NandBlk := SMap.getD x.blks b freshBlk
def putBlk (x : Ftl) (b : Nat) (k : NandBlk) : Ftl := { x with blks := SMap.insert x.blks b k }
/-- The ONFI channel of an erase block (R281; log 6). -/
def blkCh (b : Nat) : Nat := b % 16
def pageBlk (p : Nat) : Nat := p / 4096
/-- Pages of an erase block. -/
def blkPages : Nat := Config.lastPage.toNat + 1

/-- FTL_STAT, FTL_WEAR, FTL_SPARE_BLK and FTL_BAD_BLK read the same on both dies. -/
def setFtlBoth (d : Dev) (reg v : Nat) : Dev := setRg (setRg d 62 16 reg v) 63 16 reg v
def ftlReadOnly (d : Dev) : Bool := (rg d 62 16 0x104).testBit 4
def ftlClosed (d : Dev) : Bool := (ftl d 0).closed

/-- FTL_WEAR after an erase (R287). -/
def ftlWear (d : Dev) : Dev :=
  let total := sumBy (ftl d 0).blks (fun e => e.2.erases) + sumBy (ftl d 1).blks (fun e => e.2.erases)
  setFtlBoth d 0x108 (min 255 (total * 100 / (3000 * max 1 (2 * Config.dieBlocks))))

/-- A page is in use: mapped, or of a command that has not committed, or being programmed. -/
def pageUsed (x : Ftl) (p : Nat) : Bool :=
  x.map.any (fun e => e.2 == p) || x.mir.any (fun e => e.2 == p) || x.written.any (fun w => w.page == p)
    || x.progs.any (fun e => e.2.page == p)
def blkUsed (x : Ftl) (b : Nat) : Bool := x.pages.any (fun e => pageBlk e.1 == b && pageUsed x e.1)

/-- The lowest block of a channel that has never been used. -/
def freshOf (x : Ftl) (ch : Nat) : Option Nat :=
  ((List.range (x.blks.length + 1)).map (fun i => ch + 16 * i)).find? (fun b => !SMap.has x.blks b && decide (b < Config.dieBlocks))
/-- The free block of a channel with the lowest erase count (R287); of equal ones the lowest (log 6). -/
def freeBlk (x : Ftl) (ch : Nat) : Option Nat :=
  let erased := (x.blks.filter (fun e => blkCh e.1 == ch && !e.2.retired && e.2.fill == 0)).map (fun e => (e.2.erases, e.1))
  let all := erased ++ (match freshOf x ch with
    | some b => [(0, b)]
    | none => [])
  (all.foldl (fun (m : Option (Nat × Nat)) e =>
    match m with
    | some b => if e.1 < b.1 || (e.1 == b.1 && e.2 < b.2) then some e else m
    | none => some e) none).map (·.2)
/-- The block of a channel that takes the next program: one that is partly written, or a free one. -/
def openBlk (x : Ftl) (ch : Nat) : Option Nat :=
  match x.blks.find? (fun e => blkCh e.1 == ch && !e.2.retired && !e.2.moving && decide (0 < e.2.fill) && decide (e.2.fill < blkPages)) with
  | some e => some e.1
  | none => freeBlk x ch

/-- An erase that succeeded: the block is free. -/
def erased (x : Ftl) (b : Nat) : Ftl :=
  let k := nandBlk x b
  { putBlk x b { k with reads := 0, erases := k.erases + 1, fill := 0, moving := false } with
      pages := SMap.keep x.pages (fun p _ => pageBlk p != b) }
/-- Where no channel has a free block, one whose pages are all released is erased for the next program (R283; log 6). -/
def reclaim (x : Ftl) : Option Nat := (x.blks.find? (fun e => !e.2.retired && !blkUsed x e.1)).map (·.1)

/-- The block of the next program: consecutive units of a die go to consecutive channels where these have room (R281). -/
def pickBlk (d : Dev) (sd : Nat) : Dev × Nat :=
  let x := ftl d sd
  match (List.range 16).findSome? (fun i => openBlk x ((x.nextProg + i) % 16)) with
  | some b => (d, b)
  | none =>
    match reclaim x with
    | some b => (ftlWear (bump (setFtl d sd (erased x b)) (sdDie sd) (blkCh b) 0x138 1), b)
    | none => (d, x.nextProg % 16 + 16 * x.blks.length)

/-- Starts a program of a unit into a block. A unit that is moved from a mapped page keeps that page's write sequence number:
its data is no newer (log 6). -/
def progInto (d : Dev) (uid sd u b : Nat) (mirror : Bool) (move : Option Nat) : Dev :=
  let x := ftl d sd
  let seq := match move.bind (SMap.get? x.pages) with
    | some h => h.wseq
    | none => x.wseq
  let k := nandBlk x b
  let page := b * 4096 + k.fill
  let x1 := putBlk x b { k with fill := k.fill + 1 }
  let d1 := setFtl d sd { x1 with
    pages := SMap.insert x1.pages page ⟨u, seq, false, mirror⟩
    progs := SMap.insert x1.progs x1.nextProg ⟨uid, u, page, mirror, move⟩
    nextProg := x1.nextProg + 1, wseq := (x1.wseq + 1) % 2 ^ 64 }
  bump (bump64 d1 (sdDie sd) 16 0x138 1) (sdDie sd) (blkCh b) 0x134 1
/-- Starts a program of a unit on a storage die, in a block of its choice. -/
def startProg (d : Dev) (uid sd u : Nat) (mirror : Bool) (move : Option Nat) : Dev :=
  let (d1, b) := pickBlk d sd
  progInto d1 uid sd u b mirror move

/-- The page of a logical unit is read: FTL_READ_CNT, the channel's reads, the block's read count (R286). -/
def readPage (d : Dev) (sd p : Nat) : Dev :=
  let x := ftl d sd
  let k := nandBlk x (pageBlk p)
  bump (setFtl d sd (putBlk x (pageBlk p) { k with reads := k.reads + 1 })) (sdDie sd) (blkCh (pageBlk p)) 0x130 1
def readUnit (d : Dev) (u : Nat) : Dev :=
  let sd := sdOf (4 * u)
  match SMap.get? (ftl d sd).map u with
  | some p => bump64 (readPage d sd p) (sdDie sd) 16 0x130 1
  | none => d

/-! ### What ends a program or an erase -/

/-- Starts the erase of a block. -/
def startErase (d : Dev) (sd b : Nat) : Dev :=
  let x := ftl d sd
  bump (setFtl d sd { x with erases := SMap.insert x.erases x.nextProg b, nextProg := x.nextProg + 1 }) (sdDie sd) (blkCh b) 0x138 1
/-- Blocks whose units have all moved away are erased (R286, R287). -/
def eraseMoved (d : Dev) (sd : Nat) : Dev :=
  let x := ftl d sd
  (x.blks.filter (fun e => e.2.moving && !blkUsed x e.1 && !x.erases.any (fun q => q.2 == e.1))).foldl
    (fun d e => startErase d sd e.1) d

/-- Moves the valid units of a block to fresh pages: those of another block while it has room, else wherever programs go. -/
def moveBlk (d : Dev) (sd b : Nat) (dst : Option Nat) : Dev :=
  let x := ftl d sd
  let us := (x.map.filter (fun e => pageBlk e.2 == b)).map (fun e => (e, false))
    ++ (x.mir.filter (fun e => pageBlk e.2 == b)).map (fun e => (e, true))
  let d1 := setFtl d sd (putBlk x b { nandBlk x b with moving := true })
  let d2 := us.foldl (fun d u =>
    match dst with
    | some t =>
      if (nandBlk (ftl d sd) t).fill < blkPages then progInto d 0 sd u.1.1 t u.2 (some u.1.2)
      else startProg d 0 sd u.1.1 u.2 (some u.1.2)
    | none => startProg d 0 sd u.1.1 u.2 (some u.1.2)) d1
  eraseMoved d2 sd

/-- The programs that a command's T4 writes need (R283, R285): one for each logical unit it wrote, two for a unit
of a MIRROR copy. A unit that is written in part is read first (R282). The command's count of programs is set. -/
def startPrograms (d : Dev) (uid : Nat) (keys : List Nat) : Dev :=
  let t4 := (keys.filter (fun k => !gIsT0 k && gKind k == 4)).dedup
  let units := (t4.map (fun k => k / 4)).dedup
  let mir (u : Nat) : Bool := match obj d (gId (4 * u)) with
    | some o => o.mirror
    | none => false
  let d1 := units.foldl (fun d u =>
    let sd := sdOf (4 * u)
    let d0 := if (t4.filter (fun k => k / 4 == u)).length < 4 then readUnit d u else d
    let d' := startProg d0 uid sd u false none
    if mir u then startProg d' uid (1 - sd) u true none else d') d
  match cmd d1 uid with
  | some c => setCmd d1 uid { c with t4left := c.t4left + sumBy units (fun u => if mir u then 2 else 1) }
  | none => d1

/-- May a command write T4 now? A fault that ends it otherwise: T4 read only (R288), or power loss (R289). -/
def t4WriteFault (d : Dev) (uid : Nat) : Option Dev :=
  if ftlClosed d then some (failFault d uid 62 16 true)
  else if ftlReadOnly d then some (failFault d uid 62 16 false)
  else none

/-- A moved unit is mapped to its new page, unless another page has been mapped since (R286). -/
def moveDone (x : Ftl) (p : Prog) : Ftl :=
  if (if p.mirror then SMap.get? x.mir p.key else SMap.get? x.map p.key) = p.move then
    let y := mapChange x p.mirror p.key (some p.page)
    match SMap.get? y.pages p.page with
    | some h => { y with pages := SMap.insert y.pages p.page { h with committed := true } }
    | none => y
  else x

/-- A program ended well. -/
def progDone (d : Dev) (sd op : Nat) : Dev :=
  let x := ftl d sd
  match SMap.get? x.progs op with
  | none => d
  | some p =>
    let x1 : Ftl := { x with progs := SMap.erase x.progs op }
    if p.move.isSome then eraseMoved (setFtl d sd (moveDone x1 p)) sd
    else match cmd d p.uid with
      | some c =>
        if c.phase = .ended then setFtl d sd x1
        else
          let d1 := setFtl d sd { x1 with written := x1.written ++ [⟨p.uid, p.key, p.page, p.mirror⟩] }
          requestCommit (setCmd d1 p.uid { c with t4left := c.t4left - 1 }) p.uid
      | none => setFtl d sd x1

/-- Retires a block (R288): a spare replaces it; FTL_SPARE_LOW and FTL_READ_ONLY on the die concerned. -/
def retireBlk (d : Dev) (sd b : Nat) : Dev :=
  let x := ftl d sd
  let d1 := setFtl d sd (putBlk x b { nandBlk x b with retired := true })
  let d2 := setFtlBoth d1 0x114 (rg d1 62 16 0x114 + 1)
  let sp := rg d2 62 16 0x110
  let d3 := setFtlBoth d2 0x110 (sp - 1)
  let st := rg d3 62 16 0x104
  let low := decide ((sp - 1) * 100 < Config.spareInit)
  let d4 := if low && !st.testBit 3 then latch (setFtlBoth d3 0x104 (st ||| 8)) (sdDie sd) 16 1 noCap else d3
  if sp ≤ 1 && !st.testBit 4 then
    latch (setFtlBoth d4 0x104 (rg d4 62 16 0x104 ||| 16)) (sdDie sd) 16 2 noCap
  else d4

/-- A program failed (R288): its block is retired and its data is programmed into another block. -/
def progFailed (d : Dev) (sd op : Nat) : Dev :=
  let x := ftl d sd
  match SMap.get? x.progs op with
  | none => d
  | some p =>
    let d1 := setFtl d sd { x with progs := SMap.erase x.progs op, pages := SMap.erase x.pages p.page }
    startProg (retireBlk d1 sd (pageBlk p.page)) p.uid sd p.key p.mirror p.move

/-- An erase ended: the block is free, or it is retired (R288). -/
def eraseDone (d : Dev) (sd op : Nat) (ok : Bool) : Dev :=
  let x := ftl d sd
  match SMap.get? x.erases op with
  | none => d
  | some b =>
    let x1 : Ftl := { x with erases := SMap.erase x.erases op }
    if ok then ftlWear (setFtl d sd (erased x1 b)) else retireBlk (setFtl d sd x1) sd b

/-! ### Mount (R289, R291) -/

/-- The maps are rebuilt from checkpoint and journal, or from the headers of the programmed pages. -/
def rebuildFtl (x : Ftl) (clean : Bool) : Ftl :=
  let m := if clean then replayJournal x else (scanPages x false, scanPages x true)
  { x with map := m.1, mir := m.2, ckMap := m.1, ckMir := m.2, journal := [] }
/-- The firmware rebuilds the maps after an uncorrectable line of theirs, whose granule it writes again (R267). -/
def rebuildMap (d : Dev) (g : Nat) : Dev :=
  let d1 := [0, 1].foldl (fun d sd => setFtl d sd (rebuildFtl (ftl d sd) true)) d
  { d1 with ext := { d1.ext with rsvdPoison := NSet.del d1.ext.rsvdPoison g } }

end Sys2Proof.Machine
end

