-- ==== Sys2Proof/Machine/MemFault.lean ====
section
/-! DEFINITION. What the checkers of memory do: corrected and uncorrectable reads of each tier, with their counters,
faults and POISON (03 R69; 08 R258, R259; 09 R267, R277, R284, R285). -/

namespace Sys2Proof.Machine
open Sys2Proof

/-- The inkwell of a granule of a T1 copy or of a page's staged copy. -/
def inkOf (d : Dev) (k : Nat) : Nat :=
  if gKind k = 9 then Config.stageDie (gId k) % 8 else match obj d (gId k) with | some o => o.t1die | none => 0

/-- A corrected error in a read of a granule. -/
def countCE (d : Dev) (k sid : Nat) : Dev :=
  if gIsT0 k then let n := k / scratchGrans; bump d (n / 6) (n % 6) 0x150 1
  else if gKind k = 1 || gKind k = 9 then bump d (48 + inkOf d k) 18 0x13C 1
  else if gKind k = 4 then bump d (sdDie (sdOf k)) 16 0x144 1
  else bump d (chDie (channelOf sid)) (chPage (channelOf sid)) 0x130 1

/-- POISON on a granule that cannot be read; the page or the slot that it belongs to is marked with it (05 R136, R167). -/
def poisonGran (d : Dev) (k sid : Nat) : Dev :=
  let d1 := setPoison d sid true
  if gKind k = 8 then setPst d1 (gId k) { pst d1 (gId k) with poison := true } else d1

/-- May the mirror serve this granule? -/
def mirrored (d : Dev) (k : Nat) : Bool :=
  gKind k == 4 && (match obj d (gId k) with | some o => o.mirror | none => false)

/-- A codeword of T4 that stays bad after its three re-reads and its soft decode, on a storage die (R284). -/
def countRetries (d : Dev) (sd n : Nat) : Dev := bump d (sdDie sd) 16 0x144 n

/-- An uncorrectable error in a read of a granule: its fault source latches with the capture `c`; T2 and T4 granules
are poisoned. A dirty line of a cache that is bad is the inkwell's error (09 R279); of a mirrored unit both copies were bad
(R285). -/
def readUE (d : Dev) (k sid : Nat) (c : Cap) : Dev :=
  if gIsT0 k then latchCoreSrc d (k / scratchGrans) 0 c
  else if gKind k = 1 || gKind k = 9 then latch d (48 + inkOf d k) 18 0 c
  else if gKind k = 4 then
    let d1 := countRetries d (sdOf k) 4
    let d2 := if mirrored d k then countRetries d1 (1 - sdOf k) 4 else d1
    latch (poisonGran (bump d2 (sdDie (sdOf k)) 16 0x14C 1) k sid) (sdDie (sdOf k)) 16 0 c
  else if cacheDirty d sid then latch (poisonGran d k sid) (48 + granDie sid) 18 0 c
  else poisonGran (lineRead d (channelOf sid) c (.ue 0)).1 k sid

/-- What a read of GDDR7 or flash meets besides those errors: the device, and whether the data is lost. -/
def readErr (d : Dev) (k sid : Nat) (c : Cap) (e : ReadErr) : Dev × Bool :=
  if gKind k = 4 then
    let page := blkCh (match SMap.get? (ftl d (sdOf k)).map (k / 4) with
      | some p => pageBlk p
      | none => 0)
    match e with
    | .reread n => (countRetries d (sdOf k) (n.val + 1), false)
    | .timeout => (latch (bump d (sdDie (sdOf k)) page 0x13C 1) (sdDie (sdOf k)) page 0 noCap, true)
    | .buffer => (latch d (sdDie (sdOf k)) page 1 noCap, true)
    | _ => (d, false)
  else if inT2 k then
    match lineRead d (channelOf sid) c (.at e 0) with
    | (d1, true) => (poisonGran d1 k sid, true)
    | r => r
  else (d, false)

/-- A codeword of a MIRROR copy served by its secondary copy: the unit is then written into a new primary page (09 R285). -/
def mirrorRepair (d : Dev) (k : Nat) (c : Cap) : Dev :=
  let sd := sdOf k
  let d0 := match SMap.get? (ftl d (1 - sd)).mir (k / 4) with
    | some p => readPage d (1 - sd) p
    | none => d
  let d1 := latch (bump d0 (sdDie sd) 16 0x148 1) (sdDie sd) 16 4 c
  match SMap.get? (ftl d1 sd).map (k / 4) with
  | some p => startProg d1 0 sd (k / 4) false (some p)
  | none => d1

/-- What a read of one granule by a command finds (R259): the device after it, and a failure status with the
granule's address when the read fails. -/
def checkRead (d : Dev) (k sid addr : Nat) (ev : Upset) (c : Cap) : Dev × Option Nat :=
  if poisoned d sid then (d, some stPoison)
  else match ev with
    | .ce _ => (countCE d k sid, none)
    | .ue _ => (readUE d k sid { c with addr := addr }, some stMemUE)
    | .at e _ =>
      (match readErr d k sid { c with addr := addr } e with
       | (d1, false) => (d1, none)
       | (d1, true) =>
         if mirrored d k then (mirrorRepair (countRetries d1 (sdOf k) 4) k { c with addr := addr }, none)
         else if gKind k = 4 then (readUE d1 k sid { c with addr := addr }, some stMemUE)
         else (d1, some stMemUE))
    | .mirrorServe _ =>
      if mirrored d k then (mirrorRepair (countRetries d (sdOf k) 4) k { c with addr := addr }, none)
      else if gKind k = 4 then (readUE d k sid { c with addr := addr }, some stMemUE)
      else (d, none)
    | _ => (d, none)

/-- What a gather of granules ends with: their bytes and SEAL, or a failing status and DETAIL. -/
abbrev Gathered := Except (Nat × Nat) (List (List Nat × Bool))

/-- Reads granules as a command sees them, in order (R238, R259). The places of the upset are the
granules that hold content. -/
def gather (uid : Nat) (cp : Cap) : List (Nat × Nat) → Dev → Upset → Dev × Gathered
  | [], d, _ => (d, .ok [])
  | (addr, k) :: r, d, ev =>
    match viewSid d uid k with
    | none =>
      match gather uid cp r d ev with
      | (d1, .ok l) => (d1, .ok ((List.replicate 4096 0, false) :: l))
      | e => e
    | some sid =>
      match checkRead d k sid addr (evHere ev) cp with
      | (d1, some st) => (d1, .error (st, addr))
      | (d1, none) =>
        match gather uid cp r d1 (evNext ev) with
        | (d2, .ok l) => (d2, .ok ((stRead d sid 0 4096, sealed d sid) :: l))
        | e => e

/-- Checks a read of granules that a command sees, in order, as `gather` does: what is left of the upset, or a failing status
and DETAIL. -/
def checkReads (uid : Nat) (cp : Cap) : List (Nat × Nat) → Dev → Upset → Dev × Except (Nat × Nat) Upset
  | [], d, ev => (d, .ok ev)
  | (addr, k) :: r, d, ev =>
    match viewSid d uid k with
    | none => checkReads uid cp r d ev
    | some sid =>
      match checkRead d k sid addr (evHere ev) cp with
      | (d1, some st) => (d1, .error (st, addr))
      | (d1, none) => checkReads uid cp r d1 (evNext ev)

/-- A granule is marked PENDING (08 R253, R256). -/
def isPending (d : Dev) (k : Nat) : Bool := SMap.has d.mem.marks k

/-- Adds a job's mark to a granule: the marks of one job stand in list order, whenever their entries became eligible
(R253). -/
def markGran (d : Dev) (j i k : Nat) : Dev :=
  let l := SMap.getD d.mem.marks k []
  let later (m : Nat × Nat) : Bool := m.1 == j && decide (i < m.2)
  let l1 := match l.findIdx? later with
    | some p => l.take p ++ [(j, i)] ++ l.drop p
    | none => l ++ [(j, i)]
  { d with mem := { d.mem with marks := SMap.insert d.mem.marks k l1 } }
/-- Clears an entry's mark. -/
def unmarkGran (d : Dev) (j i k : Nat) : Dev :=
  let l := (SMap.getD d.mem.marks k []).filter (fun m => m != (j, i))
  { d with mem := { d.mem with marks := if l.isEmpty then SMap.erase d.mem.marks k else SMap.insert d.mem.marks k l } }

end Sys2Proof.Machine
end

