-- ==== Sys2Proof/WellFormed.lean ====
section
/-! DEFINITION. Well-formed commands: the operands that can exist on a bus or link of the module. A packet's fields
have the widths of 11 R343 and R345, byte strings hold bytes, and lengths are those the spec's tables allow. -/

namespace Sys2Proof
open Sys2Proof.Machine (Packet)

/-- Every number is a byte. -/
def bytesOk (l : List Nat) : Bool := l.all (fun b => decide (b < 256))

/-- The fields of a packet have the widths of 11 R343 and R345. -/
def Packet.ok (p : Packet) : Bool :=
  decide (p.typ < 16) && decide (p.vc < 4) && decide (p.dst < 65536) && decide (p.src < 65536) && decide (p.ttl < 64)
  && decide (p.tag < 1024) && decide (p.addr < 2 ^ 48) && decide (p.stamp < 65536)
  && p.payload.length % 16 == 0 && decide (p.payload.length ≤ 512) && bytesOk p.payload
  && (match p.route with
      | none => true
      | some (hops, idx) =>
        decide (1 ≤ hops.length) && decide (hops.length ≤ 16) && hops.all (fun h => decide (h < 32)) && decide (idx ≤ 16))

/-- The fields of a link frame have the widths of 11 R337. -/
def LinkFrame.ok (f : LinkFrame) : Bool :=
  decide (f.seq < 2 ^ 40) && decide (f.ack < 2 ^ 40) && decide (f.creditOrbit < 256) && decide (f.creditBulk < 256)
  && decide (f.creditMgmt < 256) && decide (f.creditTime < 256)

/-- A BAR2 TLP stays inside the 64 GiB BAR and carries at most the largest read request (12 R385, R387). -/
def bar2Ok (off : BitVec 36) (len : Nat) : Bool :=
  decide (1 ≤ len) && decide (len ≤ 4096) && decide (off.toNat % 4096 + len ≤ 4096)

/-- The sixty-four junction temperatures of one reading (15 R475). -/
def tempsOk (t : List (BitVec 8)) : Bool := t.length == 64

/-- Well-formedness of a command. -/
def Instr.wellFormed : Instr → Bool
  | .forward _ p _ | .put _ p _ | .putAck _ p | .getReq _ p _ | .getResp _ p | .atomic _ p _ | .atomicResp _ p
  | .nack _ p | .orbitData _ p | .orbitSignal _ p | .cal _ p | .calEcho _ p _ | .startRx _ p _ | .heartbeat _ p
  | .haltRx _ p | .mgmtRd _ p | .mgmtWr _ p | .mgmtResp _ p | .faultReport _ p => Packet.ok p
  | .linkFrameRx _ f => LinkFrame.ok f
  | .bar2Read _ off len _ => bar2Ok off len
  | .bar2Write _ off bytes _ => bar2Ok off bytes.length
  | .dieTempRead t => tempsOk t
  | _ => true

end Sys2Proof
end

