-- ==== Sys2Proof/Machine/Net.lean ====
section
/-! DEFINITION. Packets, routing and ports (11 R336-R354): shared operations of the fabric's commands. -/

namespace Sys2Proof.Machine
open Sys2Proof

/-- A meaning whose command must be well-formed to arrive: what no bus or link of the module can carry never reaches it, and
nothing happens (log 15). -/
def guardWf (ok : Bool) (s : State) (o : Host.Outcome State Fault Refusal) : Host.Outcome State Fault Refusal :=
  if ok then o else .next s

/-- The VCs a TYPE is carried on (R343, R344). -/
def typeVcOk (p : Packet) : Bool :=
  match p.typ with
  | 1 | 2 | 3 | 4 | 5 | 6 => p.vc == 1
  | 7 => p.vc == 1 || p.vc == 2
  | 8 | 9 => p.vc == 0
  | 10 => p.vc == 0 || (p.vc == 2 && p.payload.head? == some 5)
  | 11 | 12 | 13 | 15 => p.vc == 2
  | 14 => p.vc == 3
  | _ => false

/-- LEN of a TYPE, in units (R343). -/
def typeLenOk (p : Packet) : Bool :=
  let n := p.payload.length / 16
  match p.typ with
  | 1 | 4 => decide (1 ≤ n) && decide (n ≤ 32)
  | 2 | 7 | 11 => n == 0
  | 3 | 6 | 9 | 12 | 13 => n == 1
  | 5 => n == 2
  | 8 => n == 32
  | 10 | 15 => n == 1 || n == 2
  | 14 => decide (1 ≤ n) && decide (n ≤ 4)
  | _ => false

/-- R343-R345: the header passes the checks of the chapter. -/
def headerOk (p : Packet) : Bool :=
  typeVcOk p && typeLenOk p && (p.route.isSome == (p.vc == 0))
  && (match p.route with
      | some (h, i) => decide (i ≤ h.length)
      | none => true)
  && (p.typ != 3 || (let n := ofLeBytes (p.payload.take 4)
      decide (16 ≤ n) && decide (n ≤ 4096) && n % 16 == 0))

def isRequest (p : Packet) : Bool := p.typ == 1 || p.typ == 3 || p.typ == 5 || p.typ == 11 || p.typ == 12

/-- A packet of this device's own. -/
def mkPkt (d : Dev) (typ vc dst tag addr stamp : Nat) (payload : List Nat) : Packet :=
  ⟨typ, vc, false, dst, ownDid d, 63, tag, addr, stamp, none, payload⟩

/-- Sends a request or a report: a device with DID 0 sends only MGMT responses (R347). -/
def sendReq (d : Dev) (p : Packet) : Option Dev := if ownDid d = 0 then none else sendRouted d p

/-- Sends a response to a request that arrived on a port (R348). -/
def respond (d : Dev) (port : Nat) (req p : Packet) : Dev :=
  if req.dst = 0xFFFF then sendPort d port { p with dst := 0xFFFF }
  else if ownDid d = 0 && p.typ ≠ 13 then d
  else match sendRouted d { p with dst := req.src } with
    | some d' => d'
    | none => d

/-- Answers a request with a NACK (R361). -/
def nackReq (d : Dev) (port : Nat) (req : Packet) (reason : Nat) : Dev :=
  respond (bump d 56 16 0x208 1) port req (mkPkt d 7 req.vc req.src req.tag reason 0 [])

def remoteCap (p : Packet) (addr kind len : Nat) : Cap := ⟨addr, 7, p.src, none, kind, len⟩

/-- Discards a packet (R343, R354): counted, ROUTE_DROP raised, a request answered with a NACK. -/
def routeDrop (d : Dev) (port : Nat) (p : Packet) (reason : Nat) : Dev :=
  let d1 := latch (bump d 56 16 0x200 1) 56 16 2 (remoteCap p 0 7 (pktBytes p))
  if isRequest p then nackReq d1 port p reason else d1
/-- Discards a malformed packet: counted; a request gets a NACK (R343). -/
def dropMalformed (d : Dev) (port : Nat) (p : Packet) : Dev :=
  let d1 := bump d 56 16 0x200 1
  if isRequest p then nackReq d1 port p 1 else d1

/-- A packet arrives over a link that is up, or this device sent it to itself (log 19). -/
def portIn (d : Dev) (port : Nat) (p : Packet) : Bool :=
  (fabPort d port).up || (p.src == ownDid d && p.dst == ownDid d)
/-- Takes in a packet whose header passes the checks; any other is discarded as malformed (R343-R345). -/
def checked (d : Dev) (port : Nat) (p : Packet) (f : Dev → Dev) : Dev :=
  if headerOk p then f d else dropMalformed d port p

/-- The ports down the clock tree: orbit-path ports apart from the upstream port (R362, R373; log 20). -/
def upstreamPort (d : Dev) : Nat := bitsOf (rf d 0x1C0) 12 8
def isMaster (d : Dev) : Bool := (rf d 0x1C0).testBit 15
def treePorts (d : Dev) : List Nat :=
  (List.range 24).filter (fun p =>
    (rp d p 0x100).testBit 4 && (fabPort d p).up && (isMaster d || p != upstreamPort d))

/-- Sends an ORBIT_CTRL packet over one link (R345: one hop). -/
def sendCtrl (d : Dev) (port : Nat) (payload : List Nat) : Dev :=
  sendPort d port { mkPkt d 10 0 (fabPort d port).peerDid 0 0 0 payload with route := some ([port], 1) }
def padTo (n : Nat) (l : List Nat) : List Nat := l ++ List.replicate (n - l.length) 0

def setOrb (d : Dev) (o : Orb) : Dev := { d with orb := o }
/-- Changes the orbit state; a change is an event of the FABR page (16 R498). -/
def setOrbState (d : Dev) (o : Orb) : Dev :=
  if o.state = d.orb.state then setOrb d o else pageEvent (setOrb d o) 56 16 2

/-- Entering LOST (R372, R373). -/
def enterLost (d : Dev) (cause : Nat) : Dev :=
  if orbitMode d then
    let kids := treePorts d
    let d1 := setOrbState d { d.orb with state := .lost, cause := cause, pllRef := false, holdover := true,
                                         armed := false, haltDue := true }
    let d2 := kids.foldl (fun d p => sendCtrl d p (padTo 16 [5])) d1
    let grp := bitsOf (rf d2 0x1C0) 31 16
    let d3 := match sendReq d2 (mkPkt d2 10 2 grp 0 0 0 (padTo 16 [5])) with
      | some d' => d'
      | none => d2
    latch d3 56 16 0 noCap
  else d

/-- A port stops carrying traffic (R340): its ORBIT packets are discarded, its BULK and MGMT packets take another
port, and an orbit that needs the port is lost (R372). -/
def portGoesDown (d : Dev) (p : Nat) : Dev :=
  let q := fabPort d p
  if !q.up then d
  else
    let d1 := setPort d p { q with up := false, downAt := d.now, training := (rp d p 0x100).testBit 0, queued := [],
                                   unacked := [], release := [] }
    let again := q.queued.filter (fun k => (k.vc == 1 || k.vc == 2) && k.dst != 0xFFFF)
    let d2 := again.foldl (fun d k => match sendRouted d k with
      | some d' => d'
      | none => routeDrop d p k 1) d1
    if orbitMode d2 && !isMaster d2 && p = upstreamPort d2 then enterLost d2 1
    else if (rp d2 p 0x100).testBit 4 then enterLost d2 5
    else d2

/-- A retrain: counted, LINK_RETRAIN raised, the link is down until it comes up again (R340). -/
def retrainPort (d : Dev) (p : Nat) : Dev :=
  if (fabPort d p).up then
    portGoesDown (latch (bump d (fpDie p) (p % 6) 0x140 1) (fpDie p) (p % 6) 1 ⟨0, 0, 0, none, 7, 0⟩) p
  else d

/-- Resends every frame not yet acknowledged (R339). -/
def replay (d : Dev) (p : Nat) : Dev :=
  let q := fabPort d p
  let fs := q.unacked.map (fun f => { f with resends := f.resends + 1, sentAt := d.now })
  let d1 := setPort d p { q with unacked := fs }
  (q.unacked.foldl (fun d f => emit d (.resend p f.seq)) (bump d1 (fpDie p) (p % 6) 0x13C q.unacked.length))

/-! ### Requests to other devices (R357-R361) -/

def freeTag (d : Dev) : Option Nat := (List.range 1024).find? (fun i => !SMap.has d.fab.reqs i)
def setReq (d : Dev) (tag : Nat) (r : Req) : Dev :=
  { d with fab := { d.fab with reqs := SMap.insert d.fab.reqs tag r } }
def dropReq (d : Dev) (tag : Nat) : Dev := { d with fab := { d.fab with reqs := SMap.erase d.fab.reqs tag } }
/-- Does a command (or one of its actions) still wait for responses? -/
def waitsReq (d : Dev) (uid : Nat) (act : Option Nat) : Bool :=
  let mine (r : Req) : Bool := match r.owner with
    | .cmd u a => u == uid && (match act with | some x => a == x | none => true)
    | _ => false
  d.fab.reqs.any (fun e => mine e.2) || d.fab.reqWait.any (fun x => mine x.2)

def finishRop (d : Dev) (result : Nat) : Dev :=
  pageEvent { d with fab := { d.fab with ropBusy := false, ropStatus := result } } 56 16 1
def finishMailbox (d : Dev) (status : Nat) : Dev :=
  pageEvent { d with fab := { d.fab with mbBusy := false, mbStatus := status } } 56 16 0

/-- Ends a request with a failure reason (R361, table "Remote operation failures"). -/
def failReq (d : Dev) (tag reason : Nat) : Dev :=
  match SMap.get? d.fab.reqs tag with
  | none => d
  | some r =>
    let d1 := dropReq d tag
    let d2 := if reason = 1 || reason = 2 then reportRequest d1 r.did else d1
    match r.owner with
    | .cmd uid act =>
      let d3 := match reason with
        | 4 | 5 => failBad d2 uid (if act = 0 then none else some (act % 8192))
        | 7 => endCmd d2 uid stPoison r.t3 false
        | 8 => endCmd d2 uid stMemUE r.t3 false
        | _ => endCmd d2 uid stUnreach r.did false
      dropCmdReqs d3 uid
    | .pf j i =>
      let x := job d2 j
      match SMap.get? x.pf i with
      | some (.transfer g h) => setJob d2 j { x with pf := SMap.insert x.pf i (.broken g h) }
      | _ => d2
    | .rop =>
      finishRop d2 (match reason with
        | 1 | 2 => 1
        | 3 => 2
        | 4 => 3
        | 5 => 4
        | 6 => 5
        | _ => 6)
    | .mailbox => finishMailbox d2 2

/-- Sends a request under a tag; one with no route counts as UNREACHABLE (R361). -/
def sendTagged (d : Dev) (tag : Nat) (p : Packet) (r : Req) : Dev :=
  let d1 := setReq d tag { r with sentAt := d.now }
  match sendReq d1 { p with tag := tag } with
  | some d2 => d2
  | none => failReq d1 tag 1

/-- Sends waiting requests, oldest first, while tags are free. -/
def drainReqsN : Nat → Dev → Dev
  | 0, d => d
  | n + 1, d =>
    match d.fab.reqWait, freeTag d with
    | x :: rest, some tag => drainReqsN n (sendTagged { d with fab := { d.fab with reqWait := rest } } tag x.1 x.2)
    | _, _ => d
def drainReqs (d : Dev) : Dev := drainReqsN d.fab.reqWait.length d

/-- Issues a request: it is sent at once when a tag is free, else it waits for one (log 21). -/
def request (d : Dev) (p : Packet) (r : Req) : Dev :=
  drainReqs { d with fab := { d.fab with reqWait := d.fab.reqWait ++ [(p, r)] } }

/-! ### Receive windows (R355, R358) -/

def winWord (d : Dev) (w i : Nat) : Nat := (SMap.getD d.fab.win w 0).toNat / 2 ^ (32 * i) % 2 ^ 32
def winValid (d : Dev) (w : Nat) : Bool := (winWord d w 0).testBit 31
def winTier (d : Dev) (w : Nat) : Nat := bitsOf (winWord d w 0) 27 24
def winJob (d : Dev) (w : Nat) : Nat := bitsOf (winWord d w 0) 23 16
def winCore (d : Dev) (w : Nat) : Nat := bitsOf (winWord d w 0) 8 0
def winBase (d : Dev) (w : Nat) : Nat := bitsOf (winWord d w 1) 25 0
def winOid (d : Dev) (w : Nat) : Nat := bitsOf (winWord d w 1) 19 0
def winSize (d : Dev) (w : Nat) : Nat := winWord d w 2 * 4096
def winSrcOk (d : Dev) (w src : Nat) : Bool :=
  let m := bitsOf (winWord d w 3) 31 16
  (src &&& m) == (bitsOf (winWord d w 3) 15 0 &&& m)

/-- The reason for which a window refuses an access of n bytes, if any. `right` is the window's bit for it: 30 RD,
29 WR, 28 AT. A window on T1 or T2 is open to reads only. -/
def winRefuses (d : Dev) (w src right addr n : Nat) : Option Nat :=
  if !winValid d w then some 3
  else if !winSrcOk d w src || !(winWord d w 0).testBit right || (winTier d w ≠ 0 && right ≠ 30) then some 4
  else if addr + n > winSize d w || (winTier d w = 0 && winBase d w + addr + n > scratchBytes) then some 5
  else if winTier d w = 0 then (if (job d (winJob d w)).resident then none else some 6)
  else match obj d (winOid d w) with
    | some o =>
      let c := copyOf o (winTier d w)
      if !c.present || c.newBy ≠ 0 || !claims c (winJob d w) then some 3
      else if addr + n > o.size * 4096 then some 5 else none
    | none => some 3

/-- The granule and offset that a byte of a window lies in. -/
def winGran (d : Dev) (w a : Nat) : Nat × Nat :=
  if winTier d w = 0 then (gT0 (winCore d w) ((winBase d w + a) / 4096), (winBase d w + a) % 4096)
  else (gKey (winTier d w) (winOid d w) (a / 4096), a % 4096)

/-- The granules that n bytes of a window at an address touch. -/
def winGrans (d : Dev) (w a n : Nat) : List Nat :=
  ((List.range (n / 16)).map (fun i => (winGran d w (a + 16 * i)).1)).dedup

/-- Committed bytes of a window. -/
def winRead (d : Dev) (w a n : Nat) : List Nat :=
  ((List.range (n / 8)).map (fun i => let g := winGran d w (a + 8 * i); readRoot d g.1 g.2 8)).flatten

end Sys2Proof.Machine
end

