-- ==== Sys2Proof/Machine/Ext.lean ====
section
/-! DEFINITION. External memories: the rows of the write-combining buffers, the inkwells, the GDDR7 channels and the flash (09
R264-R298). -/

namespace Sys2Proof.Machine
open Sys2Proof

/-! ### Write-combining buffer (R272-R276) -/

/-- The storage granule is one of T2. -/
def isT2Gran (d : Dev) (sid : Nat) : Bool :=
  d.mem.roots.any (fun e => e.2 == sid && (gKind e.1 == 2 || gKind e.1 == 8 || gKind e.1 == 10))

/-- WCB_WRITE (R272). -/
def opWcbWrite (d : Dev) (md line mask data : Nat) (ev : Upset) : Dev :=
  if granDie (line / 32) = md && mask ≠ 0 && mask ≠ 2 ^ 128 - 1 && isT2Gran d (line / 32) then
    wcbEnter d md line mask data ev else d
def execWcbWrite (md : MemDie) (line : Nat) (mask : BitVec 128) (bytes : BitVec 1024) (ev : Upset) (s : State) :
    Host.Outcome State Fault Refusal :=
  okDev s (opWcbWrite s.dev md.val line mask.toNat bytes.toNat ev)

/-- WCB_FLUSH_AGE (R273): the entry's age has reached AGE_NS. -/
def opWcbFlushAge (d : Dev) (md line : Nat) (ev : Upset) : Dev :=
  match (wcbOf d md).find? (fun e => e.line == line) with
  | some e =>
    if rg d (48 + md) 17 0x104 % 4096 * 1050 ≤ (d.now - e.at_) * 1000 then bumpWcb (wcbFlush d md e (evHere ev)) md 0x138 1
    else d
  | none => d
def execWcbFlushAge (md : MemDie) (line : Nat) (ev : Upset) (s : State) : Host.Outcome State Fault Refusal :=
  okDev s (opWcbFlushAge s.dev md.val line ev)

/-- WCB_FULL_WAIT (R276): the oldest waiting write proceeds; two NOC cycles pass in one ARITH cycle (01 R22). -/
def opWcbFullWait (d : Dev) (md : Nat) (ev : Upset) : Dev :=
  match wcbHeldOf d md with
  | [] => d
  | h :: r =>
    if (wcbOf d md).length < 1024 then
      wcbEnter (bumpWcb (setWcbHeld d md r) md 0x148 (2 * (d.now - h.since))) md h.line h.mask h.data ev
    else d
def execWcbFullWait (md : MemDie) (ev : Upset) (s : State) : Host.Outcome State Fault Refusal :=
  okDev s (opWcbFullWait s.dev md.val ev)

/-! ### Inkwell mode and cache (R278-R280) -/

def inkChanging (d : Dev) (md : Nat) : Bool := (ink d md).changeTo.isSome

/-- Does a T1 copy exist on an inkwell? -/
def inkHasCopy (d : Dev) (md : Nat) : Bool :=
  d.mem.objs.any (fun e => e.2.c1.present && e.2.t1die == md)
  || d.qm.pst.any (fun e => e.2.res == 2 && Config.stageDie e.1 % 8 == md)

/-- INKWELL_CTRL with its MODE bit (R278, R280): 1 is CACHE. A write that equals the mode in force requests no change; while a
change runs, one that differs from it asks for the change that is under way. -/
def opInkMode (d : Dev) (md : Nat) (cache : Bool) : Dev :=
  let rej (d : Dev) : Dev := setRg d (48 + md) 18 0x104 (rg d (48 + md) 18 0x104 ||| 2 ^ 17)
  if cache == inkCache d md || (ink d md).changeTo.isSome then d
  else if d.state == .ready then rej d
  else if d.state == .boot then d
  else if cache && inkHasCopy d md then rej d
  else
    let d1 := setRg d (48 + md) 18 0x100 (if cache then 256 else 0)
    setInk d1 md { ink d1 md with changeTo := some cache }
def execInkwellModeWrite (acc : Acc) (md : MemDie) (cache : Bool) (s : State) : Host.Outcome State Fault Refusal :=
  okDev s (withReg s.dev acc (regOff (48 + md.val) 18 0x100) (fun d => opInkMode d md.val cache))

/-- The change is complete (R280): dirty lines are written back, the lines invalidated, the WCB of the die flushed
(R273), and the INKWELL event is raised (16 R498). -/
def inkChangeEnd (d : Dev) (md : Nat) (ev : Upset) : Dev :=
  match (ink d md).changeTo with
  | none => d
  | some cache =>
    let dirty := sumBy (ink d md).sets (fun e => (e.2.filter (·.dirty)).length)
    let d1 := if cache then d else bump d (48 + md) 18 0x138 dirty
    let d2 := setInk (wcbFlushAll d1 md false ev) md ⟨[], none⟩
    let st := rg d2 (48 + md) 18 0x104
    let d3 := setRg d2 (48 + md) 18 0x104 (st / 2 ^ 17 * 2 ^ 17 + (if cache then 256 else 0))
    pageEvent (setRg d3 (48 + md) 18 0x100 (if cache then 256 else 0)) (48 + md) 18 0

/-! ### GDDR7 channels (R267-R271) -/

/-- The throttle step after a reading (R270, R271). -/
def nextStep (step t : Nat) : Nat :=
  if 105 ≤ t then 2
  else if step = 2 then (if t ≤ 92 then 0 else if t ≤ 100 then 1 else 2)
  else if step = 1 then (if t ≤ 92 then 0 else 1)
  else if 95 ≤ t then 1 else 0

/-- GDDR_TEMP_READ (R270, R271): a missing reading is a failed one, and the third in a row counts as 105 °C. -/
def opGddrTemp (d : Dev) (ch : Nat) (reading : Option Nat) : Dev :=
  let die := chDie ch
  let page := chPage ch
  let fails := match reading with
    | some _ => 0
    | none => min 3 (SMap.getD d.ext.sensorFails ch 0 + 1)
  let d0 := { d with ext := { d.ext with sensorFails := SMap.put d.ext.sensorFails ch fails 0 } }
  let old := rg d0 die page 0x100
  let step := bitsOf old 18 17
  let t := match reading with
    | some t => some t
    | none => if fails = 3 then some 105 else none
  let new := match t with
    | some t => nextStep step t
    | none => step
  let temp := match reading with
    | some t => t
    | none => bitsOf old 7 0
  let d1 := setRg d0 die page 0x100 (putBits (putBits old 18 17 new) 7 0 temp)
  let d2 := if 1 ≤ new then bump d1 die page 0x144 1 else d1
  if new ≠ step && new = 1 then latch d2 die page 3 noCap
  else if new ≠ step && new = 2 then latch d2 die page 4 noCap
  else d2
def execGddrTempRead (ch : ChanId) (reading : Option (BitVec 8)) (s : State) : Host.Outcome State Fault Refusal :=
  okDev s (opGddrTemp s.dev ch.val (reading.map (·.toNat)))

/-- Data lines of a device: 4 GiB less the check lines, in 64 B (R265). -/
def chLines : Nat := 62914560
/-- Granules of the reserved region (08 R229). -/
def reservedGrans : Nat := 1310720

/-- Granules of the reserved region that hold the FTL map: the first 4 GiB, as R229 lists what the region holds (log 5). -/
def mapGrans : Nat := 1048576

/-- Sets POISON on what GDDR7 holds in a physical granule: T2 copies, pages, slot images and save areas. -/
def poisonPhys (d : Dev) (g : Nat) : Dev :=
  let all := d.mem.roots ++ (d.qm.cmds.map (fun e => e.2.gens)).flatten
  let sids := (all.filter (fun e => inT2 e.1 && Config.physGranule e.2 == g)).map (·.2)
  sids.foldl (fun d s => setPoison d s true) d

/-- An uncorrectable line of a channel (R267): counted, latched, its granule poisoned (R266, R269). -/
def lineUE (d : Dev) (ch line reg : Nat) : Dev :=
  let g := line / 64 * 64 + ch
  let d1 := bump d (chDie ch) (chPage ch) reg 1
  let c : Cap := ⟨g * 64 + line % 64, 11, ch, none, 6, 64⟩
  if g < reservedGrans then
    let d2 := latch { d1 with ext := { d1.ext with rsvdPoison := NSet.add d1.ext.rsvdPoison g } } (chDie ch) (chPage ch) 1 c
    if g < mapGrans then rebuildMap d2 g else d2
  else latch (poisonPhys d1 g) (chDie ch) (chPage ch) 0 c

/-- A command meets an uncorrectable line of the reserved region, by its number there (R267). The map of the FTL is rebuilt
and the command goes on; one that needed another record ends with DEVICE_FAULT. -/
def rsvdRead (d : Dev) (uid : Nat) (ev : Upset) : Dev :=
  match ev with
  | .rsvdUE n =>
    let n := n % (reservedGrans * 64)
    let ch := n / 64 % 64
    let d1 := lineUE d ch (n / 4096 * 64 + n % 64) 0x134
    if n / 64 < mapGrans then d1 else failFault d1 uid (chDie ch) (chPage ch) false
  | _ => d

/-- SCRUB (R269): one line. -/
def opScrub (d : Dev) (ch : Nat) (r : LineRead) : Dev :=
  let die := chDie ch
  let page := chPage ch
  if !(rg d die page 0x104).testBit 31 then d
  else
    let line := rg d die page 0x108
    let d1 := match r with
      | .clean => d
      | .corrected => bump d die page 0x130 1
      | .double => lineUE d ch line 0x134
      | .tagMismatch => lineUE d ch line 0x138
    if line + 1 < chLines then setRg d1 die page 0x108 (line + 1)
    else bump (setRg d1 die page 0x108 0) die page 0x140 1
def execScrub (ch : ChanId) (result : LineRead) (s : State) : Host.Outcome State Fault Refusal :=
  okDev s (opScrub s.dev ch.val result)

/-! ### Flash (R284-R288, R298) -/

/-- NAND_OPERATION_END (R288). -/
def opNandEnd (d : Dev) (sd op : Nat) (ok : Bool) : Dev :=
  if SMap.has (ftl d sd).erases op then eraseDone d sd op ok
  else if ok then progDone d sd op else progFailed d sd op
def execNandOperationEnd (sd : Fin 2) (op : Nat) (ok : Bool) (s : State) : Host.Outcome State Fault Refusal :=
  okDev s (opNandEnd s.dev sd.val op ok)

/-- A read of a logical unit timed out: it is uncorrectable, and its granules are poisoned (R284, R298; 08 R258). -/
def readTimeout (d : Dev) (u : Nat) : Dev :=
  let keys := (List.range 4).map (fun i => 4 * u + i)
  let hit := keys.filterMap (fun k => if gKind k = 4 then (rootOf d k).map (fun s => (k, s)) else none)
  match hit with
  | [] => d
  | (k, s) :: r => r.foldl (fun d e => setPoison d e.2 true) (readUE d k s (lineCap s 0))

/-- ONFI_TIMEOUT (R298). Kinds: 0 a read (`op` its logical unit), 1 a program and 2 an erase (`op` its number). -/
def opOnfiTimeout (d : Dev) (ch kind op : Nat) : Dev :=
  let sd := ch / 16
  let d1 := latch (bump d (sdDie sd) (ch % 16) 0x13C 1) (sdDie sd) (ch % 16) 0 noCap
  if kind = 1 then progFailed d1 sd op
  else if kind = 2 then eraseDone d1 sd op false
  else readTimeout d1 op
def execOnfiTimeout (ch : Fin 32) (kind : Fin 3) (op : Nat) (s : State) : Host.Outcome State Fault Refusal :=
  okDev s (opOnfiTimeout s.dev ch.val kind.val op)

/-- READ_DISTURB_RELOCATION (R286): the valid units of a block that has been read often move to fresh pages. -/
def opReadDisturb (d : Dev) (sd b : Nat) : Dev :=
  let k := nandBlk (ftl d sd) b
  if max 1 (rg d (sdDie sd) 16 0x10C) ≤ k.reads && !k.moving && !k.retired then
    bump (moveBlk d sd b none) (sdDie sd) 16 0x140 1
  else d
def execReadDisturbRelocation (sd : Fin 2) (blk : Nat) (s : State) : Host.Outcome State Fault Refusal :=
  okDev s (opReadDisturb s.dev sd.val blk)

/-- WEAR_LEVELING (R287): the data of a least-erased block moves into a most-erased free block. -/
def opWearLevel (d : Dev) (sd src dst : Nat) : Dev :=
  let x := ftl d sd
  let s := nandBlk x src
  let t := nandBlk x dst
  let least := x.blks.all (fun e => e.2.retired || e.2.fill == 0 || decide (s.erases ≤ e.2.erases))
  let most := x.blks.all (fun e => e.2.retired || e.2.fill != 0 || decide (e.2.erases ≤ t.erases))
  if decide (s.erases + 512 < t.erases) && !s.retired && !s.moving && s.fill != 0 && !t.retired && t.fill == 0 && least && most then
    moveBlk d sd src (some dst)
  else d
def execWearLeveling (sd : Fin 2) (src dst : Nat) (s : State) : Host.Outcome State Fault Refusal :=
  okDev s (opWearLevel s.dev sd.val src dst)

/-! ### What reads count -/

/-- Reads of granules, counted: logical units and block reads of T4 (R284, R286), lines that the WCB merged and lines that a
cache served (R275, R279). An unmapped unit reads as zero and touches no page (R282). -/
def touchReads (d : Dev) (keys : List Nat) : Dev :=
  let units := ((keys.filter (fun k => !gIsT0 k && gKind k == 4)).map (fun k => k / 4)).dedup
  let d1 := units.foldl readUnit d
  (keys.filter inT2).foldl (fun d k =>
    match rootOf d k with
    | some s => readLines d s 0 4096
    | none => d) d1

end Sys2Proof.Machine
end

