-- ==== Sys2Proof/Machine/Mesh.lean ====
section
/-! DEFINITION. Scheduled traffic on the mesh: the queues at the blocks' network ports, and the flits on the links (01
R17-R21; 08 R237). -/

namespace Sys2Proof.Machine
open Sys2Proof

/-! ### Network ports -/

def npInk (md : Nat) : Nat := 512 + md
def npFab (die : Nat) : Nat := 1024 + die

/-- Puts flits into the queue of a block's network port. -/
def pushPort (d : Dev) (np : Nat) (j : PortJob) : Dev :=
  { d with ports := SMap.insert d.ports np (SMap.getD d.ports np [] ++ [j]) }

/-- A single flit that waits at a network port from NOC cycle `ready` on. -/
def oneFlit (ready src dst job : Nat) (l : Load) : PortJob := ⟨ready, src, dst, 0, 1, job, l⟩

/-- A flit that leaves its source's network port in NOC cycle c (R20). -/
def flitOut (src dst c : Nat) (l : Load) : Flit :=
  let p := pathLinks src dst
  ⟨src, dst, p, if p.isEmpty then c + 3 else c + 2, l⟩

/-! ### Links (R19-R21) -/

/-- The next reserved cycle of a link after cycle c. Frame cycle 0 is every NOC cycle that is a multiple of 16; on a link
with no reserved cycle the flit waits 65,536 cycles (log 44). -/
def nextRsv (d : Dev) (link c : Nat) : Nat :=
  c + (((List.range 16).find? (fun i => (rsvMask d link).testBit ((c + i + 1) % 16))).map (· + 1)).getD 65536

/-- Flit f is due on a link in cycle c. -/
def dueOn (link c : Nat) (f : Flit) : Bool := f.due == c && f.path.head? == some link
/-- An earlier flit of the same source and destination is still to take the link: nothing overtakes it (R21). -/
def behind (fs : List (Flit × Nat)) (link : Nat) (p : Flit × Nat) : Bool :=
  fs.any (fun q => decide (q.2 < p.2) && q.1.src == p.1.src && q.1.dst == p.1.dst && q.1.path.head? == some link)

/-- The flit that takes a link in cycle c: the lowest source die; of one source the flit that left its port first (log 44). -/
def linkWinner (fs : List (Flit × Nat)) (link c : Nat) : Option Nat :=
  ((fs.filter (fun p => dueOn link c p.1 && !behind fs link p)).foldl (fun (b : Option (Flit × Nat)) p => match b with
    | none => some p
    | some q => if p.1.src < q.1.src then some p else some q) none).map (·.2)

/-- A flit in cycle c: it takes the link it is due on, or waits for the link's next reserved cycle. -/
def linkMove (d : Dev) (fs : List (Flit × Nat)) (c : Nat) (p : Flit × Nat) : Flit :=
  match p.1.path with
  | [] => p.1
  | link :: rest =>
    if p.1.due ≠ c then p.1
    else if linkWinner fs link c = some p.2 then { p.1 with path := rest, due := if rest.isEmpty then c + 3 else c + 2 }
    else { p.1 with due := nextRsv d link c }
/-- The flit loses its link in cycle c. -/
def linkLoses (fs : List (Flit × Nat)) (c : Nat) (p : Flit × Nat) : Bool :=
  match p.1.path with
  | [] => false
  | link :: _ => p.1.due == c && linkWinner fs link c != some p.2

/-- One NOC cycle of the links: every wait counts one slip for its source's die (R21). -/
def meshLinks (d : Dev) (c : Nat) : Dev :=
  let fs := d.flits.zipIdx
  (fs.filter (linkLoses fs c)).foldl (fun d p => slipNoc d p.1.src) { d with flits := fs.map (linkMove d fs c) }

end Sys2Proof.Machine
end

