-- ==== Sys2Proof/Machine/Fabric.lean ====
section
/-! DEFINITION. Toruf ports, packets, remote operations and management (11 R336-R361, R365, R366; 01 R27, R28;
17 R507). -/

namespace Sys2Proof.Machine
open Sys2Proof

/-! ### Ports -/

/-- R336: a port that is enabled and down comes up, or stays down with AUTH_FAIL: the peer sends its key group, DID, port
number, serial and nonce, and then its confirmation value (13 R429). A port whose cable supply was switched off stays down (17
R507). -/
def opLinkEstablish (d0 : Dev) (p keyGroup peerDid peerPort : Nat) (serial : BitVec 64) (nonce : BitVec 256)
    (confirm : BitVec 128) : Dev :=
  let q := fabPort d0 p
  let r := drbgDraw d0.sec.drbg 32
  let d : Dev := { d0 with sec := { d0.sec with drbg := r.1 } }
  let own : LinkEnd := ⟨Config.serial.toNat, p, r.2⟩
  let peer : LinkEnd := ⟨serial.toNat, peerPort, nonce.toNat⟩
  let k := linkKeys own peer
  if q.up || !(rp d p 0x100).testBit 0 || q.supplyOff then d0
  else if d.sec.fuseErr || keyGroup ≠ Config.keyGroup.toNat || confirm ≠ confirmTag own peer peer then
    latch (setPort d p { q with authFail := true, training := false, peerDid := peerDid, peerPort := peerPort })
      (fpDie p) (p % 6) 2 ⟨0, 7, peerDid, none, 7, 0⟩
  else
    setPort d p { q with
      up := true, wasUp := true, training := false, authFail := false, peerDid := peerDid, peerPort := peerPort,
      keyGen := q.keyGen + 1, keyId := 0, txKey := k.1.1, txSalt := k.1.2, rxKey := k.2.1, rxSalt := k.2.2, txSeq := 0, rxSeq := 0, unacked := [], creditOrbit := 1024,
      creditBulk := 4096, creditMgmt := 256, creditTime := 64, queued := [], release := [] }
def execLinkEstablishment (port : PortId) (keyGroup peerDid : BitVec 16) (peerPort : Fin 32)
    (serial : BitVec 64) (nonce : BitVec 256) (confirm : BitVec 128) (s : State) : Host.Outcome State Fault Refusal :=
  okDev s (opLinkEstablish s.dev port.val keyGroup.toNat peerDid.toNat peerPort.val serial nonce confirm)

/-- The frames that an ACK covers leave the transmitter (R339). -/
def ackFrames (l : List TxFrame) (ack : Nat) : List TxFrame :=
  match l.findIdx? (fun f => f.seq % 2 ^ 40 == ack) with
  | some i => l.drop (i + 1)
  | none => l

/-- R337, R339, R341: a frame that fails FEC, its tag or its sequence is discarded and answered with NAK; an intact
one acknowledges frames, may ask for a resend, and returns credits. -/
def opFrameRx (d : Dev) (p : Nat) (f : LinkFrame) : Dev :=
  let q := fabPort d p
  if !q.up then d
  else
    let d1 := bump d (fpDie p) (p % 6) 0x130 f.fecCe
    if !f.fecOk then emit (bump d1 (fpDie p) (p % 6) 0x134 1) (.linkNak p)
    else if !f.tagOk then emit (bump d1 (fpDie p) (p % 6) 0x138 1) (.linkNak p)
    else if f.seq ≠ q.rxSeq % 2 ^ 40 then emit d1 (.linkNak p)
    else
      let q' := { q with rxSeq := q.rxSeq + 1, unacked := ackFrames q.unacked f.ack,
                         creditOrbit := q.creditOrbit + f.creditOrbit, creditBulk := q.creditBulk + f.creditBulk,
                         creditMgmt := q.creditMgmt + f.creditMgmt, creditTime := q.creditTime + f.creditTime }
      let d2 := setPort d1 p q'
      let d3 := if f.nak then replay d2 p else d2
      drainPort (q.queued.length + 1) d3 p
def execLinkFrameRx (port : PortId) (frame : LinkFrame) (s : State) : Host.Outcome State Fault Refusal :=
  guardWf (LinkFrame.ok frame) s (okDev s (opFrameRx s.dev port.val frame))

/-- R339: no ACK covers the oldest kept frame within 1 µs (1,050 ARITH cycles). -/
def opReplayTimeout (d : Dev) (p : Nat) : Dev :=
  let q := fabPort d p
  match q.unacked.head? with
  | some f => if q.up && f.sentAt + 1050 ≤ d.now then replay d p else d
  | none => d
def execReplayTimeout (port : PortId) (s : State) : Host.Outcome State Fault Refusal :=
  okDev s (opReplayTimeout s.dev port.val)

/-- R340: one frame has been resent eight times without an ACK. -/
def opLinkRetrain (d : Dev) (p : Nat) : Dev :=
  let q := fabPort d p
  if q.up && q.unacked.any (fun f => decide (8 ≤ f.resends)) then retrainPort d p else d
def execLinkRetrain (port : PortId) (s : State) : Host.Outcome State Fault Refusal :=
  okDev s (opLinkRetrain s.dev port.val)

/-- FABP_CTRL.RETRAIN (R340). -/
def execRetrain (acc : Acc) (port : PortId) (s : State) : Host.Outcome State Fault Refusal :=
  okDev s (withReg s.dev acc (regOff (fpDie port.val) (port.val % 6) 0x100) (fun d => retrainPort d port.val))

/-- R340: a port that was up has not come up again within 500 ms (525,000,000 ARITH cycles). -/
def opLinkDown (d : Dev) (p : Nat) : Dev :=
  let q := fabPort d p
  if q.wasUp && !q.up && (rp d p 0x100).testBit 0 && decide (q.downAt + 525000000 ≤ d.now) then
    latch (setPort d p { q with wasUp := false, training := false }) (fpDie p) (p % 6) 0 ⟨0, 0, 0, none, 7, 0⟩
  else d
def execLinkDown (port : PortId) (s : State) : Host.Outcome State Fault Refusal := okDev s (opLinkDown s.dev port.val)

/-- R338: after 2^40 frames the next traffic key of each direction, derived from the present one (13 R430), and SEQ restarts at
0. -/
def opRekey (d : Dev) (p : Nat) : Dev :=
  let q := fabPort d p
  if q.up && decide (2 ^ 40 ≤ q.txSeq) then
    let tx := rekeyed q.txKey (q.keyId + 1)
    let rx := rekeyed q.rxKey (q.keyId + 1)
    setPort d p { q with keyId := q.keyId + 1, txKey := tx.1, txSalt := tx.2, rxKey := rx.1, rxSalt := rx.2, txSeq := 0, rxSeq := 0 }
  else d
def execRekey (port : PortId) (s : State) : Host.Outcome State Fault Refusal := okDev s (opRekey s.dev port.val)

/-- 17 R507: a port's cable supply exceeds 1.2 A: it is switched off and the port stays down. -/
def opSupplyOff (d : Dev) (p : Nat) : Dev :=
  let d1 := portGoesDown d p
  setPort d1 p { fabPort d1 p with supplyOff := true, training := false }
def execPortSupplyOvercurrent (port : PortId) (s : State) : Host.Outcome State Fault Refusal :=
  okDev s (opSupplyOff s.dev port.val)

/-! ### Remote memory: the receiving device -/

/-- Why a request may not be served now, when it waits: a granule marked PENDING (08 R256). -/
def winPending (d : Dev) (w a n : Nat) : Bool := (winGrans d w a n).any (fun k => isPending d k)

/-- The reason for which a read of granules as committed is refused, after the first that fails: 7 POISON, 8 UNCORRECTABLE
(R361). The upset's places are the granules that hold content. -/
def checkRoots (c : Cap) : List Nat → Dev → Upset → Dev × Option Nat
  | [], d, _ => (d, none)
  | k :: r, d, ev =>
    match rootOf d k with
    | none => checkRoots c r d ev
    | some sid =>
      match checkRead d k sid c.addr (evHere ev) c with
      | (d1, some st) => (d1, some (if st = stPoison then 7 else 8))
      | (d1, none) => checkRoots c r d1 (evNext ev)
/-- What the checkers find in a read of n bytes of a window. -/
def winCheck (d : Dev) (w a n : Nat) (ev : Upset) (c : Cap) : Dev × Option Nat := checkRoots c (winGrans d w a n) d ev

/-- A request that meets an uncorrectable error in its port's buffer is discarded, and its requester times out (R382). -/
def portUE (d : Dev) (port : Nat) : Dev := latch d (fpDie port) (port % 6) 3 noCap
/-- The entry of a table that an uncorrectable error hits is invalidated, and FABR_UE rises (R383). -/
def tableUE (d : Dev) (drop : Fab → Fab) : Dev := latch { d with fab := drop d.fab } 56 16 4 noCap
/-- A window that an uncorrectable error hits is no longer valid. -/
def dropWindow (w : Nat) (f : Fab) : Fab :=
  { f with win := SMap.insert f.win w ((SMap.getD f.win w 0) &&& ~~~(BitVec.ofNat _ (2 ^ 31))) }

/-- A request for a window arrives on a port: its errors apart, it is served (R355, R382, R383). -/
def windowRx (d : Dev) (port typ : Nat) (p : Packet) (ev : Upset) (f : Dev → Dev) : Dev :=
  if p.typ ≠ typ || p.dst ≠ ownDid d || !portIn d port p then d
  else if ev = .bufUE then portUE d port
  else if !headerOk p then dropMalformed d port p
  else f (if ev = .tableUE then tableUE d (dropWindow (p.stamp / 16)) else d)

/-- What arrives for a granule marked PENDING waits until the granule is written (08 R256). -/
def holdWrite (d : Dev) (h : HeldAcc) : Dev := { d with mem := { d.mem with waiting := d.mem.waiting ++ [h] } }

/-- PUT (R355, R357-R359). -/
def opPut (d : Dev) (port : Nat) (p : Packet) (ev : Upset) : Dev :=
  windowRx d port 1 p ev (fun d =>
    let w := p.stamp / 16
    match winRefuses d w p.src 29 p.addr p.payload.length with
    | some r => nackReq d port p r
    | none =>
      if winPending d w p.addr p.payload.length then holdWrite d (.rx port p)
      else
        respond (writeT0 d (winCore d w) (winBase d w + p.addr) p.payload p.sealed) port p
          (mkPkt d 2 1 p.src p.tag p.addr 0 []))
def execPut (port : PortId) (pkt : Packet) (ev : Upset) (s : State) : Host.Outcome State Fault Refusal :=
  guardWf (Packet.ok pkt) s (okDev s (opPut s.dev port.val pkt ev))

/-- Splits a list into parts of n. -/
def chunksOf (n : Nat) : Nat → List Nat → List (List Nat)
  | 0, _ => []
  | k + 1, l => if l.isEmpty then [] else l.take n :: chunksOf n k (l.drop n)

/-- GET_REQ (R355, R357-R359): committed state is read and sent in packets of up to 512 B; a packet from a sealed
granule carries SEAL. -/
def opGetReq (d : Dev) (port : Nat) (p : Packet) (ev : Upset) : Dev :=
  windowRx d port 3 p ev (fun d =>
    let w := p.stamp / 16
    let n := ofLeBytes (p.payload.take 4)
    match winRefuses d w p.src 30 p.addr n with
    | some r => nackReq d port p r
    | none =>
      if winPending d w p.addr n then holdWrite d (.rx port p)
      else match winCheck d w p.addr n ev (remoteCap p p.addr 1 n) with
        | (d1, some r) => nackReq d1 port p r
        | (d1, none) =>
          let parts := chunksOf 512 9 (winRead d1 w p.addr n)
          (parts.zipIdx).foldl (fun d' x =>
            let a := p.addr + 512 * x.2
            let sl := (winGrans d1 w a x.1.length).any (fun k =>
              match rootOf d1 k with | some s => sealed d1 s | none => false)
            respond d' port p { mkPkt d1 4 1 p.src p.tag a 0 x.1 with sealed := sl }) d1)
def execGetReq (port : PortId) (pkt : Packet) (ev : Upset) (s : State) : Host.Outcome State Fault Refusal :=
  guardWf (Packet.ok pkt) s (okDev s (opGetReq s.dev port.val pkt ev))

/-- The value an atomic stores (R360). -/
def atomicNew (op old a b : Nat) : Nat :=
  match op with
  | 0 => (old + a) % 2 ^ 64
  | 1 => a
  | 2 => if old = a then b else old
  | 3 => old &&& a
  | 4 => old ||| a
  | 5 => old ^^^ a
  | 6 => max old a
  | _ => min old a

/-- ATOMIC (R355, R360). OP in byte 0 of the first unit, A in its bytes 8-15, B in bytes 0-7 of the second (log 22);
an OP above 7 or an address that is not aligned is refused as PERM (log 22). -/
def opAtomic (d : Dev) (port : Nat) (p : Packet) (ev : Upset) : Dev :=
  windowRx d port 5 p ev (fun d =>
    let w := p.stamp / 16
    match winRefuses d w p.src 28 p.addr 8 with
    | some r => nackReq d port p r
    | none =>
      let op := (p.payload[0]?).getD 0
      if (winBase d w + p.addr) % 8 ≠ 0 || op > 7 then nackReq d port p 4
      else if isPending d (winGran d w p.addr).1 then holdWrite d (.rx port p)
      else match winCheck d w p.addr 16 ev (remoteCap p p.addr 3 8) with
        | (d1, some r) => nackReq d1 port p r
        | (d1, none) =>
          let at_ := winBase d1 w + p.addr
          let old := numT0 d1 (winCore d1 w) at_ 8
          let new := atomicNew op old (sBytes p.payload 8 8) (sBytes p.payload 16 8)
          let d2 := writeT0 d1 (winCore d1 w) at_ (leBytes 8 new) false
          respond d2 port p (mkPkt d2 6 1 p.src p.tag p.addr 0 (padTo 16 (leBytes 8 old))))
def execAtomic (port : PortId) (pkt : Packet) (ev : Upset) (s : State) : Host.Outcome State Fault Refusal :=
  guardWf (Packet.ok pkt) s (okDev s (opAtomic s.dev port.val pkt ev))

/-! ### Responses -/

/-- A response arrives (R343, R344): what it does, and the requests that the freed tag lets go. -/
def responseRx (d : Dev) (port typ : Nat) (p : Packet) (f : Dev → Dev) : Dev :=
  if p.typ ≠ typ || !(p.dst == ownDid d || p.dst == 0xFFFF) || !portIn d port p then d
  else checked d port p (fun d => drainReqs (f d))

/-- The command of a transfer whose last response has come: a COPY_TILES has done its work (R357; 10 R317), when what it
wrote in T4 is programmed too (09 R283, R288, R289). -/
def reqsDone (d : Dev) (uid : Nat) : Dev :=
  match cmd d uid with
  | none => d
  | some c =>
    if waitsReq d uid none || c.phase != .running || dOpcode c.desc != 0x02 then (if waitsReq d uid none then d else requestCommit d uid)
    else
      let t4 := (c.gens.map (·.1)).filter (fun k => gKind k == 4)
      if t4.isEmpty then requestCommit d uid
      else match t4WriteFault d uid with
        | some d1 => d1
        | none => startPrograms d uid t4

/-- PUT_ACK (R357). -/
def opPutAck (d : Dev) (p : Packet) : Dev :=
  match SMap.get? d.fab.reqs p.tag with
  | some r =>
    if p.typ = 2 && p.dst = ownDid d && r.typ = 1 && r.did = p.src then
      match r.owner with
      | .cmd uid _ => reqsDone (dropReq d p.tag) uid
      | _ => dropReq d p.tag
    else d
  | none => d
def execPutAck (port : PortId) (pkt : Packet) (s : State) : Host.Outcome State Fault Refusal :=
  guardWf (Packet.ok pkt) s (okDev s (responseRx s.dev port.val 2 pkt (fun d => opPutAck d pkt)))

/-- Writes bytes of a transfer at a local device address, under the rules of its tier (R357). -/
def landBytes (d : Dev) (uid addr : Nat) (bs : List Nat) (sl : Bool) : Except Nat Dev :=
  match decodeAddr addr with
  | .t0 c o => .ok (writeT0 d c o bs sl)
  | .obj t oid o => writeView d uid (gKey t oid (o / 4096)) (o % 4096) bs sl
  | _ => .ok d

/-- Writes bytes of a prefetch at a local device address: visible when written (08 R257). -/
def landRoot (d : Dev) (addr : Nat) (bs : List Nat) (sl : Bool) : Dev :=
  match decodeAddr addr with
  | .t0 c o => writeT0 d c o bs sl
  | .obj t oid o => writeRoot d (gKey t oid (o / 4096)) (o % 4096) bs sl
  | _ => d

/-- The marks of a granule that a GET fills (08 R260, R261): an unsealed first piece clears SEAL, the last piece clears
POISON. -/
def landEdge (d : Dev) (uid addr : Nat) (first sl last : Bool) : Dev :=
  let sid := match decodeAddr addr with
    | .t0 c o => some (gT0 c (o / 4096))
    | .obj t oid o => viewSid d uid (gKey t oid (o / 4096))
    | _ => none
  match sid with
  | none => d
  | some k =>
    let d1 := if first && !sl then setSeal d k false else d
    if last then setPoison d1 k false else d1

/-- A GET that fills a PENDING granule for a command waits; the entry that owns the mark does not (08 R256). -/
def getWaits (d : Dev) (r : Req) : Bool :=
  match r.owner, decodeAddr r.local_ with
  | .cmd _ _, .t0 c o => isPending d (gT0 c (o / 4096))
  | .cmd _ _, .obj t oid o => isPending d (gKey t oid (o / 4096))
  | _, _ => false

/-- A prefetch entry has written a granule: its mark is cleared (08 R254). -/
def unmarkAt (d : Dev) (j i addr : Nat) : Dev :=
  match decodeAddr addr with
  | .t0 c o => unmarkGran d j i (gT0 c (o / 4096))
  | .obj t oid o => unmarkGran d j i (gKey t oid (o / 4096))
  | _ => d

/-- GET_RESP (R357, R359): the data lands at the local destination; the last byte ends the request. -/
def opGetResp (d : Dev) (port : Nat) (p : Packet) : Dev :=
  match SMap.get? d.fab.reqs p.tag with
  | some r =>
    if p.typ = 4 && p.dst = ownDid d && r.typ = 3 && r.did = p.src && decide (r.addr ≤ p.addr) then
      if getWaits d r then holdWrite d (.rx port p)
      else match r.owner with
      | .cmd uid _ =>
        match landBytes d uid (r.local_ + (p.addr - r.addr)) p.payload p.sealed with
        | .error t => dropCmdReqs (endCmd d uid stQuota t false) uid
        | .ok d0 =>
          let d1 := landEdge d0 uid r.local_ (r.left == 4096) p.sealed (decide (r.left ≤ p.payload.length))
          if r.left ≤ p.payload.length then reqsDone (dropReq d1 p.tag) uid
          else setReq d1 p.tag { r with left := r.left - p.payload.length }
      | .pf j i =>
        let d0 := landRoot d (r.local_ + (p.addr - r.addr)) p.payload p.sealed
        let d1 := landEdge d0 0 r.local_ (r.left == 4096) p.sealed (decide (r.left ≤ p.payload.length))
        if r.left ≤ p.payload.length then unmarkAt (dropReq d1 p.tag) j i r.local_
        else setReq d1 p.tag { r with left := r.left - p.payload.length }
      | _ => d
    else d
  | none => d
def execGetResp (port : PortId) (pkt : Packet) (s : State) : Host.Outcome State Fault Refusal :=
  guardWf (Packet.ok pkt) s (okDev s (responseRx s.dev port.val 4 pkt (fun d => opGetResp d port.val pkt)))

/-- ATOMIC_RESP (R360): the old value. -/
def opAtomicResp (d : Dev) (p : Packet) : Dev :=
  match SMap.get? d.fab.reqs p.tag with
  | some r =>
    if p.typ = 6 && p.dst = ownDid d && r.typ = 5 && r.did = p.src then
      let d1 := dropReq d p.tag
      finishRop { d1 with fab := { d1.fab with ropRes := sBytes p.payload 0 8 } } 0
    else d
  | none => d
def execAtomicResp (port : PortId) (pkt : Packet) (s : State) : Host.Outcome State Fault Refusal :=
  guardWf (Packet.ok pkt) s (okDev s (responseRx s.dev port.val 6 pkt (fun d => opAtomicResp d pkt)))

/-- NACK (R361). -/
def opNack (d : Dev) (p : Packet) : Dev :=
  if p.typ = 7 && (p.dst = ownDid d || p.dst = 0xFFFF) then failReq d p.tag (p.addr % 256) else d
def execNack (port : PortId) (pkt : Packet) (s : State) : Host.Outcome State Fault Refusal :=
  guardWf (Packet.ok pkt) s (okDev s (responseRx s.dev port.val 7 pkt (fun d => opNack d pkt)))

/-- R361: no response within FABR_REQ_TIMEOUT counts as UNREACHABLE. -/
def opRequestTimeout (d : Dev) (tag : Nat) : Dev :=
  match SMap.get? d.fab.reqs tag with
  | some r => if r.sentAt + rf d 0x11C * 1050 ≤ d.now then failReq d tag 1 else d
  | none => d
def execRequestTimeout (tag : Fin 1024) (s : State) : Host.Outcome State Fault Refusal :=
  okDev s (drainReqs (opRequestTimeout s.dev tag.val))

/-! ### Handles, remote atomics, the mailbox -/

/-- FABR_HDL_OP OPEN (R356): the handle of FABR_HDL_SEL for the job, DID and window of FABR_HDL_W0 and W1. -/
def opHandleOpen (d : Dev) : Dev :=
  let h := rf d 0x15C
  let j := bitsOf (rf d 0x160) 23 16
  let res (d : Dev) (r : Nat) : Dev := setRf d 0x16C r
  if SMap.has d.fab.hdl h then res d 2
  else if quotaOf (job d j) 3 ≤ usage d j 3 then res d 1
  else
    let t := SMap.insert d.fab.hdl h (j, bitsOf (rf d 0x160) 15 0, rf d 0x164)
    res { d with fab := { d.fab with hdl := t } } 0
def execHandleOpen (acc : Acc) (s : State) : Host.Outcome State Fault Refusal :=
  okDev s (withReg s.dev acc (regOff 56 16 0x168) opHandleOpen)

/-- FABR_HDL_OP FREE (R356). -/
def opHandleFree (d : Dev) : Dev :=
  let h := rf d 0x15C
  if SMap.has d.fab.hdl h then setRf { d with fab := { d.fab with hdl := SMap.erase d.fab.hdl h } } 0x16C 0
  else setRf d 0x16C 3
def execHandleFree (acc : Acc) (s : State) : Host.Outcome State Fault Refusal :=
  okDev s (withReg s.dev acc (regOff 56 16 0x168) opHandleFree)

/-- FABR_ROP_CTRL (R360): the fields are written; START issues the atomic unless one is in progress. -/
def opRop (d : Dev) (v : Nat) (ev : Upset) : Dev :=
  let d1 := setRf d 0x180 (v % 2 ^ 31 &&& 0x70FF0FFF)
  if !v.testBit 31 || d1.fab.ropBusy then d1
  else
    let h := bitsOf v 11 0
    let d1 := if ev = .tableUE then tableUE d1 (fun f => { f with hdl := SMap.erase f.hdl h }) else d1
    match SMap.get? d1.fab.hdl h with
    | some (j, did, win) =>
      if j = bitsOf v 23 16 then
        let addr := (rf d1 0x184 + 2 ^ 32 * rf d1 0x188) % 2 ^ 48
        let pay := padTo 8 [bitsOf v 30 28] ++ leBytes 4 (rf d1 0x18C) ++ leBytes 4 (rf d1 0x190)
          ++ leBytes 4 (rf d1 0x194) ++ leBytes 4 (rf d1 0x198) ++ List.replicate 8 0
        let d2 := { d1 with fab := { d1.fab with ropBusy := true } }
        request d2 (mkPkt d2 5 1 did 0 addr (win * 16) pay) ⟨5, did, addr, 8, 0, 0, d2.now, .rop⟩
      else finishRop d1 7
    | none => finishRop d1 7
def execRemoteAtomic (acc : Acc) (value : Word) (ev : Upset) (s : State) : Host.Outcome State Fault Refusal :=
  okDev s (withReg s.dev acc (regOff 56 16 0x180) (fun d => opRop d value.toNat ev))

/-- FABR_MB_CTRL (R350): the fields are written (a PORT above 23 keeps its value and is an error, 16 R494); START
sends a management packet. SRC is FABR_MGR_DID when that is set. -/
def opMailbox (d : Dev) (err : Dev → Dev) (v : Nat) : Dev :=
  let off := regOff 56 16 0x170
  let (d1, bad) := plainWrite d off v
  let d1 := if bad then err d1 else d1
  if !v.testBit 31 || d1.fab.mbBusy then d1
  else
    let c := rf d1 0x170
    let rd := c.testBit 30
    let dst := bitsOf c 15 0
    let src := if mgrDid d1 ≠ 0 then mgrDid d1 else ownDid d1
    let pay := if rd then [] else padTo 16 (leBytes 4 (rf d1 0x178))
    let pkt (tag : Nat) : Packet := { mkPkt d1 (if rd then 11 else 12) 2 dst tag (rf d1 0x174) 0 pay with src := src }
    let r : Req := ⟨if rd then 11 else 12, dst, rf d1 0x174, 0, 0, 0, d1.now, .mailbox⟩
    let d2 := { d1 with fab := { d1.fab with mbBusy := true } }
    if ownDid d2 = 0 then finishMailbox d2 2
    else if dst = 0xFFFF then
      let port := bitsOf c 28 24
      if c.testBit 29 && (fabPort d2 port).up then
        match freeTag d2 with
        | some tag => sendPort (setReq d2 tag r) port (pkt tag)
        | none => d2
      else finishMailbox d2 2
    else request d2 (pkt 0) r
def execMailboxStart (acc : Acc) (value : Word) (s : State) : Host.Outcome State Fault Refusal :=
  okDev s (withReg s.dev acc (regOff 56 16 0x170) (fun d => opMailbox d (fun d => bar0Error d acc (regOff 56 16 0x170)) value.toNat))

/-- MGMT_RESP (R350): status in byte 0, data in bytes 4-7 (log 22). -/
def opMgmtResp (d : Dev) (p : Packet) : Dev :=
  match SMap.get? d.fab.reqs p.tag with
  | some r =>
    if p.typ = 13 && (p.dst = ownDid d || p.dst = 0xFFFF) && (r.owner == .mailbox) then
      let d1 := dropReq d p.tag
      let d2 := if r.typ = 11 then setRf d1 0x178 (sBytes p.payload 4 4) else d1
      finishMailbox d2 ((p.payload[0]?).getD 0 % 4)
    else d
  | none => d
def execMgmtResp (port : PortId) (pkt : Packet) (s : State) : Host.Outcome State Fault Refusal :=
  guardWf (Packet.ok pkt) s (okDev s (responseRx s.dev port.val 13 pkt (fun d => opMgmtResp d pkt)))

/-! ### Calibration (R365) -/

/-- CAL_REQ: 1,024 markers; the model sends one at a time, the next on each echo (log 23). -/
def opCalReq (d : Dev) (p : Nat) : Dev :=
  if (fabPort d p).up then
    sendCtrl (setPort d p { fabPort d p with calDone := false, calLeft := 1024, calSeen := false }) p (padTo 16 [1])
  else d
def execCalReq (acc : Acc) (port : PortId) (s : State) : Host.Outcome State Fault Refusal :=
  okDev s (withReg s.dev acc (regOff (fpDie port.val) (port.val % 6) 0x100) (fun d => opCalReq d port.val))

/-- CAL: the answer carries the turnaround, a free value in bytes 2-3 (log 3, 22). -/
def opCal (d : Dev) (port : Nat) (p : Packet) : Dev :=
  if p.typ = 10 && p.payload.head? = some 1 && (fabPort d port).up then
    checked d port p (fun d =>
      let (d1, w) := freeVal d
      sendCtrl d1 port (padTo 16 ([2, 0] ++ leBytes 2 (w.toNat % 65536))))
  else d
def execCal (port : PortId) (pkt : Packet) (s : State) : Host.Outcome State Fault Refusal :=
  guardWf (Packet.ok pkt) s (okDev s (opCal s.dev port.val pkt))

/-- CAL_ECHO: the least and greatest round trip, and CAL_DONE after the last. `rtt` is the computed round trip in
ARITH cycles with the turnaround removed. -/
def opCalEcho (d : Dev) (port : Nat) (p : Packet) (rtt : Nat) : Dev :=
  let q := fabPort d port
  if p.typ = 10 && p.payload.head? = some 2 && q.up && decide (1 ≤ q.calLeft) then
    checked d port p (fun d =>
      let q' := { q with calMin := if q.calSeen then min q.calMin rtt else rtt,
                         calMax := if q.calSeen then max q.calMax rtt else rtt, calSeen := true,
                         calLeft := q.calLeft - 1, calDone := q.calLeft == 1 }
      let d1 := setPort d port q'
      if q.calLeft = 1 then d1 else sendCtrl d1 port (padTo 16 [1]))
  else d
def execCalEcho (port : PortId) (pkt : Packet) (rtt : BitVec 16) (s : State) : Host.Outcome State Fault Refusal :=
  guardWf (Packet.ok pkt) s (okDev s (opCalEcho s.dev port.val pkt rtt.toNat))

/-! ### Orbit data and signals, and fixed-latency release (R366, R370; 01 R27, R28) -/

/-- The cycle count that releases are measured in: OCC in orbit mode, the ARITH cycle count outside. -/
def cycNow (d : Dev) : Nat := if orbitMode d then d.orb.occ else d.now

/-- A STAMP extended to a full count next to the receiver's own (R366). -/
def extendStamp (now stamp : Nat) : Nat :=
  let base := now / 65536 * 65536 + stamp
  if now + 32768 < base then base - 65536 else if base + 32768 ≤ now then base + 65536 else base

/-- The release offset D of a port: values below 8 act as 8. -/
def relD (d : Dev) (p : Nat) : Nat := max 8 (rp d p 0x10C)

/-- The slot of a word that arrives on a port (R27, R366). -/
def slotOf (d : Dev) (port stamp : Nat) : Nat :=
  if orbitMode d then extendStamp d.orb.occ stamp + rp d port 0x108 + relD d port else d.now + relD d port

/-- A word of the ORBIT or TIME channel arrives on a port and waits for its slot (01 R27, R29). -/
def holdLoad (d : Dev) (port stamp : Nat) (l : RelLoad) : Dev :=
  let q := fabPort d port
  setPort d port { q with release := q.release ++ [⟨l, slotOf d port stamp, cycNow d⟩] }
def holdWord (d : Dev) (port : Nat) (p : Packet) : Dev := holdLoad d port p.stamp (.pkt p)
/-- One slip of a port's crossing (R28). -/
def portSlip (d : Dev) (port : Nat) : Dev := bump d (fpDie port) (port % 6) 0x144 1

/-- ORBIT_DATA: one flit of a remote scheduled copy (R370). -/
def opOrbitRx (d : Dev) (port typ : Nat) (p : Packet) : Dev :=
  if p.typ ≠ typ || !(fabPort d port).up then d
  else if !headerOk p then dropMalformed d port p
  else holdWord d port p
def execOrbitData (port : PortId) (pkt : Packet) (s : State) : Host.Outcome State Fault Refusal :=
  guardWf (Packet.ok pkt) s (okDev s (opOrbitRx s.dev port.val 8 pkt))
/-- ORBIT_SIGNAL: a remote semaphore signal (R370). -/
def opOrbitSignal (d : Dev) (port : Nat) (p : Packet) : Dev := opOrbitRx d port 9 p
def execOrbitSignal (port : PortId) (pkt : Packet) (s : State) : Host.Outcome State Fault Refusal :=
  guardWf (Packet.ok pkt) s (okDev s (opOrbitSignal s.dev port.val pkt))

/-- A released word is forwarded along its source route, over the mesh where its next port is on another fabric die, or goes
over the mesh to its core: the core of data is in ADDR bits 34-26 (log 22), that of a signal in its payload (R345, R370). -/
def releaseWord (d : Dev) (port : Nat) (p : Packet) : Dev :=
  let fly (dst : Nat) (l : Load) : Dev := pushPort d (npFab (fpDie port)) (oneFlit (2 * d.now) (fpDie port) dst 0 l)
  match p.route with
  | none => dropMalformed d port p
  | some (hops, idx) =>
    if idx < hops.length then
      let out := (hops[idx]?).getD 0
      let q : Packet := { p with ttl := p.ttl - 1, route := some (hops, idx + 1) }
      if p.ttl ≤ 1 then routeDrop d port p 2
      else if 24 ≤ out || !(fabPort d out).up then routeDrop d port p 1
      else if fpDie out = fpDie port then sendPort d out q
      else fly (fpDie out) (.toPort out q)
    else if p.dst ≠ ownDid d then routeDrop d port p 1
    else
      let c := if p.typ = 8 then bitsOf p.addr 34 26 else sBytes p.payload 4 2
      if (p.typ = 8 || p.typ = 9) && c < 288 then fly (coreDie c) (.toCore port p) else d

end Sys2Proof.Machine
end

