-- ==== Sys2Proof/Machine/Orbit.lean ====
section
/-! DEFINITION. Orbits: locking, alignment, epochs, heartbeats, loss and disbanding (11 R362-R374). -/

namespace Sys2Proof.Machine
open Sys2Proof

/-- FABR_ORB_CTRL. -/
def offOrbCtrl : Nat := regOff 56 16 0x1C4
def orbBase (d : Dev) : Nat := rg64 d 56 16 0x1D0
def orbLen (d : Dev) : Nat := rf d 0x1CC

/-- LOCK_REQ (R363, R364): a member takes the upstream port's reference, the master keeps its own. -/
def opLockReq (d : Dev) : Dev :=
  if d.orb.state = .none then
    setOrbState d { d.orb with state := .locking, pllRef := !isMaster d, holdover := false,
                               armed := false, lastHb := 0 }
  else d
def execLockReq (acc : Acc) (s : State) : Host.Outcome State Fault Refusal :=
  okDev s (withReg s.dev acc offOrbCtrl opLockReq)

/-- R363: PLL lock held for 1 ms. -/
def opPllLockHeld (d : Dev) : Dev :=
  if d.orb.state = .locking then setOrbState d { d.orb with state := .locked } else d
def execPllLockHeld (s : State) : Host.Outcome State Fault Refusal := okDev s (opPllLockHeld s.dev)

/-- An ORBIT_CTRL payload of a subtype with a 64-bit value in bytes 8-15 (log 22). -/
def ctrlPay (sub v : Nat) : List Nat := padTo 8 [sub] ++ leBytes 8 v

/-- START on the orbit master (R367): sends ORBIT_CTRL START with its OCC down the tree; the master is aligned with
itself. -/
def opOrbStart (d : Dev) : Dev :=
  if isMaster d && (d.orb.state == .locked || d.orb.state == .aligned) then
    (treePorts d).foldl (fun d' p => sendCtrl d' p (ctrlPay 3 d.orb.occ)) (setOrbState d { d.orb with state := .aligned })
  else d
def execOrbStart (acc : Acc) (s : State) : Host.Outcome State Fault Refusal :=
  okDev s (withReg s.dev acc offOrbCtrl opOrbStart)

/-- Release of a START from the upstream port (R367): OCC becomes s + H, the member is aligned and forwards START
with its own OCC; one that misses its slot is counted and does not align. -/
def opStartRx (d : Dev) (port : Nat) (p : Packet) (late : Bool) : Dev :=
  if p.typ = 10 && p.payload.head? = some 3 && !isMaster d && port = upstreamPort d && (fabPort d port).up
      && (d.orb.state == .locked || d.orb.state == .aligned) then
    checked d port p (fun d =>
      if late then latch (portSlip d port) 56 16 1 noCap
      else
        let occ := (sBytes p.payload 8 8 + rp d port 0x108 + relD d port) % 2 ^ 64
        (treePorts d).foldl (fun d' q => sendCtrl d' q (ctrlPay 3 occ))
          (setOrbState d { d.orb with state := .aligned, occ := occ }))
  else d
def execStartRx (port : PortId) (pkt : Packet) (late : Bool) (s : State) : Host.Outcome State Fault Refusal :=
  guardWf (Packet.ok pkt) s (okDev s (opStartRx s.dev port.val pkt late))

/-- RUN (R368): an ALIGNED device becomes RUNNING at OCC = BASE. -/
def opRunOrbit (d : Dev) : Dev := if d.orb.state = .aligned then setOrb d { d.orb with armed := true } else d
def execRunOrbit (acc : Acc) (s : State) : Host.Outcome State Fault Refusal :=
  okDev s (withReg s.dev acc offOrbCtrl opRunOrbit)

/-- Has the orbit reached an epoch boundary in this cycle? -/
def atBoundary (d : Dev) : Bool := decide (orbBase d ≤ d.orb.occ) && (d.orb.occ - orbBase d) % orbLen d == 0

/-- The halt of R373: every orbit command that has not committed ends with ORBIT_LOST. -/
def orbitHalt (d : Dev) : Dev :=
  setOrb (endAll d (fun _ c => c.orbit) stOrbit 0 false) { d.orb with haltDue := false }

/-- An epoch boundary (R368, R373): RUN takes effect at BASE, the master sends HEARTBEAT, a lost device halts. -/
def opEpochBoundary (d : Dev) : Dev :=
  if !atBoundary d then d
  else
    let e := (d.orb.occ - orbBase d) / orbLen d
    let d1 := setOrb d { d.orb with epoch := e }
    let d2 := if d1.orb.state = .aligned && d1.orb.armed && d1.orb.occ = orbBase d1
      then setOrbState d1 { d1.orb with state := .running, armed := false, lastHb := d1.orb.occ } else d1
    let sent := d.orb.state == .running && d.orb.lastHb == d.orb.occ
    let d3 := if d2.orb.state = .running && isMaster d2 && !sent
      then (treePorts d2).foldl (fun d' p => sendCtrl d' p (ctrlPay 4 e)) (setOrb d2 { d2.orb with lastHb := d2.orb.occ })
      else d2
    if d3.orb.haltDue then orbitHalt d3 else d3
def execEpochBoundary (s : State) : Host.Outcome State Fault Refusal := okDev s (opEpochBoundary s.dev)

/-- A released HEARTBEAT from the upstream port: noted when it comes within 65,536 cycles of a boundary, and forwarded; a
LOST device does not forward it (R368, R372, R373). -/
def heartbeatNow (d : Dev) (port : Nat) (p : Packet) : Dev :=
  if !isMaster d && port = upstreamPort d && orbitMode d then
    let inTime := decide (orbBase d ≤ d.orb.occ) && decide ((d.orb.occ - orbBase d) % orbLen d ≤ 65536)
    (treePorts d).foldl (fun d' q => sendCtrl d' q p.payload)
      (if inTime then setOrb d { d.orb with lastHb := d.orb.occ } else d)
  else d

/-- HEARTBEAT: the release of one. Before the slot that its STAMP gives it is held; after the slot the release counts one
slip (01 R27, R28; R366). -/
def opHeartbeat (d : Dev) (port : Nat) (p : Packet) : Dev :=
  if p.typ = 10 && p.payload.head? = some 4 && !isMaster d && port = upstreamPort d && (fabPort d port).up
      && orbitMode d then
    checked d port p (fun d =>
      if cycNow d < slotOf d port p.stamp then holdWord d port p
      else heartbeatNow (if slotOf d port p.stamp < cycNow d then portSlip d port else d) port p)
  else d
def execHeartbeat (port : PortId) (pkt : Packet) (s : State) : Host.Outcome State Fault Refusal :=
  guardWf (Packet.ok pkt) s (okDev s (opHeartbeat s.dev port.val pkt))

/-- No HEARTBEAT was released within 65,536 cycles of the last two boundaries whose 65,536 cycles have passed. -/
def hbMissed (d : Dev) : Bool :=
  let b := orbBase d
  decide (b + 65536 ≤ d.orb.occ) &&
  (let e := (d.orb.occ - b - 65536) / orbLen d
   decide (1 ≤ e) && decide (d.orb.lastHb < b + (e - 1) * orbLen d))

/-- HB_MISS (R372, cause 3). -/
def opHbMiss (d : Dev) : Dev := if d.orb.state = .running && !isMaster d && hbMissed d then enterLost d 3 else d
def execHbMiss (s : State) : Host.Outcome State Fault Refusal := okDev s (opHbMiss s.dev)

/-- Receipt of a HALT (R372, cause 4): one on the ORBIT channel is released in its slot, one on MGMT acts at once (01 R29). -/
def opHaltRx (d : Dev) (port : Nat) (p : Packet) : Dev :=
  if p.typ = 10 && p.payload.head? = some 5 && (fabPort d port).up then
    checked d port p (fun d => if p.vc = 0 then holdWord d port p else enterLost d 4)
  else d
def execHaltRx (port : PortId) (pkt : Packet) (s : State) : Host.Outcome State Fault Refusal :=
  guardWf (Packet.ok pkt) s (okDev s (opHaltRx s.dev port.val pkt))

/-- Does a cause of the table "Orbit loss causes" hold? A phase error outside the lock range is what cause 2 says;
causes 3 and 4 have rows of their own. -/
def lossHolds (d : Dev) (cause : Nat) : Bool :=
  (cause == 1 && !isMaster d && !(fabPort d (upstreamPort d)).up) || cause == 2
  || (cause == 5 && (List.range 24).any (fun p => (rp d p 0x100).testBit 4 && !(fabPort d p).up))

/-- ORBIT_LOCK_LOST (R372). -/
def opOrbitLockLost (d : Dev) (cause : Nat) : Dev := if lossHolds d cause then enterLost d cause else d
def execOrbitLockLost (cause : Fin 6) (s : State) : Host.Outcome State Fault Refusal :=
  okDev s (opOrbitLockLost s.dev cause.val)

/-- DISBAND (R374): back to NONE, ARITH on the local reference. The halt of a LOST device that is still due stays
due (R373). -/
def opDisband (d : Dev) : Dev :=
  setOrbState d { d.orb with state := .none, pllRef := false, holdover := false, armed := false }
def execDisband (acc : Acc) (s : State) : Host.Outcome State Fault Refusal :=
  okDev s (withReg s.dev acc offOrbCtrl opDisband)

end Sys2Proof.Machine
end

