-- ==== Sys2Proof/Machine/Cmds.lean ====
section
/-! DEFINITION. Commands: doorbells, fetch, start order, commit and completion (10 R305-R321, R331). -/

namespace Sys2Proof.Machine
open Sys2Proof

def qmDie (d : Dev) (j : Nat) : Nat := 60 + (job d j).port
/-- Latches a source of the queue manager of a job's port. -/
def latchQm (d : Dev) (j src : Nat) (c : Cap) : Dev := latch d (qmDie d j) qPage src c
/-- The capture of a queue manager's access for a job. -/
def qmCap (d : Dev) (j addr kind len : Nat) : Cap := ⟨addr, 5, (job d j).port, some j, kind, len⟩

/-! ### Doorbells (R306) -/

/-- The capture of a write of a doorbell (log 58): its place in BAR4, its function and its job. -/
def bellCap (a : Acc) (j reg : Nat) : Cap := { accCap a (j * 4096 + reg) 2 4 with job := some j }

/-- Forgets the doorbell writes of a queue that are still to be served. -/
def dropBells (d : Dev) (j q : Nat) : Dev :=
  { d with qm := { d.qm with bells := d.qm.bells.filter (fun b => !(b.1 == j && b.2.1 == q)) } }

/-- Records a doorbell of a queue and makes the overrun check: a tail that is too far ahead stops the queue. Fetching goes
no further than the recorded tail, so a tail that is rung again, or where fetching stands, adds nothing to serve. -/
def ringBell (d : Dev) (j q tail : Nat) : Dev :=
  let x := job d j
  if sqSize d j q ≤ tail then setJob d j (setSq { x with sqErr := true } q { sqOf x q with tail := tail, stopped := true })
  else
    let d1 := setJob d j (setSq x q { sqOf x q with tail := tail })
    if tail = (sqOf x q).fetch then dropBells d1 j q
    else if d1.qm.bells.contains (j, q, tail) then d1
    else { d1 with qm := { d1.qm with bells := d1.qm.bells ++ [(j, q, tail)] } }

/-- SQ_DOORBELL (R306). -/
def opSqDoorbell (d : Dev) (a : Acc) (j q v : Nat) : Dev :=
  let x := job d j
  if x.state ≠ 1 then d
  else if (sqOf x q).stopped then setJob d j (setSq x q { sqOf x q with tail := v % 65536 })
  else if sqSize d j q ≤ v % 65536 then latchQm (ringBell d j q (v % 65536)) j 1 (bellCap a j (4 * q))
  else ringBell d j q (v % 65536)

/-- CQ_DOORBELL (R306). -/
def opCqDoorbell (d : Dev) (a : Acc) (j v : Nat) : Dev :=
  let x := job d j
  let n := cqSize d j
  let h := v % 65536
  if x.state ≠ 1 then d
  else if n ≤ h then latchQm d j 1 (bellCap a j 16)
  else setJob d j { x with cqHead := x.cqHead + (h + n - x.cqHead % n) % n
                           cqWait := x.cqWait && rj64 d j 0x148 == 0 }

/-- A doorbell page is a function's own when its job is (12 R388, R389); before DEV_READY a doorbell is discarded (R393, R399). -/
def bellAllowed (d : Dev) (a : Acc) (j : Nat) : Bool :=
  match a with
  | .pf p => ownJob d p 0 j && d.state == .ready
  | .vf p n => n.val != 0 && ownJob d p n.val j && d.state == .ready
  | _ => true
def execSqDoorbell (acc : Acc) (job : JobId) (queue : Fin 3) (value : Word) (s : State) :
    Host.Outcome State Fault Refusal :=
  okDev s (if bellAllowed s.dev acc job.val then opSqDoorbell s.dev acc job.val queue.val value.toNat else s.dev)
def execCqDoorbell (acc : Acc) (job : JobId) (value : Word) (s : State) : Host.Outcome State Fault Refusal :=
  okDev s (if bellAllowed s.dev acc job.val then opCqDoorbell s.dev acc job.val value.toNat else s.dev)

/-- SQ_ERR_CLEAR: every stopped queue resumes towards its recorded tail, with the check made again; a tail that is still too
far ahead sets SQ_ERR again, which is no new event (R306; 00 R8). -/
def opSqErrClear (d : Dev) (j : Nat) : Dev :=
  let x := job d j
  if !x.sqErr then d
  else
    (List.range 3).foldl (fun d q =>
      let sq := sqOf (job d j) q
      if sq.stopped then ringBell (dropBells (setJob d j (setSq (job d j) q { sq with stopped := false })) j q) j q sq.tail else d)
      (setJob d j { x with sqErr := false })
def execSqErrClear (acc : Acc) (job : JobId) (s : State) : Host.Outcome State Fault Refusal :=
  okDev s (withReg s.dev acc (jobOff acc job.val 0x104) (fun d => opSqErrClear d job.val))

/-! ### Fetch (R307, R309, R310) -/

/-- The granules of n bytes at a device address, each with the address of its first byte. -/
def ctlGrans (a : DevAddr) (n : Nat) : List (Nat × Nat) :=
  (List.range ((addrOff a + n + 4095) / 4096 - addrOff a / 4096)).filterMap (fun i =>
    let g := addrOff a / 4096 + i
    match a with
    | .t0 c _ => some (encodeAddr (.t0 c (g * 4096)), gT0 c g)
    | .obj t oid _ => some (encodeAddr (.obj t oid (g * 4096)), gKey t oid g)
    | _ => none)
/-- Some granule of a control structure is PENDING: its read waits (08 R256). -/
def ctlPending (d : Dev) (a n : Nat) : Bool := n != 0 && (ctlGrans (decodeAddr a) n).any (fun g => isPending d g.2)

/-- A control structure may lie at a device address: in the job's banks, or in a copy that the job may read and that is on
the list `objs` of a command's copies, where one is given (03 R96; 08 R244, R246). -/
def ctlOk (d : Dev) (uid j : Nat) (objs : Option (List (Nat × Nat))) (a : DevAddr) (n : Nat) : Bool :=
  match a with
  | .t0 c o => banksOk d j c o n
  | .obj t oid o =>
    (match copyFor d uid oid t with
     | some (ob, _) => mayRead ob j && decide (o + n ≤ ob.size * 4096) && (match objs with
        | some l => l.contains (t, oid)
        | none => true)
     | none => false)
  | _ => false

/-- Reads n bytes of a control structure at a device address, as committed: the bytes, or the status and DETAIL that its
command ends with, the address of the first granule that fails (08 R244, R259, R262). -/
def readCtl (d : Dev) (uid j : Nat) (objs : Option (List (Nat × Nat))) (a n : Nat) (ev : Upset) :
    Dev × Except (Nat × Nat) (List Nat) :=
  let at_ := decodeAddr a
  let gs := ctlGrans at_ n
  if !ctlOk d uid j objs at_ n then (d, .error (stBad, badDetail uid none))
  else match gs.find? (fun g => viewSealed d uid g.2) with
    | some g => (d, .error (stSealed, g.1))
    | none =>
      match gather uid (qmCap d j a 0 (min n 0xFFFF)) gs d ev with
      | (d1, .error e) => (d1, .error e)
      | (d1, .ok l) => (d1, .ok (((l.map (·.1)).flatten.drop (addrOff at_ % 4096)).take n))
/-- The places of an upset that the read of a control structure takes: its granules that hold content. -/
def ctlPlaces (d : Dev) (uid a n : Nat) : Nat :=
  ((ctlGrans (decodeAddr a) n).filter (fun g => (viewSid d uid g.2).isSome)).length

/-- The checks of R310 on a launch block. -/
def launchOk (d : Dev) (j : Nat) (l : Launch) : Bool :=
  !l.coreRsv && !l.objRsv && decide (l.nSess ≤ 128) && decide (l.nObj ≤ 64)
  && l.cores.all (fun n => (placeEnt (job d j).place n).isSome)
  && decide l.sess.Nodup && decide l.objs.Nodup
  && l.objs.all (fun o => o.1 == 1 || o.1 == 2 || o.1 == 4)
  && l.images.all (fun a => match decodeAddr a with
      | .t0 c o => banksOk d j c o 64
      | .obj .. => true
      | _ => false)

/-- What a RUN_SEGMENT's fetch reads and checks. -/
def fetchLaunch (d : Dev) (uid : Nat) (c : Cmd) (ev : Upset) : Dev :=
  let a := dBytes c.desc 8 8
  if a % 64 ≠ 0 then failBad d uid none
  else match readCtl d uid c.job none a 832 ev with
    | (d1, .error (st, det)) => endCmd d1 uid st det false
    | (d1, .ok head) =>
      let n := (setBits 288 (sBytes head 0 48)).length
      match readCtl d1 uid c.job none (a + 832) (8 * n) (evDrop ev (ctlPlaces d1 uid a 832)) with
      | (d2, .error (st, det)) => endCmd d2 uid st det false
      | (d2, .ok tail) =>
        let l := decodeLaunch (head ++ tail)
        if launchOk d2 c.job l then
          setCmd d2 uid { c with cores := l.cores, images := l.images, sess := l.sess, objs := l.objs }
        else failBad d2 uid none

/-- May a job's queue fetch now? -/
def mayFetch (d : Dev) (j q : Nat) : Bool :=
  let x := job d j
  x.state == 1 && !(sqOf x q).stopped && decide ((jobCmds d j).length < 64)
  && decide (x.cqNext - x.cqHead < cqSize d j) && !d.boot.window && d.rst.isNone
  && !(pcie d (jobPort d j)).hostLost && !x.orphan

/-- A command has ended. -/
def hasEnded (d : Dev) (uid : Nat) : Bool :=
  match cmd d uid with
  | some c => c.phase == .ended
  | none => true

/-- DESCRIPTOR_FETCH (R307): the oldest doorbell write of the queue manager whose queue may fetch is served, in ring
order. A read that returns an error stops the queue. `ev` is what the reads of reserved records and of a launch block meet
(09 R267). -/
def opFetch (d : Dev) (j q : Nat) (desc : Option (BitVec 512)) (ev : Upset) : Dev :=
  let port := (job d j).port
  match d.qm.bells.find? (fun b => (job d b.1).port == port && mayFetch d b.1 b.2.1) with
  | none => d
  | some (bj, bq, bt) =>
    if bj ≠ j || bq ≠ q then d
    else
      let x := job d j
      let sq := sqOf x q
      match desc with
      | none =>
        let d1 := setJob d j (setSq { x with sqErr := true } q { sq with stopped := true })
        latchQm (dropBells d1 j q) j 1 ⟨rj64 d j (0x130 + 8 * q) + 64 * sq.fetch, 5, port, some j, 4, 64⟩
      | some w =>
        let n := sqSize d j q
        let uid := d.qm.uidCtr
        let next := (sq.fetch + 1) % n
        let c : Cmd :=
          { job := j, queue := q, ringIdx := sq.fetch, desc := w, fetchedAt := d.now, phase := .waiting, status := 0,
            detail := 0, retry := false, committed := false, cores := [], coresLeft := [], images := [], sess := [],
            objs := [], pinP := [], pinS := [], held := [], snap := [], gens := [], newCopies := [], newPages := [],
            newSlots := [], upds := [], t4left := 0, swaps := [], fenceUids := [], flushLeft := [],
            affected := false, orbit := false, tag := (Config.cmdTag uid).toNat, slot := x.cqNext % cqSize d j,
            reqAt := 0, doneAt := 0 }
        let d1 := setJob d j (setSq { x with cqNext := x.cqNext + 1 } q { sq with fetch := next })
        let d1b := if next = sq.tail then dropBells d1 j q
          else if next = bt then { d1 with qm := { d1.qm with bells := d1.qm.bells.erase (bj, bq, bt) } } else d1
        let d2 := setCmd { d1b with qm := { d1b.qm with uidCtr := uid + 1 } } uid c
        if !descOk w then failBad d2 uid none
        else
          let d3 := rsvdRead d2 uid ev
          if hasEnded d3 uid then d3
          else if dOpcode w = 0x01 then fetchLaunch d3 uid c ev
          else d3
def execDescriptorFetch (job : JobId) (queue : Fin 3) (desc : Option (BitVec 512)) (ev : Upset) (s : State) :
    Host.Outcome State Fault Refusal :=
  okDev s (opFetch s.dev job.val queue.val desc ev)

/-! ### Start order (R308, R311) -/

/-- Commands of the same queue fetched before this one let it start: each has started, and none is a FENCE that is
still to complete. -/
def queueReady (d : Dev) (uid : Nat) (c : Cmd) : Bool :=
  d.qm.cmds.all (fun e => !(e.2.job == c.job && e.2.queue == c.queue && decide (e.1 < uid))
    || e.2.phase == .ended || (e.2.phase != .waiting && dOpcode e.2.desc != 0x06))

/-- A core that job j is leaving: its slice has ended for a PREEMPT whose incoming job conflicts there (R325). -/
def leaving (d : Dev) (j n : Nat) : Bool :=
  d.qm.pres.any (fun p => p.victim == j && p.endedAt.isSome
    && (conflictCores (job d j).place (job d p.incoming).place).contains n)

/-- The start of a command of an opcode: its queue lets it start and `ready` holds. A job whose save was lost fails
every command (R330). -/
def startCmd (d : Dev) (uid op : Nat) (ready : Cmd → Bool) (f : Dev → Cmd → Dev) : Dev :=
  match cmd d uid with
  | none => d
  | some c =>
    if c.phase = .waiting && dOpcode c.desc = op && queueReady d uid c && ready c then
      if (job d c.job).lost then failFault d uid (qmDie d c.job) qPage false
      else
        let c' := { c with phase := .running }
        f (setCmd d uid c') c'
    else d

/-- A COPY_TILES with one COPY_OP starts. -/
def startCopyOp (d : Dev) (uid copyOp : Nat) (ready : Cmd → Bool) (f : Dev → Cmd → Dev) : Dev :=
  startCmd d uid 0x02 (fun c => dBits c.desc 8 3 0 == copyOp && ready c) f

/-- Takes a hold on a copy for a command, once (08 R244). -/
def takeHold (d : Dev) (uid tier oid : Nat) : Dev :=
  match cmd d uid with
  | some c =>
    if c.held.contains (tier, oid) then d
    else holdCopy (setCmd d uid { c with held := c.held ++ [(tier, oid)] }) oid tier
  | none => d

/-! ### Commit (R317, R318) -/

/-- The commit request that is granted next: the oldest, the lower job number first among those of one cycle. -/
def nextCommit (d : Dev) : Option Nat :=
  match d.qm.commitQ with
  | [] => none
  | u :: _ =>
    let at_ := match cmd d u with | some c => c.reqAt | none => 0
    let same := d.qm.commitQ.filter (fun v => match cmd d v with | some c => c.reqAt == at_ | none => false)
    some (same.foldl (fun best v =>
      match cmd d v, cmd d best with
      | some a, some b => if a.job < b.job then v else best
      | _, _ => best) u)

/-- The version checks of 05 R161 and 06 R201. -/
def versionsOk (d : Dev) (c : Cmd) : Bool :=
  c.snap.all (fun e => !e.2.appended ||
    (match SMap.get? (sess d (e.1 / 2 ^ 24)).lists (e.1 % 2 ^ 24) with
     | some l => l.version == e.2.version
     | none => e.2.version == 0))
  && c.upds.all (fun u => u.isNew || (slot d u.sid).version == u.version)
  && c.upds.all (fun u => !u.isNew ||
      (match SMap.get? (sess d u.sess).tails u.layer with
       | some t => (slot d t.1).version == u.version
       | none => u.version == 0))

/-- Swaps one generation granule in (R317 step 2). -/
def swapGen (d : Dev) (k sid : Nat) : Dev :=
  let old := rootOf d k
  let d1 := setRoot d k sid
  match old with
  | some o => dropGran d1 o
  | none => d1

/-- A page list after a commit that appended to it (05 R161): new pages enter with a reference, replaced pages lose
theirs, TOP and CLOSED follow the fills. -/
def commitList (d : Dev) (key : Nat) (s : SnapList) : Dev :=
  let x := sess d (key / 2 ^ 24)
  let old : PList := SMap.getD x.lists (key % 2 ^ 24) ⟨[], 0⟩
  let d1 := setSess d (key / 2 ^ 24) { x with lists := SMap.insert x.lists (key % 2 ^ 24) ⟨s.ents, old.version + 1⟩ }
  let entered := s.ents.filter (fun e => !old.ents.any (fun o => o.pid == e.pid))
  let replaced := old.ents.filter (fun o => !s.ents.any (fun e => e.pid == o.pid))
  let d2 := entered.foldl (fun d e => addRefPage d e.pid) d1
  let d3 := s.ents.foldl (fun d e =>
    let p := pst d e.pid
    if p.top < e.fill then setPst d e.pid { p with top := e.fill, closed := decide (e.fill = 128) } else d) d2
  replaced.foldl (fun d e => dropRefPage d e.pid) d3

/-- A tail update at commit (06 R198). -/
def commitTail (d : Dev) (u : TailUpd) : Dev :=
  let sl := slot d u.sid
  let sl' : Slot := { sl with sel := u.half, zero := false, poison := false, version := (sl.version + 1) % 2 ^ 32 }
  let d1 := setSlot d u.sid sl'
  if u.isNew then
    let x := sess d1 u.sess
    let old := SMap.get? x.tails u.layer
    let d2 := addRefSlot (setSess d1 u.sess { x with tails := SMap.insert x.tails u.layer (u.sid, sl.gen) }) u.sid
    match old with
    | some t => dropRefSlot d2 t.1
    | none => d2
  else d1

/-- The copies and objects that a command created become visible (08 R239). -/
def commitNew (d : Dev) (uid : Nat) (c : Cmd) : Dev :=
  c.newCopies.foldl (fun d t =>
    match obj d t.2 with
    | some o =>
      let o' := setCopy o t.1 { copyOf o t.1 with newBy := 0 }
      setObj d t.2 { o' with newBy := if o.newBy = uid then 0 else o.newBy }
    | none => d) d

/-! ### Sessions at commit (05 R162-R164; 06 R199) -/

/-- The range of lists a FREE_PAGES names: COUNT 0 means through the last. -/
def inRange (first count x : Nat) : Bool := decide (first ≤ x) && (count == 0 || decide (x < first + count))

/-- One list cut at position p (05 R163). -/
def cutList (l : PList) (p : Nat) : PList :=
  let keep := l.ents.take (ceilDiv p 128)
  let keep := if p % 128 = 0 then keep else
    keep.zipIdx.map (fun e => if e.2 = p / 128 then { e.1 with fill := min e.1.fill (p % 128) } else e.1)
  ⟨keep, l.version + 1⟩

/-- Frees pages and tails of a session (R163, R199). A list that is emptied keeps its version (R161). -/
def freeSession (d : Dev) (sid pos : Nat) (selP : Nat → Nat → Bool) (selT : Nat → Bool) (pages tails : Bool) : Dev :=
  let x := sess d sid
  let hit (k : Nat) : Bool := pages && selP (k / 256) (k % 256)
  let lists := x.lists.map (fun e => if hit e.1 then (e.1, cutList e.2 pos) else e)
  let gone := (x.lists.filter (fun e => hit e.1)).map (fun e => e.2.ents.drop (ceilDiv pos 128))
  let dropT := if tails then x.tails.filter (fun e => selT e.1) else []
  let keepT := if tails then x.tails.filter (fun e => !selT e.1) else x.tails
  let d1 := setSess d sid { x with lists := lists, tails := keepT }
  let d2 := gone.flatten.foldl (fun d e => dropRefPage d e.pid) d1
  dropT.foldl (fun d t => dropRefSlot d t.2.1) d2

/-- FREE_PAGES at its commit. -/
def commitFree (d : Dev) (w : BitVec 512) : Dev :=
  freeSession d (dBytes w 8 2) (dBytes w 12 4)
    (fun layer group => inRange (dBytes w 16 2) (dBytes w 18 2) layer && inRange (dBytes w 20 1) (dBytes w 21 1) group)
    (fun layer => inRange (dBytes w 24 2) (dBytes w 26 2) layer) ((dBytes w 10 1).testBit 0) ((dBytes w 10 1).testBit 1)

/-- FORK_SESSION at its commit (R162, R199): the parent's lists and tails become the child's too. A list that the child has
held before goes on from its version (R161). -/
def commitFork (d : Dev) (w : BitVec 512) : Dev :=
  let p := sess d (dBytes w 8 2)
  let ch := sess d (dBytes w 10 2)
  let full := p.lists.filter (fun e => !e.2.ents.isEmpty)
  let lists := full.foldl (fun s e =>
    SMap.insert s e.1 ⟨e.2.ents, (SMap.getD ch.lists e.1 ⟨[], 0⟩).version + 1⟩) ch.lists
  let d1 := setSess d (dBytes w 10 2) { ch with lists := lists, tails := p.tails, keyValid := p.keyValid, keySlot := p.keySlot }
  let d2 := (full.map (fun e => e.2.ents)).flatten.foldl (fun d e => addRefPage d e.pid) d1
  p.tails.foldl (fun d t => addRefSlot d t.2.1) d2
/-- The child of a FORK_SESSION must hold no lists and no tails when the fork commits (R162, R199). -/
def forkBarred (d : Dev) (c : Cmd) : Bool := dOpcode c.desc == 0x03 && !sessEmpty (sess d (dBytes c.desc 10 2))

/-- SET_QUOTA at its commit (08 R248, R249). -/
def commitQuota (d : Dev) (w : BitVec 512) : Dev :=
  let j := dBytes w 8 1
  let set := dBits w 9 3 0
  let x := job d j
  setJob d j { x with
    quota1 := if set.testBit 0 then dBytes w 12 4 else x.quota1
    quota2 := if set.testBit 1 then dBytes w 16 4 else x.quota2
    quota3 := if set.testBit 2 then dBytes w 20 4 else x.quota3
    quota4 := if set.testBit 3 then dBytes w 24 4 else x.quota4 }

/-- A page of a stage list, as pid + 2^24 × GEN, is still the page that was listed. -/
def samePage (d : Dev) (x : Nat) : Bool := (pst d (x % 2 ^ 24)).gen == x / 2 ^ 24 && (pst d (x % 2 ^ 24)).res != 0

/-- PAGE_UNSTAGE at its commit: T1 copies are dropped (08 R239). -/
def commitUnstage (d : Dev) (pids : List Nat) : Dev :=
  pids.foldl (fun d x =>
    let p := x % 2 ^ 24
    if samePage d x && (pst d p).res = 2 then freeGrans (setPst d p { pst d p with res := 1 }) 9 p else d) d

/-- PAGE_STAGE at its commit: closed pages get their T1 copies (05 R139; 08 R239). -/
def commitStage (d : Dev) (pids : List Nat) : Dev :=
  pids.foldl (fun d x =>
    let p := x % 2 ^ 24
    if samePage d x && (pst d p).res = 1 then
      let src := d.mem.roots.filter (fun e => e.1 / 2 ^ 32 == 8 * 2 ^ 32 + p)
      src.foldl (fun d e =>
        let (d1, s) := newGran d
        copyGran (setRoot d1 (gKey 9 p (e.1 % 2 ^ 32)) s) e.2 s) (setPst d p { pst d p with res := 2 })
    else d) d

/-- What a command's opcode does at its commit. -/
def commitOp (d : Dev) (_uid : Nat) (c : Cmd) : Dev :=
  let w := c.desc
  match dOpcode w with
  | 0x02 =>
    let oid := dBits w 12 19 0
    let tier := dBits w 8 11 8
    match dBits w 8 3 0 with
    | 1 => if c.newCopies.contains (tier, oid) then d else claimCopy d oid tier c.job
    | 2 => claimCopy d oid tier c.job
    | 3 => evictCopy d oid tier c.job
    | 4 => if c.newCopies.contains (tier, oid) then d else claimCopy d oid tier c.job
    | 7 => commitStage d c.swaps
    | 8 => commitUnstage d c.swaps
    | _ => d
  | 0x03 => commitFork d w
  | 0x04 => commitFree d w
  | 0x07 => commitQuota d w
  | _ => d

/-! ### Waiting slot operations (06 R195) and destruction (R331) -/

/-- Ends the transfers and marks of a job's prefetch list (08 R251-R257). -/
def dropPrefetch (d : Dev) (j : Nat) : Dev :=
  let x := job d j
  let d1 := x.pf.foldl (fun d e => match e.2 with
    | .transfer _ (some (t, o)) | .broken _ (some (t, o)) => unholdCopy d o t
    | _ => d) (setJob d j { x with pf := [], pfStep := 0 })
  let marks := (d1.mem.marks.map (fun e => (e.1, e.2.filter (fun m => m.1 != j)))).filter (fun e => !e.2.isEmpty)
  let mine (r : Req) : Bool := match r.owner with
    | .pf k _ => k == j
    | _ => false
  { d1 with mem := { d1.mem with marks := marks }
            fab := { d1.fab with reqs := SMap.keep d1.fab.reqs (fun _ r => !mine r)
                                 reqWait := d1.fab.reqWait.filter (fun x => !mine x.2) } }

/-- Frees a save area. -/
def freeSave (d : Dev) (j : Nat) : Dev :=
  match (job d j).save with
  | some s => setJob (s.grans.foldl (fun d g => dropGran d g.sid) d) j { job d j with save := none }
  | none => d

/-- An ACTIVE job's placement names a core of a die. -/
def dieNamed (d : Dev) (die : Nat) : Bool :=
  d.qm.jobs.any (fun e => e.2.state == 1 && e.2.place.cores.any (fun c => coreDie c.core == die))
/-- The power manager switches off the compute dies that R469 lets it switch off (log 32). -/
def powerSave (d : Dev) : Dev :=
  let off := (List.range 48).filter (fun die => !dieNamed d die && !(rg d die 16 0x00C).testBit 2
    && !dieRetained d die && !NSet.mem d.pwr.waking die && !dieResetting d die)
  { d with pwr := { d.pwr with retained := off.foldl (fun s die => SMap.insert s die 0) d.pwr.retained } }

/-- R331, steps 2 to 4: sessions freed and unbound, claims dropped, key slots erased (13 R418), save area and prefetch
list freed, FREE. -/
def finishDestroy (d : Dev) (j : Nat) : Dev :=
  let mine := (d.qm.sess.filter (fun e => e.2.job == some j)).map (·.1)
  let d1 := mine.foldl (fun d s =>
    setSess (freeSession d s 0 (fun _ _ => true) (fun _ => true) true true) s freeSess) d
  let d2 := (d1.mem.objs.map (·.1)).foldl (fun d o => [1, 2, 4].foldl (fun d t => evictCopy d o t j) d) d1
  let d2k : Dev := { d2 with sec := { d2.sec with keys := SMap.keep d2.sec.keys (fun k _ => k / 16 != j) } }
  let d3 := dropPrefetch (freeSave d2k j) j
  powerSave (setJob d3 j { freeJob with port := (job d3 j).port, err := (job d3 j).err, declRej := (job d3 j).declRej,
                                        sessResult := (job d3 j).sessResult })

/-- A DESTROYING job with no command left is finished. -/
def checkDestroy (d : Dev) (j : Nat) : Dev :=
  if (job d j).state = 2 && (jobCmds d j).isEmpty then finishDestroy d j else d

/-- COMMIT (R317). -/
def opCommit (d : Dev) (uid ns : Nat) : Dev :=
  match nextCommit d, cmd d uid with
  | some u, some c =>
    if u ≠ uid then d
    else if !versionsOk d c then endCmd d uid stKilled 1 false
    else if forkBarred d c then failBad d uid none
    else
      let d1 := c.gens.foldl (fun d e => swapGen d e.1 e.2) (ftlCommit d uid)
      let d2 := c.snap.foldl (fun d e => if e.2.appended then commitList d e.1 e.2 else d) d1
      let d3 := c.upds.foldl commitTail d2
      let d4 := commitOp (commitNew d3 uid c) uid c
      let die := qmDie d4 c.job
      let d5 := bump d4 die qPage 0x130 1
      let d6 := setRg d5 die qPage 0x134 (max (rg d5 die qPage 0x134) (min ns 2000))
      let c' : Cmd := { c with phase := .ended, status := stOK, committed := true, gens := [] }
      let d7 := setCmd d6 uid c'
      completeCmd (dropWork { d7 with qm := { d7.qm with commitQ := d7.qm.commitQ.filter (· != uid) } } uid false) uid
  | _, _ => d
def execCommit (uid ns : Nat) (s : State) : Host.Outcome State Fault Refusal := okDev s (opCommit s.dev uid ns)

/-! ### Completion (R312-R314, R319, R321) -/

/-- The 32 bytes of a completion entry (table "Completion entry"). -/
def entryBytes (c : Cmd) (seq : Nat) : List Nat :=
  leBytes 4 (seq % 2 ^ 32) ++ leBytes 2 (dUserTag c.desc) ++ [c.status % 256, b2n c.committed * 2 + b2n c.retry]
  ++ leBytes 2 (3 * c.job + c.queue) ++ leBytes 2 c.tag ++ leBytes 4 c.ringIdx ++ leBytes 8 c.detail
  ++ leBytes 4 (min ((c.doneAt - c.fetchedAt) / 1050) (2 ^ 32 - 1)) ++ leBytes 4 0

/-- Removes a command whose entry is written or given up. -/
def removeCmd (d : Dev) (uid j : Nat) : Dev :=
  checkDestroy { d with qm := { d.qm with cmds := SMap.erase d.qm.cmds uid, doneQ := d.qm.doneQ.filter (· != uid) } } j

/-- A killed or abandoned command is counted for its job, and on the page of its queue manager. -/
def countKill (d : Dev) (j : Nat) : Dev :=
  bump (bump d 60 (jPage j) 0x1E4 1) (qmDie d j) qPage 0x138 1

/-- Can an entry of this job be written now? Its host is there (12 R400, R401) and the ring has room (R314). -/
def entryRoom (d : Dev) (c : Cmd) : Bool :=
  let p := pcie d (jobPort d c.job)
  p.linkUp && !p.hostLost && !(job d c.job).orphan && !(job d c.job).cqWait
    && decide ((job d c.job).cqWr - (job d c.job).cqHead < cqSize d c.job)

/-- Of a job's completed commands, the one whose entry is written next: they go in the order of completion (R312). -/
def nextEntry (d : Dev) (j : Nat) : Option Nat :=
  d.qm.doneQ.find? (fun u => match cmd d u with | some c => c.job == j | none => false)

/-- COMPLETION_ENTRY (R312-R314, R321). -/
def opCompletion (d : Dev) (uid : Nat) : Dev :=
  match cmd d uid with
  | none => d
  | some c =>
    if c.phase ≠ .ended || nextEntry d c.job ≠ some uid || !entryRoom d c then d
    else
      let x := job d c.job
      let d2 := emit d (.pcieWrite x.port (rj64 d c.job 0x148 + 32 * c.slot) (entryBytes c x.seq))
      let d3 := setJob d2 c.job { job d2 c.job with seq := x.seq + 1, cqWr := x.cqWr + 1 }
      let d4 := bump d3 60 (jPage c.job) 0x1E0 1
      let d5 := if c.status = stKilled then countKill d4 c.job else d4
      removeCmd (if dIRQ c.desc then sendCplVec d5 c.job else d5) uid c.job
def execCompletionEntry (uid : Nat) (s : State) : Host.Outcome State Fault Refusal := okDev s (opCompletion s.dev uid)

/-- CQ_ABANDON (R313, R331): 10 ms (10,500,000 ARITH cycles) after the job's destruction, or the start of a device
reset, an entry that cannot be written is discarded. -/
def opCqAbandon (d : Dev) (uid : Nat) : Dev :=
  match cmd d uid with
  | none => d
  | some c =>
    let since := match (job d c.job).destroyAt, d.rst with
      | some t, _ => some t
      | none, some r => some r.since
      | none, none => none
    match since with
    | some t =>
      if c.phase = .ended && t + 10500000 ≤ d.now && !entryRoom d c then
        latchQm (removeCmd (countKill d c.job) uid c.job) c.job 3 (qmCap d c.job 0 8 0)
      else d
    | none => d
def execCqAbandon (uid : Nat) (s : State) : Host.Outcome State Fault Refusal := okDev s (opCqAbandon s.dev uid)

end Sys2Proof.Machine
end

