-- ==== Sys2Proof/Machine/Copy.lean ====
section
/-! DEFINITION. COPY_TILES on objects: COPY, ALLOC, CLAIM, EVICT, STAGE; PUBLISH, FENCE, SET_QUOTA (08 R236-R250,
R258-R262; 10 R311, R322; 11 R357). -/

namespace Sys2Proof.Machine
open Sys2Proof

/-! ### Ranges and transfers -/

/-- The granules that n granules from an aligned device address name; a scratchpad ends with its last granule. -/
def rangeKeys (a : DevAddr) (n : Nat) : List Nat :=
  match a with
  | .t0 c o => (List.range (min n (scratchGrans - o / 4096))).map (fun i => gT0 c (o / 4096 + i))
  | .obj t oid o => (List.range n).map (fun i => gKey t oid (o / 4096 + i))
  | _ => []

/-- A handle is open and belongs to the job (11 R356). -/
def handleOk (d : Dev) (j h : Nat) : Bool :=
  match SMap.get? d.fab.hdl h with
  | some (hj, _, _) => hj == j
  | none => false

/-- May a command of job j read (`wr` false) or write n granules from an address? `uid` sees its own creations
(R240, R246). -/
def rangeOk (d : Dev) (uid j : Nat) (a : DevAddr) (n : Nat) (wr : Bool) : Bool :=
  addrOff a % 4096 == 0 &&
  match a with
  | .t0 c o => banksOk d j c o (n * 4096)
  | .obj t oid o =>
    (match copyFor d uid oid t with
     | some (ob, _) =>
       decide (o + n * 4096 ≤ ob.size * 4096) && (if wr then mayWrite ob t j else mayRead ob j)
     | none => false)
  | .t3 h o => handleOk d j h && decide (o + n * 4096 ≤ 2 ^ 48)
  | .bad => false

/-- An access of a T0 address in a bank of another job on a shared core raises CORE_ISOLATION (03 R96, 04 R105). -/
def isolation (d : Dev) (j : Nat) (a : DevAddr) (n : Nat) : Dev :=
  match a with
  | .t0 c o =>
    if c < 288 && bankForeign d j c o (min (n * 4096) scratchBytes) then
      latchCoreSrc d c 3 (coreCap c (some j) (encodeAddr a) 1 (n * 4096))
    else d
  | _ => d

/-- Writes whole granules for a command; answers the tier whose quota or space ends it (R316). -/
def scatter (uid : Nat) : List (Nat × List Nat × Bool) → Dev → Except Nat Dev
  | [], d => .ok d
  | (k, bs, sl) :: r, d =>
    match writeView d uid k 0 bs sl with
    | .ok d1 => scatter uid r d1
    | .error t => .error t

/-- Addresses of n granules from an address. -/
def granAddrs (a : DevAddr) (n : Nat) : List Nat := (List.range n).map (fun (i : Nat) => encodeAddr (addrAdd a (4096 * i)))

/-- The remote DID and window of a handle. -/
def handleTo (d : Dev) (h : Nat) : Nat × Nat :=
  match SMap.get? d.fab.hdl h with
  | some (_, did, win) => (did, win)
  | none => (0, 0)

/-- Issues the PUT packets of a transfer to T3: 512 B each, SEAL carried (11 R357, R359). -/
def sendPuts (d : Dev) (ow : ReqOwner) (h off t3 : Nat) (data : List (List Nat × Bool)) : Dev :=
  let (did, win) := handleTo d h
  data.zipIdx.foldl (fun d g =>
    (List.range 8).foldl (fun d i =>
      let a := off + 4096 * g.2 + 512 * i
      request d { mkPkt d 1 1 did 0 a (win * 16) ((g.1.1.drop (512 * i)).take 512) with sealed := g.1.2 }
        ⟨1, did, a, 512, 0, t3 + 4096 * g.2 + 512 * i, d.now, ow⟩) d) d

/-- Issues the GET_REQ packets of a transfer from T3: 4,096 B each. -/
def sendGets (d : Dev) (ow : ReqOwner) (h off t3 loc n : Nat) : Dev :=
  let (did, win) := handleTo d h
  (List.range n).foldl (fun d i =>
    request d (mkPkt d 3 1 did 0 (off + 4096 * i) (win * 16) (padTo 16 (leBytes 4 4096)))
      ⟨3, did, off + 4096 * i, 4096, loc + 4096 * i, t3 + 4096 * i, d.now, ow⟩) d

/-- The granules of a transfer that are read, each with its bytes and SEAL, and zeros for those that are not. -/
def spread (n : Nat) (need : List Nat) (data : List (List Nat × Bool)) (fix : Nat → List Nat → List Nat) : List (List Nat × Bool) :=
  let m := need.zip data
  if need.length = n then data.zipIdx.map (fun p => (fix p.2 p.1.1, p.1.2))
  else (List.range n).map (fun i => match SMap.get? m i with
    | some g => (fix i g.1, g.2)
    | none => (List.replicate 4096 0, false))

/-- Moves n granules from src to dst for a command, as one transfer of the action `act`: reads first, writes after
(R238). `need` are the granules that are read, and `fix` gives the bytes of one as they are written (04 R113). Answers none
where the command has been ended. -/
def moveGrans (d : Dev) (uid act j : Nat) (src dst : DevAddr) (n : Nat) (need : List Nat) (fix : Nat → List Nat → List Nat)
    (ev : Upset) : Dev × Bool :=
  let cp := qmCap d j (encodeAddr src) 1 (min (n * 4096) 0xFFFF)
  match src with
  | .t3 h o =>
    if addrTier dst = 4 && (t4WriteFault d uid).isSome then ((t4WriteFault d uid).getD d, false)
    else (sendGets d (.cmd uid act) h o (encodeAddr src) (encodeAddr dst) n, true)
  | _ =>
    let pairs := (granAddrs src n).zip (rangeKeys src n)
    let reads := if need.length = n then pairs else need.filterMap (fun i => pairs[i]?)
    match gather uid cp reads (touchReads d (reads.map (·.2))) ev with
    | (d1, .error (st, a)) => (endCmd d1 uid st a false, false)
    | (d1, .ok got) =>
      let data := spread n need got fix
      match dst with
      | .t3 h o => (sendPuts d1 (.cmd uid act) h o (encodeAddr dst) data, true)
      | _ =>
        let dk := rangeKeys dst n
        if dk.any (fun k => gKind k == 4 && !gIsT0 k) && (t4WriteFault d1 uid).isSome then
          ((t4WriteFault d1 uid).getD d1, false)
        else
          match scatter uid (dk.zip data) d1 with
          | .error t => (endCmd d1 uid stQuota t false, false)
          | .ok d2 => (startPrograms d2 uid dk, true)
/-- Moves n whole granules. -/
def moveAll (d : Dev) (uid j : Nat) (src dst : DevAddr) (n : Nat) (ev : Upset) : Dev × Bool :=
  moveGrans d uid 0 j src dst n (List.range n) (fun _ bs => bs) ev

/-- Some granule of a transfer is marked PENDING: the transfer waits (R256). -/
def movePending (d : Dev) (src dst : DevAddr) (n : Nat) : Bool :=
  (rangeKeys src n).any (isPending d) || (rangeKeys dst n).any (isPending d)

/-- The job must be resident to use a T0 address (10 R308, R325, R329). -/
def t0Ready (d : Dev) (j : Nat) (a : DevAddr) : Bool :=
  match a with
  | .t0 c _ => (job d j).resident && !leaving d j c
  | .obj t oid _ =>
    !(t == 1 && !(job d j).resident && (match (job d j).save with | some s => s.t1oids.contains oid | none => false))
  | _ => true

/-- Holds the copy an address names. -/
def holdAddr (d : Dev) (uid : Nat) (a : DevAddr) : Dev :=
  match a with
  | .obj t oid _ => takeHold d uid t oid
  | _ => d

/-! ### COPY (R239, R240) -/

def copySrc (c : Cmd) : DevAddr := decodeAddr (dBytes c.desc 16 8)
def copyDst (c : Cmd) : DevAddr := decodeAddr (dBytes c.desc 24 8)
def copyN (c : Cmd) : Nat := dBytes c.desc 32 4 * (tileGrans (dBits c.desc 8 7 4)).getD 0

/-- COPY_TILES COPY. -/
def opCopyTiles (d : Dev) (uid : Nat) (ev : Upset) : Dev :=
  startCopyOp d uid 0 (fun c => t0Ready d c.job (copySrc c) && t0Ready d c.job (copyDst c)
      && !movePending d (copySrc c) (copyDst c) (copyN c)) (fun d c =>
    let src := copySrc c
    let dst := copyDst c
    let n := copyN c
    if (tileGrans (dBits c.desc 8 7 4)).isNone then failBad d uid none
    else if dBytes c.desc 32 4 = 0 then endEmpty d uid
    else if addrTier src = 3 && addrTier dst = 3 then failBad d uid none
    else if !rangeOk d uid c.job src n false then failBad (isolation d c.job src n) uid none
    else if !rangeOk d uid c.job dst n true then failBad (isolation d c.job dst n) uid none
    else
      match moveAll (holdAddr (holdAddr d uid src) uid dst) uid c.job src dst n ev with
      | (d1, false) => d1
      | (d1, true) => if waitsReq d1 uid none then d1 else requestCommit d1 uid)
def execCopyTilesCopy (uid : Nat) (ev : Upset) (s : State) : Host.Outcome State Fault Refusal :=
  okDev s (opCopyTiles s.dev uid ev)

/-! ### ALLOC, CLAIM, EVICT, STAGE (R239, R240, R245, R246) -/

def cOid (c : Cmd) : Nat := dBits c.desc 12 19 0
def cTier (c : Cmd) : Nat := dBits c.desc 8 11 8
def okTier (t : Nat) : Bool := t == 1 || t == 2 || t == 4

/-- A new copy, seen by its command alone until the commit. -/
def newCopy (uid j : Nat) : CopySt := ⟨true, false, j, 0, 1#256 <<< j, uid⟩

/-- Creates the copy of an object that exists, for a command, with no content (R239); answers QUOTA_EXCEEDED when it may not (R248). -/
def createCopy (d : Dev) (uid j oid tier : Nat) (o : Obj) : Except Nat Dev :=
  if fits d j tier (chargeOf o tier) o.t1die then
    let d1 := setObj (freeGrans d tier oid) oid (setCopy o tier (newCopy uid j))
    match cmd d1 uid with
    | some c => .ok (setCmd d1 uid { c with newCopies := c.newCopies ++ [(tier, oid)] })
    | none => .ok d1
  else .error stQuota

/-- Another command is creating the object or its copy: refused (R239; log 27). -/
def underCreation (o : Obj) (uid tier : Nat) : Bool :=
  (o.newBy != 0 && o.newBy != uid) || ((copyOf o tier).present && (copyOf o tier).newBy != 0 && (copyOf o tier).newBy != uid)

def endCreate (d : Dev) (uid tier : Nat) (st : Nat) : Dev :=
  if st = stQuota then endCmd d uid stQuota tier false else failBad d uid none

/-- ALLOC. -/
def opAlloc (d : Dev) (uid : Nat) : Dev :=
  startCopyOp d uid 1 (fun _ => true) (fun d c =>
    let oid := cOid c
    let tier := cTier c
    let size := dBytes c.desc 32 4
    if !okTier tier || size = 0 || size > 0x10000000 then failBad d uid none
    else
      let finish (r : Except Nat Dev) : Dev :=
        match r with
        | .ok d1 => requestCommit (takeHold d1 uid tier oid) uid
        | .error st => endCreate d uid tier st
      let tooBig (o : Obj) : Bool := tier == 1 && decide (inkFree d o.t1die < o.size)
      match obj d oid with
      | some o =>
        if underCreation o uid tier || size ≠ o.size || !mayClaim d o c.job then failBad d uid none
        else if (copyOf o tier).present then finish (.ok d)
        else if tooBig o then failBad d uid none
        else finish (createCopy d uid c.job oid tier o)
      | none =>
        let w := dBits c.desc 8 31 0
        let o : Obj :=
          { size := size, shared := w.testBit 20, ro := w.testBit 21, mirror := w.testBit 22, t1die := bitsOf w 18 16,
            creator := c.job, shareTag := dBytes c.desc 36 2, c1 := noCopy, c2 := noCopy, c4 := noCopy, newBy := uid }
        if tooBig o then failBad d uid none else finish (createCopy d uid c.job oid tier o))
def execAlloc (uid : Nat) (s : State) : Host.Outcome State Fault Refusal := okDev s (opAlloc s.dev uid)

/-- CLAIM and EVICT name a copy that exists; their effect is the commit's. -/
def opClaim (d : Dev) (uid : Nat) : Dev :=
  startCopyOp d uid 2 (fun _ => true) (fun d c =>
    if !okTier (cTier c) then failBad d uid none
    else match copyFor d uid (cOid c) (cTier c) with
      | some (o, _) =>
        if mayClaim d o c.job then requestCommit (takeHold d uid (cTier c) (cOid c)) uid else failBad d uid none
      | none => failBad d uid none)
def execClaim (uid : Nat) (s : State) : Host.Outcome State Fault Refusal := okDev s (opClaim s.dev uid)

def opEvict (d : Dev) (uid : Nat) : Dev :=
  startCopyOp d uid 3 (fun _ => true) (fun d c =>
    if !okTier (cTier c) then failBad d uid none
    else match copyFor d uid (cOid c) (cTier c) with
      | some _ => requestCommit (takeHold d uid (cTier c) (cOid c)) uid
      | none => failBad d uid none)
def execEvict (uid : Nat) (s : State) : Host.Outcome State Fault Refusal := okDev s (opEvict s.dev uid)

/-- STAGE: a destination copy that exists must be one the job may claim, with RO = 0; RO does not bar the filling of a
copy that the STAGE creates (log 28). -/
def opStage (d : Dev) (uid : Nat) (ev : Upset) : Dev :=
  let ready (c : Cmd) : Bool :=
    match obj d (cOid c) with
    | some o =>
      !movePending d (.obj (dBits c.desc 8 15 12) (cOid c) 0) (.obj (cTier c) (cOid c) 0) o.size
        && t0Ready d c.job (.obj (dBits c.desc 8 15 12) (cOid c) 0)
    | none => true
  startCopyOp d uid 4 ready (fun d c =>
    let oid := cOid c
    let st := dBits c.desc 8 15 12
    let dt := cTier c
    if !okTier st || !okTier dt || st = dt then failBad d uid none
    else match copyFor d uid oid st with
      | none => failBad d uid none
      | some (o, _) =>
        if !mayRead o c.job || underCreation o uid dt then failBad d uid none
        else
          let r : Except Nat Dev :=
            if (copyOf o dt).present then
              (if mayClaim d o c.job && !o.ro then .ok d else .error stBad)
            else createCopy d uid c.job oid dt o
          match r with
          | .error e => endCreate d uid dt e
          | .ok d1 =>
            match moveAll (takeHold (takeHold d1 uid st oid) uid dt oid) uid c.job (.obj st oid 0) (.obj dt oid 0) o.size ev with
            | (d2, false) => d2
            | (d2, true) => requestCommit d2 uid)
def execStage (uid : Nat) (ev : Upset) (s : State) : Host.Outcome State Fault Refusal := okDev s (opStage s.dev uid ev)

/-! ### PUBLISH (10 R322) -/

/-- Writes one chunk to host memory. -/
def publishChunk (d : Dev) (j host : Nat) (bs : List Nat) : Dev := emit d (.pcieWrite (job d j).port host bs)

/-- The chunks of a PUBLISH: at most 1 MiB of host bytes each; SEAL is checked before POISON over a whole chunk
(log 29). -/
def publishLoop (uid j tier oid : Nat) (host : Nat) : Nat → Nat → Nat → Dev → Upset → Dev
  | 0, _, _, d, _ => d
  | fuel + 1, off, left, d, ev =>
    if left = 0 then requestCommit d uid
    else
      let k := min left (2 ^ 20)
      let gs := (List.range ((off + k + 4095) / 4096 - off / 4096)).map (fun i => off / 4096 + i)
      let key (g : Nat) : Nat := gKey tier oid g
      let at_ (g : Nat) : Nat := encodeAddr (.obj tier oid (g * 4096))
      match gs.find? (fun g => match rootOf d (key g) with | some s => sealed d s | none => false) with
      | some g => endCmd d uid stSealed (at_ g) false
      | none =>
        let cp := qmCap d j (encodeAddr (.obj tier oid off)) 1 k
        match gather 0 cp (gs.map (fun g => (at_ g, key g))) (touchReads d (gs.map key)) ev with
        | (d1, .error (st, a)) => endCmd d1 uid st a false
        | (d1, .ok data) =>
          let bs := (((data.map (·.1)).flatten).drop (off % 4096)).take k
          publishLoop uid j tier oid (host + k) fuel (off + k) (left - k) (publishChunk d1 j host bs)
            (evDrop ev (gs.filter (fun g => (rootOf d (key g)).isSome)).length)

def pubSrc (c : Cmd) : DevAddr := decodeAddr (dBytes c.desc 8 8)

/-- PUBLISH: a T0 source is refused, as T0 is not committed state (log 29). -/
def opPublish (d : Dev) (uid : Nat) (ev : Upset) : Dev :=
  let ready (c : Cmd) : Bool :=
    t0Ready d c.job (pubSrc c) &&
    (match pubSrc c with
     | .obj t oid o =>
       !(List.range ((o + dBytes c.desc 24 4 + 4095) / 4096 - o / 4096)).any (fun i => isPending d (gKey t oid (o / 4096 + i)))
     | _ => true)
  startCmd d uid 0x05 ready (fun d c =>
    let len := dBytes c.desc 24 4
    if len = 0 then endEmpty d uid
    else match pubSrc c with
      | .obj t oid o =>
        (match copyFor d uid oid t with
         | some (ob, _) =>
           if mayRead ob c.job && decide (o + len ≤ ob.size * 4096) then
             publishLoop uid c.job t oid (dBytes c.desc 16 8) (len / 2 ^ 20 + 2) o len (takeHold d uid t oid) ev
           else failBad d uid none
         | none => failBad d uid none)
      | _ => failBad d uid none)
def execPublish (uid : Nat) (ev : Upset) (s : State) : Host.Outcome State Fault Refusal := okDev s (opPublish s.dev uid ev)

/-! ### FENCE and SET_QUOTA -/

/-- FENCE (10 R311): the commands it waits for, and the flush of every memory die's WCB (09 R273, R276), which the
model makes in one step. -/
def opFence (d : Dev) (uid : Nat) (ev : Upset) : Dev :=
  startCmd d uid 0x06 (fun _ => true) (fun d c =>
    let qm := dBits c.desc 8 2 0
    let wait := (d.qm.cmds.filter (fun e => e.2.job == c.job && decide (e.1 < uid) && qm.testBit e.2.queue
      && e.2.phase != .ended)).map (·.1)
    let d1 := setCmd d uid { c with fenceUids := wait }
    let d2 := ((List.range 8).foldl (fun (p : Dev × Upset) md =>
      (wcbFlushAll p.1 md true p.2, evDrop p.2 (wcbOf p.1 md).length)) (d1, ev)).1
    if wait.isEmpty then requestCommit d2 uid else d2)
def execFence (uid : Nat) (ev : Upset) (s : State) : Host.Outcome State Fault Refusal := okDev s (opFence s.dev uid ev)

/-- An ACTIVE management job (10 R303). -/
def isPriv (d : Dev) (j : Nat) : Bool := isActive d j && (rj d j 0x100).testBit 2

/-- SET_QUOTA (08 R248, R249; 10 R303). -/
def opSetQuota (d : Dev) (uid : Nat) : Dev :=
  startCmd d uid 0x07 (fun _ => true) (fun d c => if isPriv d c.job then requestCommit d uid else failBad d uid none)
def execSetQuota (uid : Nat) (s : State) : Host.Outcome State Fault Refusal := okDev s (opSetQuota s.dev uid)

end Sys2Proof.Machine
end

