-- ==== Sys2Proof/Machine/Array.lean ====
section
/-! DEFINITION. The matrix array: geometry of its partitions, operands of a pass, weight words, and the sums of a pass
(02 R36-R47; 03 R66-R100, R526-R530; 04 R105, R113). -/

namespace Sys2Proof.Machine
open Sys2Proof

/-! ### Geometry (R92) -/

/-- North-west corner of a sub-array. -/
def subOrg (part i : Nat) : Nat × Nat :=
  match part with
  | 0 => (0, 0)
  | 1 => (0, 64 * (i % 2))
  | 2 => (64 * (i / 2 % 2), 64 * (i % 2))
  | _ => (32 * (i / 4 % 4), 32 * (i % 4))

/-- The 32 × 32 blocks of a bank that a sub-array's region covers, as bank × 16 + block (log 34). -/
def regionBlocks (bank part sub : Nat) : List Nat :=
  let (r, c) := subOrg part sub
  ((List.range (partRows part / 32)).map (fun i =>
    (List.range (partCols part / 32)).map (fun k => bank * 16 + (r / 32 + i) * 4 + c / 32 + k))).flatten

def accKey (bank m n : Nat) : Nat := bank * 16384 + m * 128 + n

/-- Accumulation mode of a region: 0 UNSET, 1 FP32, 2 INT32 (R526). Of blocks that passes of another partition have left in
different modes, that of the first stands for the region (log 68). -/
def regionMode (c : CoreSt) (blocks : List Nat) : Nat :=
  match blocks with
  | b :: _ => SMap.getD c.accMode b 0
  | [] => 0
def setRegionMode (c : CoreSt) (blocks : List Nat) (m : Nat) : CoreSt :=
  { c with accMode := blocks.foldl (fun s b => SMap.put s b m 0) c.accMode }

/-- A core clears the blocks of some regions: sums 0, mode UNSET (R100, R526). -/
def clearBlocks (c : CoreSt) (blocks : List Nat) : CoreSt :=
  let blkOf (k : Nat) : Nat := k / 16384 * 16 + k % 16384 / 128 / 32 * 4 + k % 128 / 32
  { c with acc := SMap.keep c.acc (fun k _ => !blocks.contains (blkOf k))
           accMode := SMap.keep c.accMode (fun b _ => !blocks.contains b)
           wrote := SMap.keep c.wrote (fun b _ => !blocks.contains b)
           readOut := SMap.keep c.readOut (fun b _ => !blocks.contains b) }

def zeroRow : PRow := ⟨List.replicate 128 0, List.replicate 128 0⟩

/-- Replaces the elements lo to lo + n − 1 of a list by those of another. -/
def splice (l m : List Nat) (lo n : Nat) : List Nat := l.take lo ++ (m.drop lo).take n ++ l.drop (lo + n)

/-- Row r of an array with the columns lo to lo + n − 1 of another row put in. -/
def spliceRow (a b : PRow) (lo n : Nat) : PRow := ⟨splice a.w b.w lo n, splice a.sc b.sc lo n⟩

def rowOf (s : SMap PRow) (r : Nat) : PRow := SMap.getD s r zeroRow

/-- The strips of 32 columns of a sub-array. -/
def subStrips (part sub : Nat) : List Nat :=
  (List.range (partCols part / 32)).map (fun k => (subOrg part sub).2 / 32 + k)
/-- The rows of a sub-array. -/
def subRows (part sub : Nat) : List Nat := (List.range (partRows part)).map (fun k => (subOrg part sub).1 + k)

/-- Every shadow register of a row of a sub-array is full, or every one empty. -/
def rowFull (a : Arr) (part sub r : Nat) : Bool := (subStrips part sub).all (fun s => NSet.mem a.full (r * 4 + s))
def rowEmpty (a : Arr) (part sub r : Nat) : Bool := (subStrips part sub).all (fun s => !NSet.mem a.full (r * 4 + s))
def subFull (a : Arr) (part sub : Nat) : Bool := (subRows part sub).all (rowFull a part sub)

/-- A swap of one row of a sub-array: shadow words become active, the shadow is empty (R72). -/
def swapRow (a : Arr) (part sub r : Nat) : Arr :=
  let (_, c0) := subOrg part sub
  { a with active := SMap.put a.active r (spliceRow (rowOf a.active r) (rowOf a.shadow r) c0 (partCols part)) zeroRow
           shadow := SMap.put a.shadow r (spliceRow (rowOf a.shadow r) zeroRow c0 (partCols part)) zeroRow
           full := (subStrips part sub).foldl (fun f s => NSet.del f (r * 4 + s)) a.full }
def swapSub (a : Arr) (part sub : Nat) : Arr := (subRows part sub).foldl (fun a r => swapRow a part sub r) a

/-- The registers of a sub-array are set to zero, its shadows are empty (R83, R100). -/
def clearSub (a : Arr) (part sub : Nat) : Arr :=
  let c0 := (subOrg part sub).2
  (subRows part sub).foldl (fun a r =>
    { a with active := SMap.put a.active r (spliceRow (rowOf a.active r) zeroRow c0 (partCols part)) zeroRow
             shadow := SMap.put a.shadow r (spliceRow (rowOf a.shadow r) zeroRow c0 (partCols part)) zeroRow
             full := (subStrips part sub).foldl (fun f s => NSet.del f (r * 4 + s)) a.full }) a

/-- The sub-arrays of a core that no other resident job's placement holds. -/
def freeSubs (d : Dev) (j : Nat) (e : CoreEnt) : List Nat :=
  (List.range (partSubs e.part)).filter (fun i =>
    (residentEnts d e.core).all (fun p => p.1 == j || !(entSubs p.2).testBit i))

/-- Clears what a job's placement entry makes its own of a core (R83, R100): the whole core when it is not shared, else the
sub-arrays and regions that no other job holds (log 35), and every vector register. -/
def clearCore (d : Dev) (j : Nat) (e : CoreEnt) : Dev :=
  let c := core d e.core
  if coreShared d e.core then
    let subs := freeSubs d j e
    let c1 := subs.foldl (fun c i => clearBlocks c (regionBlocks 0 e.part i ++ regionBlocks 1 e.part i)) c
    let a1 := subs.foldl (fun a i => clearSub a e.part i) c1.arr
    let a2 : Arr := { a1 with dead := SMap.keep a1.dead (fun i _ => !subs.contains i) }
    let a3 : Arr := if a2.part = e.part then a2 else { a2 with part := e.part, slotNo := 0, slotStart := d.now }
    setCore d e.core { c1 with arr := a3, vregs := [], vsealed := [] }
  else
    setCore d e.core { c with arr := idleArr, acc := [], accMode := [], wrote := [], readOut := [], vregs := [], vsealed := [] }

/-! ### Contexts and the place in the walk -/

def ctxOf (d : Dev) (n j : Nat) : Option Ctx := SMap.get? (core d n).ctxs j
def setCtx (d : Dev) (n j : Nat) (x : Ctx) : Dev := setCore d n { core d n with ctxs := SMap.insert (core d n).ctxs j x }

def itemAi : Item → Nat
  | .act ai _ _ _ _ => ai
  | .skip _ => 0
def itemIdx : Item → List Nat
  | .act _ ix _ _ _ => ix
  | .skip _ => []
def itemValid : Item → List Nat
  | .act _ _ v _ _ => v
  | .skip _ => []
def itemExt : Item → List Nat
  | .act _ _ _ e _ => e
  | .skip _ => []
def itemPtr : Item → Option PtrEnt
  | .act _ _ _ _ p => p
  | .skip _ => none
def actOf (im : Image) (it : Item) : ActionD := (im.actions[itemAi it]?).getD ⟨[]⟩

/-- The tile indices of the loops that enclose the action of an item: FIRST and LAST stand outside their own loop (R104,
R105). -/
def itemEncl (im : Image) (it : Item) : List Nat :=
  let a := actOf im it
  (itemIdx it).take (if aPhase a < 2 then aLevel a + 1 else aLevel a)

/-! ### Operand addresses (04 R105, R117) -/

/-- The rows of an operand slot lie where R117 puts them. -/
def foldedSlot (im : Image) (slot : Nat) : Bool := im.batchMode == 2 && (slot == 0 || slot == 2)

/-- What R117 adds to OFFSET for row r of a tile of slot 0 or 2: f counts the folded rows, of which `itemM` are one item's
(log 36). -/
def foldOff (im : Image) (it : Item) (slot r : Nat) : Nat :=
  let mt := match dimOfRole im 0 with | some m => tileIdx im (itemEncl im it) m * dimT im m | none => 0
  let f := mt + r
  let st := if slot = 0 then im.aStride else im.cStride
  let pi := if slot = 0 then im.aPitch else im.cPitch
  bitsOf im.batchBase 25 0 + f / max 1 im.itemM * st + f % max 1 im.itemM * pi

/-- OFFSET, the loops' strides and, in PTRLIST mode, the pointer's OFFSET (R105; log 36). -/
def baseAddr (im : Image) (it : Item) (w : Nat) : Int :=
  let slot := bitsOf w 29 28
  (bitsOf w 25 0 : Int) + strideSum im (itemEncl im it) slot + (bitsOf (ptrOf (itemPtr it) slot) 25 0 : Nat)

/-- The OFFSET that an operand word names at an item of the walk, of its first row under FOLDED; negative when it falls below
the scratchpad. -/
def opAddr (im : Image) (it : Item) (w : Nat) : Int :=
  let slot := bitsOf w 29 28
  if foldedSlot im slot then baseAddr im it w + (foldOff im it slot 0 : Nat) else baseAddr im it w

/-- The byte at which row r of a tile of an operand begins: r rows of n bytes on, or, under FOLDED, where R117 puts row
f of slots 0 and 2. -/
def rowAddr (im : Image) (it : Item) (w r n : Nat) : Int :=
  let slot := bitsOf w 29 28
  if foldedSlot im slot then baseAddr im it w + (foldOff im it slot r : Nat) else baseAddr im it w + (r * n : Nat)

/-- A_M of a FOLDED program, from the extents before the fold (R117). -/
def foldM (im : Image) (exts : List Nat) : Nat := match dimOfRole im 0 with | some m => extOf exts m | none => 1

/-! ### Reads and writes of the scratchpad by an engine of a core -/

/-- The granules of some ranges of a core's scratchpad. -/
def rangesGrans (n : Nat) (rs : List (Int × Nat)) : List Nat :=
  ((rs.filter (fun r => r.2 != 0)).map (fun r => granRange n r.1.toNat r.2)).flatten

/-- The T0 device address of a granule. -/
def t0Addr (g : Nat) : Nat := encodeAddr (.t0 (g / scratchGrans) (g % scratchGrans * 4096))

/-- Every range lies in banks the job owns on the core (R96, R105). -/
def rangesOwned (d : Dev) (j n : Nat) (rs : List (Int × Nat)) : Bool :=
  rs.all (fun r => r.2 == 0 || (decide (0 ≤ r.1) && banksOk d j n r.1.toNat r.2))

/-- A range in banks of another job is not accessed, fails the command, and raises CORE_ISOLATION (R96). -/
def failOwned (d : Dev) (uid j n ai : Nat) (rs : List (Int × Nat)) : Dev :=
  let d1 := if rs.any (fun r => r.2 != 0 && decide (0 ≤ r.1) && decide (r.1.toNat + r.2 ≤ scratchBytes)
      && bankForeign d j n r.1.toNat r.2) then
      latchCoreSrc d n 3 (coreCap n (some j) (match rs with | r :: _ => encodeAddr (.t0 n r.1.toNat) | [] => 0) 1 4096)
    else d
  failBad d1 uid (some ai)

/-- An ECC error in one of the granules that an engine of core n reads for a command (R69). Answers false where the command
has been ended. -/
def engineUpset (d : Dev) (uid j n : Nat) (gs : List Nat) (ev : Upset) : Dev × Bool :=
  match ev with
  | .ue k =>
    (match gs[k]? with
     | some g => (endCmd (latchCoreSrc d n 0 (coreCap n (some j) (t0Addr g) 0 128)) uid stMemUE (t0Addr g) false, false)
     | none => (d, true))
  | .ce k => (if k < gs.length then bump d (n / 6) (n % 6) 0x150 1 else d, true)
  | _ => (d, true)

/-- An engine of core n reads ranges of the scratchpad for a command: ownership, SEAL, POISON and ECC (R69, R96; 08
R259, R262). Answers false where the command has been ended. -/
def engineReads (d : Dev) (uid j n ai : Nat) (sealOk : Bool) (rs : List (Int × Nat)) (ev : Upset) : Dev × Bool :=
  if !rangesOwned d j n rs then (failOwned d uid j n ai rs, false)
  else
    let gs := rangesGrans n rs
    match gs.find? (fun g => !sealOk && sealed d g), gs.find? (poisoned d) with
    | some g, _ => (endCmd d uid stSealed (t0Addr g) false, false)
    | none, some g => (endCmd d uid stPoison (t0Addr g) false, false)
    | none, none => engineUpset d uid j n gs ev

/-- Upsets of the array and of the accumulator memory (R69, R76; 14 R448). -/
def arrayUpset (d : Dev) (uid j n : Nat) (ev : Upset) : Dev × Bool :=
  match ev with
  | .accUE => (endCmd (latchCoreSrc d n 1 (coreCap n (some j) 0 0 4)) uid stMemUE 0 false, false)
  | .accCE => (bump d (n / 6) (n % 6) 0x150 1, true)
  | .parity => (failFault (latchCoreSrc d n 2 (coreCap n (some j) 0 0 2)) uid (n / 6) (n % 6) true, false)
  | _ => (d, true)

/-! ### Operands of a pass (R73, R527, R530) -/

def passFmt (a : ActionD) (act : Bool) : ElemFmt :=
  if aInt32 a then .int8 else (fmtOf (if act then aAfmt a else aWfmt a)).getD .bf16
def passGroup (a : ActionD) : Group := if aInt32 a then .pair else (groupOf (passFmt a false)).getD .single
def passG (a : ActionD) : Nat := groupElems (passGroup a)
def passMX (a : ActionD) : Bool := !aInt32 a && isMX (passFmt a false)
/-- Stored bytes of a tile of a format, and bytes of one of its rows. -/
def storedBytes (f : ElemFmt) : Nat := (tileGrans (tileFmtOf f)).getD 1 * 4096
def rowBytes (f : ElemFmt) : Nat := 16 * elemBits f

/-- Element c of the row that begins at byte `base` of a core's scratchpad (08 R234). -/
def eltAt (d : Dev) (n base : Nat) (f : ElemFmt) (c : Nat) : Nat :=
  let b := elemBits f
  let lo := b * c
  (ofLeBytes (readT0 d n (base + lo / 8) ((lo % 8 + b + 7) / 8)) >>> (lo % 8)) % 2 ^ b

/-- Valid extents of a pass: M, N, K, and the first K index of its range within the K tile (R107, R530). -/
def passM (im : Image) (it : Item) : Nat := validRole im (itemValid it) 0 (2 ^ 30)
def passN (im : Image) (it : Item) : Nat := validRole im (itemValid it) 1 (2 ^ 30)
def passK (im : Image) (it : Item) : Nat := validRole im (itemValid it) 2 (2 ^ 30)
def passK0 (a : ActionD) : Nat := aKpart a * groupK (passGroup a)

/-- K indices that a pass covers: rows (west entry) or columns (north entry) of its sub-array (R78, R79). -/
def passSpan (a : ActionD) : Nat :=
  if aNorth a then partCols (aPart a) else partRows (aPart a) * passG a
/-- Valid K indices of a pass. -/
def passKv (im : Image) (it : Item) (a : ActionD) : Nat := min (passSpan a) (passK im it - passK0 a)
/-- Outputs of a pass along its output edge. -/
def passOuts (a : ActionD) : Nat := if aNorth a then partRows (aPart a) else partCols (aPart a)
def passNv (im : Image) (it : Item) (a : ActionD) : Nat := min (passOuts a) (passN im it)
/-- Valid vectors of a pass. -/
def passMv (im : Image) (it : Item) (a : ActionD) : Nat := min (aMt a) (passM im it)

/-- The ranges of the weight operand that one row k of the sub-array reads (R113: valid elements only). -/
def wRowRanges (im : Image) (it : Item) (a : ActionD) (k : Nat) : List (Int × Nat) :=
  let f := passFmt a false
  let g := passG a
  let base := opAddr im it (aw a 3)
  let kv := passKv im it a
  let nv := passNv im it a
  if aNorth a then
    if k < nv then [(base + (k * rowBytes f : Nat), ceilDiv (kv * elemBits f) 8)] else []
  else
    ((List.range g).filter (fun e => decide (g * k + e < kv))).map (fun e =>
      (base + ((g * k + e) / 128 * storedBytes f + (g * k + e) % 128 * rowBytes f : Nat), ceilDiv (nv * elemBits f) 8))
    ++ (if passMX a && (g * k) % 32 + g == 32 && decide (g * k / 32 * 32 < kv) then
          [(opAddr im it (aw a 5) + (g * k / 128 * storedBytes f + 128 * (g * k / 32 % 4) : Nat), nv)] else [])

/-- The word of PE (k, c) of a sub-array, and the scale byte of a block-tail PE (R73, R74, R84). -/
def wWord (d : Dev) (n : Nat) (im : Image) (it : Item) (a : ActionD) (k c : Nat) : Nat :=
  let f := passFmt a false
  let g := passG a
  let base := (opAddr im it (aw a 3)).toNat
  if aNorth a then (if k < passNv im it a && c < passKv im it a then eltAt d n (base + k * rowBytes f) f c else 0)
  else if c < passNv im it a then
    ((List.range g).map (fun e =>
      if g * k + e < passKv im it a then
        eltAt d n (base + (g * k + e) / 128 * storedBytes f + (g * k + e) % 128 * rowBytes f) f c * 2 ^ (e * elemBits f)
      else 0)).foldl (· + ·) 0
  else 0
def wScale (d : Dev) (n : Nat) (im : Image) (it : Item) (a : ActionD) (k c : Nat) : Nat :=
  let f := passFmt a false
  let g := passG a
  if passMX a && (g * k) % 32 + g = 32 && c < passNv im it a && g * k / 32 * 32 < passKv im it a then
    numT0 d n ((opAddr im it (aw a 5)).toNat + g * k / 128 * storedBytes f + 128 * (g * k / 32 % 4) + c) 1
  else 0

/-- The row that the shadow fill writes for array row r of a pass's sub-array, on top of `old` (R84). -/
def fillRow (d : Dev) (n : Nat) (im : Image) (it : Item) (a : ActionD) (r : Nat) (old : PRow) : PRow :=
  let (r0, c0) := subOrg (aPart a) (aSub a)
  let cols := partCols (aPart a)
  let pad (l : List Nat) : List Nat := List.replicate c0 0 ++ l ++ List.replicate (128 - c0 - cols) 0
  spliceRow old ⟨pad ((List.range cols).map (wWord d n im it a (r - r0))),
                 pad ((List.range cols).map (wScale d n im it a (r - r0)))⟩ c0 cols

/-! ### Activations -/

/-- The activation tile that holds K index kk of a pass (offset in bytes). -/
def aTile (f : ElemFmt) (kk : Nat) : Nat := kk / 128 * storedBytes f
/-- The ranges of the activation operand (R113). -/
def aRanges (im : Image) (it : Item) (a : ActionD) : List (Int × Nat) :=
  let f := passFmt a true
  let kv := passKv im it a
  ((List.range (passMv im it a)).map (fun m =>
    ((List.range (ceilDiv kv 128)).map (fun t =>
      (rowAddr im it (aw a 2) m (rowBytes f) + (t * storedBytes f : Nat), ceilDiv (min 128 (kv - 128 * t) * elemBits f) 8)
        :: (if passMX a then
              [(rowAddr im it (aw a 4) m 4 + (t * storedBytes f : Nat), ceilDiv (min 128 (kv - 128 * t)) 32)] else [])))
      |>.flatten)).flatten

/-- Element kk of activation vector m as stored, zero beyond the extents. -/
def aElt (d : Dev) (n : Nat) (im : Image) (it : Item) (a : ActionD) (m kk : Nat) : Nat :=
  let f := passFmt a true
  if m < passMv im it a && kk < passKv im it a then
    eltAt d n ((rowAddr im it (aw a 2) m (rowBytes f)).toNat + aTile f kk) f (kk % 128)
  else 0
/-- The word that enters row (or column) k with activation vector m (R73, R78, R79). -/
def aWord (d : Dev) (n : Nat) (im : Image) (it : Item) (a : ActionD) (m k : Nat) : Nat :=
  let g := passG a
  ((List.range g).map (fun e => aElt d n im it a m (g * k + e) * 2 ^ (e * elemBits (passFmt a true)))).foldl (· + ·) 0
/-- The bytes that word k of activation vector m is read from, and its block's scale byte in the tail row (R74, R113). -/
def aWordRange (im : Image) (it : Item) (a : ActionD) (m k : Nat) : List (Int × Nat) :=
  let f := passFmt a true
  let g := passG a
  let kk := g * k
  if passMv im it a ≤ m then []
  else
    (if kk < passKv im it a then
      [(rowAddr im it (aw a 2) m (rowBytes f) + (aTile f kk + kk % 128 * elemBits f / 8 : Nat),
        ceilDiv (min g (passKv im it a - kk) * elemBits f) 8)] else [])
    ++ (if passMX a && kk % 32 + g == 32 && decide (kk / 32 * 32 < passKv im it a) then
      [(rowAddr im it (aw a 4) m 4 + (aTile f kk + kk % 128 / 32 : Nat), 1)] else [])
/-- Scale byte of the block of kk of activation vector m. -/
def aScale (d : Dev) (n : Nat) (im : Image) (it : Item) (a : ActionD) (m kk : Nat) : Nat :=
  if m < passMv im it a then
    numT0 d n ((rowAddr im it (aw a 4) m 4).toNat + aTile (passFmt a true) kk + kk % 128 / 32) 1
  else 127

/-! ### The sums of a pass (R38-R47, R75, R78, R79) -/

/-- Element e of a weight word. -/
def wElt (f : ElemFmt) (w e : Nat) : FVal := elemVal f (w / 2 ^ (e * elemBits f) % 2 ^ elemBits f)

/-- The sum of vector m and output o of a pass, from the initial sum s0. Positions at or beyond the K extent add
nothing (R46, R530; log 37). `act` gives an element of the activation vector, `sca` its block scale, `wrow` the active
row of the array. -/
def passSum (im : Image) (it : Item) (a : ActionD) (act : Nat → FVal) (sca : Nat → Nat) (wrow : Nat → PRow)
    (o s0 : Nat) : Nat :=
  let f := passFmt a false
  let g := passG a
  let (r0, c0) := subOrg (aPart a) (aSub a)
  let kv := passKv im it a
  let wv (kk : Nat) : FVal :=
    if aNorth a then wElt f (((wrow (r0 + o)).w[c0 + kk]?).getD 0) 0
    else wElt f (((wrow (r0 + kk / g)).w[c0 + o]?).getD 0) (kk % g)
  if aInt32 a then
    let s : Int := ((List.range kv).map (fun kk => fTrunc (fMul (act kk) (wv kk)))).foldl (· + ·) (sext 32 s0)
    (s % 2 ^ 32).toNat
  else if passMX a then
    (List.range (ceilDiv kv 32)).foldl (fun s b =>
      let prods := (List.range 32).map (fun i => fMul (act (32 * b + i)) (wv (32 * b + i)))
      let sw := ((wrow (r0 + (32 * b + 31) / g)).sc[c0 + o]?).getD 0
      addBlock s (blockValue (sca (32 * b)) sw prods)) s0
  else (List.range kv).foldl (fun s kk => addSingle s (act kk) (wv kk)) s0

/-- Rows (west entry) or columns (north entry) that the activation words of a pass enter by (R78, R79). -/
def passEntries (a : ActionD) : Nat := if aNorth a then partCols (aPart a) else partRows (aPart a)
/-- Outputs of a pass that have a place in its region (log 38). -/
def passCols (a : ActionD) : Nat := min (passOuts a) (partCols (aPart a))

def flyRow (s : SMap (List Nat)) (m : Nat) : List Nat := SMap.getD s m []
def flyAdd (s : SMap (List Nat)) (m x : Nat) : SMap (List Nat) := SMap.insert s m (flyRow s m ++ [x])

/-- The activation words that enter in cycle c0 + t − 1 of a pass, as (vector, entry) (R80). -/
def wordsAt (a : ActionD) (t : Nat) : List (Nat × Nat) :=
  ((List.range (aMt a)).filter (fun m => decide (m + 1 ≤ t) && decide (t - 1 - m < passEntries a))).map (fun m => (m, t - 1 - m))
/-- The initial sums read in cycle c0 + t − 1, as (vector, output) (R80). -/
def initsAt (a : ActionD) (t : Nat) : List (Nat × Nat) :=
  ((List.range (aMt a)).filter (fun m => decide (m ≤ t) && decide (t - m < passCols a))).map (fun m => (m, t - m))
/-- The sums written in cycle c0 + t − 1: each leaves the array after its last entry and is written three cycles later. -/
def sumsAt (a : ActionD) (t : Nat) : List (Nat × Nat) :=
  let h := passEntries a + 4
  ((List.range (aMt a)).filter (fun m => decide (m + h ≤ t) && decide (t - h - m < passCols a))).map (fun m => (m, t - h - m))

/-- The sum of vector m and output o from what has been read of a pass. -/
def flySum (im : Image) (fl : PassFly) (m o : Nat) : Nat :=
  let a := fl.run.act
  let g := passG a
  let ws := flyRow fl.words m
  let sc := flyRow fl.scales m
  let s0 := if aInit a then ((flyRow fl.inits m)[o]?).getD 0 else 0
  passSum im fl.run.item a (fun kk => wElt (passFmt a true) ((ws[kk / g]?).getD 0) (kk % g)) (fun kk => (sc[kk / 32]?).getD 127)
    (rowOf fl.wts) o s0

/-- One cycle of a pass on core n (R70, R80, R108): the initial sums, the activation words and block scales that enter in it
are read, and the sums that reach the bank are written. Answers none for a pass whose command has been ended by a read. -/
def passCycle (d : Dev) (n : Nat) (im : Image) (fl : PassFly) : Dev × Option PassFly :=
  let p := fl.run
  let a := p.act
  let t := fl.next + 1 - fl.c0
  let (r0, c0) := subOrg (aPart a) (aSub a)
  let wk := wordsAt a t
  match engineReads d p.uid p.job n (itemAi p.item) false ((wk.map (fun e => aWordRange im p.item a e.1 e.2)).flatten) .none with
  | (d1, false) => (d1, none)
  | (d1, true) =>
    let acc := (core d1 n).acc
    let inits := if aInit a then (initsAt a t).foldl (fun s e =>
        flyAdd s e.1 (SMap.getD acc (accKey (aBank a) (r0 + e.1) (c0 + e.2)) 0)) fl.inits else []
    let words := wk.foldl (fun s e => flyAdd s e.1 (aWord d1 n im p.item a e.1 e.2)) fl.words
    let scales := if passMX a then (wk.filter (fun e => passG a * e.2 % 32 + passG a == 32)).foldl (fun s e =>
        flyAdd s e.1 (if passG a * e.2 / 32 * 32 < passKv im p.item a then aScale d1 n im p.item a e.1 (passG a * e.2) else 127))
        fl.scales else []
    let fl1 : PassFly := { fl with next := fl.next + 1, words := words, scales := scales, inits := inits }
    let acc1 := (sumsAt a t).foldl (fun s e =>
      SMap.put s (accKey (aBank a) (r0 + e.1) (c0 + e.2)) (flySum im fl1 e.1 e.2) 0) acc
    (setCore d1 n { core d1 n with acc := acc1 }, some fl1)

end Sys2Proof.Machine
end

