-- ==== Sys2Proof/Machine/Trans.lean ====
section
/-! DEFINITION. The functions of the vector unit that are not correctly rounded (02 R63): their true values as fixed-point
intervals, and the results that lie within the error limit of each. Which of those results the unit gives is left open. -/

namespace Sys2Proof.Machine
open Sys2Proof

/-! ### Fixed point: an integer x stands for x / 2^q -/

def fxMul (q : Nat) (a b : Int) : Int := a * b / 2 ^ q
def fxDiv (q : Nat) (a b : Int) : Int := if b = 0 then 0 else a * 2 ^ q / b
/-- A finite value as fixed point; bits below the point are dropped. -/
def fxOf (q : Nat) (v : FVal) : Int :=
  match v with
  | .fin n m e =>
    let x : Nat := if 0 ≤ e + q then m <<< (e + q).toNat else m >>> (-(e + q)).toNat
    sInt n x
  | _ => 0

/-- The sum of the terms t₀, t₁ = step 1 t₀, t₂ = step 2 t₁, … up to a number of terms. -/
def fxSeries (n : Nat) (t0 : Int) (step : Nat → Int → Int) : Int :=
  ((List.range n).foldl (fun (p : Int × Int) i => let t := step (i + 1) p.2; (p.1 + t, t)) (t0, t0)).1

/-- 2 · artanh(y) for |y| ≤ 1/3. -/
def fxArtanh2 (q : Nat) (y : Int) : Int :=
  let y2 := fxMul q y y
  2 * ((List.range (q / 3 + 2)).foldl (fun (p : Int × Int) i => (p.1 + p.2 / (2 * i + 1 : Nat), fxMul q p.2 y2)) (0, y)).1
/-- arctan(1/k). -/
def fxArctan (q k : Nat) : Int :=
  ((List.range (q / 4 + 2)).foldl (fun (p : Int × Int) i =>
    (if i % 2 = 0 then p.1 + p.2 / (2 * i + 1 : Nat) else p.1 - p.2 / (2 * i + 1 : Nat), p.2 / (k * k : Nat))) (0, 2 ^ q / k)).1
def fxPi (q : Nat) : Int := 4 * (4 * fxArctan q 5 - fxArctan q 239)
def fxLn2 (q : Nat) : Int := fxArtanh2 q (2 ^ q / 3)

/-- e^r for |r| ≤ 1. -/
def fxExpSmall (q : Nat) (r : Int) : Int := fxSeries (q / 5 + 8) (2 ^ q) (fun i t => fxMul q t r / i)
/-- 2^k · x, the bits below the point dropped. -/
def fxShift (x k : Int) : Int := if 0 ≤ k then x * 2 ^ k.toNat else x / 2 ^ (-k).toNat
/-- e^x; `x` is at most 2^12 in magnitude. -/
def fxExp (q : Nat) (x : Int) : Int :=
  let l := fxLn2 q
  let k := x / l
  fxShift (fxExpSmall q (x - k * l)) k
/-- ln of m · 2^e, for a positive fixed-point m in [1, 2). -/
def fxLog (q : Nat) (m e : Int) : Int := fxArtanh2 q (fxDiv q (m - 2 ^ q) (m + 2 ^ q)) + e * fxLn2 q
def fxSin (q : Nat) (r : Int) : Int :=
  let r2 := fxMul q r r
  fxSeries (q / 10 + 8) r (fun i t => -(fxMul q t r2) / (2 * i * (2 * i + 1) : Nat))
def fxCos (q : Nat) (r : Int) : Int :=
  let r2 := fxMul q r r
  fxSeries (q / 10 + 8) (2 ^ q) (fun i t => -(fxMul q t r2) / (2 * i * (2 * i - 1) : Nat))
/-- sin (and, one quarter turn on, cos) of an angle of any size. -/
def fxTrig (q : Nat) (v : FVal) (quarter : Int) : Int :=
  let w := q + 1100
  let h := fxPi w / 2
  let x := fxOf w v
  let k := (2 * x + h) / (2 * h)
  let r := (x - k * h) / 2 ^ 1100
  match (k + quarter) % 4 with
  | 0 => fxSin q r
  | 1 => fxCos q r
  | 2 => -(fxSin q r)
  | _ => -(fxCos q r)
/-- erf(x) for |x| ≤ 16; the series cancels 2^370 of the point's bits at most, which `q` must leave. -/
def fxErf (q : Nat) (x : Int) : Int :=
  let x2 := fxMul q x x
  let s := ((List.range (q + 800)).foldl (fun (p : Int × Int) i =>
    (p.1 + p.2 / (2 * i + 1 : Nat), -(fxMul q p.2 x2) / (i + 1 : Nat))) (0, x)).1
  let rootPi : Int := isqrtFrom (q + 2) ((fxPi q).toNat <<< q) 0
  fxDiv q (2 * s) rootPi

/-! ### True values -/

/-- The value of a function at a finite non-zero input, as fixed point with q bits, to within 2^40 units (R63). -/
def fnValue (q f : Nat) (v : FVal) : Int :=
  let x := fxOf q v
  let one : Int := 2 ^ q
  match f with
  | 1 => isqrtFrom (2 * q) (2 ^ (3 * q) / x.toNat) 0
  | 2 => fxExp q x
  | 3 => let k := x / one; fxShift (fxExpSmall q (fxMul q (x - k * one) (fxLn2 q))) k
  | 4 => let e := fLog2 v; fxLog q (fxOf q (fScale v (-e))) e
  | 5 => let e := fLog2 v; fxDiv q (fxLog q (fxOf q (fScale v (-e))) 0) (fxLn2 q) + e * one
  | 6 => fxTrig q v 0
  | 7 => fxTrig q v 1
  | 8 => let t := fxExp q (2 * x); fxDiv q (t - one) (t + one)
  | 9 => fxDiv q one (one + fxExp q (-x))
  | 10 => fxErf q x
  | 11 =>
    let root2 : Int := isqrtFrom (q + 2) (2 ^ (2 * q + 1)) 0
    fxMul q x (one + fxErf q (fxDiv q x root2)) / 2
  | _ => 0

/-- Where the function is beyond what `fnValue` covers: its limit there, as a value just inside it. Results so large that they
overflow are infinite, those so small that they vanish lie between 0 and the smallest number. -/
def fnFar (f : Nat) (v : FVal) : Option FVal :=
  let big (b : Int) : Bool := decide (b ≤ fLog2 v)
  let tiny : FVal := .fin false 1 (-3000)
  let near1 : FVal := .fin false (2 ^ 200 - 1) (-200)
  if fIsZero v || !fIsFin v then none
  else match f with
    | 2 | 3 => if big 11 then some (if fIsNeg v then tiny else .fin false 1 3000) else none
    | 8 => if big 6 then some (if fIsNeg v then fNeg near1 else near1) else none
    | 9 => if big 8 then some (if fIsNeg v then tiny else near1) else none
    | 10 => if big 4 then some (if fIsNeg v then fNeg near1 else near1) else none
    | 11 => if big 4 then some (if fIsNeg v then fNeg tiny else fMul v near1) else none
    | _ => none

/-! ### Results within the error limit -/

/-- The error limit of a function in units in the last place (table "Vector unit functions"). -/
def fnUlp (f : Nat) : Nat := if f ≤ 5 then 1 else if f ≤ 10 then 2 else 3

/-- Encodings in the order of their values: +0 and −0 are 0. -/
def ordOf (w x : Nat) : Int := if x < 2 ^ (w - 1) then x else -((x : Int) - 2 ^ (w - 1))
def ofOrd (w : Nat) (neg : Bool) (i : Int) : Nat :=
  if i < 0 then 2 ^ (w - 1) + i.natAbs else if i = 0 && neg then 2 ^ (w - 1) else i.toNat

/-- The greatest encoding whose value is at most v, and the least whose value is at least v, as orders. -/
def ordFloor (fp : FFmt) (v : FVal) : Int :=
  let b := fEncode fp .rne .toInf v
  if fLess v (fDecode fp b) && !fEqNum v (fDecode fp b) then ordOf (fWidth fp) b - 1 else ordOf (fWidth fp) b
def ordCeil (fp : FFmt) (v : FVal) : Int :=
  let b := fEncode fp .rne .toInf v
  if fLess (fDecode fp b) v && !fEqNum v (fDecode fp b) then ordOf (fWidth fp) b + 1 else ordOf (fWidth fp) b

/-- The encodings, as orders, that lie within `k` units of every value from lo to hi: the first of them and how many. -/
def withinUlp (fp : FFmt) (k : Nat) (lo hi : FVal) : Int × Nat :=
  let top := ordOf (fWidth fp) (fInfBits fp)
  let a := max (ordCeil fp hi - k) (-top)
  let b := min (ordFloor fp lo + k) top
  (a, (b - a).toNat + 1)

/-- Bits of fixed point that a function needs in a format. -/
def fnBits (fp64 : Bool) (f : Nat) : Nat := if fp64 then 1500 else if 10 ≤ f then 900 else 400

/-- The result of a function at an input: one of those within its error limit, chosen by the number `pick`; a value that
rounds to infinity is infinite. -/
def fnNear (fp64 : Bool) (f : Nat) (v : FVal) (pick : Nat) : Nat :=
  let fp := if fp64 then fFP64 else fFP32
  let q := fnBits fp64 f
  let b : FVal × FVal := match fnFar f v with
    | some x => (x, x)
    | none =>
      let t := fnValue q f v
      let num (i : Int) : FVal := .fin (decide (i < 0)) i.natAbs (-(q : Int))
      (num (t - 2 ^ 40), num (t + 2 ^ 40))
  if fEncode fp .rne .toInf b.1 = fInfBits fp then fInfBits fp
  else
    let r := withinUlp fp (fnUlp f) b.1 b.2
    ofOrd (fWidth fp) (fIsNeg b.2) (r.1 + (pick % r.2 : Nat))

end Sys2Proof.Machine
end

