-- ==== Sys2Proof/Machine/Engines.lean ====
section
/-! DEFINITION. The writeback stage and the vector unit: what a WRITEBACK and a VECTOR action do (02 R45, R48, R56-R63;
03 R526, R529; 04 R113, R114, R525; 07 R219-R221). -/

namespace Sys2Proof.Machine
open Sys2Proof

/-! ### WRITEBACK -/

/-- The partition that the passes issued so far on a core leave (R92). -/
def issuedPart (a : Arr) : Nat := match a.waiting.getLast? with | some p => aPart p.act | none => a.part

/-- The lowest sub-array that a job's placement holds on a core. -/
def lowestSub (d : Dev) (n j : Nat) : Nat :=
  match placeEnt (job d j).place n with | some e => ((setBits 16 (entSubs e)).head?).getD 0 | none => 0

/-- The part of a bank that a WRITEBACK issued now reads: partition and sub-array of the last PASS that its context issued
to the bank (R529); the lowest sub-array of the job where no PASS of it wrote the bank (log 68). -/
def wbRegion (d : Dev) (n j : Nat) (x : Ctx) (bank : Nat) : Nat × Nat :=
  let part := issuedPart (core d n).arr
  if part = 0 then (0, 0)
  else match SMap.get? x.lastRegion bank with
    | some [p, s] => (p, s)
    | _ => (part, lowestSub d n j)

/-- The part of the reduction that this core computes starts at or beyond the K extent (R114). -/
def partBeyond (im : Image) (it : Item) : Bool :=
  match im.loops.find? (fun l => loopRole im l == 2) with
  | some l => decide (extOf (itemExt it) l.dim ≤ l.start * dimT im l.dim)
  | none => false

/-- Rows and columns that a WRITEBACK writes: the region's, inside the extents (R113); none for a partial sum of a part that
the extent removes (R114). -/
def wbRows (im : Image) (it : Item) (a : ActionD) (part : Nat) : Nat :=
  if aCombine a ≤ 1 && partBeyond im it then 0 else min (partRows part) (passM im it)
def wbCols (im : Image) (it : Item) (part : Nat) : Nat := min (partCols part) (passN im it)

/-- Global row and channel of element (m, n) of an output tile. -/
def outRow (im : Image) (it : Item) (m : Nat) : Nat :=
  (match dimOfRole im 0 with | some k => tileIdx im (itemIdx it) k * dimT im k | none => 0) + m
def outCol (im : Image) (it : Item) (n : Nat) : Nat :=
  (match dimOfRole im 1 with | some k => tileIdx im (itemIdx it) k * dimT im k | none => 0) + n

/-- The parts of a combining WRITEBACK whose K range starts below the extent (R114): equal shares of the planned K
(log 41). -/
def partsUsed (im : Image) (it : Item) (a : ActionD) : Nat :=
  match dimOfRole im 2 with
  | some k =>
    let share := max 1 (ceilDiv (dimP im k) (aCombine a))
    min (aCombine a) (ceilDiv (extOf (itemExt it) k) share)
  | none => aCombine a

/-- The accumulator word of an output element after the combine of R45: the bank gives the initial value (log 41). -/
def wbWord (d : Dev) (n : Nat) (im : Image) (it : Item) (a : ActionD) (int : Bool) (bankWord m c : Nat) : Nat :=
  if aCombine a ≤ 1 then bankWord
  else
    let base := (rowAddr im it (aw a 2) m 512).toNat
    let parts := (List.range (partsUsed im it a)).map (fun i => numT0 d n (base + 65536 * i + 4 * c) 4)
    if int then parts.foldl addI32 bankWord
    else combineParts parts (if bankWord = 0 then none else some bankWord)

/-- The value of an accumulator word. -/
def accVal (int : Bool) (w : Nat) : FVal := if int then fOfInt (sext 32 w) else val32 w

/-- The row-major index of element (m, c) of an output tile in the logical output tensor (R58): the dimensions of role BATCH,
HEAD, SPATIAL and OTHER in image order, then M, then N; a folded M counts the batch already (log 42). -/
def outIndex (im : Image) (it : Item) (m c : Nat) : Nat :=
  let size (k : Nat) : Nat := if im.batchMode = 1 then dimP im k else extOf (itemExt it) k
  let outer := im.dims.zipIdx.foldl (fun acc p =>
    if p.1.role < 3 || (p.1.role == 3 && im.batchMode == 2) then acc
    else acc * extOf (itemExt it) p.2 + tileIdx im (itemIdx it) p.2 * p.1.t) 0
  let am := match dimOfRole im 0 with | some k => size k | none => 1
  let an := match dimOfRole im 1 with | some k => size k | none => 1
  ((outer * am + outRow im it m) * an + outCol im it c) % 2 ^ 32

/-- Rounding mode of output element (m, n): stochastic rounding draws from SR_SEED and the element's index (R58). -/
def wbRnd (im : Image) (it : Item) (a : ActionD) (m c : Nat) : RndMode :=
  if aCvtSR a then .sr (srBits im.srSeed (outIndex im it m c)) else .rne

/-- The valid elements of the MX block that holds element (m, c), in order, and the place of the element in it. -/
def mxBlock (im : Image) (it : Item) (a : ActionD) (val : Nat → Nat → FVal) (rows cols m c : Nat) :
    List (FVal × RndMode) × Nat :=
  if aMxAxisM a then
    let b := m / 32 * 32
    ((List.range (min 32 (rows - b))).map (fun i => (val (b + i) c, wbRnd im it a (b + i) c)), m % 32)
  else
    let b := c / 32 * 32
    ((List.range (min 32 (cols - b))).map (fun i => (val m (b + i), wbRnd im it a m (b + i))), c % 32)

/-- The bits of one output element (R56, R57). -/
def wbElt (im : Image) (it : Item) (a : ActionD) (val : Nat → Nat → FVal) (word : Nat → Nat → Nat) (int : Bool)
    (rows cols m c : Nat) : Nat :=
  match (fmtOf (aCvtFmt a)).getD .fp32 with
  | .fp32 => if int then rne32 (val m c) else rne32 (val m c)
  | .int32 => word m c
  | .bf16 => cvtElem .bf16 (wbRnd im it a m c) (aCvtSat a) (val m c)
  | .fp16 => cvtElem .fp16 (wbRnd im it a m c) (aCvtSat a) (val m c)
  | .bf16split => (splitBF16 (rne32 (val m c))).1
  | f =>
    let (blk, i) := mxBlock im it a val rows cols m c
    ((mxQuant f blk).2[i]?).getD 0

/-- Packs elements of b bits, least significant first. -/
def packBits (b : Nat) (l : List Nat) : Nat := l.foldr (fun x acc => x % 2 ^ b + 2 ^ b * acc) 0

/-- Writes the first elements of a row: the bits of valid elements only (R113). -/
def writeRowBits (d : Dev) (n at_ b : Nat) (l : List Nat) (sl : Bool) : Dev :=
  let nb := ceilDiv (b * l.length) 8
  let old := ofLeBytes (readT0 d n at_ nb)
  let new := old / 2 ^ (b * l.length) * 2 ^ (b * l.length) + packBits b l
  writeT0 d n at_ (leBytes nb new) sl

/-- The ranges that row m of a WRITEBACK's output tile is written to (R113). -/
def wbRowRanges (im : Image) (it : Item) (a : ActionD) (cols m : Nat) : List (Int × Nat) :=
  let f := (fmtOf (aCvtFmt a)).getD .fp32
  let o := (rowAddr im it (aw a 1) m (rowBytes f), ceilDiv (cols * elemBits f) 8)
  o :: (if f = .bf16split then [(o.1 + 32768, o.2)] else [])
/-- The ranges that a WRITEBACK writes. -/
def wbRanges (im : Image) (it : Item) (a : ActionD) (part : Nat) : List (Int × Nat) :=
  let f := (fmtOf (aCvtFmt a)).getD .fp32
  let rows := wbRows im it a part
  let cols := wbCols im it part
  let outs := ((List.range rows).map (wbRowRanges im it a cols)).flatten
  let sc := if isMX f then
      (if aMxAxisM a then (List.range (ceilDiv rows 32)).map (fun j => (opAddr im it (aw a 3) + (128 * j : Nat), cols))
       else (List.range rows).map (fun m => (rowAddr im it (aw a 3) m 4, ceilDiv cols 32))) else []
  let arg := if aArgmax a then [(opAddr im it (aw a 4), rows * (if aArgmaxVal a then 8 else 4))] else []
  if rows = 0 || cols = 0 then [] else outs ++ sc ++ arg
/-- The partial sums that row m of a WRITEBACK reads. -/
def wbPartRow (im : Image) (it : Item) (a : ActionD) (cols m : Nat) : List (Int × Nat) :=
  if aCombine a ≤ 1 || cols = 0 then []
  else (List.range (partsUsed im it a)).map (fun i => (rowAddr im it (aw a 2) m 512 + (65536 * i : Nat), cols * 4))
/-- The partial sums that a WRITEBACK reads. -/
def wbParts (im : Image) (it : Item) (a : ActionD) (part : Nat) : List (Int × Nat) :=
  ((List.range (wbRows im it a part)).map (wbPartRow im it a (wbCols im it part))).flatten

/-- A write that covered granules whole gives them the source's SEAL and clears their POISON (08 R260, R261). -/
def coverMarks (d : Dev) (n : Nat) (rs : List (Int × Nat)) (sl : Bool) : Dev :=
  let part (g : Nat) (r : Int × Nat) : Nat :=
    let lo := g % scratchGrans * 4096
    min (r.1.toNat + r.2) (lo + 4096) - max r.1.toNat lo
  (rangesGrans n rs).foldl (fun d g => if sumBy rs (part g) = 4096 then setPoison (setSeal d g sl) g false else d) d

/-- Does a channel replace the running pair (R219)? -/
def argReplaces (best v : FVal) : Bool := best != .nan && (v == .nan || fLess best v)
/-- The running pair of a row after the channels of one tile: channel and value bits. -/
def argScan (start : Option (Nat × Nat)) (chans : List (Nat × Nat)) : Option (Nat × Nat) :=
  chans.foldl (fun p cv => match p with
    | none => some cv
    | some q => if argReplaces (val32 q.2) (val32 cv.2) then some cv else some q) start

/-- The tile is the last executed N tile of its M tile (R220). -/
def lastN (im : Image) (it : Item) : Bool :=
  match dimOfRole im 1 with
  | some k =>
    (match loopOfDim im k with
     | some _ => tileIdx im (itemIdx it) k + 1 == ceilDiv (extOf (itemExt it) k) (dimT im k)
     | none => true)
  | none => true

/-- The running pair of row m after a WRITEBACK's columns (R219, R220). -/
def argRow (im : Image) (it : Item) (s : SMap (Nat × Nat)) (cols m : Nat) (v32 : Nat → Nat) : SMap (Nat × Nat) :=
  let first := match dimOfRole im 1 with | some k => tileIdx im (itemIdx it) k == 0 | none => true
  match argScan (if first then none else SMap.get? s m) ((List.range cols).map (fun c => (outCol im it c, v32 c))) with
  | some q => SMap.insert s m q
  | none => s
/-- The records of an output tile's rows (R221). -/
def argRecords (a : ActionD) (s : SMap (Nat × Nat)) (rows : Nat) : List Nat :=
  ((List.range rows).map (fun m => match SMap.get? s m with
    | some q => leBytes 4 q.1 ++ (if aArgmaxVal a then leBytes 4 (rne32 (val32 q.2)) else [])
    | none => [])).flatten

/-- Rows of an output tile that the writeback stage takes in cycle i of its work: 128 elements (R66). -/
def wbRowsAt (part i : Nat) : List Nat := (List.range (128 / partCols part)).map (fun k => i * (128 / partCols part) + k)

/-- Writes row m of an output tile whose words are given by row, and its scales along the row (R56, R57). -/
def wbPutRow (d : Dev) (n : Nat) (im : Image) (it : Item) (a : ActionD) (int : Bool) (rows cols : Nat)
    (w : Nat → Nat → Nat) (m : Nat) : Dev :=
  let f := (fmtOf (aCvtFmt a)).getD .fp32
  let val (m k : Nat) : FVal := accVal int (w m k)
  let at_ := (rowAddr im it (aw a 1) m (rowBytes f)).toNat
  let d1 := writeRowBits d n at_ (elemBits f) ((List.range cols).map (wbElt im it a val w int rows cols m)) false
  if f = .bf16split then
    writeRowBits d1 n (at_ + 32768) 16 ((List.range cols).map (fun k => (splitBF16 (rne32 (val m k))).2)) false
  else if isMX f && !aMxAxisM a then
    writeT0 d1 n (rowAddr im it (aw a 3) m 4).toNat
      ((List.range (ceilDiv cols 32)).map (fun b => (mxQuant f (mxBlock im it a val rows cols m (32 * b)).1).1)) false
  else d1

/-- One cycle of a WRITEBACK on core n (R45, R56, R57, R66, R108, R113, R114, R219, R529): its rows are read and written. With
blocks along M the rows of a block are written with its last row. -/
def wbCycle (d : Dev) (n j : Nat) (r : RunAct) : Dev × Option RunAct :=
  match ctxOf d n j with
  | none => (d, none)
  | some x =>
    let im := x.image
    let it := r.item
    let a := actOf im it
    let rows := wbRows im it a r.region.1
    let cols := wbCols im it r.region.1
    let ms := (wbRowsAt r.region.1 r.pos).filter (fun m => decide (m < rows) && decide (0 < cols))
    let r1 : RunAct := { r with pos := r.pos + 1 }
    match engineReads d x.uid j n (itemAi it) false ((ms.map (wbPartRow im it a cols)).flatten) .none with
    | (d1, false) => (d1, none)
    | (d1, true) =>
      let c := core d1 n
      let (r0, c0) := subOrg r.region.1 r.region.2
      let int := (match r.blocks with | b :: _ => SMap.getD r.modes b 0 | [] => 0) == 2
      let held := r.held ++ ms.map (fun m => (List.range cols).map (fun k =>
        wbWord d1 n im it a int (SMap.getD c.acc (accKey (aBank a) (r0 + m) (c0 + k)) 0) m k))
      let w (m k : Nat) : Nat := ((held[m]?.getD [])[k]?).getD 0
      let f := (fmtOf (aCvtFmt a)).getD .fp32
      let put (d : Dev) (m : Nat) : Dev :=
        if isMX f && aMxAxisM a then
          (if m % 32 = 31 || m + 1 = rows then
            let b := m / 32 * 32
            writeT0 ((List.range (m + 1 - b)).foldl (fun d i => wbPutRow d n im it a int rows cols w (b + i)) d) n
              ((opAddr im it (aw a 3)).toNat + 128 * (m / 32))
              ((List.range cols).map (fun k => (mxQuant f (mxBlock im it a (fun m k => accVal int (w m k)) rows cols b k).1).1)) false
           else d)
        else wbPutRow d n im it a int rows cols w m
      let d2 := ms.foldl put d1
      let am := if aArgmax a then ms.foldl (fun s m => argRow im it s cols m (fun k => rne32 (accVal int (w m k)))) x.argmax
        else x.argmax
      let d3 := match ctxOf d2 n j with | some y => setCtx d2 n j { y with argmax := am } | none => d2
      let d4 := if r1.pos < r.len then d3
        else
          let d4 := if aArgmax a && lastN im it && rows ≠ 0 && cols ≠ 0 then
              writeT0 d3 n (opAddr im it (aw a 4)).toNat (argRecords a am rows) false else d3
          coverMarks d4 n (wbRanges im it a r.region.1) false
      (d4, some { r1 with held := held })

/-- Checks of a WRITEBACK when it issues (R526). -/
def wbIssueOk (d : Dev) (n : Nat) (a : ActionD) (ps : Nat × Nat) : Bool :=
  !(aCvtFmt a == 9 && regionMode (core d n) (regionBlocks (aBank a) ps.1 ps.2) != 2)

/-! ### VECTOR (R525) -/

/-- Bytes of an element. -/
def vBytes (a : ActionD) : Nat := if aFp64 a then 8 else 4

def isBankSrc (w : Nat) : Bool := w.testBit 31

/-- Blocks of a bank that a direct read touches. -/
def bankReadBlocks (w len : Nat) : List Nat :=
  let i0 := bitsOf w 13 0
  let bank := bitsOf w 30 30
  ((List.range len).map (fun i => let k := i0 + i
    bank * 16 + k / 128 / 32 * 4 + k % 128 / 32)).dedup

/-- Element i of a bank source, or of a scratchpad operand, lies in row i / 128 and column i mod 128 of the output tile, as
a bank is addressed (R525); beyond the extents it is not read (R113; log 69). -/
def vecValid (im : Image) (it : Item) (w i : Nat) : Bool :=
  let k := if isBankSrc w then bitsOf w 13 0 + i else i
  decide (k / 128 < passM im it) && decide (k % 128 < passN im it)

/-- The ranges of elements lo to hi − 1 of a scratchpad operand, of sz bytes each, that lie inside the extents. -/
def vecRuns (im : Image) (it : Item) (w sz lo hi : Nat) : List (Int × Nat) :=
  if isBankSrc w then []
  else ((List.range (hi - lo)).filter (fun i => vecValid im it w (lo + i))).map (fun i => (opAddr im it w + ((lo + i) * sz : Nat), sz))

/-- The ranges of the scratchpad that elements lo to hi − 1 of a VECTOR action are read from; the destination of a fused
multiply-add is read as its addend. -/
def vecReadsAt (im : Image) (it : Item) (a : ActionD) (lo hi : Nat) : List (Int × Nat) :=
  vecRuns im it (aw a 1) (vBytes a) lo hi
  ++ (if vopReads2 (aVop a) then vecRuns im it (aw a 2) (if aVop a = 14 then 4 else vBytes a) lo hi else [])
  ++ (if aVop a = 4 then vecRuns im it (aw a 3 % 2 ^ 31) (vBytes a) lo hi else [])
/-- Ranges of the scratchpad that a VECTOR action reads and writes. -/
def vecReads (im : Image) (it : Item) (a : ActionD) : List (Int × Nat) := vecReadsAt im it a 0 (aLen a)
def isHoriz (v : Nat) : Bool := v == 11 || v == 12 || v == 13
def vecWrites (im : Image) (it : Item) (a : ActionD) : List (Int × Nat) :=
  [(opAddr im it (aw a 3), if isHoriz (aVop a) then (if aLen a = 0 then 0 else vBytes a) else aLen a * vBytes a)]

/-- Checks of the bank sources when the action issues (R525): the index range, Convert alone on INT32, and no region of
another job (R97). -/
def vecIssueOk (d : Dev) (n : Nat) (own : List Nat) (a : ActionD) : Bool :=
  let ok (w : Nat) : Bool :=
    !isBankSrc w || (decide (bitsOf w 13 0 + aLen a ≤ 16384)
      && (bankReadBlocks w (aLen a)).all (fun b => own.contains b && (SMap.getD (core d n).accMode b 0 != 2 || aVop a == 9)))
  ok (aw a 1) && (!vopReads2 (aVop a) || ok (aw a 2))

/-- The format that a Convert reads: 0 the precision's own, 1 FP32, 2 BF16, 3 FP16, 4 INT32; and the one it writes, where 4 is
INT32 to nearest and 5 INT32 toward zero (R60; the action's words name it by an opaque choice, log 13). -/
def cvtSrc (a : ActionD) : Nat := if aVop a = 9 then (Config.convertKind (BitVec.ofNat 32 (aw a 0)) % 30) / 6 else 0
def cvtDst (a : ActionD) : Nat := Config.convertKind (BitVec.ofNat 32 (aw a 0)) % 6

/-- The value of a scratchpad element. A format narrower than the element lies at its low end (log 13). -/
def vecElt (a : ActionD) (x : Nat) : FVal :=
  match cvtSrc a with
  | 1 => val32 (x % 2 ^ 32)
  | 2 => fDecode fBF16 (x % 2 ^ 16)
  | 3 => fDecode fFP16 (x % 2 ^ 16)
  | 4 => fOfInt (sext 32 (x % 2 ^ 32))
  | _ => if aFp64 a then val64 x else val32 x

/-- What a position beyond the extents is supplied as (R113). -/
def vecFill (v : Nat) : FVal := if v = 12 then .inf false else if v = 13 then .inf true else .fin false 0 0

/-- Element i of a source: its value; `modes` are those of its blocks when the action issued (R525, R526). -/
def vecSrc (d : Dev) (n : Nat) (im : Image) (it : Item) (a : ActionD) (modes : SMap Nat) (w i : Nat) : FVal :=
  if !vecValid im it w i then vecFill (aVop a)
  else if isBankSrc w then
    let k := bitsOf w 13 0 + i
    let bank := bitsOf w 30 30
    accVal (SMap.getD modes (bank * 16 + k / 128 / 32 * 4 + k % 128 / 32) 0 == 2)
      (SMap.getD (core d n).acc (bank * 16384 + k) 0)
  else vecElt a (numT0 d n ((opAddr im it w).toNat + i * vBytes a) (vBytes a))
/-- The 32-bit exponent n of element i of source 2 (R525). -/
def vecExp2 (d : Dev) (n : Nat) (im : Image) (it : Item) (w i : Nat) : Int :=
  if !vecValid im it w i then 0
  else if isBankSrc w then sext 32 (SMap.getD (core d n).acc (bitsOf w 30 30 * 16384 + bitsOf w 13 0 + i) 0)
  else sext 32 (numT0 d n ((opAddr im it w).toNat + i * 4) 4)

def vRne (fp64 : Bool) (v : FVal) : Nat := if fp64 then rne64 v else rne32 v

/-- The results of R63 that IEEE 754-2019 clause 9 fixes: none where the value is the unit's own. -/
def fnSpecial (f : Nat) (v : FVal) : Option FVal :=
  let one : FVal := .fin false 1 0
  let zero (n : Bool) : FVal := .fin n 0 0
  if v = .nan then some .nan
  else match f with
    | 0 => some (fDiv one v)
    | 1 => (match v with
      | .inf false => some (zero false)
      | .inf true => some .nan
      | .fin n m _ => if m = 0 then some (.inf n) else if n then some .nan else none
      | .nan => some .nan)
    | 2 | 3 => (match v with
      | .inf n => some (if n then zero false else .inf false)
      | _ => if fIsZero v then some one else none)
    | 4 | 5 => (match v with
      | .inf false => some (.inf false)
      | .inf true => some .nan
      | .fin n m _ => if m = 0 then some (.inf true) else if n then some .nan
        else if fEqNum v one then some (zero false) else none
      | .nan => some .nan)
    | 6 => (match v with
      | .inf _ => some .nan
      | _ => if fIsZero v then some v else none)
    | 7 => (match v with
      | .inf _ => some .nan
      | _ => if fIsZero v then some one else none)
    | 8 => (match v with
      | .inf n => some (.fin n 1 0)
      | _ => if fIsZero v then some v else none)
    | 9 => (match v with
      | .inf n => some (if n then zero false else one)
      | _ => none)
    | 11 => (match v with
      | .inf n => some (if n then zero true else .inf false)
      | _ => none)
    | _ => none

/-- A function of the vector unit (R63): reciprocal is correctly rounded, the special results are IEEE's, every other
result lies within the function's error limit; which of those it is, is the unit's own (log 12). -/
def vecFn (fp64 : Bool) (f : Nat) (v : FVal) : Nat :=
  match fnSpecial f v with
  | some r => vRne fp64 r
  | none =>
    fnNear fp64 f v (if fp64 then (Config.fn64 f (BitVec.ofNat 64 (rne64 v))).toNat else (Config.fn32 f (BitVec.ofNat 32 (rne32 v))).toNat)

/-- Convert (R60): a widening is exact, a narrowing rounds to nearest even; the result lies at the low end of its element. -/
def vecConvert (a : ActionD) (v : FVal) : Nat :=
  match cvtDst a with
  | 1 => rne32 v
  | 2 => fEncode fBF16 .rne .toInf v
  | 3 => fEncode fFP16 .rne .toInf v
  | 4 => toInt32 false v
  | 5 => toInt32 true v
  | _ => vRne (aFp64 a) v

/-- One element of the result (R59-R61, R525): s1, s2 and the destination's present value. -/
def vecOp (a : ActionD) (s1 s2 dst : FVal) (n2 : Int) : Nat :=
  let r := vRne (aFp64 a)
  match aVop a with
  | 1 => r (fAdd s1 s2)
  | 2 => r (fSub s1 s2)
  | 3 => r (fMul s1 s2)
  | 4 => r (fFma s1 s2 dst)
  | 5 => r (fDiv s1 s2)
  | 6 => r (fSqrt s1)
  | 7 => r (fMin s1 s2)
  | 8 => r (fMax s1 s2)
  | 9 => vecConvert a s1
  | 10 => vecFn (aFp64 a) (aFunc a) s1
  | 14 => r (fScale s1 n2)
  | _ => 0

/-- A horizontal reduction over the elements, one pairwise tree (R62). -/
def vecHoriz (fp64 : Bool) (v : Nat) (l : List FVal) : Nat :=
  let round (x : FVal) : FVal := if fp64 then val64 (rne64 x) else val32 (rne32 x)
  let f := if v = 11 then fun x y => round (fAdd x y) else if v = 12 then fMin else fMax
  vRne fp64 (treeOf f l (.fin false 0 0))

/-- Elements that the vector unit takes in one cycle (R66). -/
def vecLanes (a : ActionD) : Nat := if aFp64 a then 64 else 256

/-- The last cycle of a VECTOR action: the mark of its whole granules, and the vector register it passes through (R260,
R261, R424; log 43). -/
def vecEnd (d : Dev) (n : Nat) (r : RunAct) (ws : List (Int × Nat)) : Dev :=
  let d1 := if r.sealedIn then (rangesGrans n ws).foldl (fun d g => setSeal d g true) d else d
  let d2 := coverMarks d1 n ws r.sealedIn
  let c := core d2 n
  let c' : CoreSt := { c with vregs := SMap.insert c.vregs r.vreg (Config.freeVreg d2.freeCtr)
                              vsealed := if r.sealedIn then NSet.add c.vsealed r.vreg else NSet.del c.vsealed r.vreg }
  { setCore d2 n c' with freeCtr := d2.freeCtr + 1 }

/-- One cycle of a VECTOR action on core n (R66, R108, R262, R525): its lanes' elements are read and their results written; a
horizontal operation keeps what it has read and writes its one result with the last. -/
def vecCycle (d : Dev) (n j : Nat) (r : RunAct) : Dev × Option RunAct :=
  match ctxOf d n j with
  | none => (d, none)
  | some x =>
    let im := x.image
    let it := r.item
    let a := actOf im it
    let lo := r.pos * vecLanes a
    let hi := min (aLen a) (lo + vecLanes a)
    let rs := vecReadsAt im it a lo hi
    match engineReads d x.uid j n (itemAi it) true rs .none with
    | (d1, false) => (d1, none)
    | (d1, true) =>
      let r1 : RunAct := { r with pos := r.pos + 1, sealedIn := r.sealedIn || (rangesGrans n rs).any (sealed d1) }
      let s (w i : Nat) : FVal := vecSrc d1 n im it a r.modes w (lo + i)
      let dst := (opAddr im it (aw a 3)).toNat
      let (d2, held) :=
        if isHoriz (aVop a) then
          let h := (r.held.flatten) ++ (List.range (hi - lo)).map (fun i => vRne (aFp64 a) (s (aw a 1) i))
          (if r1.pos < r.len || aLen a = 0 then d1
           else writeT0 d1 n dst (leBytes (vBytes a) (vecHoriz (aFp64 a) (aVop a)
             (h.map (fun v => if aFp64 a then val64 v else val32 v)))) r1.sealedIn, [h])
        else
          let res := (List.range (hi - lo)).map (fun i =>
            vecOp a (s (aw a 1) i) (if vopReads2 (aVop a) && aVop a ≠ 14 then s (aw a 2) i else .nan)
              (if aVop a = 4 then s (aw a 3 % 2 ^ 31) i else .nan)
              (if aVop a = 14 then vecExp2 d1 n im it (aw a 2) (lo + i) else 0))
          (writeT0 d1 n (dst + lo * vBytes a) ((res.map (leBytes (vBytes a))).flatten) r1.sealedIn, [])
      (if r1.pos < r.len then d2 else vecEnd d2 n r1 (vecWrites im it a), some { r1 with held := held })

end Sys2Proof.Machine
end

