-- ==== Sys2Proof/Machine/Seq.lean ====
section
/-! DEFINITION. The sequencer: issue of actions, the engines' starts and completions, semaphores, slips, and the debug
halt (01 R17-R21; 03 R66, R71; 04 R107-R130; 08 R236-R238, R256). -/

namespace Sys2Proof.Machine
open Sys2Proof

/-! ### Issue (R107, R108, R112) -/

/-- The power of the core's die lets the sequencer run (15 R469, R479). -/
def coreUp (d : Dev) (n : Nat) : Bool :=
  !dieRetained d (coreDie n) && !dieResetting d (coreDie n) && !NSet.mem d.pwr.waking (coreDie n)

/-- The sub-arrays of a shared core that the resident placements assign, in order, with their jobs (03 R98). -/
def shareList (d : Dev) (n : Nat) : List (Nat × Nat) :=
  ((List.range 16).map (fun i =>
    ((residentEnts d n).filter (fun p => (entSubs p.2).testBit i)).map (fun p => (i, p.1)))).flatten
/-- The cycle lies in a share of the job: on a shared core each pass slot is split into equal shares, one for each assigned
sub-array, in increasing order (R98; shares of a slot that they do not divide evenly begin at the rounded-down cycle, log 70). -/
def inShare (d : Dev) (n j cyc : Nat) : Bool :=
  let a := (core d n).arr
  if !coreShared d n || a.part = 0 then true
  else
    let subs := shareList d n
    let k := (cyc - a.slotStart) % partSlot a.part * subs.length / partSlot a.part
    match subs[k]? with
    | some s => s.2 == j
    | none => false

/-- The action that a context may issue now, in a share of its job (R98, R126); a quill action holds every later one (07
R222). -/
def canIssue (d : Dev) (n j : Nat) : Option (Ctx × Item) :=
  match ctxOf d n j with
  | none => none
  | some x =>
    match x.todo with
    | it :: _ =>
      if x.waitFrom.isNone && x.running.all (fun r => r.kind != .quill) && decide (x.readyAt ≤ d.now)
          && (!(rc d n 0x100).testBit 0 || x.stepOk) && coreUp d n && inShare d n j d.now
      then some (x, it) else none
    | [] => none

/-- Issue gating (15 R472-R475): a core may issue PASS, VECTOR and MICRO actions only in the first G cycles of each
window of 64 ARITH cycles; in orbit mode G is 64 unless PWR_HARD_LIMIT holds, and a die above its warning limit has
G ≤ 32 (log 55). -/
def gated (d : Dev) (n : Nat) : Bool :=
  let g := if orbitMode d && !d.pwr.hard then 64 else d.pwr.g
  let g := if NSet.mem d.pwr.warm (coreDie n) then min g 32 else g
  decide (g ≤ d.now % 64)

/-- An action held by gating counts one slip, and its cycles when it issues (R472). -/
def holdGate (d : Dev) (n j : Nat) (x : Ctx) : Dev :=
  if x.gateFrom.isSome then d else slipCore (setCtx d n j { x with gateFrom := some d.now }) n

/-- Iterations beyond the extents at the head of the walk are counted and idle their PAD_TIME (R112). -/
def skipItems (d : Dev) (n j : Nat) : Dev :=
  match ctxOf d n j with
  | none => d
  | some x =>
    let isSkip : Item → Bool := fun i => match i with
      | .skip _ => true
      | _ => false
    let sk := x.todo.takeWhile isSkip
    if sk.isEmpty then d
    else
      let pad := sumBy sk (fun i => match i with
        | .skip p => p
        | _ => 0)
      setCtx (bump d (n / 6) (n % 6) 0x148 sk.length) n j
        { x with todo := x.todo.dropWhile isSkip, readyAt := x.readyAt + pad }

/-- A core whose program has ended, its last pads idled, with nothing left on its engines is done for its command (R112). -/
def finishCore (d : Dev) (n j : Nat) : Dev :=
  match ctxOf d n j with
  | some x =>
    if x.todo.isEmpty && x.running.isEmpty && decide (x.readyAt ≤ d.now + 1) then
      match cmd d x.uid with
      | some c =>
        if c.coresLeft.contains n then
          requestCommit (setCmd d x.uid { c with coresLeft := c.coresLeft.filter (· != n) }) x.uid
        else d
      | none => d
    else d
  | none => d

/-- The action at the head has issued: the cycles that a slip held it are counted, and the next one may issue in the following
ARITH cycle (R108, R127). -/
def issued (d0 : Dev) (n j : Nat) : Dev :=
  match ctxOf d0 n j with
  | some x =>
    let d := slipEnd d0 n x
    match x.todo with
    | it :: rest =>
      let x' : Ctx := { x with todo := rest, readyAt := d.now + 1, curAct := itemAi it, curIdx := itemIdx it,
                               waitFrom := none, heldFrom := none, fenceBE := false, stepOk := false, gateFrom := none,
                               swapFrom := none }
      finishCore (skipItems (setCtx d n j x') n j) n j
    | [] => d0
  | none => d0

/-- The number of the next action that runs on an engine: its place in the image, the core and a count. -/
def actId (x : Ctx) (n : Nat) (it : Item) : Nat := x.nextId * 2 ^ 24 + n * 2 ^ 13 + itemAi it % 2 ^ 13

/-- An action that has just issued, on an engine of its own kind. -/
def newRun (d : Dev) (n : Nat) (x : Ctx) (it : Item) (k : EngKind) (blocks : List Nat) (ev : Upset) : RunAct :=
  { id := actId x n it, kind := k, blocks := blocks, item := it, doneSem := none, bestEffort := false, started := false,
    since := d.now, doneAt := 0, endAt := 0, region := (0, 0),
    modes := blocks.foldl (fun m b => SMap.put m b (SMap.getD (core d n).accMode b 0) 0) [],
    pos := 0, len := 0, held := [], sealedIn := false, flying := false, vreg := 0, ev := ev }

/-- Puts an action on an engine. -/
def addRun (d : Dev) (n j : Nat) (r : RunAct) : Dev :=
  match ctxOf d n j with
  | some x => setCtx d n j { x with running := x.running ++ [r], nextId := x.nextId + 1 }
  | none => d
def setRun (d : Dev) (n j id : Nat) (f : RunAct → RunAct) : Dev :=
  match ctxOf d n j with
  | some x => setCtx d n j { x with running := x.running.map (fun r => if r.id == id then f r else r) }
  | none => d

/-- Fails the command of a context with BAD_DESCRIPTOR at an action. -/
def badAct (d : Dev) (x : Ctx) (it : Item) : Dev := failBad d x.uid (some (itemAi it))

/-- Blocks of both banks that a job's sub-arrays hold on a core; every block when the core is not shared. -/
def ownBlocks (d : Dev) (n j : Nat) : List Nat :=
  match placeEnt (job d j).place n with
  | some e =>
    if coreShared d n then
      ((setBits 16 (entSubs e)).map (fun i => regionBlocks 0 e.part i ++ regionBlocks 1 e.part i)).flatten
    else List.range 32
  | none => []

/-! ### Operands that a prefetch has not delivered (R127; 08 R256) -/

/-- Addresses of a COPY action (R105, R117). -/
def actAddr (im : Image) (it : Item) (lo hi slot : Nat) : DevAddr :=
  addrAdd (decodeAddr (lo + 2 ^ 32 * hi)) (strideSum im (itemEncl im it) slot
    + (if foldedSlot im slot then foldOff im it slot 0 else 0 : Nat))
def copySlot (a : ActionD) : Nat := bitsOf (aw a 5) 5 4
def copySrcA (im : Image) (it : Item) (a : ActionD) : DevAddr := actAddr im it (aw a 1) (aw a 2) (copySlot a)
def copyDstA (im : Image) (it : Item) (a : ActionD) : DevAddr := actAddr im it (aw a 3) (aw a 4) (bitsOf (aw a 5) 1 0)
def copyFmt (a : ActionD) : Nat := bitsOf (aw a 6) 31 28
def copyGrans (a : ActionD) : Nat := bitsOf (aw a 6) 15 0 * (tileGrans (copyFmt a)).getD 0

/-- How much of a dimension's extent lies at or after the current tile of the loops that enclose an action. -/
def restOf (im : Image) (it : Item) (role : Nat) : Nat :=
  match dimOfRole im role with
  | some k => extOf (itemExt it) k - tileIdx im (itemEncl im it) k * dimT im k
  | none => 2 ^ 30

/-- Element widths of the stored tile formats in bits (08 R233). -/
def tileBits (f : Nat) : Nat :=
  match f with
  | 1 => 4 | 2 => 6 | 3 => 8 | 4 => 8 | 5 => 16 | 6 => 32 | _ => 64

/-- Position (r, c) of tile t of a COPY's source lies inside the extents: M by K tiles in slot 0, K by N in slot 1, M by N
in slot 2, each next tile at the next 128 of K, or of N (R113; log 70). -/
def copyValid (im : Image) (it : Item) (a : ActionD) (t r c : Nat) : Bool :=
  match copySlot a with
  | 0 => decide (r < restOf im it 0) && decide (128 * t + c < restOf im it 2)
  | 1 => decide (128 * t + r < restOf im it 2) && decide (c < restOf im it 1)
  | 2 => decide (r < restOf im it 0) && decide (128 * t + c < restOf im it 1)
  | _ => true

/-- Byte q of tile t with the bits of positions beyond the extents at 0; a scale byte whose block lies beyond them is 0. -/
def copyByte (im : Image) (it : Item) (a : ActionD) (t q b : Nat) : Nat :=
  let f := copyFmt a
  let w := tileBits f
  let data := tileData f
  if q < data then
    ((List.range 8).map (fun i => let e := (q % (16 * w) * 8 + i) / w
      if b.testBit i && copyValid im it a t (q / (16 * w)) e then 2 ^ i else 0)).foldl (· + ·) 0
  else if 1 ≤ f && f ≤ 3 && q < data + 512 then
    let k := q - data
    (if copySlot a = 1 then (if copyValid im it a t (k / 128 * 32) (k % 128) then b else 0)
     else if copyValid im it a t (k / 4) (k % 4 * 32) then b else 0)
  else b
/-- The extents limit a COPY. -/
def copyCuts (a : ActionD) : Bool := copyFmt a != 0 && copySlot a != 3
/-- Bytes from byte `off` of granule g of a COPY as its destination gets them (R113). -/
def copyFill (im : Image) (it : Item) (a : ActionD) (g off : Nat) (bs : List Nat) : List Nat :=
  if !copyCuts a then bs
  else
    let tg := max 1 ((tileGrans (copyFmt a)).getD 1)
    bs.zipIdx.map (fun p => copyByte im it a (g / tg) (g % tg * 4096 + off + p.2) p.1)
/-- Granule g of a COPY holds a valid element or scale, so that it is read (R113). -/
def copyReads (im : Image) (it : Item) (a : ActionD) (g : Nat) : Bool :=
  !copyCuts a || (copyFill im it a g 0 (List.replicate 4096 255)).any (· != 0)
/-- The granules of a COPY that are read, as their numbers, and how many granules they reach over. -/
def copyNeeds (im : Image) (it : Item) (a : ActionD) : List Nat := (List.range (copyGrans a)).filter (copyReads im it a)
def copyReach (im : Image) (it : Item) (a : ActionD) : Nat := (copyNeeds im it a).foldl (fun m g => max m (g + 1)) 0

/-- The granules of some ranges that lie in the scratchpad. -/
def insideGrans (n : Nat) (rs : List (Int × Nat)) : List Nat :=
  rangesGrans n (rs.filter (fun r => decide (0 ≤ r.1) && decide (r.1.toNat + r.2 ≤ scratchBytes)))
/-- The ranges that a PASS reads: activations, and the weights it loads. -/
def passReads (im : Image) (it : Item) (a : ActionD) : List (Int × Nat) :=
  aRanges im it a
    ++ (if aLoadMode a = 2 then [] else ((List.range (partRows (aPart a))).map (wRowRanges im it a)).flatten)

/-- The granules that the operands of an action read, and those it writes. -/
def readGrans (d : Dev) (n j : Nat) (x : Ctx) (it : Item) : List Nat :=
  let im := x.image
  let a := actOf im it
  match aType a with
  | 1 => insideGrans n (passReads im it a)
  | 2 => insideGrans n (wbParts im it a (wbRegion d n j x (aBank a)).1)
  | 3 => insideGrans n (vecReads im it a)
  | 4 => let ks := rangeKeys (copySrcA im it a) (copyGrans a)
         (copyNeeds im it a).filterMap (fun g => ks[g]?)
  | _ => []
def writeGrans (d : Dev) (n j : Nat) (x : Ctx) (it : Item) : List Nat :=
  let im := x.image
  let a := actOf im it
  match aType a with
  | 2 => insideGrans n (wbRanges im it a (wbRegion d n j x (aBank a)).1)
  | 3 => insideGrans n (vecWrites im it a)
  | 4 => if aCopyRemote a then [] else rangeKeys (copyDstA im it a) (copyGrans a)
  | _ => []

/-- Issue of the action at the head, when it is of ATYPE `typ`: an operand or destination that is PENDING holds it
(R127; 08 R256), else `f` issues it. A held read counts one slip and one late prefetch. -/
def issueAct (d : Dev) (n j typ : Nat) (f : Dev → Ctx → Item → Dev) : Dev :=
  match canIssue d n j with
  | none => d
  | some (x, it) =>
    if aType (actOf x.image it) ≠ typ || x.heldFrom.isSome then d
    else if (readGrans d n j x it).any (isPending d) then
      bump (slipCore (setCtx d n j { x with heldFrom := some d.now }) n) 60 (jPage j) 0x190 1
    else if (writeGrans d n j x it).any (isPending d) then d
    else if (typ = 1 || typ = 3) && gated d n then holdGate d n j x
    else f d x it

/-- PENDING_READ_RESUME (08 R256): the granules have been written; the cycles held are counted. A MICRO action resumes
with its own row. -/
def opResume (d : Dev) (n j : Nat) : Dev :=
  match ctxOf d n j with
  | some x =>
    match x.heldFrom, x.todo with
    | some _, it :: _ =>
      if aType (actOf x.image it) = 7 || (readGrans d n j x it).any (isPending d) then d
      else slipEnd (setCtx d n j { x with heldFrom := none }) n x
    | _, _ => d
  | none => d
def execPendingReadResume (core : CoreId) (job : JobId) (s : State) : Host.Outcome State Fault Refusal :=
  okDev s (opResume s.dev core.val job.val)

/-! ### Passes on the array (R71, R81-R95) -/

/-- The bank region of a pass is ready: every WRITEBACK of it issued before has read it out (R71, R110). -/
def regionReady (x : Ctx) (id : Nat) (blocks : List Nat) : Bool :=
  x.running.all (fun r => !(r.kind == .writeback && decide (r.id < id) && r.blocks.any (blocks.contains ·)))
/-- The cycle from which the region has been ready. -/
def readySince (c : CoreSt) (blocks : List Nat) : Nat := blocks.foldl (fun m b => max m (SMap.getD c.readOut b 0)) 0

/-- Cycles from a pass's first activation word to its last sum (R80, R93). -/
def passLen (a : ActionD) : Nat :=
  let h := partRows (aPart a)
  let w := partCols (aPart a)
  if aNorth a then aMt a - 1 + (w - 1) + h + 3 else aMt a - 1 + (h - 1) + w + 3

def arrOf (d : Dev) (n : Nat) : Arr := (core d n).arr
def setArr (d : Dev) (n : Nat) (a : Arr) : Dev := setCore d n { core d n with arr := a }

/-- The pass may go on as its row's upset lets it (R69, R76). Answers false where its command has been ended. -/
def passUpset (d : Dev) (n : Nat) (p : PassRun) (ev : Upset) : Dev × Bool :=
  match ctxOf d n p.job with
  | none => (d, false)
  | some x =>
    match engineUpset d p.uid p.job n (rangesGrans n (aRanges x.image p.item p.act)) ev with
    | (d1, false) => (d1, false)
    | (d1, true) => arrayUpset d1 p.uid p.job n ev

/-- A pass starts: its first activation word enters in cycle c0, and its cycles are worked from the read of the first initial
sums on (R80). -/
def startPass (d0 : Dev) (n : Nat) (p : PassRun) (c0 : Nat) (ev : Upset) : Dev :=
  match passUpset d0 n p ev with
  | (d, false) => d
  | (d, true) =>
    let a := arrOf d n
    let last := c0 + passLen p.act
    let fl : PassFly := { run := p, c0 := max 1 c0, next := max 1 c0 - 1, wts := a.active, words := [], scales := [], inits := [] }
    let d1 := setArr d n { a with waiting := a.waiting.filter (fun q => q.actId != p.actId)
                                  current := (a.current.filter (fun q => decide (aSub q.act ≠ aSub p.act && a.part ≠ 0))) ++ [p]
                                  lastWord := c0 + aMt p.act - 1
                                  drainedAt := max a.drainedAt last
                                  lastNorth := aNorth p.act
                                  fresh := false
                                  flight := a.flight ++ [fl] }
    let c := core d1 n
    let wr := (regionBlocks (aBank p.act) (aPart p.act) (aSub p.act)).foldl (fun s b => SMap.insert s b last) c.wrote
    setRun (setCore d1 n { c with wrote := wr }) n p.job p.actId (fun r => { r with started := true, endAt := last + 1 })

/-- What is left of a range of cycles outside another. -/
def spanCut (s q : Nat × Nat) : List (Nat × Nat) :=
  [(s.1, min s.2 q.1), (max s.1 q.2, s.2)].filter (fun x => decide (x.1 < x.2))

/-- The first cycle in which a wait for a bank that is still to be counted can have begun. -/
def bankOldest (d : Dev) (n : Nat) : Nat :=
  let c := core d n
  let m := c.arr.waiting.foldl (fun m p => min m p.issuedAt) d.now
  c.ctxs.foldl (fun m e => e.2.running.foldl (fun m r => if r.started then m else min m r.since) m) m

/-- A wait for a bank in the cycles from `since` up to, but not including, `until'`: each cycle counts once, whoever waits
in it (R71; log 39). -/
def bankWait (d : Dev) (n since until' : Nat) : Dev :=
  let c := core d n
  let new := c.bankSpans.foldl (fun ss q => (ss.map (fun s => spanCut s q)).flatten)
    (if since < until' then [(since, until')] else [])
  let k := new.foldl (fun m s => m + (s.2 - s.1)) 0
  if k = 0 then d
  else
    let old := bankOldest d n
    bump (setCore d n { c with bankSpans := (c.bankSpans ++ new).filter (fun s => decide (old < s.2)) }) (n / 6) (n % 6) 0x144 k

/-- The waits of a pass from the earliest cycle on, up to the start: for its bank, and then for its weights, which a
partitioned array does not count (R71, R88, R90, R528). -/
def countStalls (d : Dev) (n reg earliest start ready : Nat) (part : Nat) : Dev :=
  let b := min start (max earliest ready)
  let d1 := bankWait d n earliest b
  if part ≠ 0 || start ≤ b then d1 else bump d1 (n / 6) (n % 6) reg (start - max b earliest)

def passReady (d : Dev) (n : Nat) (p : PassRun) : Bool :=
  match ctxOf d n p.job with
  | some x => regionReady x p.actId (regionBlocks (aBank p.act) (aPart p.act) (aSub p.act))
  | none => true
def passSince (d : Dev) (n : Nat) (p : PassRun) : Nat :=
  readySince (core d n) (regionBlocks (aBank p.act) (aPart p.act) (aSub p.act))

/-- How a waiting pass of an unpartitioned array, or one that changes the partition, gets its weights: 0 token, 1 wash,
2 keep (R81-R83, R91). -/
def loadKind (a : Arr) (p : PassRun) : Nat :=
  if aLoadMode p.act = 2 then 2
  else if a.fresh || aPart p.act ≠ a.part || aNorth p.act ≠ a.lastNorth || aLoadMode p.act = 1 || aPart p.act ≠ 0 then 1 else 0

/-- A pass that keeps the weights starts when the array lets it (R81, R91, R95). -/
def tryKeep (d : Dev) (n : Nat) : Dev :=
  let a := arrOf d n
  match a.waiting with
  | p :: _ =>
    if (a.part = 0 || aPart p.act ≠ a.part) && loadKind a p = 2 && passReady d n p && !a.loading then
      let drain := aPart p.act ≠ a.part || aNorth p.act ≠ a.lastNorth
      let earliest := max (if drain then a.drainedAt + 1 else a.lastWord + 1) (p.issuedAt + 1)
      let c0 := max earliest (passSince d n p)
      let d1 := bankWait d n earliest c0
      let d2 := if aPart p.act ≠ a.part then
          setArr d1 n { a with part := aPart p.act, slotNo := 0, slotStart := c0, fillFrom := c0 } else d1
      startPass d2 n p c0 p.ev
    else d
  | [] => d

/-- The token of a waiting pass enters in cycle c (R87, R88): rows whose shadow is full swap, the rows that the fill has
still to write take their words straight from it (R86). -/
def enterToken (d : Dev) (n : Nat) (p : PassRun) (c : Nat) (ev : Upset) : Dev :=
  let a := arrOf d n
  let a1 := (List.range 128).foldl (fun a r => if rowFull a 0 0 r then swapRow a 0 0 r else a) a
  let d1 := setArr d n (if a.fillPtr < 128 then { a1 with loading := true } else { a1 with fillPtr := 0, fillFrom := c + 128 })
  startPass d1 n p (c + 1) ev

/-- The token rides the last activation word of the pass before (R87). -/
def tryRide (d : Dev) (n : Nat) : Dev :=
  let a := arrOf d n
  match a.waiting with
  | p :: _ =>
    if a.part = 0 && loadKind a p = 0 && !a.loading && decide (d.now ≤ a.lastWord) && rowFull a 0 0 0
        && passReady d n p && decide (a.fillFrom ≤ a.lastWord) then enterToken d n p a.lastWord p.ev
    else d
  | [] => d

/-! ### Starts of the other engines -/

/-- Blocks that a WRITEBACK or a VECTOR action reads are all written: no pass issued before it is still to write them
(R71; log 39). -/
def blocksWritten (x : Ctx) (id : Nat) (blocks : List Nat) : Bool :=
  x.running.all (fun r => !(r.kind == .pass && decide (r.id < id) && r.blocks.any (blocks.contains ·)))

/-- The engine of a kind is free for an action: every earlier one of its context has completed. -/
def engineFree (x : Ctx) (id : Nat) (k : EngKind) : Bool :=
  x.running.all (fun r => !(r.kind == k && decide (r.id < id)))

/-- The oldest action of a context that waits for its engine and may start. -/
def startable (x : Ctx) : Option RunAct :=
  x.running.find? (fun r => !r.started && (r.kind == .writeback || r.kind == .vector) && engineFree x r.id r.kind
    && blocksWritten x r.id r.blocks)

/-- Length of an engine's work in ARITH cycles: 128 elements in a cycle in the writeback stage, 256 FP32 or 64 FP64 lanes in the
vector unit (R66). -/
def wbCycles (part : Nat) : Nat := partRows part * partCols part / 128
def vecCycles (a : ActionD) : Nat := max 1 (ceilDiv (aLen a) (vecLanes a))

/-- The cycle in which the writeback stage of a core finished its last action. -/
def wbFreeAt (d : Dev) (n : Nat) : Nat := (core d n).readOut.foldl (fun m e => max m e.2) 0

/-- What the row of a WRITEBACK or a VECTOR action is to meet in its reads and in the accumulator memory (R69). -/
def runUpset (d : Dev) (n j : Nat) (x : Ctx) (r : RunAct) : Dev × Bool :=
  let im := x.image
  let a := actOf im r.item
  let gs := rangesGrans n (if r.kind = .writeback then wbParts im r.item a r.region.1 else vecReads im r.item a)
  match engineUpset d x.uid j n gs r.ev with
  | (d1, false) => (d1, false)
  | (d1, true) => if r.blocks.isEmpty then (d1, true) else arrayUpset d1 x.uid j n r.ev

/-- Starts one WRITEBACK or VECTOR action of a context. -/
def settleOne (d : Dev) (n j : Nat) : Option Dev :=
  match ctxOf d n j with
  | none => none
  | some x =>
    match startable x with
    | none => none
    | some r =>
      let d0 := if r.kind = .writeback then bankWait d n (max r.since (wbFreeAt d n)) d.now else d
      match runUpset d0 n j x r with
      | (d1, false) => some d1
      | (d1, true) => some (setRun d1 n j r.id (fun q => { q with started := true, endAt := d.now + r.len }))

def settleN : Nat → Dev → Nat → Nat → Dev
  | 0, d, _, _ => d
  | k + 1, d, n, j =>
    match settleOne d n j with
    | some d1 => settleN k d1 n j
    | none => d
/-- Lets the engines of a core go on: waiting passes that keep or ride, then the writeback stage and the vector unit. -/
def settle (d : Dev) (n j : Nat) : Dev := settleN 64 (tryRide (tryKeep d n) n) n j

/-! ### NOP, SIGNAL, WAIT -/

/-- NOP. -/
def opNop (d : Dev) (n j : Nat) : Dev := issueAct d n j 0 (fun d _ _ => issued d n j)
def execNopAct (core : CoreId) (job : JobId) (s : State) : Host.Outcome State Fault Refusal :=
  okDev s (opNop s.dev core.val job.val)

/-- The orbit route to a device (11 R370, R345): its ports, none where the entry is not valid or its DID differs. -/
def orbitRoute (d : Dev) (did : Nat) : Option (List Nat) :=
  let e := (SMap.getD d.fab.orr (did % 4096) 0).toNat
  if !e.testBit 127 || bitsOf e 111 96 ≠ did then none
  else some ((List.range (bitsOf e 4 0)).map (fun i => bitsOf e (16 + 5 * i + 4) (16 + 5 * i)))

/-- An ORBIT packet on its source route; the egress port is the first hop (R345, R370). -/
def orbitPkt (d : Dev) (did typ addr : Nat) (payload : List Nat) (route : List Nat) (sl : Bool) : Packet :=
  { mkPkt d typ 0 did 0 addr 0 payload with route := some (route, 1), sealed := sl }
/-- The egress port of a route. -/
def egress (route : List Nat) : Nat := (route.head?).getD 0

/-- Another job owns a semaphore of a shared core (R126). -/
def semForeign (d : Dev) (n j sem : Nat) : Bool :=
  coreShared d n && (residentEnts d n).any (fun e => e.1 != j
    && decide (e.2.semFirst ≤ sem) && decide (sem < e.2.semFirst + e.2.semCount))

/-- A COPY of a context is still to complete: any, or a best-effort one (R124). -/
def copyLeft (x : Ctx) (beOnly : Bool) : Bool := x.running.any (fun r => r.kind == .copy && (!beOnly || r.bestEffort))

/-- A FENCE waits behind a best-effort copy: the wait is a slip, which is counted once (R127). -/
def fenceHold (d : Dev) (n j : Nat) (x : Ctx) : Dev :=
  if x.fenceBE then d else slipCore (setCtx d n j { x with fenceBE := true }) n

/-- Sends a signal: to a core of this device as a flit, or at once within the core; to another device as a flit to its egress
port (R120, R370). -/
def sendSignal (d0 : Dev) (n j : Nat) (x : Ctx) (it : Item) : Dev :=
  let a := actOf x.image it
  let tag := match cmd d0 x.uid with | some c => c.tag | none => 0
  let d := bump d0 (coreDie n) 16 0x128 1
  if aSigRemote a then
    match orbitRoute d0 (bitsOf (aw a 2) 15 0) with
    | none => endCmd d0 x.uid stUnreach (bitsOf (aw a 2) 15 0) false
    | some r =>
      let p := orbitPkt d (bitsOf (aw a 2) 15 0) 9 0
        (padTo 16 (leBytes 2 tag ++ leBytes 2 (aValue a) ++ leBytes 2 (aSigCore a) ++ [aSem a])) r false
      issued (pushPort d n (oneFlit (2 * d.now) (coreDie n) (fpDie (egress r)) j (.toPort (egress r) p))) n j
  else if aSigCore a = n then
    issued { bump d (coreDie n) 16 0x12C 1 with sigs := d.sigs ++ [⟨n, aSem a, aValue a, tag, d.now + 1, some (itemAi it)⟩] } n j
  else
    issued (pushPort d n (oneFlit (2 * d.now) (coreDie n) (coreDie (aSigCore a)) j
      (.signal (aSigCore a) (aSem a) (aValue a) tag (itemAi it)))) n j

/-- SIGNAL (R119-R124, R126, R133; 11 R370). -/
def opSignal (d : Dev) (n j : Nat) (ev : Upset) : Dev :=
  issueAct d n j 5 (fun d x it =>
    let a := actOf x.image it
    if aFence a && copyLeft x false then (if copyLeft x true then fenceHold d n j x else d)
    else match ev with
    | .linkUE die => failFault (latch d die 16 0 (coreCap n (some j) 0 1 8)) x.uid die 16 true
    | _ =>
      if !aSigRemote a && semForeign d (aSigCore a) j (aSem a) then
        badAct (latchCoreSrc d (aSigCore a) 3 (coreCap n (some j) 0 1 2)) x it
      else sendSignal d n j x it)
def execSignalAct (core : CoreId) (job : JobId) (ev : Upset) (s : State) : Host.Outcome State Fault Refusal :=
  okDev s (opSignal s.dev core.val job.val ev)

/-- WAIT (R119, R127): first test. -/
def opWait (d : Dev) (n j : Nat) : Dev :=
  issueAct d n j 6 (fun d x it =>
    let a := actOf x.image it
    let s := bitsOf (aw a 1) 7 0
    if aValue a ≤ semOf d n s then issued (setSem d n s (semOf d n s - aValue a)) n j
    else slipCore (setCtx d n j { x with waitFrom := some d.now, curAct := itemAi it, curIdx := itemIdx it }) n)
def execWaitAct (core : CoreId) (job : JobId) (s : State) : Host.Outcome State Fault Refusal :=
  okDev s (opWait s.dev core.val job.val)

/-- WAIT_COMPLETE (R119, R125): a held WAIT finds its count, at the latest in the cycle in which its limit ends. -/
def opWaitComplete (d : Dev) (n j : Nat) : Dev :=
  match ctxOf d n j with
  | some x =>
    match x.waitFrom, x.todo with
    | some s, it :: _ =>
      let a := actOf x.image it
      let k := bitsOf (aw a 1) 7 0
      let lim := rc d n 0x168
      if aValue a ≤ semOf d n k && (lim == 0 || decide (d.now ≤ s + lim)) then issued (setSem d n k (semOf d n k - aValue a)) n j
      else d
    | _, _ => d
  | none => d
def execWaitComplete (core : CoreId) (job : JobId) (s : State) : Host.Outcome State Fault Refusal :=
  okDev s (opWaitComplete s.dev core.val job.val)

/-- SEM_TIMEOUT (R125): the test of the cycle that ends the limit has failed, so that the WAIT was held for LIMIT + 1 cycles. -/
def opSemTimeout (d : Dev) (n j : Nat) : Dev :=
  match ctxOf d n j with
  | some x =>
    match x.waitFrom, x.todo with
    | some s, it :: _ =>
      let a := actOf x.image it
      let k := bitsOf (aw a 1) 7 0
      let lim := rc d n 0x168
      if lim ≠ 0 && decide (s + lim ≤ d.now) && (decide (semOf d n k < aValue a) || decide (s + lim < d.now)) then
        let y : Ctx := { x with slipFrom := d.now + 1 }
        failFault (latchCoreSrc (slipCycles (setCtx d n j y) n (s + lim + 1 - max s x.slipFrom)) n 5 (coreCap n (some j) 0 8 0))
          x.uid (n / 6) (n % 6) true
      else d
    | _, _ => d
  | none => d
def execSemTimeout (core : CoreId) (job : JobId) (s : State) : Host.Outcome State Fault Refusal :=
  okDev s (opSemTimeout s.dev core.val job.val)

/-- SIGNAL_ARRIVAL (R120-R122, R126): the n-th signal on its way becomes visible. One that names a semaphore of another job is
not performed, and the command that sent it fails. -/
def opSignalArrival (d : Dev) (i : Nat) : Dev :=
  match d.sigs[i]? with
  | none => d
  | some g =>
    if d.now < g.visibleAt then d
    else
      let d1 := { d with sigs := d.sigs.eraseIdx i }
      match (core d1 g.core).ctxs.find? (fun e => match cmd d1 e.2.uid with
        | some c => c.tag == g.tag
        | none => false) with
      | none => bump d1 (g.core / 6) (g.core % 6) 0x14C 1
      | some (j, x) =>
        let v := semOf d1 g.core g.sem + g.value
        if semForeign d1 g.core j g.sem then
          failBad (latchCoreSrc d1 g.core 3 (coreCap g.core (some j) 0 1 2)) x.uid g.act
        else if 65535 < v then
          failFault (latchCoreSrc (setSem d1 g.core g.sem 65535) g.core 4 (coreCap g.core (some j) 0 8 0)) x.uid
            (g.core / 6) (g.core % 6) false
        else setSem d1 g.core g.sem v
def execSignalArrival (n : Nat) (s : State) : Host.Outcome State Fault Refusal := okDev s (opSignalArrival s.dev n)

/-! ### Slip thresholds (R128) -/

/-- SCHED_SLIP: at most once in a window, so the base moves past every count until the window rolls. -/
def opSchedSlip (d : Dev) (n : Nat) : Dev :=
  let d1 := rollWin d n
  let th := rc d1 n 0x160
  if th ≠ 0 && rc d1 n 0x164 ≠ 0 && decide ((core d1 n).slipBase + th ≤ rc d1 n 0x130) then
    latchCoreSrc (setCore d1 n { core d1 n with slipBase := 2 ^ 32 }) n 6 (coreCap n none 0 8 0) else d1
def execSchedSlip (core : CoreId) (s : State) : Host.Outcome State Fault Refusal := okDev s (opSchedSlip s.dev core.val)

/-- NOC_SLIP: the window is that of core 0 of the die. -/
def opNocSlip (d : Dev) (die : Nat) : Dev :=
  let d1 := rollWin d (die * 6)
  let th := rg d1 die 16 0x130
  if th ≠ 0 && rc d1 (die * 6) 0x164 ≠ 0 && decide ((core d1 (die * 6)).nocBase + th ≤ rg d1 die 16 0x120) then
    latch (setCore d1 (die * 6) { core d1 (die * 6) with nocBase := 2 ^ 32 }) die 16 1 ⟨0, 1, die, none, 8, 0⟩ else d1
def execNocSlip (die : Fin 48) (s : State) : Host.Outcome State Fault Refusal := okDev s (opNocSlip s.dev die.val)

/-! ### COPY (R105, R124; 08 R236-R240, R244; 11 R370) -/

/-- A copy's objects are in the command's object list (08 R244). -/
def inList (c : Cmd) (a : DevAddr) : Bool :=
  match a with
  | .obj t oid _ => c.held.contains (t, oid)
  | _ => true

/-- The pairs of R236: CLASS 0 allows three; CLASS 1 every pair but T3 to T3 (11 R357). -/
def classOk (cls : Bool) (s t : DevAddr) : Bool :=
  if cls then !(addrTier s == 3 && addrTier t == 3) else (match addrTier s, addrTier t with
    | 0, 0 | 0, 1 | 1, 0 => true
    | _, _ => false)

/-- The die that holds a T0 or T1 address. -/
def addrDie (d : Dev) (a : DevAddr) : Nat :=
  match a with
  | .t0 c _ => coreDie c
  | .obj _ oid _ => 48 + (match obj d oid with | some o => o.t1die | none => 0)
  | _ => 0

/-- What a scheduled copy whose ranges overlap is to write: every source granule as it reads now, its SEAL first (08 R238). -/
def copySnap (d : Dev) (uid : Nat) (s t : DevAddr) (g : Nat) : List (List Nat) :=
  if (rangeKeys s g).any ((rangeKeys t g).contains ·) then
    (rangeKeys s g).map (fun k => b2n (viewSealed d uid k) :: readView d uid k 0 4096)
  else []

/-- The network port of the block that holds a copy's source (08 R237). -/
def srcPort (d : Dev) (s : DevAddr) : Nat := match s with | .t0 c _ => c | _ => npInk (addrDie d s - 48)

/-- The data flits of a scheduled copy queue at the port of the block that holds its source, to leave from NOC cycle `ready`
on (08 R237). -/
def sendCopy (d : Dev) (n j uid id ready : Nat) (s t : DevAddr) (dst g : Nat) : Dev :=
  let snap := copySnap d uid s t g
  pushPort (if snap.isEmpty then d else setRun d n j id (fun r => { r with held := snap })) (srcPort d s)
    ⟨ready, addrDie d s, dst, 0, 8 * g, j, .copyData n j uid id false 0 [] false⟩

/-- A scheduled copy begins: its flits leave the issuing core at once, or its request leaves for the block that holds the
source. -/
def copyFlits (d : Dev) (n j : Nat) (x : Ctx) (id : Nat) (s t : DevAddr) (dst g : Nat) : Dev :=
  if srcPort d s = n then sendCopy d n j x.uid id (2 * d.now) s t dst g
  else pushPort d n (oneFlit (2 * d.now) (coreDie n) (addrDie d s) j (.copyReq n j x.uid id))

/-- A scheduled copy on its way, or a best-effort copy that has moved its granules. -/
def copyRun (d : Dev) (n j : Nat) (x : Ctx) (it : Item) (be : Bool) (ev : Upset) : Dev :=
  let a := actOf x.image it
  addRun d n j { newRun d n x it .copy [] ev with
    doneSem := if aDoneEn a then some (aDoneSem a) else none, bestEffort := be, started := true, flying := !be,
    doneAt := d.now + 1, endAt := d.now + 1 }

/-- A remote scheduled copy: one ORBIT_DATA packet for each 512 B, from the source core to the egress die (11 R370). -/
def copyRemote (d : Dev) (n j : Nat) (x : Ctx) (it : Item) (s t : DevAddr) (g : Nat) (ev : Upset) : Dev :=
  let did := bitsOf (aw (actOf x.image it) 7) 15 0
  match s, t, orbitRoute d did with
  | .t0 _ _, .t0 _ _, some r =>
    issued (copyFlits (copyRun d n j x it false ev) n j x (actId x n it) s t (fpDie (egress r)) g) n j
  | .t0 _ _, .t0 _ _, none => endCmd d x.uid stUnreach did false
  | _, _, _ => badAct d x it

/-- A copy that the checks have passed: best-effort it moves its granules as it issues (log 45), scheduled it sends its
flits. A copy of no granule has nothing to send. -/
def startCopy (d : Dev) (n j : Nat) (x : Ctx) (it : Item) (s t : DevAddr) (ev : Upset) : Dev :=
  let a := actOf x.image it
  let g := copyGrans a
  if aClassBE a || g = 0 then
    match moveGrans d x.uid (actId x n it) j s t g (copyNeeds x.image it a) (fun i bs => copyFill x.image it a i 0 bs) ev with
    | (d1, false) => d1
    | (d1, true) => issued (copyRun d1 n j x it true .none) n j
  else
    issued (copyFlits (copyRun d n j x it false ev) n j x (actId x n it) s t (addrDie d t) g) n j

/-- COPY: checked when it issues. -/
def opCopyAct (d : Dev) (n j : Nat) (ev : Upset) : Dev :=
  issueAct d n j 4 (fun d x it =>
    let a := actOf x.image it
    let s := copySrcA x.image it a
    let t := copyDstA x.image it a
    let g := copyGrans a
    let need := copyReach x.image it a
    match cmd d x.uid, ev with
    | none, _ => d
    | some _, .linkUE die => failFault (latch d die 16 0 (coreCap n (some j) (encodeAddr s) 1 512)) x.uid die 16 true
    | some c, _ =>
      if aCopyRemote a then
        (if rangeOk d x.uid j s need false && addrOff t % 4096 == 0 && addrTier t == 0 then copyRemote d n j x it s t g ev
         else badAct (isolation d j s need) x it)
      else if !(classOk (aClassBE a) s t && inList c s && inList c t && rangeOk d x.uid j s need false
          && rangeOk d x.uid j t g true) then
        badAct (isolation (isolation d j s need) j t g) x it
      else startCopy d n j x it s t ev)
def execCopyAct (core : CoreId) (job : JobId) (ev : Upset) (s : State) : Host.Outcome State Fault Refusal :=
  okDev s (opCopyAct s.dev core.val job.val ev)

/-! ### WRITEBACK and VECTOR -/

/-- WRITEBACK (R56, R71, R96, R97, R105, R110, R526, R529): its region, its modes and its ranges are those of its issue; it
runs when its region is written. -/
def opWriteback (d : Dev) (n j : Nat) (ev : Upset) : Dev :=
  issueAct d n j 2 (fun d x it =>
    let im := x.image
    let a := actOf im it
    let ps := wbRegion d n j x (aBank a)
    let blocks := regionBlocks (aBank a) ps.1 ps.2
    let rs := wbRanges im it a ps.1 ++ wbParts im it a ps.1
    if !wbIssueOk d n a ps then badAct d x it
    else if !(blocks.all ((ownBlocks d n j).contains ·)) then badAct (latchCoreSrc d n 3 (coreCap n (some j) 0 0 0)) x it
    else if !rangesOwned d j n rs then failOwned d x.uid j n (itemAi it) rs
    else
      let r : RunAct := { newRun d n x it .writeback blocks ev with region := ps, len := wbCycles ps.1 }
      settle (issued (addRun d n j r) n j) n j)
def execWritebackAct (core : CoreId) (job : JobId) (ev : Upset) (s : State) : Host.Outcome State Fault Refusal :=
  okDev s (opWriteback s.dev core.val job.val ev)

/-- VECTOR (R96, R105, R525). -/
def opVector (d : Dev) (n j vreg : Nat) (ev : Upset) : Dev :=
  issueAct d n j 3 (fun d x it =>
    let im := x.image
    let a := actOf im it
    let rs := vecReads im it a ++ vecWrites im it a
    if !vecIssueOk d n (ownBlocks d n j) a then badAct d x it
    else if !rangesOwned d j n rs then failOwned d x.uid j n (itemAi it) rs
    else
      let bl := (if isBankSrc (aw a 1) then bankReadBlocks (aw a 1) (aLen a) else [])
        ++ (if vopReads2 (aVop a) && isBankSrc (aw a 2) then bankReadBlocks (aw a 2) (aLen a) else [])
      let r : RunAct := { newRun d n x it .vector bl ev with len := vecCycles a, vreg := vreg }
      settle (issued (addRun d n j r) n j) n j)
def execVectorAct (core : CoreId) (job : JobId) (vreg : Fin 32) (ev : Upset) (s : State) :
    Host.Outcome State Fault Refusal :=
  okDev s (opVector s.dev core.val job.val vreg.val ev)

/-! ### Completion of an action (R66, R71, R110, R124) -/

/-- A COPY's DONE_SEM rises by 1; beyond 65,535 it overflows (R121, R124). -/
def doneSem (d : Dev) (n j uid : Nat) (s : Option Nat) : Dev :=
  match s with
  | none => d
  | some k =>
    if semOf d n k = 65535 then
      failFault (latchCoreSrc d n 4 (coreCap n (some j) 0 8 0)) uid (n / 6) (n % 6) false
    else setSem d n k (semOf d n k + 1)

/-- A FENCE waits at the head of a context behind a best-effort copy. -/
def fenceAtHead (d : Dev) (x : Ctx) : Bool :=
  match x.todo with
  | it :: _ => let a := actOf x.image it
               aType a == 5 && aFence a && decide (x.readyAt ≤ d.now)
  | [] => false

/-- An action's work is done: its last sum, its last element, or its copy's last report (R66, R80, R124). -/
def runDone (d : Dev) (n : Nat) (x : Ctx) (r : RunAct) : Bool :=
  r.started && decide (r.endAt ≤ d.now) && !r.flying
  && (match r.kind with
      | .pass => !(core d n).arr.flight.any (fun f => f.run.actId == r.id && f.run.uid == x.uid)
      | .writeback | .vector => decide (r.len ≤ r.pos)
      | .copy => !waitsReq d x.uid (some r.id)
      | .quill => true)

/-- The FENCE behind an action's last best-effort copy: what held it is counted (R127). -/
def fenceFree (d : Dev) (n j : Nat) (x0 : Ctx) : Dev :=
  match ctxOf d n j with
  | none => d
  | some x =>
    if !fenceAtHead d x || !copyLeft x0 true || copyLeft x true then d
    else
      let d1 := fenceHold d n j x
      let y : Ctx := { x with fenceBE := true }
      setCtx (slipEnd d1 n y) n j { x with fenceBE := false }

/-- A COPY that has fetched its data from T3 into T4 has them programmed (09 R283), where T4 may be written (R288, R289). -/
def landedT4 (d : Dev) (x : Ctx) (r : RunAct) : Dev :=
  let a := actOf x.image r.item
  let dst := copyDstA x.image r.item a
  if r.kind = .copy && aType a = 4 && addrTier (copySrcA x.image r.item a) = 3 && addrTier dst = 4 then
    match t4WriteFault d x.uid with
    | some d1 => d1
    | none => startPrograms d x.uid (rangeKeys dst (copyGrans a))
  else d

/-- ACTION_COMPLETION: an engine reports the end of its action (R66, R71, R110, R124). -/
def opActionDone (d : Dev) (n j act : Nat) : Dev :=
  match ctxOf d n j with
  | none => d
  | some x =>
    match x.running.find? (fun r => r.id == act) with
    | none => d
    | some r =>
      if !runDone d n x r then d
      else
        let d1 := landedT4 (setCtx d n j { x with running := x.running.filter (fun q => q.id != act) }) x r
        let c := core d1 n
        let ro := r.blocks.foldl (fun s b => SMap.insert s b d.now) c.readOut
        let d2 := if r.kind = .writeback then setCore d1 n { c with readOut := ro } else d1
        finishCore (settle (fenceFree (doneSem d2 n j x.uid r.doneSem) n j x) n j) n j
def execActionCompletion (core : CoreId) (job : JobId) (act : Nat) (_ev : Upset) (s : State) :
    Host.Outcome State Fault Refusal :=
  okDev s (opActionDone s.dev core.val job.val act)

/-! ### Debug halt and counters (R108, R130) -/

/-- CORE_SEQ_CTRL.HALT. -/
def opHalt (d : Dev) (n : Nat) (h : Bool) : Dev := setRc d n 0x100 (b2n h)
def execCoreHalt (acc : Acc) (core : CoreId) (halt : Bool) (s : State) : Host.Outcome State Fault Refusal :=
  okDev s (withReg s.dev acc (regOff (core.val / 6) (core.val % 6) 0x100) (fun d => opHalt d core.val halt))

/-- CORE_SEQ_CTRL.STEP: while halted, each context of the core may issue one action. -/
def opStep (d : Dev) (n : Nat) : Dev :=
  if (rc d n 0x100).testBit 0 then
    let xs := SMap.mapVals (core d n).ctxs (fun _ x => { x with stepOk := true })
    setCore d n { core d n with ctxs := xs }
  else d
def execCoreStep (acc : Acc) (core : CoreId) (s : State) : Host.Outcome State Fault Refusal :=
  okDev s (withReg s.dev acc (regOff (core.val / 6) (core.val % 6) 0x100) (fun d => opStep d core.val))

/-- The holds in progress on a core are counted from now on (R130). -/
def restartSlips (d : Dev) (n : Nat) : Dev :=
  let xs := SMap.mapVals (core d n).ctxs (fun _ x => { x with slipFrom := d.now })
  if xs.isEmpty then d else setCore d n { core d n with ctxs := xs }

/-- CNT_CLR of a page, and on a CORE page a new slip window (R130). -/
def opCntClr (d : Dev) (die page : Nat) : Dev :=
  let d1 := clearCounters d die page
  match blkAt die page with
  | some .core => startWin (restartSlips d1 (die * 6 + page)) (die * 6 + page)
  | some .cdie => setCore d1 (die * 6) { core d1 (die * 6) with nocBase := rg d1 die 16 0x120 }
  | _ => d1

end Sys2Proof.Machine
end

