-- ==== Sys2Proof/Machine/PassRows.lean ====
section
/-! DEFINITION. PASS and the loads of the matrix array: shadow fill, reload token, wash, pass slots (03 R72-R95,
R526-R530). -/

namespace Sys2Proof.Machine
open Sys2Proof

/-! ### PASS -/

/-- The slot that a pass is assigned to on a partitioned array (R528): slot 0 to the pass that brings the partition. -/
def assignSlot (a : Arr) (p : ActionD) : Nat :=
  let change := aPart p ≠ a.part
  let entering := a.waiting.any (fun q => aPart q.act == aPart p) && change
  if change && !entering then 0
  else
    let base := if entering then 1 else if aLoadMode p = 2 then a.slotNo + 1 else a.slotNo + 2
    let taken (s : Nat) : Bool := a.waiting.any (fun q => q.slot == s && aSub q.act == aSub p)
    base + ((List.range (a.waiting.length + 1)).find? (fun i => !taken (base + i))).getD 0

/-- May a PASS issue, with the passes that wait? Any number waits for the array; a change of partition waits for those
before it (log 39). -/
def passRoom (a : Arr) (p : ActionD) : Bool := a.waiting.all (fun q => aPart q.act == aPart p)

/-- PASS (R526-R530): checked when it issues; it starts by its load. On a core shared by several jobs the placement's
sub-arrays alone may be named (R96). -/
def opPass (d : Dev) (n j : Nat) (ev : Upset) : Dev :=
  issueAct d n j 1 (fun d x it =>
    let a := actOf x.image it
    let arr := arrOf d n
    let blocks := regionBlocks (aBank a) (aPart a) (aSub a)
    let mode := regionMode (core d n) blocks
    let want := if aInt32 a then 2 else 1
    let rs := passReads x.image it a
    if !passRoom arr a then d
    else if aInit a && mode ≠ 0 && mode ≠ want then badAct d x it
    else if !(blocks.all ((ownBlocks d n j).contains ·)) then badAct (latchCoreSrc d n 3 (coreCap n (some j) 0 1 0)) x it
    else if !rangesOwned d j n rs then failOwned d x.uid j n (itemAi it) rs
    else
      let p : PassRun := { job := j, uid := x.uid, actId := actId x n it, item := it, act := a, issuedAt := d.now,
                           slot := if aPart a = 0 then 0 else assignSlot arr a, ev := ev }
      let d1 := addRun d n j (newRun d n x it .pass blocks ev)
      let d2 := match ctxOf d1 n j with
        | some y => setCtx d1 n j { y with lastRegion := SMap.insert y.lastRegion (aBank a) [aPart a, aSub a] }
        | none => d1
      let c := core d2 n
      let d3 := setCore d2 n { setRegionMode c blocks want with arr := { c.arr with waiting := c.arr.waiting ++ [p] } }
      settle (issued d3 n j) n j)
def execPassAct (core : CoreId) (job : JobId) (ev : Upset) (s : State) : Host.Outcome State Fault Refusal :=
  okDev s (opPass s.dev core.val job.val ev)

/-! ### SHADOW_FILL (R84-R86, R113, R262, R528) -/

/-- The weights of row r for a pass: read from the scratchpad, as weights sealed granules may be read (R262). Answers
none where the read ended the command. -/
def fillRead (d : Dev) (n : Nat) (p : PassRun) (r : Nat) (ev : Upset) : Dev × Option PRow :=
  match ctxOf d n p.job with
  | none => (d, none)
  | some x =>
    let rs := wRowRanges x.image p.item p.act (r - (subOrg (aPart p.act) (aSub p.act)).1)
    match engineReads d p.uid p.job n (itemAi p.item) true rs ev with
    | (d1, false) => (d1, none)
    | (d1, true) => (d1, some (fillRow d1 n x.image p.item p.act r zeroRow))

/-- Writes a filled row into the shadow registers of a pass's sub-array. -/
def putShadow (d : Dev) (n : Nat) (p : PassRun) (r : Nat) (row : PRow) : Dev :=
  let a := arrOf d n
  let c0 := (subOrg (aPart p.act) (aSub p.act)).2
  let cols := partCols (aPart p.act)
  let full := (subStrips (aPart p.act) (aSub p.act)).foldl (fun f s => NSet.add f (r * 4 + s)) a.full
  setArr d n { a with shadow := SMap.put a.shadow r (spliceRow (rowOf a.shadow r) row c0 cols) zeroRow
                      full := full }
/-- A row that the token has already passed goes from the fill to the active registers, and to the pass that is on its way
(R86). -/
def putActive (d : Dev) (n : Nat) (p : PassRun) (r : Nat) (row : PRow) : Dev :=
  let a := arrOf d n
  let c0 := (subOrg (aPart p.act) (aSub p.act)).2
  let put (s : SMap PRow) : SMap PRow := SMap.put s r (spliceRow (rowOf s r) row c0 (partCols (aPart p.act))) zeroRow
  setArr d n { a with active := put a.active
                      flight := a.flight.map (fun f => if f.run.actId = p.actId then { f with wts := put f.wts } else f) }

/-- The passes whose weights the fill now writes: after a token that has outrun it, the running pass; on a partitioned
array, the loading passes of the next slot; else the next waiting pass that loads. -/
def fillFor (a : Arr) : List PassRun :=
  if a.loading then a.current
  else if a.part ≠ 0 && a.waiting.any (fun p => aPart p.act == a.part) then
    a.waiting.filter (fun p => aPart p.act == a.part && p.slot == a.slotNo + 1 && aLoadMode p.act != 2)
  else match a.waiting.find? (fun p => aLoadMode p.act != 2 && (aPart p.act == 0 || p.slot == 0)) with
    | some p => a.waiting.filter (fun q => q.actId == p.actId || (aPart q.act == aPart p.act && aPart p.act != 0 && q.slot == 0))
    | none => []

/-- The first cycle in which the fill may write its next row: one row in a cycle (R84). -/
def fillAt (a : Arr) : Nat := a.fillFrom + a.fillPtr

/-- SHADOW_FILL: the next row, for every pass whose sub-array has it (R84, R85). -/
def opShadowFill (d : Dev) (n : Nat) (ev : Upset) : Dev :=
  let a := arrOf d n
  let ps := (fillFor a).filter (fun p => (subRows (aPart p.act) (aSub p.act)).contains a.fillPtr)
  if 128 ≤ a.fillPtr || (fillFor a).isEmpty || d.now < fillAt a then d
  else
    let r := a.fillPtr
    if !a.loading && ps.any (fun p => !rowEmpty a (aPart p.act) (aSub p.act) r) && a.part = 0 then d
    else
      let d1 := ps.foldl (fun d p =>
        if !a.loading && !rowEmpty a (aPart p.act) (aSub p.act) r then d
        else match fillRead d n p r ev with
          | (d1, some row) => if a.loading then putActive d1 n p r row else putShadow d1 n p r row
          | (d1, none) => d1) d
      let a1 := arrOf d1 n
      let d2 := setArr d1 n { a1 with fillPtr := r + 1, fillFrom := max a1.fillFrom (d.now - r) }
      if r = 127 && a.loading then
        setArr d2 n { arrOf d2 n with
          loading := false, fillPtr := 0
          fillFrom := a1.lastWord + 128 - (match a1.current with | p :: _ => aMt p.act | [] => 0) }
      else match ps with
        | p :: _ => settle d2 n p.job
        | [] => d2
def execShadowFill (core : CoreId) (ev : Upset) (s : State) : Host.Outcome State Fault Refusal :=
  okDev s (opShadowFill s.dev core.val ev)

/-! ### RELOAD_TOKEN (R87, R88) -/

/-- The token of the waiting pass enters alone. -/
def opReloadToken (d : Dev) (n : Nat) (ev : Upset) : Dev :=
  let a := arrOf d n
  match a.waiting with
  | p :: _ =>
    let earliest := max a.lastWord p.issuedAt
    if a.part = 0 && loadKind a p = 0 && !a.loading && rowFull a 0 0 0 && passReady d n p && decide (earliest ≤ d.now) then
      enterToken (countStalls d n 0x13C earliest d.now (passSince d n p) 0) n p d.now ev
    else d
  | [] => d
def execReloadToken (core : CoreId) (ev : Upset) (s : State) : Host.Outcome State Fault Refusal :=
  okDev s (opReloadToken s.dev core.val ev)

/-! ### WASH_LOAD (R89-R91, R94) -/

/-- A wash swaps zero weights into the sub-arrays of killed commands, and clears their regions (R99). -/
def washDead (d : Dev) (n : Nat) : Dev :=
  let c := core d n
  let subs := c.arr.dead.map (·.1)
  if subs.isEmpty then d
  else setCore d n { subs.foldl (fun c i => clearBlocks c (regionBlocks 0 c.arr.part i ++ regionBlocks 1 c.arr.part i)) c with
    arr := { subs.foldl (fun a i => clearSub a a.part i) c.arr with dead := [] } }

/-- Every PE of the array, or of the sub-array that brings a partition, swaps; the pass starts in the next cycle. -/
def opWash (d : Dev) (n : Nat) (ev : Upset) : Dev :=
  let a := arrOf d n
  match a.waiting with
  | p :: _ =>
    let part := aPart p.act
    let change := part ≠ a.part
    let earliest := if a.fresh then p.issuedAt else max a.drainedAt p.issuedAt
    if (part = 0 || change) && loadKind a p = 1 && !a.loading && decide (128 ≤ a.fillPtr) && subFull a part (aSub p.act)
        && passReady d n p && decide (earliest ≤ d.now) then
      let d1 := washDead (countStalls d n 0x140 earliest d.now (passSince d n p) part) n
      let a1 := swapSub (arrOf d1 n) part (aSub p.act)
      let d2 := setArr d1 n { a1 with part := part, slotNo := 0, slotStart := d.now + 1, fillPtr := 0, fillFrom := d.now + 1 }
      startPass d2 n p (d.now + 1) ev
    else d
  | [] => d
def execWashLoad (core : CoreId) (ev : Upset) (s : State) : Host.Outcome State Fault Refusal :=
  okDev s (opWash s.dev core.val ev)

/-! ### PASS_SLOT (R94, R95, R99, R528) -/

/-- A pass whose slot begins: its sub-array swaps when it loads, and it starts. -/
def slotPass (n c0 : Nat) (d : Dev) (p : PassRun × Upset) : Dev :=
  let d1 := if aLoadMode p.1.act = 2 then d else setArr d n (swapSub (arrOf d n) (aPart p.1.act) (aSub p.1.act))
  startPass d1 n p.1 c0 p.2

/-- The end of a pass slot: the wash, and the passes of the next slot. A pass whose region is not ready moves one slot
later with every later pass of its sub-array; the slot counts as a bank stall. The row's upset is met by the first of the passes that
start. -/
def opPassSlot (d : Dev) (n : Nat) (ev : Upset) : Dev :=
  let a := arrOf d n
  let len := partSlot a.part
  if a.part = 0 || d.now + 1 < a.slotStart + len then d
  else
    let next := a.slotNo + 1
    let due := a.waiting.filter (fun p => aPart p.act == a.part && p.slot == next)
    let filled (p : PassRun) : Bool := aLoadMode p.act == 2 || subFull a a.part (aSub p.act)
    if due.any (fun p => !filled p) then d
    else
      let late := due.filter (fun p => !passReady d n p)
      let go := due.filter (passReady d n)
      let waiting := a.waiting.map (fun p =>
        if late.any (fun q => aSub q.act == aSub p.act) && aPart p.act == a.part then { p with slot := p.slot + 1 } else p)
      let d1 := setArr d n { a with waiting := waiting, slotNo := next, slotStart := a.slotStart + len, fillPtr := 0, fillFrom := a.slotStart + len }
      let d2 := if late.isEmpty then d1 else bankWait d1 n (a.slotStart + len) (a.slotStart + len + len)
      (go.zipIdx.map (fun p => (p.1, if p.2 = 0 && ev != .none then ev else p.1.ev))).foldl (slotPass n (a.slotStart + len))
        (washDead d2 n)
def execPassSlot (core : CoreId) (ev : Upset) (s : State) : Host.Outcome State Fault Refusal :=
  okDev s (opPassSlot s.dev core.val ev)

end Sys2Proof.Machine
end

