-- ==== Sys2Proof/Machine/Sess.lean ====
section
/-! DEFINITION. Sessions, KV pages and state slots: FORK_SESSION, FREE_PAGES, PAGE_STAGE, PAGE_UNSTAGE, SLOT_OUT,
SLOT_IN, swaps, binding and declarations (05 R134-R166; 06 R191-R202; 10 R304, R333). -/

namespace Sys2Proof.Machine
open Sys2Proof

/-- A session is bound to the job (R304). -/
def boundTo (d : Dev) (s j : Nat) : Bool := (sess d s).job == some j

/-- FORK_SESSION (R162, R199): the child must be an empty session of the parent's job. -/
def opFork (d : Dev) (uid : Nat) : Dev :=
  startCmd d uid 0x03 (fun _ => true) (fun d c =>
    let p := dBytes c.desc 8 2
    let ch := dBytes c.desc 10 2
    if boundTo d p c.job && boundTo d ch c.job && p != ch && sessEmpty (sess d ch) then
      requestCommit d uid
    else failBad d uid none)
def execForkSession (uid : Nat) (s : State) : Host.Outcome State Fault Refusal := okDev s (opFork s.dev uid)

/-- FREE_PAGES (R163). -/
def opFreePages (d : Dev) (uid : Nat) : Dev :=
  startCmd d uid 0x04 (fun _ => true) (fun d c =>
    if boundTo d (dBytes c.desc 8 2) c.job then requestCommit d uid else failBad d uid none)
def execFreePages (uid : Nat) (s : State) : Host.Outcome State Fault Refusal := okDev s (opFreePages s.dev uid)

/-! ### Page and slot lists -/

/-- A list operation of COPY_TILES starts: it holds the copy that its SRC names, reads its entries there (10 R309; 08 R244,
R259), and names their sessions (10 R304). A list that is PENDING is waited for (08 R256). `f` is given the entries and what
is left of the upset. -/
def startListOp (d : Dev) (uid copyOp : Nat) (ready : Cmd → Bool) (ev : Upset)
    (f : Dev → Cmd → List Nat → Upset → Dev) : Dev :=
  let src (c : Cmd) : Nat := dBytes c.desc 16 8
  let len (c : Cmd) : Nat := 8 * dBytes c.desc 32 4
  startCopyOp d uid copyOp (fun c => ready c && !ctlPending d (src c) (len c)) (fun d c =>
    if addrOff (decodeAddr (src c)) % 4096 ≠ 0 then failBad d uid none
    else match readCtl (holdAddr d uid (decodeAddr (src c))) uid c.job none (src c) (len c) ev with
      | (d1, .error (st, det)) => endCmd d1 uid st det false
      | (d1, .ok bs) =>
        let es := (List.range (dBytes c.desc 32 4)).map (fun i => sBytes bs (8 * i) 8)
        match cmd d1 uid with
        | some c1 =>
          let c2 : Cmd := { c1 with sess := es.map (fun e => bitsOf e 15 0) }
          f (setCmd d1 uid c2) c2 es (evDrop ev (ctlPlaces d1 uid (src c) (len c)))
        | none => d1)

/-- The pages that one page entry names; none where the list or the range does not exist. -/
def entryPages (d : Dev) (j e : Nat) : Option (List PEnt) :=
  let s := bitsOf e 15 0
  if s ≥ 16384 || !boundTo d s j then none
  else match SMap.get? (sess d s).lists (bitsOf e 31 16 * 256 + bitsOf e 39 32) with
    | none => none
    | some l =>
      let first := bitsOf e 55 40
      let n := bitsOf e 63 56 + 1
      if first + n ≤ l.ents.length then some ((l.ents.drop first).take n) else none

/-- All pages of a page list operation. -/
def listPages (d : Dev) (j : Nat) : List Nat → Option (List PEnt)
  | [] => some []
  | e :: r =>
    match entryPages d j e, listPages d j r with
    | some a, some b => some (a ++ b)
    | _, _ => none

/-- A page as a stage list names it. -/
def pageRef (d : Dev) (e : PEnt) : Nat := e.pid + 2 ^ 24 * (pst d e.pid).gen

/-- Space for the T1 copies of pages, on the inkwell of each (R139, R248). -/
def stageFits (d : Dev) (j : Nat) (pids : List Nat) : Bool :=
  let need (p : Nat) : Nat := pageGrans (poolCfg d j (pst d p).pool)
  decide (usage d j 1 + sumBy pids need ≤ quotaOf (job d j) 1)
  && (List.range 8).all (fun md => decide (sumBy (pids.filter (fun p => Config.stageDie p % 8 == md)) need ≤ inkFree d md))

/-- PAGE_STAGE (05 R139; 08 R239): the charge is taken when it runs, the copies are made at its commit. A page that cannot be
read fails it. -/
def opPageStage (d : Dev) (uid : Nat) (ev : Upset) : Dev :=
  startListOp d uid 7 (fun _ => true) ev (fun d c es ev =>
    match listPages d c.job es with
    | none => failBad d uid none
    | some ps =>
      if ps.any (fun e => !(pst d e.pid).closed) then failBad d uid none
      else
        let new := ((ps.map (·.pid)).dedup).filter (fun p => (pst d p).res == 1)
        if !stageFits d c.job new then endCmd d uid stQuota 1 false
        else
          let keys := (d.mem.roots.filter (fun r => gKind r.1 == 8 && new.contains (gId r.1))).map (·.1)
          match gather uid (qmCap d c.job 0 1 4096) (keys.map (fun k => (0, k))) (touchReads d keys) ev with
          | (d1, .error (st, a)) => endCmd d1 uid st a false
          | (d1, .ok _) => requestCommit (setCmd d1 uid { c with swaps := (ps.map (pageRef d)).dedup }) uid)
def execPageStage (uid : Nat) (ev : Upset) (s : State) : Host.Outcome State Fault Refusal :=
  okDev s (opPageStage s.dev uid ev)

/-- PAGE_UNSTAGE (08 R239). -/
def opPageUnstage (d : Dev) (uid : Nat) (ev : Upset) : Dev :=
  startListOp d uid 8 (fun _ => true) ev (fun d c es _ =>
    match listPages d c.job es with
    | none => failBad d uid none
    | some ps => requestCommit (setCmd d uid { c with swaps := (ps.map (pageRef d)).dedup }) uid)
def execPageUnstage (uid : Nat) (ev : Upset) (s : State) : Host.Outcome State Fault Refusal :=
  okDev s (opPageUnstage s.dev uid ev)

/-! ### State slots (06 R192-R202) -/

/-- A slot's arena entry is in use. -/
def arenaBusy (d : Dev) (j layer i : Nat) : Bool :=
  d.qm.slots.any (fun e => e.2.job == j && e.2.layer == layer && e.2.arenaIdx == i
    && (e.2.state == .resident || e.2.state == .swappingOut || e.2.state == .swappingIn))
/-- The lowest free arena entry of a layer (the spec names no order; log 30). -/
def freeArena (d : Dev) (j layer : Nat) : Option Nat :=
  (List.range (bitsOf (cometOf d j layer).cfg1 15 0)).find? (fun i => !arenaBusy d j layer i)

def homeCore (d : Dev) (j layer : Nat) : Nat := bitsOf (cometOf d j layer).cfg1 24 16
/-- Scratchpad offset of one half of an arena entry (R191). -/
def halfOff (d : Dev) (s : Slot) (half : Bool) : Nat :=
  let g := halfGrans (cometOf d s.job s.layer)
  bitsOf (cometOf d s.job s.layer).cfg2 25 0 + (s.arenaIdx * 2 + b2n half) * g * 4096

/-- Requests a swap-out of a slot (R195). -/
def swapOut (d : Dev) (sid : Nat) : Dev :=
  let s := slot d sid
  match s.state with
  | .resident =>
    if s.pins = 0 then setSlot d sid { s with state := .swappingOut, swapPend := false }
    else setSlot d sid { s with swapPend := true }
  | .swappingIn => setSlot d sid { s with queuedOpp := true }
  | _ => d

/-- Requests a swap-in: none where no arena entry is free (R195, R196). -/
def swapIn (d : Dev) (sid : Nat) : Option Dev :=
  let s := slot d sid
  match s.state with
  | .resident => some (setSlot d sid { s with swapPend := false })
  | .swappingOut => some (setSlot d sid { s with queuedOpp := true })
  | .swapped =>
    match freeArena d s.job s.layer with
    | some i => some (setSlot d sid { s with state := .swappingIn, arenaIdx := i })
    | none => none
  | _ => some d

/-- The slots that a slot list names: none for an entry whose session is not the job's. A session without a slot for
the layer names none (log 30). -/
def listSlots (d : Dev) (j : Nat) : List Nat → Option (List Nat)
  | [] => some []
  | e :: r =>
    let s := bitsOf e 15 0
    if s ≥ 16384 || !boundTo d s j then none
    else match listSlots d j r with
      | none => none
      | some l =>
        match SMap.get? (sess d s).tails (bitsOf e 31 16) with
        | some t => some (t.1 :: l)
        | none => some l

/-- A slot as a swap list names it. -/
def slotRef (d : Dev) (sid : Nat) : Nat := sid + 2 ^ 24 * (slot d sid).gen

/-- SLOT_OUT (R195). -/
def opSlotOut (d : Dev) (uid : Nat) (ev : Upset) : Dev :=
  startListOp d uid 5 (fun c => (job d c.job).resident) ev (fun d c es _ =>
    match listSlots d c.job es with
    | none => failBad d uid none
    | some l => wakeSwaps (l.foldl swapOut (setCmd d uid { c with swaps := (l.map (slotRef d)).dedup })))
def execSlotOut (uid : Nat) (ev : Upset) (s : State) : Host.Outcome State Fault Refusal := okDev s (opSlotOut s.dev uid ev)

/-- Swaps slots in, in list order; none where one finds no arena entry: those before it stay (R196). -/
def swapInAll : List Nat → Dev → Dev × Bool
  | [], d => (d, true)
  | s :: r, d =>
    match swapIn d s with
    | some d1 => swapInAll r d1
    | none => (d, false)

/-- SLOT_IN (R195, R196). -/
def opSlotIn (d : Dev) (uid : Nat) (ev : Upset) : Dev :=
  startListOp d uid 6 (fun c => (job d c.job).resident) ev (fun d c es _ =>
    match listSlots d c.job es with
    | none => failBad d uid none
    | some l =>
      match swapInAll l (setCmd d uid { c with swaps := (l.map (slotRef d)).dedup }) with
      | (d1, true) => wakeSwaps d1
      | (d1, false) => endCmd d1 uid stQuota 0 false)
def execSlotIn (uid : Nat) (ev : Upset) (s : State) : Host.Outcome State Fault Refusal := okDev s (opSlotIn s.dev uid ev)

/-- SWAP_OUT_START (R195): PINS has reached 0. -/
def opSwapOutStart (d : Dev) (sid : Nat) : Dev :=
  let s := slot d sid
  if s.state = .resident && s.swapPend && s.pins = 0 then
    setSlot d sid { s with state := .swappingOut, swapPend := false }
  else d
def execSwapOutStart (sid : Nat) (s : State) : Host.Outcome State Fault Refusal := okDev s (opSwapOutStart s.dev sid)

/-- Moves one half between the arena and the T2 image, granule by granule, with its SEAL (08 R261). -/
def slotToT2 (d : Dev) (sid : Nat) (s : Slot) : Dev :=
  let n := halfGrans (cometOf d s.job s.layer)
  let hc := homeCore d s.job s.layer
  (List.range n).foldl (fun d g =>
    let at_ := halfOff d s s.sel + 4096 * g
    writeRoot d (gKey 10 sid g) 0 (readT0 d hc at_ 4096) (sealed d (gT0 hc (at_ / 4096)))) d
def slotFromT2 (d : Dev) (sid : Nat) (s : Slot) : Dev :=
  let n := halfGrans (cometOf d s.job s.layer)
  let hc := homeCore d s.job s.layer
  (List.range n).foldl (fun d g =>
    let sl := match rootOf d (gKey 10 sid g) with
      | some r => sealed d r
      | none => false
    writeT0 d hc (halfOff d s s.sel + 4096 * g) (readRoot d (gKey 10 sid g) 0 4096) sl) d

/-- SWAP_TRANSFER_END (R195, R197, R202): the swap is counted, and a queued opposite swap then begins. A swap-in that meets an
image granule which is poisoned, or cannot be read now, marks the slot. -/
def opSwapEnd (d : Dev) (sid : Nat) (ev : Upset) : Dev :=
  let s := slot d sid
  match s.state with
  | .swappingOut =>
    let d1 := if s.zero then d else slotToT2 d sid s
    let d2 := setSlot d1 sid { s with state := .swapped, arenaIdx := 0, queuedOpp := false }
    let d2c := bump d2 (coreDie (homeCore d s.job s.layer)) 17 0x140 1
    let d3 := if s.queuedOpp then (match swapIn d2c sid with | some x => x | none => d2c) else d2c
    wakeSwaps d3
  | .swappingIn =>
    let die := coreDie (homeCore d s.job s.layer)
    let keys := if s.zero then [] else (List.range (halfGrans (cometOf d s.job s.layer))).map (gKey 10 sid)
    let r := checkReads 0 ⟨0, 2, die, some s.job, 5, 4096⟩ (keys.map (fun k => (0, k))) (touchReads d keys) ev
    let ue := match r.2 with
      | .error _ => true
      | .ok _ => false
    let d1 := bump (if s.zero then r.1 else slotFromT2 r.1 sid s) die 17 0x13C 1
    let d2 := setSlot d1 sid { s with state := .resident, poison := s.poison || ue, queuedOpp := false }
    let d3 := if ue then latch d2 die 17 2 ⟨0, 2, die, some s.job, 5, 4096⟩ else d2
    wakeSwaps (if s.queuedOpp then swapOut d3 sid else d3)
  | _ => d
def execSwapTransferEnd (sid : Nat) (ev : Upset) (s : State) : Host.Outcome State Fault Refusal :=
  okDev s (opSwapEnd s.dev sid ev)

/-! ### Binding (R304) -/

def setResult (d : Dev) (j r : Nat) : Dev := setJob d j { job d j with sessResult := r }

/-- BIND. -/
def opBind (d : Dev) (j s : Nat) : Dev :=
  if !isActive d j then d
  else if (sess d s).job.isSome then setResult d j 1
  else setResult (setSess d s { sess d s with job := some j }) j 0
def execBind (acc : Acc) (job : JobId) (sess : SessId) (s : State) : Host.Outcome State Fault Refusal :=
  okDev s (withReg s.dev acc (jobOff acc job.val 0x1D0) (fun d => opBind d job.val sess.val))

/-- A command in flight names a session. -/
def namesSess (c : Cmd) (s : Nat) : Bool :=
  match dOpcode c.desc with
  | 0x01 => c.sess.contains s
  | 0x03 => dBytes c.desc 8 2 == s || dBytes c.desc 10 2 == s
  | 0x04 => dBytes c.desc 8 2 == s
  | 0x02 => dBits c.desc 8 3 0 ≥ 5 && c.sess.contains s
  | _ => false

/-- UNBIND. -/
def opUnbind (d : Dev) (j s : Nat) : Dev :=
  if !isActive d j then d
  else
    let x := sess d s
    if x.job ≠ some j then setResult d j 3
    else if !sessEmpty x || (jobCmds d j).any (fun e => namesSess e.2 s) then setResult d j 2
    else setResult (setSess d s freeSess) j 0
def execUnbind (acc : Acc) (job : JobId) (sess : SessId) (s : State) : Host.Outcome State Fault Refusal :=
  okDev s (withReg s.dev acc (jobOff acc job.val 0x1D0) (fun d => opUnbind d job.val sess.val))

/-! ### Declarations (R333) -/

/-- Offset of declaration register i: KV pools first, then the three comet words. -/
def declReg (i : Nat) : Nat := if i < 8 then 0x1A0 + 4 * i else 0x1C4 + 4 * (i - 8)

/-- The pool or layer that a declaration register describes has nothing allocated. -/
def declFree (d : Dev) (j reg : Nat) : Bool :=
  if reg < 0x1C0 then
    !d.qm.pst.any (fun e => e.2.job == j && e.2.pool == (reg - 0x1A0) / 8 && e.2.res != 0)
  else !d.qm.slots.any (fun e => e.2.job == j && e.2.layer == rj d j 0x1C0 % 1024 && e.2.state != .free)

/-- A declaration write; fields out of range keep their value and are counted (16 R494). -/
def opDecl (d : Dev) (a : Acc) (j reg v : Nat) : Dev :=
  if !(jobCmds d j).isEmpty || !declFree d j reg then setJob d j { job d j with declRej := true }
  else
    let off := regOff 60 (jPage j) reg
    if reg < 0x1C0 then
      let (d1, bad) := plainWrite d off v
      if bad then bar0Error d1 a off else d1
    else
      let l := rj d j 0x1C0 % 1024
      let cd := cometOf d j l
      let old := if reg = 0x1C4 then cd.cfg0 else if reg = 0x1C8 then cd.cfg1 else cd.cfg2
      let mask := match findRow .qmgrJ reg with | some r => r.rw | none => 0
      let (v', bad) := rangeFix .qmgrJ reg old (v &&& mask)
      let cd' : CometDecl := if reg = 0x1C4 then { cd with cfg0 := v' } else if reg = 0x1C8 then { cd with cfg1 := v' }
        else { cd with cfg2 := v' }
      let d1 := setJob d j { job d j with comets := SMap.put (job d j).comets l cd' ⟨0, 0, 0⟩ }
      if bad then bar0Error d1 a off else d1
def execDeclarationWrite (acc : Acc) (job : JobId) (reg : Fin 11) (value : Word) (s : State) :
    Host.Outcome State Fault Refusal :=
  okDev s (withReg s.dev acc (jobOff acc job.val (declReg reg.val))
    (fun d => opDecl d acc job.val (declReg reg.val) value.toNat))

end Sys2Proof.Machine
end

