-- ==== Sys2Proof/Machine/Seg.lean ====
section
/-! DEFINITION. RUN_SEGMENT: the checks at its start, pins, snapshots and holds, and the start of its cores (04 R102,
R106, R111, R115-R118; 05 R143, R166; 06 R194, R202; 08 R244, R252; 10 R308, R310; 11 R369). -/

namespace Sys2Proof.Machine
open Sys2Proof

/-! ### Prefetch marks (08 R251-R253) -/

def pfCount (d : Dev) (j : Nat) : Nat := bitsOf (rj d j 0x188) 20 0
def pfLook (d : Dev) (j : Nat) : Nat := max 1 (bitsOf (rj d j 0x188) 31 24)

/-- Bytes at a device address as committed, without checks. -/
def rawBytes (d : Dev) (a : DevAddr) (n : Nat) : List Nat :=
  match a with
  | .t0 c o => readT0 d c o n
  | .obj t oid o => readRoot d (gKey t oid (o / 4096)) (o % 4096) n
  | _ => List.replicate n 0

/-- Entry i of a job's prefetch list, 32 bytes. -/
def pfBytes (d : Dev) (j i : Nat) : List Nat := rawBytes d (addrAdd (decodeAddr (rj64 d j 0x180)) (32 * i)) 32
def pfSrc (e : List Nat) : DevAddr := decodeAddr (sBytes e 0 8)
def pfDst (e : List Nat) : DevAddr := decodeAddr (sBytes e 8 8)
def pfW4 (e : List Nat) : Nat := sBytes e 16 4
def pfEng (e : List Nat) : Nat := bitsOf (pfW4 e) 27 25
def pfGrans (e : List Nat) : Nat := bitsOf (pfW4 e) 15 0 * (tileGrans (bitsOf (pfW4 e) 31 28)).getD 0
def pfStepOf (e : List Nat) : Nat := sBytes e 20 4
def pfWait (e : List Nat) : Nat := sBytes e 24 4
def pfAfterW (e : List Nat) : Nat := sBytes e 28 4
def pfAfter (e : List Nat) : Option Nat := if (pfAfterW e).testBit 31 then some (bitsOf (pfAfterW e) 19 0) else none

/-- Marks the destination granules of an entry; those of a scratchpad only while the job is resident (R253, R257). -/
def markEntry (d : Dev) (j i : Nat) (e : List Nat) : Dev :=
  match pfDst e with
  | .t0 c o => if (job d j).resident then (rangeKeys (.t0 c o) (pfGrans e)).foldl (fun d k => markGran d j i k) d else d
  | a => (rangeKeys a (pfGrans e)).foldl (fun d k => markGran d j i k) d

/-- Makes eligible, in list order, the entries whose steps the job has reached, and marks their granules (R253). -/
def markEligible (d : Dev) (j : Nat) : Dev :=
  (List.range (pfCount d j)).foldl (fun d i =>
    let x := job d j
    let e := pfBytes d j i
    if SMap.has x.pf i || x.pfStep < pfWait e || x.pfStep + pfLook d j < pfStepOf e then d
    else
      let d1 := setJob d j { x with pf := SMap.insert x.pf i .eligible }
      markEntry d1 j i e) d

/-- R252: the step rises, never falls. -/
def raiseStep (d : Dev) (j step : Nat) : Dev :=
  let x := job d j
  if x.pfStep < step then markEligible (setJob d j { x with pfStep := step }) j else d

/-! ### Reading and checking the images -/

/-- What reading and checking the control structures of a command gives: the device after the reads, what is left of the
upset, and the result, or the status and DETAIL that the command ends with. -/
abbrev Loaded (α : Type) := Dev × Upset × Except (Nat × Nat) α

/-- Reads a control structure of a command in a copy of its object list. -/
def loadCtl (d : Dev) (uid : Nat) (c : Cmd) (a n : Nat) (ev : Upset) : Loaded (List Nat) :=
  match readCtl d uid c.job (some c.objs) a n ev with
  | (d1, x) => (d1, evDrop ev (ctlPlaces d1 uid a n), x)

/-- Reads an image of a command: its header, which says how long it is, and then all of it. -/
def readImage (d : Dev) (uid : Nat) (c : Cmd) (a : Nat) (ev : Upset) : Loaded (List Nat) :=
  if a % 64 ≠ 0 then (d, ev, .error (stBad, badDetail uid none))
  else match readCtl d uid c.job (some c.objs) a 64 .none with
    | (d1, .error e) => (d1, ev, .error e)
    | (d1, .ok hdr) => loadCtl d1 uid c a (imageLen hdr) ev

/-- The run-time extents A0 to A7 of a descriptor. -/
def aExts (w : BitVec 512) : List Nat := (List.range 8).map (fun i => dBytes w (16 + 4 * i) 4)

/-- A pointer list's entries (R115). -/
def ptrEntries (bs : List Nat) (n : Nat) : List PtrEnt :=
  (List.range n).map (fun i =>
    { a := sBytes bs (32 * i) 8, b := sBytes bs (32 * i + 8) 8, c := sBytes bs (32 * i + 16) 8,
      extM := sBytes bs (32 * i + 24) 2, extN := sBytes bs (32 * i + 26) 2, extK := sBytes bs (32 * i + 28) 4 })

/-- A pointer lies in the job's memory and is granule aligned (R116). -/
def ptrOk (d : Dev) (j p : Nat) : Bool :=
  p % 4096 == 0 && (match decodeAddr p with
  | .t0 c o => banksOk d j c o 4096
  | .obj t oid o => (match copyFor d 0 oid t with
    | some (ob, _) => mayRead ob j && decide (o < ob.size * 4096)
    | none => false)
  | _ => false)

/-- Number of entries of a program's pointer list. -/
def ptrCount (im : Image) (ext : List Nat) : Nat :=
  match im.loops.find? (·.ptrlist) with
  | some l => extOf ext l.dim
  | none => 0

/-- The pointer list of a program, with its checks: pointers BAD_DESCRIPTOR, extents SHAPE_OVER_PLAN (R111, R115, R116). A
list of more than 65,536 entries ends with BAD_DESCRIPTOR (log 7). -/
def readPtrs (d : Dev) (uid : Nat) (c : Cmd) (im : Image) (ext : List Nat) (ev : Upset) : Loaded (List PtrEnt) :=
  if im.batchMode ≠ 1 then (d, ev, .ok [])
  else
    let n := ptrCount im ext
    if im.batchBase % 32 ≠ 0 || n > 65536 then (d, ev, .error (stBad, badDetail uid none))
    else match loadCtl d uid c im.batchBase (32 * n) ev with
      | (d1, ev1, .error e) => (d1, ev1, .error e)
      | (d1, ev1, .ok bs) =>
        let es := ptrEntries bs n
        (d1, ev1, if es.all (fun e => ptrOk d1 c.job e.a && ptrOk d1 c.job e.b && ptrOk d1 c.job e.c) then .ok es
          else .error (stBad, badDetail uid none))

/-- A dimension, numbered, has an extent above its plan. -/
def dimOver (ext : List Nat) (ptrs : List PtrEnt) (p : DimEnt × Nat) : Bool :=
  decide (p.1.p < extOf ext p.2)
    || ptrs.any (fun e => (p.1.role == 0 && decide (p.1.p < e.extM)) || (p.1.role == 1 && decide (p.1.p < e.extN))
        || (p.1.role == 2 && decide (p.1.p < e.extK)))
/-- An extent above its plan. -/
def overPlan (im : Image) (ext : List Nat) (ptrs : List PtrEnt) : Bool := im.dims.zipIdx.any (dimOver ext ptrs)
/-- The index of the first extent above its plan: the number of the run-time extent that the dimension takes, or, where it
takes none, the dimension's own (log 7). -/
def overIndex (im : Image) (ext : List Nat) (ptrs : List PtrEnt) : Nat :=
  match im.dims.zipIdx.find? (dimOver ext ptrs) with
  | some (e, i) => if e.extSrc = 255 then i else e.extSrc
  | none => 0
/-- A zero extent, or a pointer list whose every entry has one (R111). -/
def isEmptyRun (im : Image) (ext : List Nat) (ptrs : List PtrEnt) : Bool :=
  im.dims.zipIdx.any (fun p => extOf ext p.2 == 0)
  || (im.batchMode == 1 && ptrs.all (fun e => e.extM == 0 || e.extN == 0 || e.extK == 0))

/-- R117: the folded program, in which M is walked over the batch. -/
def foldImage (im : Image) (ext : List Nat) : Image × List Nat :=
  match im.batchMode, dimOfRole im 0 with
  | 2, some m =>
    let b := dimOfRole im 3
    let pb := match b with | some k => dimP im k | none => 1
    let ab := match b with | some k => extOf ext k | none => 1
    ({ im with itemM := foldM im ext, dims := im.dims.zipIdx.map (fun p => if p.2 = m then { p.1 with p := p.1.p * pb } else p.1) },
     ext.zipIdx.map (fun p => if p.2 = m then p.1 * ab else p.1))
  | _, _ => (im, ext)

/-- A core's program, ready to start: core, image, extents before the fold, and its walk. -/
abbrev Prog4 := Nat × Image × List Nat × List Item

/-- Reads and checks the images of all cores, in core order (R102, R106, R111). -/
def loadImages (uid : Nat) (c : Cmd) : List (Nat × Nat) → Dev → Upset → Loaded (List (Nat × Image))
  | [], d, ev => (d, ev, .ok [])
  | (n, a) :: r, d, ev =>
    match readImage d uid c a ev with
    | (d1, ev1, .error e) => (d1, ev1, .error e)
    | (d1, ev1, .ok bs) =>
      let part := match placeEnt (job d c.job).place n with | some e => e.part | none => 0
      match decodeImage bs with
      | none => (d1, ev1, .error (stBad, badDetail uid none))
      | some im =>
        if !imageOk im (coreShared d n) part c.cores then
          (d1, ev1, .error (stBad, badDetail uid
            ((im.actions.zipIdx.find? (fun p => p.2 == keptFirst im || !actionOk im (coreShared d n) part c.cores p.1)).map (·.2))))
        else match loadImages uid c r d1 ev1 with
          | (d2, ev2, .ok l) => (d2, ev2, .ok ((n, im) :: l))
          | e => e

/-- The pointer lists of all programs. -/
def loadPtrs (uid : Nat) (c : Cmd) : List (Nat × Image) → Dev → Upset → Loaded (List (Nat × Image × List PtrEnt))
  | [], d, ev => (d, ev, .ok [])
  | (n, im) :: r, d, ev =>
    match readPtrs d uid c im (runExts im (aExts c.desc)) ev with
    | (d1, ev1, .error e) => (d1, ev1, .error e)
    | (d1, ev1, .ok ps) =>
      match loadPtrs uid c r d1 ev1 with
      | (d2, ev2, .ok l) => (d2, ev2, .ok ((n, im, ps) :: l))
      | e => e

/-- A granule of an image or of a pointer list of a command is PENDING: its start waits for the granule (08 R256). -/
def imagesPending (d : Dev) (uid : Nat) (c : Cmd) : Bool :=
  c.images.any (fun a => ctlPending d a 64 ||
    (match (readCtl d uid c.job (some c.objs) a 64 .none).2 with
     | .error _ => false
     | .ok hdr =>
       ctlPending d a (imageLen hdr) ||
       (match (readCtl d uid c.job (some c.objs) a (imageLen hdr) .none).2 with
        | .error _ => false
        | .ok bs => (match decodeImage bs with
          | some im => im.batchMode == 1 && ctlPending d im.batchBase (32 * ptrCount im (runExts im (aExts c.desc)))
          | none => false))))

/-- A session of the list has a seal key slot that is EMPTY (13 R433). -/
def keyErased (d : Dev) (c : Cmd) : Bool :=
  c.sess.any (fun s => (sess d s).keyValid && !SMap.has d.sec.keys (c.job * 16 + (sess d s).keySlot))

/-! ### Pins and snapshots -/

/-- Pins a session's pages and takes the snapshot of its lists; a page whose record disagrees fails the command with
KV_STATE_ERR (R143, R166). A command holds one pin on a page, however many of its lists name it (R136, R164). -/
def pinPages (d : Dev) (uid s : Nat) : Dev :=
  (sess d s).lists.foldl (fun d e =>
    match cmd d uid with
    | none => d
    | some c =>
      if c.phase ≠ .running then d
      else
        let d1 := setCmd d uid { c with snap := SMap.insert c.snap (s * 2 ^ 24 + e.1) ⟨e.2.ents, e.2.version, false, 0⟩ }
        e.2.ents.foldl (fun d p =>
          match cmd d uid with
          | none => d
          | some c =>
            if c.phase ≠ .running then d
            else if (pst d p.pid).res = 0 || (pst d p.pid).gen ≠ p.gen then
              failFault (latchQm d c.job 0 (qmCap d c.job 0 0 16)) uid (qmDie d c.job) qPage false
            else if c.pinP.contains p.pid then d
            else pinPage (setCmd d uid { c with pinP := c.pinP ++ [p.pid] }) p.pid) d1) d

/-- Pins a session's slots, each once; a slot whose record disagrees fails the command with SLOT_STATE_ERR (06 R192, R194,
R200, R202). -/
def pinSlots (d : Dev) (uid s : Nat) : Dev :=
  (sess d s).tails.foldl (fun d t =>
    match cmd d uid with
    | none => d
    | some c =>
      if c.phase ≠ .running then d
      else
        let x := slot d t.2.1
        if x.state = .free || x.gen ≠ t.2.2 then
          let die := coreDie (homeCore d c.job t.1)
          failFault (latch d die 17 1 ⟨0, 2, die, some c.job, 0, 16⟩) uid die 17 false
        else if c.pinS.any (fun p => p.1 == t.2.1) then d
        else pinSlot (setCmd d uid { c with pinS := c.pinS ++ [(t.2.1, x.version)] }) t.2.1) d

/-! ### The start -/

/-- The cores of a command may run it now: resident, up, and free of the job's other commands; no command of a more
urgent queue that may start waits for one of them (R308). -/
def coresReady (d : Dev) (uid : Nat) (c : Cmd) : Bool :=
  (c.cores.isEmpty || (job d c.job).resident)
  && c.objs.all (fun o => t0Ready d c.job (.obj o.1 o.2 0))
  && c.cores.all (fun n => coreUp d n && !leaving d c.job n && !SMap.has (core d n).ctxs c.job)
  && !d.qm.cmds.any (fun e => e.2.job == c.job && decide (c.queue < e.2.queue) && e.2.phase == .waiting && e.1 != uid
      && queueReady d e.1 e.2 && e.2.cores.any (c.cores.contains ·))

/-- Starts one core of a command. -/
def startCore (uid j readyAt : Nat) (d : Dev) (p : Nat × Image × List PtrEnt × List Nat) : Dev :=
  let n := p.1
  let (im, ext) := foldImage p.2.1 p.2.2.2
  let d1 := match placeEnt (job d j).place n with
    | some e => clearSems (clearCore d j e) n (ownSems d n j).1 (ownSems d n j).2
    | none => d
  let x : Ctx :=
    { uid := uid, image := im, exts := p.2.2.2, todo := walkImage im p.2.2.1 ext, readyAt := readyAt, curAct := 0,
      curIdx := [], waitFrom := none, heldFrom := none, nextId := 1, running := [], argmax := [], lastRegion := [],
      fenceBE := false, stepOk := false, gateFrom := none, slipFrom := 0, swapFrom := none }
  finishCore (skipItems (setCtx d1 n j x) n j) n j

/-- OCC of the next epoch boundary, the present cycle included. -/
def nextBoundary (d : Dev) : Nat :=
  if d.orb.occ ≤ orbBase d then orbBase d
  else orbBase d + ceilDiv (d.orb.occ - orbBase d) (orbLen d) * orbLen d

/-- Everything after the checks: holds, pins, the step, and the cores (R118, R143, R194, R244, R252, R369). -/
def launch (d : Dev) (uid : Nat) (c : Cmd) (orbit : Bool) (ps : List (Nat × Image × List PtrEnt)) : Dev :=
  let b := nextBoundary d
  let c1 : Cmd := if orbit then
      { c with orbit := true, tag := (b - orbBase d) / orbLen d % 65536, coresLeft := c.cores } else { c with coresLeft := c.cores }
  let d1 := setCmd (if orbit then bump d 56 16 0x210 1 else d) uid c1
  let d2 := c.objs.foldl (fun d o => takeHold d uid o.1 o.2) d1
  let d3 := c.sess.foldl (fun d s => pinSlots (pinPages d uid s) uid s) d2
  match cmd d3 uid with
  | some c3 =>
    if c3.phase ≠ .running then d3
    else
      let d4 := raiseStep d3 c.job (dBytes c.desc 48 4)
      let readyAt := if orbit then d.now + (b - d.orb.occ) else d.now + 1
      let d5 := (ps.map (fun p => (p.1, p.2.1, p.2.2, runExts p.2.1 (aExts c.desc)))).foldl (startCore uid c.job readyAt) d4
      if c.cores.isEmpty then requestCommit d5 uid else d5
  | none => d3

/-- RUN_SEGMENT at its start: absent copies and foreign sessions, images (R106), extents (R111), key slots (13 R433), ORBIT
(R369). All pointer lists are read and checked before any extent is held against its plan (log 7). -/
def opRunSegment (d : Dev) (uid : Nat) (ev : Upset) : Dev :=
  startCmd d uid 0x01 (fun c => coresReady d uid c && !imagesPending d uid c) (fun d c =>
    if c.objs.any (fun o => (copyFor d uid o.2 o.1).isNone) || c.sess.any (fun s => decide (16384 ≤ s) || !boundTo d s c.job)
    then failBad d uid none
    else match loadImages uid c (c.cores.zip c.images) d ev with
    | (d1, _, .error (st, det)) => endCmd d1 uid st det false
    | (d1, ev1, .ok ims) =>
      match loadPtrs uid c ims d1 ev1 with
      | (d2, _, .error (st, det)) => endCmd d2 uid st det false
      | (d2, _, .ok ps) =>
        let orbit := ims.any (fun p => p.2.orbit)
        let ext (im : Image) : List Nat := runExts im (aExts c.desc)
        match ps.find? (fun p => overPlan p.2.1 (ext p.2.1) p.2.2) with
        | some p => endCmd d2 uid stShape (overIndex p.2.1 (ext p.2.1) p.2.2) false
        | none =>
          if ps.any (fun p => isEmptyRun p.2.1 (ext p.2.1) p.2.2) then endEmpty d2 uid
          else if keyErased d2 c then endCmd d2 uid stSealed 0 false
          else if orbit && d2.orb.state != .running then endCmd d2 uid stOrbit 0 false
          else launch d2 uid c orbit ps)
def execRunSegment (uid : Nat) (ev : Upset) (s : State) : Host.Outcome State Fault Refusal :=
  okDev s (opRunSegment s.dev uid ev)

end Sys2Proof.Machine
end

