-- ==== Sys2Proof/Machine/Jobs.lean ====
section
/-! DEFINITION. Jobs: activation and destruction, slices and PREEMPT, save and restore (10 R299-R303, R323-R331;
15 R469, R470), and the prefetch engines (08 R251-R257). -/

namespace Sys2Proof.Machine
open Sys2Proof

/-! ### Activation (10 R300-R302; 15 R469, R470) -/

/-- No job that is resident, or that will be when its dies are awake, conflicts with job j (R302; log 33). -/
def noConflict (d : Dev) (j : Nat) (p : Placement) : Bool :=
  d.qm.jobs.all (fun e => e.1 == j || !(e.2.resident || e.2.awaits) || (conflictCores p e.2.place).isEmpty)

/-- The dies that a placement names and that are not awake. -/
def sleepingDies (d : Dev) (p : Placement) : List Nat :=
  ((p.cores.map (fun e => coreDie e.core)).dedup).filter (fun die => dieRetained d die || NSet.mem d.pwr.waking die)

/-- The power manager wakes the dies of a placement that it keeps retained for want of a job (R470). -/
def wakeFor (d : Dev) (p : Placement) : Dev :=
  let dies := ((p.cores.map (fun e => coreDie e.core)).dedup).filter (fun die => SMap.get? d.pwr.retained die == some 0)
  { d with pwr := { d.pwr with retained := dies.foldl (fun s die => SMap.erase s die) d.pwr.retained
                               waking := dies.foldl NSet.add d.pwr.waking } }

/-- A job becomes resident: its slice starts, and its cores are cleared where no other job runs (03 R100; R323). The
scratchpad granules of its eligible prefetch entries are PENDING again (08 R257). -/
def becomeResident (d : Dev) (j : Nat) : Dev :=
  let x := job d j
  let d1 := setJob d j { x with resident := true, awaits := false, sliceStart := d.now }
  let d2 := x.place.cores.foldl (fun d e => clearCore d j e) d1
  (x.pf.filter (fun e => e.2 == .eligible)).foldl (fun d e =>
    match pfDst (pfBytes d j e.1) with
    | .t0 _ _ => markEntry d j e.1 (pfBytes d j e.1)
    | _ => d) d2

/-- Makes resident, lowest job first, the jobs that waited for dies which are now awake. -/
def admitAwaiting (d : Dev) : Dev :=
  d.qm.jobs.foldl (fun d e =>
    if (job d e.1).awaits && (sleepingDies d (job d e.1).place).isEmpty then becomeResident d e.1 else d) d

/-- The port of the function that writes ACTIVATE; a writer with no port makes port A the owner (log 31). -/
def accPort (a : Acc) : Nat :=
  match a with
  | .pf p | .vf p _ => portNo p
  | _ => 0

/-- ACTIVATE: `rec` is the placement record as the host's memory gives it, none where the read fails. -/
def opActivate (d : Dev) (a : Acc) (j : Nat) (rec : Option (List Nat)) : Dev :=
  let x := job d j
  if x.state ≠ 0 then d
  else match rec with
    | none => setJob d j { x with err := 1 }
    | some bs =>
      match decodePlacement bs with
      | none => setJob d j { x with err := 2 }
      | some p =>
        let d1 := wakeFor d p
        let x1 : Job := { freeJob with state := 1, port := accPort a, place := p, comets := x.comets, declRej := x.declRej,
                                       sessResult := x.sessResult, sliceStart := d.now }
        let d2 := setJob d1 j x1
        let d3 :=
          if !noConflict d2 j p then d2
          else if (sleepingDies d2 p).isEmpty then becomeResident d2 j
          else setJob d2 j { x1 with awaits := true }
        markEligible d3 j
def execActivate (acc : Acc) (job : JobId) (rec : Option (List Byte)) (s : State) : Host.Outcome State Fault Refusal :=
  okDev s (withReg s.dev acc (jobOff acc job.val 0x100)
    (fun d => opActivate d acc job.val (rec.map (fun l => l.map BitVec.toNat))))

/-! ### Destruction (R331) -/

/-- DESTROY: fetching stops, and every command of the job in flight is killed; the rest follows when the last entry has
been written or abandoned. -/
def opDestroy (d : Dev) (j : Nat) : Dev :=
  let x := job d j
  if x.state ≠ 1 then d
  else
    let d1 := setJob d j { x with state := 2, destroyAt := some d.now }
    let d2 := { d1 with qm := { d1.qm with bells := d1.qm.bells.filter (fun b => b.1 != j) } }
    checkDestroy (endAll d2 (fun _ c => c.job == j) stKilled 0 false) j
def execDestroy (acc : Acc) (job : JobId) (s : State) : Host.Outcome State Fault Refusal :=
  okDev s (withReg s.dev acc (jobOff acc job.val 0x100) (fun d => opDestroy d job.val))

/-! ### The live map (R327, R328) -/

/-- One entry of a live map: its device address and its granules. -/
abbrev LiveEnt := DevAddr × Nat

/-- An entry of the live map of job j is valid (R327). -/
def liveOk (d : Dev) (j : Nat) (bs : List Nat) : Bool :=
  let n := sBytes bs 8 4
  sBytes bs 12 4 == 0 &&
  match decodeAddr (sBytes bs 0 8) with
  | .t0 c o => o % 4096 == 0 && banksOk d j c o (n * 4096)
  | .obj t oid o =>
    t == 1 && o == 0 && (match copyFor d 0 oid 1 with
      | some (ob, c) => ob.size == n && claims c j
      | none => false)
  | _ => false

/-- The live map of a job, or the status and DETAIL of a PREEMPT of it whose map cannot be read or holds an invalid entry
(R327; 08 R259). -/
def liveMap (d : Dev) (uid j : Nat) (ev : Upset) : Dev × Except (Nat × Nat) (List LiveEnt) :=
  let n := bitsOf (rj d j 0x120) 15 0
  if n = 0 then (d, .ok [])
  else match readCtl d 0 j none (rj64 d j 0x118) (16 * n) ev with
    | (d1, .error e) => (d1, .error e)
    | (d1, .ok bs) =>
      let es := (List.range n).map (fun i => (bs.drop (16 * i)).take 16)
      if es.all (liveOk d j) then (d1, .ok (es.map (fun e => (decodeAddr (sBytes e 0 8), sBytes e 8 4))))
      else (d1, .error (stBad, badDetail uid none))

/-- Another job also claims the T1 copy: its entry is ignored (R327). -/
def sharedT1 (d : Dev) (j oid : Nat) : Bool :=
  match copyFor d 0 oid 1 with
  | some (_, c) => (c.claims &&& ~~~(1#256 <<< j)) != 0
  | none => true

/-- The T1 copies of a live map that a switch releases. -/
def liveT1 (d : Dev) (j : Nat) (m : List LiveEnt) : List Nat :=
  m.filterMap (fun e => match e.1 with
    | .obj _ oid _ => if sharedT1 d j oid then none else some oid
    | _ => none)
/-- The scratchpad granules of a live map. -/
def liveT0 (m : List LiveEnt) : List Nat :=
  (m.map (fun e => match e.1 with
    | .t0 c o => rangeKeys (.t0 c o) e.2
    | _ => [])).flatten

/-- The scratchpad granules of the arena entries of a job's RESIDENT slots on some cores (R328). -/
def arenaGrans (d : Dev) (j : Nat) (cores : List Nat) : List Nat :=
  ((d.qm.slots.filter (fun e => e.2.job == j && e.2.state == .resident && cores.contains (homeCore d j e.2.layer))).map
    (fun e => rangeKeys (.t0 (homeCore d j e.2.layer) (halfOff d e.2 false)) (2 * halfGrans (cometOf d j e.2.layer)))).flatten

def sizeOf1 (d : Dev) (oid : Nat) : Nat := match obj d oid with | some o => o.size | none => 0

/-- T2 granules of the save area of a job under SAVE, arenas apart. -/
def saveNeed (d : Dev) (j : Nat) (m : List LiveEnt) : Nat :=
  (liveT0 m).length + sumBy (liveT1 d j m) (sizeOf1 d)

/-- The restore of a job fits its T1 quota and the inkwells, after the victim's releases (R324). -/
def restoreFits (d : Dev) (j victim : Nat) (m : List LiveEnt) : Bool :=
  match (job d j).save with
  | none => true
  | some s =>
    let gone := liveT1 d victim m
    let need := sumBy s.t1oids (sizeOf1 d)
    let dieOf (oid : Nat) : Nat := match obj d oid with | some o => o.t1die | none => 0
    let onDie (l : List Nat) (md : Nat) : Nat := sumBy (l.filter (fun o => dieOf o == md)) (sizeOf1 d)
    decide (usage d j 1 + need ≤ (job d j).quota1)
      && (List.range 8).all (fun md => decide (onDie s.t1oids md ≤ inkFree d md + onDie gone md))

/-! ### Slice end (R323, R325) -/

/-- A command uses one of some cores, or addresses T0 on one (R325). -/
def touchesCores (c : Cmd) (cores : List Nat) : Bool :=
  let t0 (a : Nat) : Bool := match decodeAddr a with
    | .t0 n _ => cores.contains n
    | _ => false
  c.cores.any (cores.contains ·) || c.images.any t0
    || (dOpcode c.desc == 0x02 && dBits c.desc 8 3 0 == 0 && (t0 (dBytes c.desc 16 8) || t0 (dBytes c.desc 24 8)))
    || (dOpcode c.desc == 0x02 && dBits c.desc 8 3 0 ≥ 5 && t0 (dBytes c.desc 16 8))

/-- The cores on which the victim and the incoming job of a PREEMPT conflict. -/
def preCores (d : Dev) (p : Pre) : List Nat := conflictCores (job d p.victim).place (job d p.incoming).place

def setPre (d : Dev) (p : Pre) : Dev :=
  { d with qm := { d.qm with pres := d.qm.pres.map (fun q => if q.uid = p.uid then p else q) } }
/-- A PREEMPT is over. -/
def dropPre (d : Dev) (uid : Nat) : Dev := { d with qm := { d.qm with pres := d.qm.pres.filter (fun q => q.uid != uid) } }

/-- A command of the victim that the slice end treats: started, not in commit. -/
def affectedBy (d : Dev) (p : Pre) (c : Cmd) : Bool :=
  c.job == p.victim && (c.phase == .running || c.phase == .worked) && touchesCores c (preCores d p)

/-- The victim's slice ends for a PREEMPT: commands without RTC are killed, those with RTC run on (R325). -/
def endSlice (d : Dev) (p : Pre) : Dev :=
  let d1 := setPre d { p with endedAt := some d.now }
  let d2 := endAll d1 (fun _ c => affectedBy d1 p c && !dRTC c.desc) stKilled 0 false
  (d2.qm.cmds.filter (fun e => affectedBy d2 p e.2)).foldl (fun d e => setCmd d e.1 { e.2 with affected := true }) d2

/-- SLICE_END (R323): the slice length has passed. A new slice starts, unless a PREEMPT waits for the end. -/
def opSliceEnd (d : Dev) (j : Nat) : Dev :=
  let x := job d j
  let us := rj d j 0x108
  if x.state = 1 && x.resident && us ≠ 0 && decide (x.sliceStart + us * 1050 ≤ d.now) then
    match d.qm.pres.find? (fun p => p.victim == j && p.endedAt.isNone) with
    | some p => endSlice d p
    | none =>
      if d.qm.pres.any (fun p => p.victim == j) then d
      else setJob d j { x with sliceStart := x.sliceStart + (d.now - x.sliceStart) / (us * 1050) * (us * 1050) }
  else d
def execSliceEnd (job : JobId) (s : State) : Host.Outcome State Fault Refusal := okDev s (opSliceEnd s.dev job.val)

/-- OVERRUN_EXPIRY (R325): an RTC command that has not entered commit in time is killed. -/
def opOverrun (d : Dev) (uid : Nat) : Dev :=
  match cmd d uid with
  | none => d
  | some c =>
    let us := max 1 (rg d (qmDie d c.job) qPage 0x108)
    let due := d.qm.pres.any (fun p => p.victim == c.job && (match p.endedAt with
      | some t => decide (t + us * 1050 ≤ d.now)
      | none => false))
    if c.affected && (c.phase = .running || c.phase = .worked) && due then endCmd d uid stKilled 0 false else d
def execOverrunExpiry (uid : Nat) (s : State) : Host.Outcome State Fault Refusal := okDev s (opOverrun s.dev uid)

/-- PREEMPT (R324). -/
def opPreempt (d : Dev) (uid : Nat) (ev : Upset) : Dev :=
  startCmd d uid 0x08 (fun c =>
    let v := dBytes c.desc 8 1
    !ctlPending d (rj64 d v 0x118) (16 * bitsOf (rj d v 0x120) 15 0)) (fun d c =>
    let v := dBytes c.desc 8 1
    let i := dBytes c.desc 9 1
    let kill := dBits c.desc 10 0 0 == 1
    let now := dBits c.desc 10 1 1 == 1
    if !isPriv d c.job || !isActive d v || !isActive d i || !(job d v).resident || (job d i).resident || (job d i).awaits then
      failBad d uid none
    else match liveMap d uid v ev with
      | (d, .error e) => endCmd d uid e.1 e.2 false
      | (d, .ok m) =>
        if !restoreFits d i v m then endCmd d uid stQuota 1 false
        else
          let down := !kill && decide ((job d v).quota2 < usage d v 2 + saveNeed d v m)
          let p : Pre := { uid := uid, victim := v, incoming := i, kill := kill || down, endedAt := none, live := m }
          let d1 := setCmd { d with qm := { d.qm with pres := d.qm.pres ++ [p] } } uid { c with detail := b2n down }
          let us := rj d1 v 0x108
          let late := us ≠ 0 && decide ((job d1 v).sliceStart + us * 1050 ≤ d1.now)
          if now || late then endSlice d1 p else d1)
def execPreempt (uid : Nat) (ev : Upset) (s : State) : Host.Outcome State Fault Refusal := okDev s (opPreempt s.dev uid ev)

/-! ### The victim goes out (R326-R330) -/

/-- A read of a granule for a save or a restore: the device, and whether the data is lost. POISON goes with the data. -/
def moveRead (j : Nat) (d : Dev) (k sid : Nat) (ev : Upset) : Dev × Bool :=
  let d0 := readLines d sid 0 4096
  if poisoned d sid then (d0, false)
  else
    let r := checkRead d0 k sid (qmCap d j 0 1 4096).addr ev (qmCap d j 0 1 4096)
    (r.1, r.2.isSome)

/-- A device on its way through a list of granules, and what is left of the upset. -/
abbrev Moving := Dev × Upset

/-- Copies one granule into a save area; its marks go with it (08 R261), and what cannot be read is poisoned there (log 37). -/
def saveGran (j : Nat) (x : Moving) (k : Nat) : Moving :=
  match rootOf x.1 k with
  | none => x
  | some src =>
    let (d1, bad) := moveRead j x.1 k src (evHere x.2)
    let (d2, s) := newGran d1
    let d3 := copyGran d2 src s
    let d4 := if bad then setPoison d3 s true else d3
    let q := job d4 j
    let a : SaveArea := match q.save with | some a => a | none => ⟨[], []⟩
    (setJob d4 j { q with save := some { a with grans := a.grans ++ [⟨k, s⟩] } }, evNext x.2)

/-- Saves one live T1 copy and releases its granules and its charge (R329). -/
def saveT1 (j : Nat) (x : Moving) (oid : Nat) : Moving :=
  match obj x.1 oid with
  | none => x
  | some o =>
    let y := (rangeKeys (.obj 1 oid 0) o.size).foldl (saveGran j) x
    let q := job y.1 j
    let a : SaveArea := match q.save with | some a => a | none => ⟨[], []⟩
    let d2 := setJob y.1 j { q with save := some { a with t1oids := a.t1oids ++ [oid] } }
    (freeGrans (setObj d2 oid (setCopy o 1 noCopy)) 1 oid, y.2)

/-- Clears a job's marks from scratchpads: they return with the job (08 R257). -/
def unmarkT0 (d : Dev) (j : Nat) : Dev :=
  let f (e : Nat × List (Nat × Nat)) : Nat × List (Nat × Nat) := (e.1, if gIsT0 e.1 then e.2.filter (fun m => m.1 != j) else e.2)
  { d with mem := { d.mem with marks := (d.mem.marks.map f).filter (fun e => !e.2.isEmpty) } }

/-- Steps 1 to 3 of R326: save or discard, release, clear. The upset's places are the granules saved, in order. -/
def victimGoes (d : Dev) (p : Pre) (ev : Upset) : Moving :=
  let cores := preCores d p
  let j := p.victim
  let t1 := liveT1 d j p.live
  let arenas := arenaGrans d j cores
  let x1 := if p.kill then (d, ev) else (liveT0 p.live).foldl (saveGran j) (d, ev)
  let x2 := (if p.kill then arenas else arenas.filter (fun k => !(liveT0 p.live).contains k)).foldl (saveGran j) x1
  let x3 := if p.kill then (t1.foldl (fun d o => evictCopy d o 1 j) x2.1, x2.2) else t1.foldl (saveT1 j) x2
  let d4 := ((job x3.1 j).place.cores.filter (fun e => cores.contains e.core)).foldl (fun d e => clearCore d j e)
    (unmarkT0 x3.1 j)
  (setJob d4 j { job d4 j with resident := false }, x3.2)

/-- Restores one saved granule; the granules of a T1 copy were made present before. -/
def restoreGran (d : Dev) (g : SaveGran) : Dev :=
  if gIsT0 g.key then copyGran d g.sid g.key
  else
    let (d1, s) := newGran d
    copyGran (setRoot d1 g.key s) g.sid s

/-- A saved T1 copy is allocated again on its T1_DIE, charged to the job (R330). -/
def reallocT1 (j : Nat) (d : Dev) (oid : Nat) : Dev :=
  match obj d oid with
  | some o =>
    if o.c1.present then claimCopy d oid 1 j
    else setObj d oid (setCopy o 1 ⟨true, false, j, 0, 1#256 <<< j, 0⟩)
  | none => d

/-- The reads of a save, in order: the device, and whether one of them lost its data. -/
def readSave (j : Nat) : List SaveGran → Moving → Dev × Bool
  | [], x => (x.1, false)
  | g :: r, x =>
    match moveRead j x.1 (gKey 11 j 0) g.sid (evHere x.2) with
    | (d1, true) => (d1, true)
    | (d1, false) => readSave j r (d1, evNext x.2)

/-- Step 4 of R326: the incoming job's save is written back and freed; an uncorrectable read loses it (R330). -/
def restoreJob (d : Dev) (j : Nat) (ev : Upset) : Dev :=
  match (job d j).save with
  | none => d
  | some a =>
    match readSave j a.grans (d, ev) with
    | (d1, true) => freeSave (setJob (latchQm d1 j 2 (qmCap d1 j 0 1 4096)) j { job d1 j with lost := true }) j
    | (d1, false) => freeSave (a.grans.foldl restoreGran (a.t1oids.foldl (reallocT1 j) d1)) j

/-- A prefetch entry of a job is in transfer. -/
def pfMoving (d : Dev) (j : Nat) : Bool :=
  (job d j).pf.any (fun e => match e.2 with
    | .transfer _ _ | .broken _ _ => true
    | _ => false)

/-- VICTIM_OUT (R326): no affected command runs, the prefetches in transfer have finished, and no other resident job
conflicts with the incoming one (R302; log 47). -/
def opVictimOut (d : Dev) (uid : Nat) (ev : Upset) : Dev :=
  match d.qm.pres.find? (fun p => p.uid == uid) with
  | none => d
  | some p =>
    if p.endedAt.isNone || d.qm.cmds.any (fun e => affectedBy d p e.2) || pfMoving d p.victim then d
    else
      let others := d.qm.jobs.all (fun e => e.1 == p.victim || e.1 == p.incoming || !(e.2.resident || e.2.awaits)
        || (conflictCores (job d p.incoming).place e.2.place).isEmpty)
      if !others || !(sleepingDies d (job d p.incoming).place).isEmpty then d
      else
        let (d1, ev1) := if (job d p.victim).resident then victimGoes d p ev else (d, ev)
        let d2 := dropPre d1 uid
        if !isActive d2 p.incoming then failBad d2 uid none
        else requestCommit (becomeResident (restoreJob d2 p.incoming ev1) p.incoming) uid
def execVictimOut (uid : Nat) (ev : Upset) (s : State) : Host.Outcome State Fault Refusal :=
  okDev s (opVictimOut s.dev uid ev)

/-! ### Prefetch lists (08 R252-R257) -/

/-- PREFETCH_LIST_SET: a write of QMGR_J_PF_CFG sets the list again (R252). -/
def opListSet (d : Dev) (a : Acc) (j v : Nat) : Dev :=
  let off := regOff 60 (jPage j) 0x188
  let (d1, bad) := plainWrite d off v
  let d2 := dropPrefetch d1 j
  let d3 := if isActive d2 j then markEligible d2 j else d2
  if bad then bar0Error d3 a off else d3
def execPrefetchListSet (acc : Acc) (job : JobId) (value : Word) (s : State) : Host.Outcome State Fault Refusal :=
  okDev s (withReg s.dev acc (jobOff acc job.val 0x188) (fun d => opListSet d acc job.val value.toNat))

def setPf (d : Dev) (j i : Nat) (p : PfState) : Dev := setJob d j { job d j with pf := SMap.insert (job d j).pf i p }

/-- The checks of R255 on an entry. -/
def pfBad (d : Dev) (j i : Nat) (e : List Nat) : Bool :=
  bitsOf (pfW4 e) 24 16 != 0 || bitsOf (pfAfterW e) 30 20 != 0 || (tileGrans (bitsOf (pfW4 e) 31 28)).isNone
    || bitsOf (pfW4 e) 15 0 == 0 || decide (pfStepOf e < pfWait e)
    || (match pfAfter e with
        | some k => decide (i ≤ k)
        | none => false)
    || !rangeOk d 0 j (pfSrc e) (pfGrans e) false || !rangeOk d 0 j (pfDst e) (pfGrans e) true
    || (addrTier (pfSrc e) == 3 && addrTier (pfDst e) == 3)

/-- A job may write a granule (R246; 03 R96). -/
def mayWriteGran (d : Dev) (j k : Nat) : Bool :=
  if gIsT0 k then banksOk d j (k / scratchGrans) (k % scratchGrans * 4096) 4096
  else match copyFor d 0 (gId k) (gKind k) with
    | some (o, _) => decide (k % 2 ^ 32 < o.size) && mayWrite o (gKind k) j
    | none => false

/-- POISON on a granule: its storage is made when it holds no content. -/
def poisonKey (d : Dev) (k : Nat) : Dev :=
  match rootOf d k with
  | some s => setPoison d s true
  | none =>
    match obj d (gId k) with
    | some o =>
      if (copyOf o (gKind k)).present && decide (k % 2 ^ 32 < o.size) then
        let (d1, s) := newGran d
        setPoison (setRoot d1 k s) s true
      else d
    | none => d

/-- Clears the marks of an entry's granules. -/
def unmarkAll (d : Dev) (j i : Nat) (e : List Nat) : Dev :=
  (rangeKeys (pfDst e) (pfGrans e)).foldl (fun d k => unmarkGran d j i k) d

/-- An entry fails (R255): its destination granules are poisoned, those apart that the job may not write (log 37),
PF_ENTRY_ERR rises, and the engine goes on. -/
def pfFail (d : Dev) (md j i : Nat) (e : List Nat) : Dev :=
  let d1 := unmarkAll (((rangeKeys (pfDst e) (pfGrans e)).filter (mayWriteGran d j)).foldl poisonKey d) j i e
  let d2 := setRg d1 (48 + md) 16 0x108 (i * 2 ^ 12 + j)
  setPf (latch d2 (48 + md) 16 0 ⟨encodeAddr (pfDst e), 2, md, some j, 1, min (pfGrans e * 4096) 0xFFFF⟩) j i .finished

/-- Entries that an engine has in transfer. -/
def inTransfer (d : Dev) (md : Nat) : Nat :=
  sumBy d.qm.jobs (fun e => (e.2.pf.filter (fun p => match p.2 with
    | .transfer g _ | .broken g _ => g == md
    | _ => false)).length)

/-- The engine may issue an entry: it is eligible, first of its engine's in list order, its AFTER entry has finished,
there is room, its source is not PENDING, it is the next writer of each destination granule, and a scratchpad destination
belongs to a job that is resident and not leaving (R253, R254, R256, R257). -/
def pfReady (d : Dev) (md j i : Nat) (e : List Nat) : Bool :=
  let x := job d j
  SMap.get? x.pf i == some .eligible && pfEng e == md
    && !x.pf.any (fun q => decide (q.1 < i) && q.2 == .eligible && pfEng (pfBytes d j q.1) == md)
    && decide (inTransfer d md < 16)
    && !d.qm.pres.any (fun p => p.victim == j && p.endedAt.isSome)
    && (match pfAfter e with
        | some k => decide (i ≤ k) || SMap.get? x.pf k == some .finished
        | none => true)
    && (match pfDst e with
        | .t0 c _ => (placeEnt x.place c).isNone || t0Ready d j (pfDst e)
        | a => t0Ready d j a)
    && (pfBad d j i e ||
      (t0Ready d j (pfSrc e)
       && !(rangeKeys (pfSrc e) (pfGrans e)).any (isPending d)
       && (rangeKeys (pfDst e) (pfGrans e)).all (fun k => (SMap.getD d.mem.marks k []).head? == some (j, i))))

/-- PREFETCH_ENTRY_ISSUE (R254, R255). -/
def opPfIssue (d : Dev) (md j i : Nat) (ev : Upset) : Dev :=
  let e := pfBytes d j i
  let n := pfGrans e
  if !pfReady d md j i e then d
  else if pfBad d j i e then pfFail d md j i e
  else
    let src := match pfSrc e with
      | .obj t oid _ => some (t, oid)
      | _ => none
    let d1 := match src with
      | some (t, oid) => holdCopy d oid t
      | none => d
    let d2 := setPf d1 j i (.transfer md src)
    match pfSrc e, pfDst e with
    | .t3 h o, _ => sendGets d2 (.pf j i) h o (encodeAddr (pfSrc e)) (encodeAddr (pfDst e)) n
    | _, .t3 h o =>
      (match gather 0 (qmCap d j (encodeAddr (pfSrc e)) 1 4096)
          ((granAddrs (pfSrc e) n).zip (rangeKeys (pfSrc e) n)) (touchReads d2 (rangeKeys (pfSrc e) n)) ev with
       | (d3, .ok data) => sendPuts d3 (.pf j i) h o (encodeAddr (pfDst e)) data
       | (d3, .error _) => setPf d3 j i (.broken md src))
    | _, _ => d2
def execPrefetchEntryIssue (md : MemDie) (job : JobId) (idx : Nat) (ev : Upset) (s : State) :
    Host.Outcome State Fault Refusal := okDev s (opPfIssue s.dev md.val job.val idx ev)

/-- Responses of an entry's T3 transfer are still to come. -/
def pfWaits (d : Dev) (j i : Nat) : Bool :=
  d.fab.reqs.any (fun e => e.2.owner == .pf j i) || d.fab.reqWait.any (fun x => x.2.owner == .pf j i)

/-- Moves one granule: data, SEAL, and POISON from a poisoned or uncorrectable source (R254, R258, R261). -/
def pfMove (j : Nat) (d : Dev) (p : (Nat × Nat) × Upset) : Dev :=
  let ks := p.1.1
  let kd := p.1.2
  match rootOf d ks with
  | none => writeRoot d kd 0 (List.replicate 4096 0) false
  | some s =>
    let r := checkRead d ks s 0 p.2 (qmCap d j 0 1 4096)
    let d2 := writeRoot r.1 kd 0 (stRead r.1 s 0 4096) (sealed r.1 s)
    if r.2.isSome then poisonKey d2 kd else d2

/-- PREFETCH_ENTRY_DONE (R254, R257, R258): the granules are written, their marks cleared, and the hold given back. An
uncorrectable error in the engine's buffer poisons them (09 R294). -/
def opPfDone (d : Dev) (md j i : Nat) (ev : Upset) : Dev :=
  let e := pfBytes d j i
  let n := pfGrans e
  let unhold (src : Option (Nat × Nat)) (d : Dev) : Dev := match src with
    | some (t, oid) => unholdCopy d oid t
    | none => d
  match SMap.get? (job d j).pf i with
  | some (.transfer g src) =>
    if g ≠ md || pfWaits d j i then d
    else
      let pairs := (rangeKeys (pfSrc e) n).zip (rangeKeys (pfDst e) n)
      let d1 := (pairs.zipIdx.map (fun p => (p.1, evAt ev p.2))).foldl (pfMove j)
        (touchReads d (rangeKeys (pfSrc e) n))
      let d1b := if ev = .bufUE then
          (rangeKeys (pfDst e) n).foldl poisonKey (latch d1 (48 + md) 16 1 (qmCap d j (encodeAddr (pfDst e)) 2 4096))
        else d1
      let d2 := unhold src (unmarkAll d1b j i e)
      bump (bump (setPf d2 j i .finished) (48 + md) 16 0x130 1) (48 + md) 16 0x134 n
  | some (.broken g src) =>
    if g ≠ md || pfWaits d j i then d else unhold src (pfFail d md j i e)
  | _ => d
def execPrefetchEntryDone (md : MemDie) (job : JobId) (idx : Nat) (ev : Upset) (s : State) :
    Host.Outcome State Fault Refusal := okDev s (opPfDone s.dev md.val job.val idx ev)

end Sys2Proof.Machine
end

