-- ==== Sys2Proof/Machine/Micro.lean ====
section
/-! DEFINITION. What all microprograms share: their issue, the waits of their operands, control blocks, and sliced FP64
(02 R51-R54; 04 R104, R127; 08 R256). -/

namespace Sys2Proof.Machine
open Sys2Proof

/-! ### Issue of a MICRO action (log 40) -/

/-- How a microprogram's step ends: it has run and takes some cycles, its command has ended, it waits, or it waits for a
granule that is PENDING. -/
inductive MicroEnd where
  | done (cycles : Nat)
  | failed | held | pending
deriving DecidableEq, Repr

/-- Granules of ranges inside the scratchpad. -/
def inScratch (n : Nat) (rs : List (Int × Nat)) : List Nat :=
  rangesGrans n (rs.filter (fun r => decide (0 ≤ r.1) && decide (r.1.toNat + r.2 ≤ scratchBytes)))

/-- A context waits from now on; the wait counts as a slip (R127). -/
def holdMicro (d : Dev) (n j : Nat) (x : Ctx) : Dev :=
  if x.heldFrom.isSome then d else slipCore (setCtx d n j { x with heldFrom := some d.now }) n

/-- A context waits for a granule that a prefetch has still to write (R127; 08 R256). -/
def holdPending (d : Dev) (n j : Nat) (x : Ctx) : Dev :=
  if x.heldFrom.isSome then d else bump (holdMicro d n j x) 60 (jPage j) 0x190 1

/-- Issue of the MICRO action at the head, when its MICRO_ID is `id`: it waits for the earlier actions of its context and
for operands that are PENDING, then runs in one step; its end is an ACTION_COMPLETION. `gr` gives the granules it reads
and those it writes; a wait for one that it writes counts as a slip of the quill core alone (07 R226). -/
def microIssue (d : Dev) (n j id : Nat) (kind : EngKind) (gr : Dev → Ctx → Item → List Nat × List Nat)
    (f : Dev → Ctx → Item → Dev × MicroEnd) : Dev :=
  match canIssue d n j with
  | none => d
  | some (x, it) =>
    let a := actOf x.image it
    if aType a ≠ 7 || aMicro a ≠ id || !x.running.isEmpty then d
    else if (gr d x it).1.any (isPending d) then
      holdPending d n j x
    else if (gr d x it).2.any (isPending d) then (if kind = .quill then holdMicro d n j x else d)
    else if gated d n then holdGate d n j x
    else
      match f d x it with
      | (d1, .failed) => d1
      | (d1, .held) => holdMicro d1 n j ((ctxOf d1 n j).getD x)
      | (d1, .pending) => holdPending d1 n j x
      | (d1, .done k) => issued (addRun d1 n j { newRun d1 n x it kind [] .none with started := true, endAt := d1.now + max 1 k }) n j

/-! ### What a microprogram leaves behind -/

/-- A region of the scratchpad whose content the spec leaves open (log 3). -/
def freeRegion (d : Dev) (n off len : Nat) : Dev :=
  writeT0 { d with freeCtr := d.freeCtr + 1 } n off ((List.range len).map (fun i => (Config.freeByte d.freeCtr i).toNat)) false

/-- The accumulator regions of a job on a core, and the vector registers, hold values that the spec leaves open once a
microprogram has run in them (log 3). -/
def freeBanks (d : Dev) (n j : Nat) : Dev :=
  let c := core d n
  let ctr := d.freeCtr
  let own := ownBlocks d n j
  let keys := (own.map (fun b => (List.range 1024).map (fun i =>
    accKey (b / 16) (b % 16 / 4 * 32 + i / 32) (b % 4 * 32 + i % 32)))).flatten
  let acc := keys.foldl (fun s k => SMap.put s k (Config.freeWord (ctr + k)).toNat 0) c.acc
  let mode := own.foldl (fun s b => SMap.put s b ((Config.freeWord (ctr + 32768 + b)).toNat % 2) 0) c.accMode
  let vregs := (List.range 32).foldl (fun s i => SMap.insert s i (Config.freeVreg (ctr + i))) c.vregs
  setCore { d with freeCtr := ctr + 40000 } n { c with acc := acc, accMode := mode, vregs := vregs }

/-- DETAIL of a failed read of storage that has no device address (log 3). -/
def freeDetail (d : Dev) : Dev × Nat :=
  let (d1, w) := freeVal d
  (d1, w.toNat)

/-! ### Control blocks and status -/

/-- The 32 words of a control block. -/
def ctlWords (d : Dev) (n off : Nat) : List Nat := (List.range 32).map (fun i => numT0 d n (off + 4 * i) 4)
def cw (w : List Nat) (i : Nat) : Nat := (w[i]?).getD 0
/-- Words i to 31 are zero. -/
def zeroFrom (w : List Nat) (i : Nat) : Bool := (w.drop i).all (· == 0)

/-- A finite value? -/
def fin32 (x : Nat) : Bool := fIsFin (val32 x)
def negInf32 : Nat := 0xFF800000
def posInf32 : Nat := 0x7F800000
/-- exp of the vector unit on binary32 (R63: FUNC 2). -/
def exp32 (x : Nat) : Nat := vecFn false 2 (val32 x)
/-- Horizontal sum and maximum of binary32 values (R62). -/
def hsum32 (l : List Nat) : Nat := treeOf add32 l 0
def hmax32 (l : List Nat) : Nat := treeOf max32 l negInf32

/-- Bytes of a stored element row of a format, and of its MX scales, at a tile: row r holds 128 elements (08 R234). -/
def tileRowAt (f : ElemFmt) (r : Nat) : Nat := r * rowBytes f
def tileScaleAt (f : ElemFmt) (r : Nat) : Nat := tileData (tileFmtOf f) + 4 * r

/-- Element c of row r of an operand of engine-ready tiles of 128 columns. -/
def opElt (d : Dev) (n base : Nat) (f : ElemFmt) (r c : Nat) : FVal :=
  let t := base + c / 128 * storedBytes f
  let v := elemVal f (eltAt d n (t + tileRowAt f r) f (c % 128))
  if isMX f then
    match e8m0 (numT0 d n (t + tileScaleAt f r + c % 128 / 32) 1) with
    | some e => fScale v e
    | none => .nan
  else v
/-- Ranges of rows r0 .. r0 + rows − 1 and cols columns of such an operand. -/
def opRanges (base : Int) (f : ElemFmt) (rows cols : Nat) : List (Int × Nat) :=
  ((List.range rows).map (fun r => ((List.range (ceilDiv cols 128)).map (fun t =>
    let w := min 128 (cols - 128 * t)
    (base + (t * storedBytes f + tileRowAt f r : Nat), ceilDiv (w * elemBits f) 8)
      :: (if isMX f then [(base + (t * storedBytes f + tileScaleAt f r : Nat), ceilDiv w 32)] else []))).flatten)).flatten

/-- Converts a row of binary32 values for output, rounding to nearest even (R56, R57): element bits, and the scale byte
of each block of 32. -/
def cvtRow (f : ElemFmt) (rnd : Nat → RndMode) (sat : Bool) (l : List FVal) : List Nat × List Nat :=
  if isMX f then
    let blocks := (List.range (ceilDiv l.length 32)).map (fun b =>
      mxQuant f (((l.drop (32 * b)).take 32).zipIdx.map (fun p => (p.1, rnd (32 * b + p.2)))))
    ((blocks.map (·.2)).flatten, blocks.map (·.1))
  else (l.zipIdx.map (fun p => cvtElem f (rnd p.2) sat p.1), [])

/-- Writes row r of an output operand of engine-ready tiles; `sl` says that it comes from a sealed source. -/
def putRow (d : Dev) (n base : Nat) (f : ElemFmt) (r : Nat) (elts scales : List Nat) (sl : Bool) : Dev :=
  (List.range (ceilDiv elts.length 128)).foldl (fun d t =>
    let b := base + t * storedBytes f
    let d1 := writeRowBits d n (b + tileRowAt f r) (elemBits f) ((elts.drop (128 * t)).take 128) sl
    if isMX f then writeT0 d1 n (b + tileScaleAt f r) ((scales.drop (4 * t)).take 4) sl else d1) d

/-- An output bit pattern is NaN or infinite. -/
def badOut (f : ElemFmt) (x : Nat) : Bool := !isMX f && !fIsFin (elemVal f x)

/-- Session numbers of a set in the scratchpad. -/
def sessSet (d : Dev) (n off ns : Nat) : List Nat := (List.range ns).map (fun i => numT0 d n (off + 2 * i) 2)
/-- Every session of a set is one of the command's, bound to the job, and named once (R142, 06 R182). -/
def sessOk (d : Dev) (c : Cmd) (l : List Nat) : Bool :=
  decide l.Nodup && l.all (fun s => c.sess.contains s && boundTo d s c.job)

/-! ### Sliced FP64 (02 R51-R54; log 50) -/

/-- The extents M, N and K of sliced FP64 at an item. -/
def fullK (im : Image) (it : Item) : Nat :=
  match dimOfRole im 2 with
  | some k => extOf (itemExt it) k
  | none => 128

/-- The FP64 element (i along M or N, k) of the operand of a slicing action. -/
def sliceSrc (d : Dev) (n base : Nat) (colMode : Bool) (i k : Nat) : FVal :=
  let t := base + k / 128 * 131072
  val64 (numT0 d n (if colMode then t + k % 128 * 1024 + 8 * i else t + i * 1024 + 8 * (k % 128)) 8)
def sliceRanges (base : Int) (colMode : Bool) (lines k : Nat) : List (Int × Nat) :=
  if colMode then (List.range k).map (fun r => (base + (r / 128 * 131072 + r % 128 * 1024 : Nat), 8 * lines))
  else ((List.range lines).map (fun i => (List.range (ceilDiv k 128)).map (fun t =>
    (base + (t * 131072 + i * 1024 : Nat), 8 * min 128 (k - 128 * t))))).flatten

/-- The exponent that marks a line with an infinity or a NaN (R52; log 50). -/
def nonFiniteMark : Nat := 0x8000

/-- Lines that a slicing action cuts: valid rows, or valid columns. -/
def sliceLines (im : Image) (it : Item) (colMode : Bool) : Nat := min 128 (if colMode then passN im it else passM im it)

def sliceGr (_d : Dev) (n : Nat) (x : Ctx) (it : Item) : List Nat × List Nat :=
  let a := actOf x.image it
  let col := (aw a 4).testBit 0
  let nt := ceilDiv (fullK x.image it) 128
  (inScratch n (sliceRanges (opAddr x.image it (aw a 1)) col (sliceLines x.image it col) (fullK x.image it)),
   inScratch n [(opAddr x.image it (aw a 2), x.image.slices * nt * 16384), (opAddr x.image it (aw a 3), 256)])

/-- Slicing (R51, R52): S sets of INT8 tiles and the exponents. The digits of a marked line are left open. -/
def sliceRun (d : Dev) (n j : Nat) (x : Ctx) (it : Item) (ev : Upset) : Dev × MicroEnd :=
  let im := x.image
  let a := actOf im it
  let s := im.slices
  let col := (aw a 4).testBit 0
  let k := fullK im it
  let lines := sliceLines im it col
  let nt := ceilDiv k 128
  let ws := [(opAddr im it (aw a 2), s * nt * 16384), (opAddr im it (aw a 3), 2 * lines)]
  if s < 4 || 9 < s || (a.w.drop 5).any (· != 0) || aw a 4 > 1 || !([1, 2, 3].all (fun i => opWordOk (aw a i))) then
    (badAct d x it, .failed)
  else if !rangesOwned d j n ws then (failOwned d x.uid j n (itemAi it) ws, .failed)
  else match engineReads d x.uid j n (itemAi it) true (sliceRanges (opAddr im it (aw a 1)) col lines k) ev with
  | (d0, false) => (d0, .failed)
  | (d0, true) =>
    match arrayUpset d0 x.uid j n ev with
    | (d1, false) => (d1, .failed)
    | (d1, true) =>
      let sl := (inScratch n (sliceRanges (opAddr im it (aw a 1)) col lines k)).any (sealed d1)
      let src := (opAddr im it (aw a 1)).toNat
      let dst := (opAddr im it (aw a 2)).toNat
      let line (i : Nat) : List FVal := (List.range k).map (sliceSrc d1 n src col i)
      let d2 := (List.range lines).foldl (fun d i =>
        let row := line i
        let e := rowExp row
        let bad := rowNonFinite row
        let digits := row.map (fun v => if bad then [] else sliceDigits s (fScale v (-e)))
        let at_ (q kk : Nat) : Nat := dst + (q * nt + kk / 128) * 16384
          + (if col then kk % 128 * 128 + i else i * 128 + kk % 128)
        let d1 := digits.zipIdx.foldl (fun d p => (List.range s).foldl (fun d q =>
          let v := if bad then (Config.freeByte d.freeCtr (q * k + p.2)).toNat else (((p.1[q]?).getD 0) % 256).toNat
          writeT0 d n (at_ q p.2) [v] sl) d) d
        let d3 := { d1 with freeCtr := d1.freeCtr + 1 }
        writeT0 d3 n ((opAddr im it (aw a 3)).toNat + 2 * i)
          (leBytes 2 (if bad then nonFiniteMark else (e % 65536).toNat)) sl) d1
      (freeBanks d2 n j, .done 1)

/-- FP64_SLICING. -/
def opSlicing (d : Dev) (n j : Nat) (ev : Upset) : Dev :=
  microIssue d n j 0x20 .vector (fun d x it => sliceGr d n x it) (fun d x it => sliceRun d n j x it ev)
def execFp64Slicing (core : CoreId) (job : JobId) (ev : Upset) (s : State) : Host.Outcome State Fault Refusal :=
  okDev s (opSlicing s.dev core.val job.val ev)

/-- The slice pairs in the order of R54. -/
def slicePairs (s : Nat) : List (Nat × Nat) := ((List.range s).map (fun k => diagPairs s (s + 1 - k))).flatten

def recombRanges (im : Image) (it : Item) (a : ActionD) : List (Int × Nat) :=
  let np := (slicePairs im.slices).length * ceilDiv (fullK im it) 65536
  let rows := min 128 (passM im it)
  let cols := min 128 (passN im it)
  ((List.range np).map (fun i => (List.range rows).map (fun r =>
    (opAddr im it (aw a 1) + (i * 65536 + r * 512 : Nat), 4 * cols)))).flatten
  ++ [(opAddr im it (aw a 2), 2 * rows), (opAddr im it (aw a 2) + 256, 2 * cols)]
def recombOut (im : Image) (it : Item) (a : ActionD) : List (Int × Nat) :=
  (List.range (min 128 (passM im it))).map (fun r => (opAddr im it (aw a 3) + (r * 1024 : Nat), 8 * min 128 (passN im it)))

/-- Recombination (R52, R54): a marked row or column gives the canonical NaN. -/
def recombRun (d : Dev) (n j : Nat) (x : Ctx) (it : Item) (ev : Upset) : Dev × MicroEnd :=
  let im := x.image
  let a := actOf im it
  let s := im.slices
  let ws := recombOut im it a
  if s < 4 || 9 < s || (a.w.drop 4).any (· != 0) || !([1, 2, 3].all (fun i => opWordOk (aw a i))) then (badAct d x it, .failed)
  else if !rangesOwned d j n ws then (failOwned d x.uid j n (itemAi it) ws, .failed)
  else match engineReads d x.uid j n (itemAi it) true (recombRanges im it a) ev with
  | (d0, false) => (d0, .failed)
  | (d0, true) =>
    match arrayUpset d0 x.uid j n ev with
    | (d1, false) => (d1, .failed)
    | (d1, true) =>
      let sl := (inScratch n (recombRanges im it a)).any (sealed d1)
      let p0 := (opAddr im it (aw a 1)).toNat
      let ex := (opAddr im it (aw a 2)).toNat
      let pairs := slicePairs s
      let prod (m c ch i k : Nat) : Int :=
        sext 32 (numT0 d1 n (p0 + (ch * pairs.length + pairs.findIdx (· == (i, k))) * 65536 + 512 * m + 4 * c) 4)
      let er (m : Nat) : Nat := numT0 d1 n (ex + 2 * m) 2
      let ec (c : Nat) : Nat := numT0 d1 n (ex + 256 + 2 * c) 2
      let out (m c : Nat) : Nat :=
        if er m = nonFiniteMark || ec c = nonFiniteMark then fNanBits fFP64
        else recombine s (ceilDiv (fullK im it) 65536) (prod m c) (sext 16 (er m) + sext 16 (ec c))
      let d2 := (List.range (min 128 (passM im it))).foldl (fun d m =>
        writeT0 d n ((opAddr im it (aw a 3)).toNat + m * 1024)
          ((List.range (min 128 (passN im it))).map (fun c => leBytes 8 (out m c))).flatten sl) d1
      (freeBanks d2 n j, .done 1)

def recombGr (_d : Dev) (n : Nat) (x : Ctx) (it : Item) : List Nat × List Nat :=
  (inScratch n (recombRanges x.image it (actOf x.image it)), inScratch n (recombOut x.image it (actOf x.image it)))

/-- FP64_RECOMBINATION. -/
def opRecombination (d : Dev) (n j : Nat) (ev : Upset) : Dev :=
  microIssue d n j 0x21 .vector (fun d x it => recombGr d n x it) (fun d x it => recombRun d n j x it ev)
def execFp64Recombination (core : CoreId) (job : JobId) (ev : Upset) (s : State) : Host.Outcome State Fault Refusal :=
  okDev s (opRecombination s.dev core.val job.val ev)

end Sys2Proof.Machine
end

