-- ==== Sys2Proof/Machine/Attn.lean ====
section
/-! DEFINITION. Attention microprograms: append, prefill, decode, coarse selection, partial records and their merge
(05 R140-R171; logs 49, 51, 52). -/

namespace Sys2Proof.Machine
open Sys2Proof

/-! ### The attention control block (R141) -/

def acbOut (w : List Nat) : Nat := bitsOf (cw w 0) 31 28
def acbQpk (w : List Nat) : Nat := bitsOf (cw w 0) 27 24 + 1
def acbQfmt (w : List Nat) : Nat := bitsOf (cw w 0) 15 12
def acbFlag (w : List Nat) (i : Nat) : Bool := (cw w 2).testBit i
def acbAppend (w : List Nat) : Bool := acbFlag w 7
def acbPartial (w : List Nat) : Bool := acbFlag w 6
def acbSelect (w : List Nat) : Bool := acbFlag w 4
def acbPool (w : List Nat) : Nat := bitsOf (cw w 5) 29 28
def acbHead (w : List Nat) : Nat := bitsOf (cw w 5) 26 24
def acbGroup (w : List Nat) : Nat := bitsOf (cw w 5) 23 16
def acbLayer (w : List Nat) : Nat := bitsOf (cw w 5) 15 0
def acbNs (w : List Nat) : Nat := bitsOf (cw w 15) 7 0
def acbPitch (w : List Nat) : Nat := bitsOf (cw w 15) 31 16
def acbCount (w : List Nat) : Nat := bitsOf (cw w 7) 31 16
def acbFirst (w : List Nat) : Nat := bitsOf (cw w 7) 15 0

/-- No reserved bit of the block is set. -/
def acbClean (w : List Nat) : Bool :=
  bitsOf (cw w 0) 23 16 == 0 && bitsOf (cw w 0) 11 0 == 0 && bitsOf (cw w 2) 31 8 == 0 && bitsOf (cw w 4) 31 26 == 0
    && bitsOf (cw w 5) 31 30 == 0 && bitsOf (cw w 5) 27 27 == 0 && bitsOf (cw w 8) 31 27 == 0
    && bitsOf (cw w 15) 15 8 == 0 && zeroFrom w 16

/-- The list of a session that an attention action names. -/
def listKey (w : List Nat) (s : Nat) : Nat := s * 2 ^ 24 + acbLayer w * 256 + acbGroup w

/-- The checks of R142 that the block alone and the job's pools decide. -/
def acbOk (d : Dev) (j : Nat) (decode : Bool) (w : List Nat) : Bool :=
  let pc := poolCfg d j (acbPool w)
  let ns := acbNs w
  acbClean w && decide (acbOut w ≤ 8) && pc.testBit 31 && decide (acbHead w < poolG pc)
    && ((fmtOf (acbQfmt w)).bind groupOf).isSome
    && (fmtOf (acbQfmt w)).bind groupOf == (fmtOf (poolK pc)).bind groupOf
    && decide (1 ≤ ns) && decide (ns * acbQpk w ≤ 128) && (decode || ns == 1)
    && !(acbFlag w 1 && cw w 3 == 0)
    && !(acbSelect w && (bitsOf (cw w 8) 15 8 == 0 || decide (1024 < bitsOf (cw w 8) 26 16)))
    && !(acbPartial w && !decode) && !(acbAppend w && acbCount w != 0)

/-! ### Pages (R135, R139, R157-R159) -/

/-- The storage granule of granule g of a page: the staged copy while RES = 2 (R139). -/
def pageSid (d : Dev) (pid g : Nat) : Option Nat :=
  if (pst d pid).res = 2 then rootOf d (gKey 9 pid g) else rootOf d (gKey 8 pid g)
/-- A little-endian number of n bytes of a page. -/
def pageNum (d : Dev) (pid off n : Nat) : Nat :=
  match pageSid d pid (off / 4096) with
  | some s => ofLeBytes (stRead d s (off % 4096) n)
  | none => 0
/-- Writes a number of n bytes of a page. -/
def putPage (d : Dev) (pid off n v : Nat) : Dev := writeRoot d (gKey 8 pid (off / 4096)) (off % 4096) (leBytes n v) false

def kFmt (pc : Nat) : ElemFmt := (fmtOf (poolK pc)).getD .bf16
def vFmt (pc : Nat) : ElemFmt := (fmtOf (poolV pc)).getD .bf16
def eBytes (f : ElemFmt) : Nat := elemBits f / 8
/-- Byte of K element (head h, dimension i, position p), of the scale of its block, and of V element (h, p, i). -/
def kOff (pc h i p : Nat) : Nat :=
  (h * headGrans pc + i / 128 * kTileGrans (poolK pc)) * 4096 + i % 128 * rowBytes (kFmt pc) + p * eBytes (kFmt pc)
def kScaleOff (pc h i p : Nat) : Nat :=
  (h * headGrans pc + i / 128 * kTileGrans (poolK pc)) * 4096 + tileData (tileFmtOf (kFmt pc)) + 128 * (i % 128 / 32) + p
def vOff (pc h p i : Nat) : Nat :=
  (h * headGrans pc + ceilDiv (poolD pc) 128 * kTileGrans (poolK pc) + i / 128 * 8) * 4096 + p * 256 + i % 128 * 2
/-- Byte of the summary of head h. -/
def sumOff (pc h : Nat) : Nat := poolG pc * headGrans pc * 4096 + h * (2 * poolD pc + 4)

def kBits (d : Dev) (pc pid h i p : Nat) : Nat := pageNum d pid (kOff pc h i p) (eBytes (kFmt pc))
def kScale (d : Dev) (pc pid h i p : Nat) : Nat := pageNum d pid (kScaleOff pc h i p) 1
/-- The exact value of a key element. -/
def kVal (d : Dev) (pc pid h i p : Nat) : FVal :=
  let v := elemVal (kFmt pc) (kBits d pc pid h i p)
  if isMX (kFmt pc) then
    match e8m0 (kScale d pc pid h i p) with
    | some e => fScale v e
    | none => .nan
  else v
def vVal (d : Dev) (pc pid h p i : Nat) : FVal := elemVal (vFmt pc) (pageNum d pid (vOff pc h p i) 2)

/-- Rounds a value that is not negative to binary32, toward +∞. -/
def rup32 (v : FVal) : Nat :=
  let r := rne32 v
  if fLtNum (val32 r) v then r + 1 else r

/-- The summary of a page that has become full (R159). -/
def writeSummary (d : Dev) (pc pid : Nat) : Dev :=
  (List.range (poolG pc)).foldl (fun d h =>
    let dd := poolD pc
    let ks (i : Nat) : List FVal := (List.range 128).map (fun p => kVal d pc pid h i p)
    let mu (i : Nat) : Nat :=
      fEncode fBF16 .rne .toInf (fScale (treeOf (fun x y => val32 (rne32 (fAdd x y))) (ks i) (.fin false 0 0)) (-7))
    let mus := (List.range dd).map mu
    let r (p : Nat) : Nat := rne32 (fSqrt (val32 (hsum32 ((List.range dd).map (fun i =>
      let x := rne32 (fSub (kVal d pc pid h i p) (fDecode fBF16 ((mus[i]?).getD 0)))
      mul32 x x)))))
    let top := hmax32 ((List.range 128).map r)
    let rho := rup32 (fMul (val32 top) (.fin false 16385 (-14)))
    let d1 := mus.zipIdx.foldl (fun d m => putPage d pid (sumOff pc h + 2 * m.2) 2 m.1) d
    putPage d1 pid (sumOff pc h + 2 * dd) 4 rho) d

/-- The lowest page identifier that is free (log 49). -/
def freePid (d : Dev) : Option Nat :=
  (List.range (2 ^ 24)).find? (fun p => (pst d p).res == 0 && (pst d p).pins == 0 && (pst d p).refcnt == 0)

/-- Allocates a page of a pool for a command (R158). -/
def allocPage (d : Dev) (uid j pool : Nat) : Except (Nat × Nat) (Dev × Nat) :=
  let used := (d.qm.pst.filter (fun e => e.2.job == j && e.2.pool == pool && e.2.res != 0)).length
  match cmd d uid, freePid d with
  | some c, some p =>
    if bitsOf (rj d j (0x1A4 + 8 * pool)) 23 0 ≤ used || !fits d j 2 (pageGrans (poolCfg d j pool)) 0 then
      .error (stQuota, 2)
    else
      let x : Pst := { pst d p with pins := 1, refcnt := 0, pool := pool, res := 1, closed := false, top := 0,
                                    poison := false, job := j }
      .ok (setPst (setCmd d uid { c with newPages := c.newPages ++ [p] }) p x, p)
  | _, _ => .error (stQuota, 2)

/-- The command's view of a list: its snapshot, empty for a list that did not exist. -/
def snapOf (c : Cmd) (key : Nat) : SnapList := SMap.getD c.snap key ⟨[], 0, false, 0⟩

/-- An append to the last page may land in place (R157): the page is the command's own, or no other list reads beyond
this list's fill. -/
def inPlace (d : Dev) (c : Cmd) (key : Nat) (s : SnapList) (e : PEnt) : Bool :=
  let p := pst d e.pid
  let base := match SMap.get? (sess d (key / 2 ^ 24)).lists (key % 2 ^ 24) with
    | some l => l.ents.getLast?
    | none => none
  c.newPages.contains e.pid || (p.refcnt == 1 && (e.fill == p.top
    || (s.appended && (match base with
        | some b => b.pid == e.pid && b.fill == p.top
        | none => false))))

/-- Sets the command's view of a list. -/
def putSnap (d : Dev) (uid key n : Nat) (ents : List PEnt) : Dev :=
  match cmd d uid with
  | some c =>
    let s := snapOf c key
    setCmd d uid { c with snap := SMap.insert c.snap key { s with ents := ents, appended := true, core := n } }
  | none => d

/-- The granules of a page as a microprogram reads them: of its staged copy while RES = 2 (R139). -/
def pageKeys (d : Dev) (j p : Nat) : List Nat :=
  (List.range (pageGrans (poolCfg d j (pst d p).pool))).map (gKey (if (pst d p).res = 2 then 9 else 8) p)

/-- A read of pages, in order (R167): what is left of the upset, or the status that it ends its command with and a DETAIL that
is free, as a page has no device address (log 3). -/
def readPages (uid j : Nat) : List Nat → Dev → Upset → Dev × Except (Nat × Nat) Upset
  | [], d, ev => (d, .ok ev)
  | p :: r, d, ev =>
    if (pst d p).poison then
      (let (d1, x) := freeDetail d
       (d1, .error (stPoison, x)))
    else match checkReads uid (qmCap d j 0 1 4096) ((pageKeys d j p).map (fun k => (0, k))) (touchReads d (pageKeys d j p)) ev with
      | (d1, .ok ev1) => readPages uid j r d1 ev1
      | (d1, .error (st, _)) =>
        let (d2, x) := freeDetail d1
        (d2, .error (st, x))

/-- What a part of an append gives: the device, and what is left of the upset, or the status and DETAIL that end the command. -/
abbrev Appended (α : Type) := Dev × Except (Nat × Nat) (Upset × α)

/-- The page in which the next position of a list lands, and its place there (R157). A page that is copied is read (R167). -/
def appendPage (d : Dev) (uid j pool key n : Nat) (ev : Upset) : Appended (Nat × Nat) :=
  match cmd d uid with
  | none => (d, .error (stBad, 0))
  | some c =>
    let s := snapOf c key
    let fresh : Appended (Nat × Nat) :=
      if 65536 ≤ s.ents.length then (d, .error (stQuota, 2))
      else match allocPage d uid j pool with
        | .error e => (d, .error e)
        | .ok (d1, p) => (putSnap d1 uid key n (s.ents ++ [⟨1, (pst d1 p).gen, p⟩]), .ok (ev, p, 0))
    match s.ents.getLast? with
    | none => fresh
    | some e =>
      let init := s.ents.dropLast
      if e.fill = 128 then fresh
      else if inPlace d c key s e then
        (putSnap d uid key n (init ++ [{ e with fill := e.fill + 1 }]), .ok (ev, e.pid, e.fill))
      else match allocPage d uid j pool with
        | .error x => (d, .error x)
        | .ok (d0, p) =>
          match readPages uid j [e.pid] d0 ev with
          | (d1, .error x) => (d1, .error x)
          | (d1, .ok ev1) =>
            let src := d1.mem.roots.filter (fun r => r.1 / 2 ^ 32 == 8 * 2 ^ 32 + e.pid)
            let d2 := src.foldl (fun d r =>
              let (da, s) := newGran d
              copyGran (setRoot da (gKey 8 p (r.1 % 2 ^ 32)) s) r.2 s) d1
            (putSnap d2 uid key n (init ++ [⟨e.fill + 1, (pst d2 p).gen, p⟩]), .ok (ev1, p, e.fill))

/-- Appends row r of KNEW and VNEW to a list, for every head of the group; a page filled by it gets its summary
(R156, R159; log 51), for which its positions are read. -/
def appendRow (d : Dev) (uid j n key kbase vbase pc pool r : Nat) (ev : Upset) : Appended Unit :=
  match appendPage d uid j pool key n ev with
  | (d1, .error e) => (d1, .error e)
  | (d1, .ok (ev1, pid, p)) =>
    let nt := ceilDiv (poolD pc) 128
    let d2 := (List.range (poolG pc)).foldl (fun d h =>
      (List.range (poolD pc)).foldl (fun d i =>
        let kb := kbase + (h * nt + i / 128) * storedBytes (kFmt pc)
        let vb := vbase + (h * nt + i / 128) * storedBytes (vFmt pc)
        let d1 := putPage d pid (kOff pc h i p) (eBytes (kFmt pc)) (eltAt d n (kb + tileRowAt (kFmt pc) r) (kFmt pc) (i % 128))
        let d2 := if isMX (kFmt pc) && i % 32 = 0 then
            putPage d1 pid (kScaleOff pc h i p) 1 (numT0 d1 n (kb + tileScaleAt (kFmt pc) r + i % 128 / 32) 1) else d1
        putPage d2 pid (vOff pc h p i) 2 (eltAt d2 n (vb + tileRowAt (vFmt pc) r) (vFmt pc) (i % 128))) d) d1
    if p ≠ 127 then (d2, .ok (ev1, ()))
    else match readPages uid j [pid] d2 ev1 with
      | (d3, .error e) => (d3, .error e)
      | (d3, .ok ev2) => (writeSummary d3 pc pid, .ok (ev2, ()))

def appendRows (uid j n kbase vbase pc pool : Nat) : List (Nat × Nat) → Dev → Upset → Appended Unit
  | [], d, ev => (d, .ok (ev, ()))
  | (key, r) :: rest, d, ev =>
    match appendRow d uid j n key kbase vbase pc pool r ev with
    | (d1, .ok (ev1, _)) => appendRows uid j n kbase vbase pc pool rest d1 ev1
    | e => e

/-- R160: another core of the command, or another uncommitted command, has appended to the list. -/
def appendClash (d : Dev) (uid n key : Nat) : Bool :=
  d.qm.cmds.any (fun e => match SMap.get? e.2.snap key with
    | some s => s.appended && !e.2.committed && (if e.1 = uid then s.core != n else e.2.phase != .ended)
    | none => false)

/-! ### Rows and masks (R144, R146, R148) -/

/-- A query row: its slot in the session set, its query position, its list, its query bits and scale bytes. -/
structure AttRow where
  slot : Nat
  qp : Nat
  ents : List PEnt
  q : List Nat
  qs : List Nat
deriving DecidableEq, Repr

/-- One byte of a mask at a device address, as the command sees it. -/
def devByte (d : Dev) (uid : Nat) (a : DevAddr) : Nat :=
  match a with
  | .t0 c o => stByte d (gT0 c (o / 4096)) (o % 4096)
  | .obj t oid o => ((readView d uid (gKey t oid (o / 4096)) (o % 4096) 1)[0]?).getD 0
  | _ => 0
def maskAddr (base w i : Nat) : DevAddr := addrAdd (decodeAddr base) ((w + i / 8 : Nat) : Int)
def bmBase (w : List Nat) : Nat := cw w 9 + 2 ^ 32 * cw w 10
def pmBase (w : List Nat) : Nat := cw w 11 + 2 ^ 32 * cw w 12
def bmRow (w : List Nat) (r : AttRow) : Nat := r.qp / 128 * acbPitch w
def pmRow (w : List Nat) (r : AttRow) : Nat := r.slot * acbPitch w

/-- The key at position c of page index i is masked for a row (R146). -/
def keyMasked (d : Dev) (uid : Nat) (w : List Nat) (r : AttRow) (i c : Nat) : Bool :=
  let kp := 128 * i + c
  let fill := match r.ents[i]? with
    | some e => e.fill
    | none => 0
  decide (fill ≤ c) || (acbFlag w 0 && decide (r.qp < kp)) || (acbFlag w 1 && decide (kp + cw w 3 ≤ r.qp))
    || (acbFlag w 2 && !(devByte d uid (maskAddr (bmBase w) (bmRow w r) i)).testBit (i % 8))
    || (acbFlag w 3 && !(devByte d uid (maskAddr (pmBase w) (pmRow w r) i)).testBit (i % 8))
def pageMasked (d : Dev) (uid : Nat) (w : List Nat) (r : AttRow) (i : Nat) : Bool :=
  (List.range 128).all (keyMasked d uid w r i)

/-- The page indices of a row in this core's range (R141, R153). -/
def rowRange (w : List Nat) (r : AttRow) : List Nat :=
  let last := if acbCount w = 0 then r.ents.length else min r.ents.length (acbFirst w + acbCount w)
  (List.range (last - acbFirst w)).map (fun i => acbFirst w + i)

/-- The masks that a set of rows reads, as addresses of bytes. -/
def maskBytes (w : List Nat) (rows : List AttRow) : List DevAddr :=
  (rows.map (fun r => ((rowRange w r).map (fun i =>
    (if acbFlag w 2 then [maskAddr (bmBase w) (bmRow w r) i] else [])
    ++ (if acbFlag w 3 then [maskAddr (pmBase w) (pmRow w r) i] else []))).flatten)).flatten

/-- Why a byte of a mask may not be read: the status, if any (08 R244, R259, R262). -/
def maskFault (d : Dev) (uid : Nat) (c : Cmd) (a : DevAddr) : Option (Nat × Nat) :=
  let chk (sid : Option Nat) : Option (Nat × Nat) := match sid with
    | some s => if sealed d s then some (stSealed, encodeAddr a) else if poisoned d s then some (stPoison, encodeAddr a) else none
    | none => none
  match a with
  | .t0 n o => if banksOk d c.job n o 1 then chk (some (gT0 n (o / 4096))) else some (stBad, 0)
  | .obj t oid o =>
    (match copyFor d uid oid t with
     | some (ob, _) =>
       if c.held.contains (t, oid) && mayRead ob c.job && decide (o < ob.size * 4096) then chk (viewSid d uid (gKey t oid (o / 4096)))
       else some (stBad, 0)
     | none => some (stBad, 0))
  | _ => some (stBad, 0)

/-! ### Selection (R168-R171) -/

/-- The exact value of element i of a row's query. -/
def qVal (qf : ElemFmt) (r : AttRow) (i : Nat) : FVal :=
  let v := elemVal qf ((r.q[i]?).getD 0)
  if isMX qf then
    match e8m0 ((r.qs[i / 32]?).getD 255) with
    | some e => fScale v e
    | none => .nan
  else v

/-- The bound of page index i for a row (R169). -/
def pageBound (d : Dev) (pc : Nat) (w : List Nat) (qf : ElemFmt) (r : AttRow) (i : Nat) : Nat :=
  let pid := match r.ents[i]? with
    | some e => e.pid
    | none => 0
  let dd := poolD pc
  let so := sumOff pc (acbHead w)
  let qmu := (List.range dd).foldl (fun s k =>
    addSingle s (fDecode fBF16 (fEncode fBF16 .rne .toInf (qVal qf r k))) (fDecode fBF16 (pageNum d pid (so + 2 * k) 2))) 0
  let norm := rne32 (fSqrt (val32 (hsum32 ((List.range dd).map (fun k => rne32 (fMul (qVal qf r k) (qVal qf r k)))))))
  add32 qmu (mul32 norm (pageNum d pid (so + 2 * dd) 4))

/-- Bound a of page i ranks before bound b of page k: larger first, NaN as +∞, the lower index first among equals. -/
def ranksBefore (a i b k : Nat) : Bool :=
  let f (x : Nat) : FVal := if val32 x = .nan then .inf false else val32 x
  fLtNum (f b) (f a) || (fEqNum (f a) (f b) && decide (i < k))

/-- The page indices of a row's range that its masks leave something of: those that are read (R148). -/
def rowLive (d : Dev) (uid : Nat) (w : List Nat) (r : AttRow) : List Nat :=
  (rowRange w r).filter (fun i => !pageMasked d uid w r i)

/-- The page indices that a row attends, in increasing order, and whether a candidate was left out. -/
def rowPages (d : Dev) (uid pc : Nat) (w : List Nat) (qf : ElemFmt) (r : AttRow) : List Nat × Bool :=
  let live := rowLive d uid w r
  if !acbSelect w then (live, false)
  else
    let anchors := bitsOf (cw w 8) 7 0
    let recent := bitsOf (cw w 8) 15 8
    let topk := bitsOf (cw w 8) 26 16
    let kept (i : Nat) : Bool := decide (i < anchors) || decide (r.ents.length ≤ i + recent)
    let cand := (live.filter (fun i => !kept i)).map (fun i => (i, pageBound d pc w qf r i))
    let won (i : Nat) : Bool := cand.any (fun x => x.1 == i
      && decide ((cand.filter (fun y => ranksBefore y.2 y.1 x.2 x.1)).length < topk))
    (live.filter (fun i => kept i || won i), decide (topk < cand.length))

/-! ### The row update (R145, R147) -/

/-- The running state of a row. -/
structure AttState where
  m : Nat
  l : Nat
  o : List Nat
deriving DecidableEq, Repr

/-- The score of key c of a page for a row: the sum of the west-entry passes over the head dimension (02 R39-R43). -/
def attScore (d : Dev) (pc h : Nat) (qf : ElemFmt) (r : AttRow) (pid c : Nat) : Nat :=
  let dd := poolD pc
  let kf := kFmt pc
  let qe (i : Nat) : FVal := elemVal qf ((r.q[i]?).getD 0)
  let ke (i : Nat) : FVal := elemVal kf (kBits d pc pid h i c)
  if isMX kf then
    (List.range (dd / 32)).foldl (fun s b =>
      addBlock s (blockValue ((r.qs[b]?).getD 255) (kScale d pc pid h (32 * b) c)
        ((List.range 32).map (fun i => fMul (qe (32 * b + i)) (ke (32 * b + i)))))) 0
  else (List.range dd).foldl (fun s i => addSingle s (qe i) (ke i)) 0

/-- One page of the update of a row. -/
def attUpdate (d : Dev) (uid pc : Nat) (w : List Nat) (qf : ElemFmt) (r : AttRow) (st : AttState) (i : Nat) : AttState :=
  let h := acbHead w
  match r.ents[i]? with
  | none => st
  | some e =>
    let s := (List.range 128).map (fun c =>
      if keyMasked d uid w r i c then negInf32 else mul32 (attScore d pc h qf r e.pid c) (cw w 1))
    let bmax := hmax32 s
    if bmax = negInf32 then st
    else
      let mnew := max32 st.m bmax
      let alpha := if st.m = negInf32 then 0 else exp32 (sub32 st.m mnew)
      let p := s.map (fun x => fEncode fBF16 .rne .toInf (val32 (exp32 (sub32 x mnew))))
      let l := fma32 alpha st.l (hsum32 (p.map (fun x => rne32 (fDecode fBF16 x))))
      let pv (k : Nat) : Nat := (List.range e.fill).foldl (fun a c =>
        addSingle a (fDecode fBF16 ((p[c]?).getD 0)) (vVal d pc e.pid h c k)) 0
      ⟨mnew, l, st.o.zipIdx.map (fun x => fma32 alpha x.1 (pv x.2))⟩

/-- The state of a row after its pages. -/
def attRun (d : Dev) (uid pc : Nat) (w : List Nat) (qf : ElemFmt) (r : AttRow) (pages : List Nat) : AttState :=
  pages.foldl (attUpdate d uid pc w qf r) ⟨negInf32, 0, List.replicate (poolD pc) 0⟩

/-! ### Results (R149, R150, R153) -/

/-- What one row writes: output elements and scales, statistics, status. -/
structure AttOut where
  elts : List Nat
  scales : List Nat
  m : Nat
  l : Nat
  status : Nat
deriving DecidableEq, Repr

/-- The result of a row (R149, R150). OUT_FMT conversion has no SAT field and names no rounding mode: the model takes no
saturation and round to nearest even (log 51). -/
def attFinish (f : ElemFmt) (st : AttState) (partialRec selected : Bool) : AttOut :=
  let empty := st.l = 0
  let vals := st.o.map (fun x => if empty then 0 else if partialRec then x else div32 x st.l)
  let (es, sc) := if partialRec then (vals, []) else cvtRow f (fun _ => .rne) false (vals.map val32)
  let bad := !empty && (st.m = posInf32 || val32 st.m = .nan || !fin32 st.l || vals.any (fun x => !fin32 x)
    || (!partialRec && es.any (badOut f)))
  ⟨es, sc, if empty then negInf32 else st.m, st.l, b2n empty + 2 * b2n bad + 4 * b2n selected⟩

/-- Bytes of a partial record. -/
def recordBytes (dd : Nat) : Nat := ceilDiv (8 + 4 * dd) 128 * 128

/-- Writes the results of the rows: outputs or records, statistics, status bytes. -/
def attWrite (d : Dev) (n : Nat) (f : ElemFmt) (dd out stats status : Nat) (partialRec wantStats : Bool)
    (rows : List AttOut) (sl : Bool) : Dev :=
  rows.zipIdx.foldl (fun d r =>
    let d1 :=
      if partialRec then
        writeT0 d n (out + r.2 * recordBytes dd)
          (leBytes 4 r.1.m ++ leBytes 4 r.1.l ++ (r.1.elts.map (leBytes 4)).flatten
            ++ List.replicate (recordBytes dd - 8 - 4 * dd) 0) sl
      else putRow d n out f r.2 r.1.elts r.1.scales sl
    let d2 := if wantStats then writeT0 d1 n (stats + 8 * r.2) (leBytes 4 r.1.m ++ leBytes 4 r.1.l) sl else d1
    writeT0 d2 n (status + r.2) [r.1.status] sl) d

/-! ### The microprograms -/

/-- Query rows of an attention action: decode, every session's query heads; prefill, the valid rows of the M tile. A prefill
outside every loop and dimension of ROLE M has 128 rows (R144 does not say; log 51). -/
def attRowCount (decode : Bool) (im : Image) (it : Item) (w : List Nat) : Nat :=
  if decode then acbNs w * acbQpk w else min 128 (passM im it)
/-- Positions that an append adds to each list. -/
def attNewPos (decode : Bool) (im : Image) (it : Item) (w : List Nat) : Nat :=
  if decode then acbNs w else attRowCount false im it w / acbQpk w

/-- The ranges that an attention action reads and those it writes. -/
def attReads (pc : Nat) (decode : Bool) (im : Image) (it : Item) (w : List Nat) : List (Int × Nat) :=
  let a := actOf im it
  let dd := poolD pc
  let nt := ceilDiv dd 128
  let heads (word : Nat) (f : ElemFmt) : List (Int × Nat) :=
    ((List.range (poolG pc)).map (fun h =>
      opRanges (opAddr im it word + (h * nt * storedBytes f : Nat)) f (attNewPos decode im it w) dd)).flatten
  opRanges (opAddr im it (aw a 2)) ((fmtOf (acbQfmt w)).getD .bf16) (attRowCount decode im it w) dd
    ++ (if acbAppend w then heads (cw w 13) (kFmt pc) ++ heads (cw w 14) (vFmt pc) else [])
def attWrites (pc : Nat) (decode : Bool) (im : Image) (it : Item) (w : List Nat) : List (Int × Nat) :=
  let a := actOf im it
  let rows := attRowCount decode im it w
  (if acbPartial w then [(opAddr im it (aw a 3), rows * recordBytes (poolD pc))]
   else opRanges (opAddr im it (aw a 3)) ((fmtOf (acbOut w)).getD .fp32) rows (poolD pc))
  ++ (if acbFlag w 5 then [(opAddr im it (aw a 4), 8 * rows)] else []) ++ [(opAddr im it (aw a 5), rows)]
/-- The control block and the session set. -/
def attCtl (a : ActionD) (w : List Nat) : List (Int × Nat) :=
  [((bitsOf (aw a 1) 25 0 : Nat), 128), ((bitsOf (cw w 4) 25 0 : Nat), 2 * acbNs w)]
def attWork (a : ActionD) : Nat := bitsOf (aw a 6) 25 0
def attWorkRange (a : ActionD) : List (Int × Nat) := [((attWork a : Nat), 512 * 1024)]

/-- The words of the action have no reserved bit, and aligned offsets. -/
def attWordsOk (a : ActionD) : Bool :=
  bitsOf (aw a 1) 31 26 == 0 && aw a 1 % 128 == 0 && bitsOf (aw a 6) 31 26 == 0 && aw a 6 % 4096 == 0 && aw a 7 == 0
    && opWordOk (aw a 2) && opWordOk (aw a 3) && opWordOk (aw a 5)

/-- The rows of an attention action, once appends are done (R144). -/
def attRows (d : Dev) (n : Nat) (decode : Bool) (im : Image) (it : Item) (w : List Nat) (c : Cmd) (ss : List Nat)
    (dd : Nat) : List AttRow :=
  let a := actOf im it
  let qf := (fmtOf (acbQfmt w)).getD .bf16
  let qb := (opAddr im it (aw a 2)).toNat
  (List.range (attRowCount decode im it w)).map (fun r =>
    let slot := if decode then r / acbQpk w else 0
    let ents := (snapOf c (listKey w ((ss[slot]?).getD 0))).ents
    let keys := sumBy ents (·.fill)
    { slot := slot, qp := if decode then keys - 1 else cw w 6 + r / acbQpk w, ents := ents
      q := (List.range dd).map (fun i => eltAt d n (qb + i / 128 * storedBytes qf + tileRowAt qf r) qf (i % 128))
      qs := if isMX qf then (List.range (dd / 32)).map (fun b =>
          numT0 d n (qb + b / 4 * storedBytes qf + tileScaleAt qf r + b % 4) 1) else [] })

/-- Page indices of rows with the PID that each names there. -/
def pidsAt (l : List (AttRow × List Nat)) : List (Nat × Nat) :=
  ((l.map (fun r => r.2.filterMap (fun i => (r.1.ents[i]?).map (fun e => (i, e.pid))))).flatten).dedup

/-- The attention over the lists as the command now sees them. -/
def attend (d : Dev) (n j : Nat) (decode : Bool) (x : Ctx) (it : Item) (w : List Nat) (c : Cmd) (ss : List Nat)
    (ev : Upset) : Dev × MicroEnd :=
  let im := x.image
  let a := actOf im it
  let pc := poolCfg d j (acbPool w)
  let qf := (fmtOf (acbQfmt w)).getD .bf16
  let rows := attRows d n decode im it w c ss (poolD pc)
  match (maskBytes w rows).findSome? (maskFault d x.uid c) with
  | some (st, det) => (if st = stBad then badAct d x it else endCmd d x.uid st det false, .failed)
  | none =>
    match readPages x.uid j (((pidsAt (rows.map (fun r => (r, rowLive d x.uid w r)))).map (·.2)).dedup) d ev with
    | (d1, .error (st, det)) => (endCmd d1 x.uid st det false, .failed)
    | (d1, .ok _) =>
      let sel := rows.map (fun r => (r, rowPages d1 x.uid pc w qf r))
      let used := pidsAt (sel.map (fun s => (s.1, s.2.1)))
      let skipped := (pidsAt (rows.map (fun r => (r, rowRange w r)))).filter (fun x => !used.contains x)
      let d2 := bump d1 (n / 6) (n % 6) 0x148 skipped.length
      let f := (fmtOf (acbOut w)).getD .fp32
      let outs := sel.map (fun s => attFinish f (attRun d2 x.uid pc w qf s.1 s.2.1) (acbPartial w) s.2.2)
      let d3 := freeRegion (freeBanks d2 n j) n (attWork a) (512 * 1024)
      (attWrite d3 n f (poolD pc) (opAddr im it (aw a 3)).toNat (opAddr im it (aw a 4)).toNat
        (opAddr im it (aw a 5)).toNat (acbPartial w) (acbFlag w 5) outs false, .done 1)

/-- Granules of a mask that a command reads and that are PENDING (08 R256). -/
def maskPending (d : Dev) (a : DevAddr) : Bool :=
  match a with
  | .t0 c o => isPending d (gT0 c (o / 4096))
  | .obj t oid o => isPending d (gKey t oid (o / 4096))
  | _ => false

/-- The appends of an action, and the attention over what the lists then hold (R144-R156). -/
def appendAttend (d : Dev) (n j : Nat) (decode : Bool) (x : Ctx) (it : Item) (w : List Nat) (ss : List Nat) (ev : Upset) :
    Dev × MicroEnd :=
  let im := x.image
  let pc := poolCfg d j (acbPool w)
  let rows := (List.range (attNewPos decode im it w)).map (fun r =>
    (listKey w ((ss[if decode then r else 0]?).getD 0), r))
  match (if acbAppend w then
      appendRows x.uid j n (opAddr im it (cw w 13)).toNat (opAddr im it (cw w 14)).toNat pc (acbPool w) rows d ev
    else (d, .ok (ev, ()))) with
  | (d1, .error (st, det)) => (endCmd d1 x.uid st det false, .failed)
  | (d1, .ok (ev1, _)) =>
    match cmd d1 x.uid with
    | none => (d1, .failed)
    | some c =>
      if (maskBytes w (attRows d1 n decode im it w c ss (poolD pc))).any (maskPending d1) then (d, .pending)
      else attend d1 n j decode x it w c ss ev1

/-- Prefill and decode (R142-R156). The control block and the session set are read first; every check of the table "ACB
checks" comes before the operands are read. -/
def attentionRun (d : Dev) (n j : Nat) (decode : Bool) (x : Ctx) (it : Item) (ev : Upset) : Dev × MicroEnd :=
  let im := x.image
  let a := actOf im it
  let w := ctlWords d n (bitsOf (aw a 1) 25 0)
  let pc := poolCfg d j (acbPool w)
  let all := attCtl a w ++ attReads pc decode im it w
  let out := attWrites pc decode im it w ++ attWorkRange a
  if !attWordsOk a || (acbFlag w 5 && !opWordOk (aw a 4)) then (badAct d x it, .failed)
  else match engineReads d x.uid j n (itemAi it) false [((bitsOf (aw a 1) 25 0 : Nat), 128)] .none with
  | (d0, false) => (d0, .failed)
  | (d0, true) =>
    if !acbOk d0 j decode w || (acbAppend w && !(opWordOk (cw w 13) && opWordOk (cw w 14))) then (badAct d0 x it, .failed)
    else if !rangesOwned d0 j n (out ++ all) then (failOwned d0 x.uid j n (itemAi it) (out ++ all), .failed)
    else match engineReads d0 x.uid j n (itemAi it) false (attCtl a w) .none with
    | (d1, false) => (d1, .failed)
    | (d1, true) =>
      let ss := sessSet d1 n (bitsOf (cw w 4) 25 0) (acbNs w)
      match cmd d1 x.uid with
      | none => (d1, .failed)
      | some c =>
        if !sessOk d1 c ss || (acbAppend w && ss.any (fun s => appendClash d1 x.uid n (listKey w s))) then
          (badAct d1 x it, .failed)
        else match engineReads d1 x.uid j n (itemAi it) false all ev with
        | (d2, false) => (d2, .failed)
        | (d2, true) =>
          match arrayUpset d2 x.uid j n ev with
          | (d3, false) => (d3, .failed)
          | (d3, true) => appendAttend d3 n j decode x it w ss (evDrop ev (rangesGrans n all).length)

def attGr (decode : Bool) (d : Dev) (n j : Nat) (x : Ctx) (it : Item) : List Nat × List Nat :=
  let a := actOf x.image it
  let w := ctlWords d n (bitsOf (aw a 1) 25 0)
  let pc := poolCfg d j (acbPool w)
  (inScratch n (attCtl a w ++ attReads pc decode x.image it w),
   inScratch n (attWrites pc decode x.image it w ++ attWorkRange a))

/-- ATTENTION_PREFILL. -/
def opPrefill (d : Dev) (n j : Nat) (ev : Upset) : Dev :=
  microIssue d n j 1 .vector (fun d x it => attGr false d n j x it) (fun d x it => attentionRun d n j false x it ev)
def execAttentionPrefill (core : CoreId) (job : JobId) (ev : Upset) (s : State) : Host.Outcome State Fault Refusal :=
  okDev s (opPrefill s.dev core.val job.val ev)

/-- ATTENTION_DECODE. -/
def opDecode (d : Dev) (n j : Nat) (ev : Upset) : Dev :=
  microIssue d n j 2 .vector (fun d x it => attGr true d n j x it) (fun d x it => attentionRun d n j true x it ev)
def execAttentionDecode (core : CoreId) (job : JobId) (ev : Upset) (s : State) : Host.Outcome State Fault Refusal :=
  okDev s (opDecode s.dev core.val job.val ev)

/-! ### Merge (R140, R154, R155; log 52) -/

/-- Two partials, the lower page range first (R155). -/
def mergeTwo (a b : AttState) : AttState :=
  if b.l = 0 then a
  else if a.l = 0 then b
  else
    let m := max32 a.m b.m
    let a1 := exp32 (sub32 a.m m)
    let a2 := exp32 (sub32 b.m m)
    ⟨m, fma32 a1 a.l (mul32 a2 b.l), (a.o.zip b.o).map (fun p => fma32 a1 p.1 (mul32 a2 p.2))⟩

def mParts (a : ActionD) : Nat := bitsOf (aw a 2) 6 0
def mOut (a : ActionD) : Nat := bitsOf (aw a 7) 31 28
def mStats (a : ActionD) : Bool := (aw a 7).testBit 24
def mRows (a : ActionD) : Nat := bitsOf (aw a 7) 23 16 + 1
def mDim (a : ActionD) : Nat := bitsOf (aw a 7) 8 0

def mergeReads (im : Image) (it : Item) (a : ActionD) : List (Int × Nat) :=
  (List.range (mParts a)).map (fun p => (opAddr im it (aw a 1) + (p * aw a 3 : Nat), mRows a * recordBytes (mDim a)))
def mergeWrites (im : Image) (it : Item) (a : ActionD) : List (Int × Nat) :=
  opRanges (opAddr im it (aw a 4)) ((fmtOf (mOut a)).getD .fp32) (mRows a) (mDim a)
  ++ (if mStats a then [(opAddr im it (aw a 5), 8 * mRows a)] else []) ++ [(opAddr im it (aw a 6), mRows a)]

/-- A merge's words are in range (R140). ROWS above 128 and a HEAD_DIM that no pool may have, for which the table of R142 names
no status, end with BAD_DESCRIPTOR (log 51). -/
def mergeOk (a : ActionD) : Bool :=
  opWordOk (aw a 1) && opWordOk (aw a 4) && opWordOk (aw a 6) && (!mStats a || opWordOk (aw a 5))
    && bitsOf (aw a 2) 31 7 == 0 && decide (1 ≤ mParts a) && decide (mParts a ≤ 64)
    && bitsOf (aw a 7) 27 25 == 0 && bitsOf (aw a 7) 15 9 == 0 && decide (mOut a ≤ 8) && decide (mRows a ≤ 128)
    && mDim a % 32 == 0 && decide (32 ≤ mDim a) && decide (mDim a ≤ 256)

/-- One partial record. -/
def readRecord (d : Dev) (n at_ dd : Nat) : AttState :=
  ⟨numT0 d n at_ 4, numT0 d n (at_ + 4) 4, (List.range dd).map (fun i => numT0 d n (at_ + 8 + 4 * i) 4)⟩

/-- The merge runs on the vector unit, which may read sealed granules; what it writes from them is sealed (08 R261, R262). -/
def mergeRun (d : Dev) (n j : Nat) (x : Ctx) (it : Item) (ev : Upset) : Dev × MicroEnd :=
  let im := x.image
  let a := actOf im it
  if !mergeOk a then (badAct d x it, .failed)
  else if !rangesOwned d j n (mergeWrites im it a) then (failOwned d x.uid j n (itemAi it) (mergeWrites im it a), .failed)
  else match engineReads d x.uid j n (itemAi it) true (mergeReads im it a) ev with
  | (d0, false) => (d0, .failed)
  | (d0, true) =>
    match arrayUpset d0 x.uid j n ev with
    | (d1, false) => (d1, .failed)
    | (d1, true) =>
      let dd := mDim a
      let base := (opAddr im it (aw a 1)).toNat
      let rowSt (r : Nat) : AttState :=
        treeOf mergeTwo ((List.range (mParts a)).map (fun p => readRecord d1 n (base + p * aw a 3 + r * recordBytes dd) dd))
          ⟨negInf32, 0, List.replicate dd 0⟩
      let f := (fmtOf (mOut a)).getD .fp32
      let outs := (List.range (mRows a)).map (fun r => attFinish f (rowSt r) false false)
      (attWrite (freeBanks d1 n j) n f dd (opAddr im it (aw a 4)).toNat (opAddr im it (aw a 5)).toNat
        (opAddr im it (aw a 6)).toNat false (mStats a) outs ((inScratch n (mergeReads im it a)).any (sealed d1)), .done 1)

def mergeGr (n : Nat) (x : Ctx) (it : Item) : List Nat × List Nat :=
  let a := actOf x.image it
  (inScratch n (mergeReads x.image it a), inScratch n (mergeWrites x.image it a))

/-- PARTIAL_MERGE. -/
def opMerge (d : Dev) (n j : Nat) (ev : Upset) : Dev :=
  microIssue d n j 3 .vector (fun _ x it => mergeGr n x it) (fun d x it => mergeRun d n j x it ev)
def execPartialMerge (core : CoreId) (job : JobId) (ev : Upset) (s : State) : Host.Outcome State Fault Refusal :=
  okDev s (opMerge s.dev core.val job.val ev)

end Sys2Proof.Machine
end

