-- ==== Sys2Proof/Machine/Comet.lean ====
section
/-! DEFINITION. The comet chunk microprogram: kernels and tiles, marks, tails, state slots (06 R172-R203; log 53). -/

namespace Sys2Proof.Machine
open Sys2Proof

/-! ### Complex arithmetic of the tile generator (R173-R176) -/

abbrev Cpx := Nat × Nat
def neg32 (x : Nat) : Nat := if val32 x = .nan then rne32 .nan else x ^^^ 0x80000000
def cmul (a b : Cpx) : Cpx :=
  (fma32 a.1 b.1 (mul32 (neg32 a.2) b.2), fma32 a.1 b.2 (mul32 a.2 b.1))
/-- Binary powers, from bit 0 of the exponent upwards. -/
def cpowFrom : Nat → Nat → Cpx → Cpx → Cpx
  | 0, _, p, _ => p
  | n + 1, e, p, q => cpowFrom n (e / 2) (if e % 2 = 1 then cmul p q else p) (cmul q q)
def one32 : Nat := 0x3F800000
def cpow (lam : Cpx) (e : Nat) : Cpx := cpowFrom (if e = 0 then 0 else Nat.log2 e + 1) e (one32, 0) lam

/-- One mode: λ, b and c (R174). -/
structure CMode where
  lam : Cpx
  b : Cpx
  c : Cpx
deriving DecidableEq, Repr

def readMode (d : Dev) (n at_ : Nat) : CMode :=
  let w (i : Nat) : Nat := numT0 d n (at_ + 4 * i) 4
  ⟨(w 0, w 1), (w 2, w 3), (w 4, w 5)⟩
/-- The check of R173. -/
def modeOk (m : CMode) : Bool :=
  let f (x : Cpx) : Bool := fin32 x.1 && fin32 x.2
  f m.lam && f m.b && f m.c
    && fLtNum (val32 (fma32 m.lam.1 m.lam.1 (mul32 m.lam.2 m.lam.2))) (.fin false 1 0)

/-- k[e]: the kernel at lag e (R176). -/
def kernelAt (ms : List CMode) (e : Nat) : Nat :=
  hsum32 (ms.map (fun m => (cmul (cmul m.c m.b) (cpow m.lam e)).1))

/-! ### The comet control block (R180, R182) -/

def ccOut (w : List Nat) : Nat := bitsOf (cw w 0) 31 28
def ccX (w : List Nat) : Nat := bitsOf (cw w 0) 27 24
def ccPrec (w : List Nat) : Bool := (cw w 0).testBit 20
def ccUpdate (w : List Nat) : Bool := (cw w 0).testBit 19
def ccMarks (w : List Nat) : Bool := (cw w 0).testBit 18
def ccLayer (w : List Nat) : Nat := bitsOf (cw w 0) 15 0
def ccCount (w : List Nat) : Nat := bitsOf (cw w 1) 31 16
def ccFirst (w : List Nat) : Nat := bitsOf (cw w 1) 15 0
def ccChunks (w : List Nat) : Nat := bitsOf (cw w 2) 23 16
def ccNs (w : List Nat) : Nat := bitsOf (cw w 2) 7 0
def ccDim (w : List Nat) : Nat := bitsOf (cw w 5) 2 0
def cdL (cd : CometDecl) : Nat := 64 * 2 ^ bitsOf cd.cfg0 2 0
def cdModes (cd : CometDecl) : Nat := bitsOf cd.cfg0 14 8
def cdChannels (cd : CometDecl) : Nat := bitsOf cd.cfg0 28 16

def ccClean (w : List Nat) : Bool :=
  bitsOf (cw w 0) 23 21 == 0 && bitsOf (cw w 0) 17 16 == 0 && bitsOf (cw w 2) 31 24 == 0 && bitsOf (cw w 2) 15 8 == 0
    && bitsOf (cw w 3) 31 26 == 0 && bitsOf (cw w 4) 31 26 == 0 && bitsOf (cw w 5) 31 3 == 0 && zeroFrom w 6

def ccOk (im : Image) (n : Nat) (cd : CometDecl) (w : List Nat) : Bool :=
  ccClean w && decide (ccOut w ≤ 8) && (ccX w == 6 || ccX w == 7) && !(ccPrec w && ccX w == 7)
    && cd.cfg0.testBit 31 && decide (1 ≤ ccCount w) && decide (ccFirst w + ccCount w ≤ cdChannels cd)
    && decide (1 ≤ ccChunks w) && decide (ccDim w < im.dims.length) && dimT im (ccDim w) == ccChunks w * cdL cd
    && decide (1 ≤ ccNs w) && decide (ccNs w ≤ 128) && bitsOf cd.cfg1 24 16 == n

def ccWordsOk (a : ActionD) : Bool :=
  bitsOf (aw a 1) 31 26 == 0 && aw a 1 % 128 == 0 && bitsOf (aw a 6) 31 26 == 0 && aw a 6 % 4096 == 0 && aw a 7 == 0
    && opWordOk (aw a 2) && opWordOk (aw a 3) && opWordOk (aw a 4)

/-! ### Operands (R181) -/

/-- Position blocks of a chunk. -/
def chunkBlocks (cd : CometDecl) : Nat := max 1 (cdL cd / 128)
/-- Byte of the tile of channel ch, chunk q, block j; `k` tiles stand for one block. -/
def blockTile (cd : CometDecl) (w : List Nat) (bytes k ch q j : Nat) : Nat :=
  ((ch * ccChunks w + q) * chunkBlocks cd + j) * k * bytes
def xTiles (w : List Nat) : Nat := if ccPrec w then 2 else 1

/-- Positions of chunk q. -/
def chunkLen (cd : CometDecl) (t q : Nat) : Nat := min (cdL cd) (t - q * cdL cd)
def chunksRun (cd : CometDecl) (w : List Nat) (t : Nat) : List Nat :=
  (List.range (ccChunks w)).filter (fun q => decide (q * cdL cd < t))

def cometTileRanges (cd : CometDecl) (w : List Nat) (base : Int) (f : ElemFmt) (k t : Nat) : List (Int × Nat) :=
  ((List.range (ccCount w)).map (fun ch => ((chunksRun cd w t).map (fun q =>
    ((List.range (ceilDiv (chunkLen cd t q) 128)).map (fun j => ((List.range k).map (fun i =>
      opRanges (base + (blockTile cd w (storedBytes f) k ch q j + i * storedBytes f : Nat)) f (ccNs w)
        (min 128 (chunkLen cd t q - 128 * j)))).flatten)).flatten)).flatten)).flatten

def cometT (_im : Image) (it : Item) (w : List Nat) : Nat := ((itemValid it)[ccDim w]?).getD 0

def cometHead (a : ActionD) (w : List Nat) : List (Int × Nat) :=
  [((bitsOf (aw a 1) 25 0 : Nat), 128), ((bitsOf (cw w 3) 25 0 : Nat), 2 * ccNs w)]
def cometMarks (a : ActionD) (im : Image) (it : Item) (w : List Nat) : List (Int × Nat) :=
  if ccMarks w then [(opAddr im it (aw a 5), 2 * ccNs w)] else []
def cometCtl (a : ActionD) (cd : CometDecl) (im : Image) (it : Item) (w : List Nat) : List (Int × Nat) :=
  cometHead a w ++ cometMarks a im it w
    ++ cometTileRanges cd w (opAddr im it (aw a 2)) ((fmtOf (ccX w)).getD .bf16) (xTiles w) (cometT im it w)
/-- The mode tables, which may be sealed (08 R262). -/
def cometTabs (cd : CometDecl) (w : List Nat) : List (Int × Nat) :=
  [((bitsOf (cw w 4) 25 0 : Nat), ccCount w * cdModes cd * 24)]
def cometWork (a : ActionD) : List (Int × Nat) := [((bitsOf (aw a 6) 25 0 : Nat), 4 * 1024 * 1024)]
def cometMasks (a : ActionD) (im : Image) (it : Item) (w : List Nat) : List (Int × Nat) := [(opAddr im it (aw a 4), ccNs w)]
def cometWrites (a : ActionD) (cd : CometDecl) (im : Image) (it : Item) (w : List Nat) : List (Int × Nat) :=
  cometTileRanges cd w (opAddr im it (aw a 3)) ((fmtOf (ccOut w)).getD .fp32) 1 (cometT im it w)
    ++ cometMasks a im it w ++ cometWork a

/-! ### Slots of the streams (R193-R201) -/

/-- The slot that the command sees for a session and layer: its own new one, else the session's. -/
def slotFor (d : Dev) (c : Cmd) (s layer : Nat) : Option Nat :=
  match c.newSlots.find? (fun x => x.2.1 == s && x.2.2 == layer) with
  | some x => some x.1
  | none => (SMap.get? (sess d s).tails layer).map (·.1)

def freeSid (d : Dev) : Option Nat :=
  (List.range (2 ^ 24)).find? (fun k => (slot d k).state == .free && (slot d k).pins == 0)

/-- Allocates a slot for a command (R193; log 49): none where no arena entry is free or the quota is exceeded. -/
def allocSlot (d : Dev) (uid j s layer : Nat) : Option (Dev × Nat) :=
  match cmd d uid, freeSid d, freeArena d j layer with
  | some c, some k, some i =>
    if fits d j 2 (halfGrans (cometOf d j layer)) 0 then
      let x : Slot := { freeSlot with pins := 1, state := .resident, zero := true, job := j, gen := (slot d k).gen,
                                      arenaIdx := i, layer := layer }
      some (setSlot (setCmd d uid { c with newSlots := c.newSlots ++ [(k, s, layer)] }) k x, k)
    else none
  | _, _, _ => none

/-- Every stream gets a slot (R193). -/
def slotsFor (uid j layer : Nat) : List Nat → Dev → Option (Dev × List Nat)
  | [], d => some (d, [])
  | s :: r, d =>
    match cmd d uid with
    | none => none
    | some c =>
      let here : Option (Dev × Nat) := match slotFor d c s layer with
        | some k => some (d, k)
        | none => allocSlot d uid j s layer
      match here with
      | none => none
      | some (d1, k) =>
        match slotsFor uid j layer r d1 with
        | some (d2, l) => some (d2, k :: l)
        | none => none

/-- Starts the swap-ins of the slots that are not RESIDENT (R194, R196). -/
def wakeSlots : List Nat → Dev → Option Dev
  | [], d => some d
  | k :: r, d =>
    if (slot d k).state = .resident then wakeSlots r d
    else match swapIn d k with
      | some d1 => wakeSlots r d1
      | none => none

/-- R201: the tail was updated by another action of the command, or by another uncommitted command. -/
def tailClash (d : Dev) (_uid : Nat) (s layer : Nat) : Bool :=
  d.qm.cmds.any (fun e => e.2.phase != .ended && e.2.upds.any (fun u => u.sess == s && u.layer == layer))

/-- Byte of mode m of a channel in a half of a slot (R191). -/
def tailAt (d : Dev) (k : Nat) (half : Bool) (ch m : Nat) : Nat := halfOff d (slot d k) half + ch * 512 + 8 * m

/-- The incoming tail of a channel (R197). -/
def readTail (d : Dev) (n k ch modes : Nat) (needed : Bool) : List Cpx :=
  (List.range modes).map (fun m =>
    if (slot d k).zero || !needed then (0, 0)
    else
      let a := tailAt d k (slot d k).sel ch m
      (numT0 d n a 4, numT0 d n (a + 4) 4))

/-! ### One chunk of one stream and channel (R175-R189) -/

/-- The passes of one product into a running sum: one in BF16, three on split pairs (R49). -/
def cometMac (prec : Bool) (s : Nat) (acts tiles : List Nat) (split : Nat → Nat × Nat) : Nat :=
  let single (s : Nat) (f : Nat → Nat) (g : Nat → Nat) : Nat :=
    (acts.zip tiles).foldl (fun s p => addSingle s (fDecode fBF16 (f p.1)) (fDecode fBF16 (g p.2))) s
  if prec then
    single (single (single s (fun x => (split x).1) (fun x => (splitBF16 x).2)) (fun x => (split x).2) (fun x => (splitBF16 x).1))
      (fun x => (split x).1) (fun x => (splitBF16 x).1)
  else single s (fun x => (split x).1) (fun x => fEncode fBF16 .rne .toInf (val32 x))

/-- A binary32 value as an activation: rounded to BF16, or split. -/
def actSplit (prec : Bool) (x : Nat) : Nat × Nat := if prec then splitBF16 x else (fEncode fBF16 .rne .toInf (val32 x), 0)

/-- The Toeplitz entry for input τ and output t under a mark r (R177, R188). -/
def toepEntry (ms : List CMode) (mark : Option Nat) (tau t : Nat) : Nat :=
  if t < tau then 0
  else match mark with
    | some r => if tau < r && r ≤ t then 0 else kernelAt ms (t - tau)
    | none => kernelAt ms (t - tau)

/-- Output t of a chunk: readout, then the Toeplitz blocks (R183, R188). `xin` gives input τ as hi and lo BF16 bits. -/
def cometY (prec : Bool) (ms : List CMode) (mark : Option Nat) (tail : List Cpx) (xin : Nat → Nat × Nat) (x16 : Bool)
    (a t : Nat) : Nat :=
  let masked := match mark with
    | some r => decide (r ≤ t)
    | none => false
  let u := (ms.map (fun m => cmul m.c (cpow m.lam (t + 1))))
  let ro := (u.map (fun z => if masked then [0, 0] else [z.1, neg32 z.2])).flatten
  let s0 := cometMac prec 0 ((tail.map (fun z => [z.1, z.2])).flatten) ro (actSplit prec)
  let i := t / 128
  (List.range (i + 1)).foldl (fun s j =>
    let skip := match mark with
      | some r => decide (128 * (j + 1) ≤ r) && decide (r ≤ 128 * i)
      | none => false
    if skip then s
    else
      let taus := (List.range (min 128 (a - 128 * j))).map (fun q => 128 * j + q)
      if x16 then
        taus.foldl (fun s tau => addSingle s (fDecode fFP16 (xin tau).1)
          (fDecode fBF16 (fEncode fBF16 .rne .toInf (val32 (toepEntry ms mark tau t))))) s
      else cometMac prec s taus (taus.map (fun tau => toepEntry ms mark tau t)) xin) s0

/-- The projection sums of a chunk for mode m: real and imaginary parts (R177, R183, R188). -/
def cometZ (prec : Bool) (m : CMode) (mark : Option Nat) (xin : Nat → Nat × Nat) (x16 : Bool) (a : Nat) : Cpx :=
  let ent (t : Nat) : Cpx :=
    let dead := match mark with
      | some r => decide (t < r)
      | none => false
    if dead then (0, 0) else cmul m.b (cpow m.lam (a - 1 - t))
  let sum (f : Cpx → Nat) : Nat :=
    (List.range (ceilDiv a 128)).foldl (fun s j =>
      let ts := (List.range (min 128 (a - 128 * j))).map (fun q => 128 * j + q)
      if x16 then ts.foldl (fun s t => addSingle s (fDecode fFP16 (xin t).1)
        (fDecode fBF16 (fEncode fBF16 .rne .toInf (val32 (f (ent t)))))) s
      else cometMac prec s ts (ts.map (fun t => f (ent t))) xin) 0
  (sum Prod.fst, sum Prod.snd)

/-- The state stage (R184). -/
def cometTail (prec : Bool) (ms : List CMode) (mark : Option Nat) (tail : List Cpx) (xin : Nat → Nat × Nat) (x16 : Bool)
    (a : Nat) : List Cpx :=
  (ms.zip tail).map (fun p =>
    let z := cometZ prec p.1 mark xin x16 a
    match mark with
    | some _ => z
    | none =>
      let q := cmul (cpow p.1.lam a) p.2
      (add32 q.1 z.1, add32 q.2 z.2))

/-- All chunks of one stream and channel: outputs chunk by chunk, and the tail after the last. -/
def cometStream (prec x16 : Bool) (cd : CometDecl) (ms : List CMode) (mark : Option Nat) (t : Nat)
    (xin : Nat → Nat → Nat × Nat) : List Nat → List Cpx → List (List Nat) × List Cpx
  | [], tail => ([], tail)
  | q :: r, tail =>
    let a := chunkLen cd t q
    let mk := if q = 0 then mark else none
    let out := match mk with
      | some m => if a ≤ m then none else some m
      | none => none
    let y := (List.range a).map (cometY prec ms out tail (xin q) x16 a)
    let tl := cometTail prec ms mk tail (xin q) x16 a
    let (ys, last) := cometStream prec x16 cd ms mark t xin r tl
    (y :: ys, last)

/-! ### The microprogram -/

/-- The mark of stream m: none for 0xFFFF or without MARKS. -/
def markOf (d : Dev) (n base : Nat) (w : List Nat) (m : Nat) : Option Nat :=
  let v := numT0 d n (base + 2 * m) 2
  if ccMarks w && v ≠ 0xFFFF then some v else none

/-- Writes the outgoing tail of a stream away from the committed half (R198), and records the update. The channels
outside the action are left open (log 53). -/
def putTail (d : Dev) (uid n j : Nat) (cd : CometDecl) (w : List Nat) (s k : Nat) (tails : List (List Cpx)) : Option Dev :=
  let layer := ccLayer w
  let old := slot d k
  let dest : Option (Dev × Nat × Bool) :=
    if 1 < old.refcnt then (allocSlot d uid j s layer).map (fun x => (x.1, x.2, true))
    else some (d, k, old.refcnt == 0)
  match dest with
  | none => none
  | some (d1, k1, isNew) =>
    let half := !(slot d1 k1).sel
    let d2 := if ccCount w = cdChannels cd then d1
      else freeRegion d1 n (halfOff d1 (slot d1 k1) half) (cdChannels cd * 512)
    let d3 := tails.zipIdx.foldl (fun d p =>
      (List.range 64).foldl (fun d m =>
        let z := (p.1[m]?).getD (0, 0)
        writeT0 d n (tailAt d k1 half (ccFirst w + p.2) m) (leBytes 4 z.1 ++ leBytes 4 z.2) false) d) d2
    match cmd d3 uid with
    | none => none
    | some c =>
      let ver := match c.pinS.find? (fun p => p.1 == k) with
        | some p => p.2
        | none => 0
      some (setCmd d3 uid { c with upds := c.upds ++ [⟨s, layer, k1, half, isNew, ver, n⟩] })

def putTails (uid n j : Nat) (cd : CometDecl) (w : List Nat) : List (Nat × Nat × List (List Cpx)) → Dev → Option Dev
  | [], d => some d
  | (s, k, ts) :: r, d =>
    match putTail d uid n j cd w s k ts with
    | some d1 => putTails uid n j cd w r d1
    | none => none

/-- The counters of a chunk action (R178, R188; log 53): tiles of the masked groups are not numbered by the spec. -/
def cometCount (d : Dev) (n : Nat) (cd : CometDecl) (w : List Nat) (t : Nat) (marks : List (Option Nat)) : Dev :=
  let die := coreDie n
  let qs := chunksRun cd w t
  let groups := marks.dedup.length
  let partialLast := qs.any (fun q => chunkLen cd t q != cdL cd) && decide (1 < qs.length)
  let sets := chunkBlocks cd * (3 + (if partialLast then 2 else 0)) * ccCount w * xTiles w
  let d1 := bump (bump (bump d die 17 0x130 (qs.length * ccCount w)) die 17 0x134 sets) die 17 0x138 groups
  if marks.any Option.isSome then
    let (d2, x) := freeVal d1
    bump d2 die 17 0x134 (x.toNat % 65536)
  else d1

/-! ### The comet unit's time (R178, R184, R186) -/

/-- Cycles of the comet unit's own work in an action: the generated tiles at 512 B a cycle, each of 32 KiB, and one cycle of
the state stage per stream, channel and chunk (log 53). -/
def cometWorkLen (cd : CometDecl) (w : List Nat) (t : Nat) : Nat :=
  let qs := chunksRun cd w t
  let partialLast := qs.any (fun q => chunkLen cd t q != cdL cd) && decide (1 < qs.length)
  chunkBlocks cd * (3 + (if partialLast then 2 else 0)) * ccCount w * xTiles w * 64 + ccNs w * ccCount w * qs.length

/-- The cycles for which a core waits for its share while the comet unit does `work` cycles for it from cycle `now` on: frames
of 96 cycles, one share of 16 per local core index (R186). Frame 0 begins at ARITH cycle 0 (log 53). -/
def shareWait (k now work : Nat) : Nat :=
  let pos := (now % 96 + 96 - 16 * k) % 96
  if work = 0 then 0
  else if pos < 16 then 80 * ceilDiv (work - (16 - pos)) 16
  else 96 - pos + 80 * (ceilDiv work 16 - 1)

/-- The numeric part of a chunk action: outputs, status, tails. -/
def cometData (d : Dev) (n j : Nat) (x : Ctx) (it : Item) (w : List Nat) (cd : CometDecl) (ss slots : List Nat) : Dev × MicroEnd :=
  let im := x.image
  let a := actOf im it
  let t := cometT im it w
  let xf := (fmtOf (ccX w)).getD .bf16
  let yf := (fmtOf (ccOut w)).getD .fp32
  let xb := (opAddr im it (aw a 2)).toNat
  let yb := (opAddr im it (aw a 3)).toNat
  let qs := chunksRun cd w t
  let prec := ccPrec w
  let modes (ch : Nat) : List CMode := (List.range (cdModes cd)).map (fun m =>
    readMode d n (bitsOf (cw w 4) 25 0 + (ch * cdModes cd + m) * 24))
  let marks := (List.range (ccNs w)).map (markOf d n (opAddr im it (aw a 5)).toNat w)
  let xin (ch m q tau : Nat) : Nat × Nat :=
    let b := xb + blockTile cd w (storedBytes xf) (xTiles w) ch q (tau / 128)
    let c := tau % 128
    (eltAt d n (b + tileRowAt xf m) xf c, if prec then eltAt d n (b + storedBytes xf + tileRowAt xf m) xf c else 0)
  let stream (m ch : Nat) : List (List Nat) × List Cpx :=
    let mk := (marks[m]?).getD none
    let k := (slots[m]?).getD 0
    cometStream prec (ccX w == 7) cd (modes ch) mk t (xin ch m) qs
      (readTail d n k (ccFirst w + ch) (cdModes cd) (mk != some 0))
  let res := (List.range (ccNs w)).map (fun m => (List.range (ccCount w)).map (stream m))
  let d1 := freeRegion (freeBanks d n j) n (bitsOf (aw a 6) 25 0) (4 * 1024 * 1024)
  let rows := res.map (fun r => r.map (fun c => c.1.map (fun ys => cvtRow yf (fun _ => .rne) false (ys.map val32))))
  let d2 := rows.zipIdx.foldl (fun d r => r.1.zipIdx.foldl (fun d c => (c.1.zip qs).foldl (fun d y =>
    putRow d n (yb + blockTile cd w (storedBytes yf) 1 c.2 y.2 0) yf r.2 y.1.1 y.1.2 false) d) d) d1
  let a0 := chunkLen cd t 0
  let status (m : Nat) : Nat :=
    let r := (res[m]?).getD []
    let bad := r.any (fun c => c.1.any (fun ys => ys.any (fun y => !fin32 y)) || c.2.any (fun z => !fin32 z.1 || !fin32 z.2))
      || ((rows[m]?).getD []).any (fun c => c.any (fun y => y.1.any (badOut yf)))
    let reset := match (marks[m]?).getD none with
      | some v => decide (v < a0)
      | none => false
    b2n (slot d ((slots[m]?).getD 0)).zero + 2 * b2n reset + 4 * b2n bad
  let d3 := writeT0 d2 n (opAddr im it (aw a 4)).toNat ((List.range (ccNs w)).map status) false
  let work := cometWorkLen cd w t
  let wait := shareWait (n % 6) d.now work
  let len := work + wait
  let d4 := bump (cometCount d3 n cd w t marks) (coreDie n) 17 0x148 wait
  if ccUpdate w then
    let ups := (List.range (ccNs w)).map (fun m =>
      ((ss[m]?).getD 0, (slots[m]?).getD 0, ((res[m]?).getD []).map (·.2)))
    match putTails x.uid n j cd w ups d4 with
    | some d5 => (d5, .done len)
    | none => (endCmd d4 x.uid stQuota 2 false, .failed)
  else (d4, .done len)

/-- The tails that streams need, as ranges of the arena (R191, R197, R202). -/
def tailRanges (d : Dev) (cd : CometDecl) (w : List Nat) (l : List (Nat × Option Nat)) : List (Int × Nat) :=
  (l.filter (fun p => !(slot d p.1).zero && p.2 != some 0)).map (fun p =>
    (((halfOff d (slot d p.1) (slot d p.1).sel + ccFirst w * 512 : Nat) : Int), ccCount w * 512))
/-- The arena of a layer, which lies in the job's banks on its home core (R191). -/
def arenaRange (cd : CometDecl) : List (Int × Nat) :=
  [(((bitsOf cd.cfg2 25 0 : Nat) : Int), bitsOf cd.cfg1 15 0 * 2 * halfGrans cd * 4096)]

/-- A mark other than none lies below L (R182). -/
def marksOk (cd : CometDecl) (marks : List (Option Nat)) : Bool :=
  marks.all (fun m => match m with
    | some v => decide (v < cdL cd)
    | none => true)

/-- A chunk action whose checks have passed: slots, swap-ins, tails, and the work (R193-R197, R202, R203). -/
def cometGo (d : Dev) (n j : Nat) (x : Ctx) (it : Item) (ev : Upset) (w : List Nat) (cd : CometDecl) (ss : List Nat)
    (marks : List (Option Nat)) : Dev × MicroEnd :=
  let die := coreDie n
  match slotsFor x.uid j (ccLayer w) ss d with
  | none => (endCmd d x.uid stQuota 2 false, .failed)
  | some (d1, slots) =>
    if slots.any (fun k => (slot d1 k).state != .resident) then
      match wakeSlots slots d1, ctxOf d1 n j with
      | some d2, some y => (setCtx d2 n j { y with swapFrom := some (y.swapFrom.getD d2.now) }, .held)
      | _, _ => (endCmd d1 x.uid stQuota 2 false, .failed)
    else
      let d2 := match x.swapFrom with
        | some s => bump d1 die 17 0x144 (d1.now - s)
        | none => d1
      let used := slots.zip marks
      match used.find? (fun p => (slot d2 p.1).poison && p.2 != some 0) with
      | some p => (endCmd d2 x.uid stPoison (encodeAddr (.t0 n (halfOff d2 (slot d2 p.1) (slot d2 p.1).sel))) false, .failed)
      | none =>
        match engineReads d2 x.uid j n (itemAi it) true (tailRanges d2 cd w used) .none with
        | (d3, false) => (d3, .failed)
        | (d3, true) =>
          if ev = .bufUE then
            (failFault (latch d3 die 17 0 (coreCap n (some j) 0 0 512)) x.uid die 17 true, .failed)
          else match arrayUpset d3 x.uid j n ev with
            | (d4, false) => (d4, .failed)
            | (d4, true) => cometData (if ev = .bufCE then bump d4 die 17 0x14C 1 else d4) n j x it w cd ss slots

/-- A chunk action (R173, R182, R201). The control block, the stream list, the marks and the mode tables are read first;
every check comes before the inputs are read. -/
def cometRun (d : Dev) (n j : Nat) (x : Ctx) (it : Item) (ev : Upset) : Dev × MicroEnd :=
  let im := x.image
  let a := actOf im it
  let w := ctlWords d n (bitsOf (aw a 1) 25 0)
  let cd := cometOf d j (ccLayer w)
  let all := cometWrites a cd im it w ++ cometCtl a cd im it w ++ cometTabs cd w ++ arenaRange cd
  if !ccWordsOk a || (ccMarks w && !opWordOk (aw a 5)) then (badAct d x it, .failed)
  else match engineReads d x.uid j n (itemAi it) false [((bitsOf (aw a 1) 25 0 : Nat), 128)] .none with
  | (d0, false) => (d0, .failed)
  | (d0, true) =>
    if !ccOk im n cd w then (badAct d0 x it, .failed)
    else if !rangesOwned d0 j n all then (failOwned d0 x.uid j n (itemAi it) all, .failed)
    else match engineReads d0 x.uid j n (itemAi it) false (cometHead a w ++ cometMarks a im it w) .none with
    | (d1, false) => (d1, .failed)
    | (d1, true) =>
      match engineReads d1 x.uid j n (itemAi it) true (cometTabs cd w) .none with
      | (d2, false) => (d2, .failed)
      | (d2, true) =>
        let ss := sessSet d2 n (bitsOf (cw w 3) 25 0) (ccNs w)
        let marks := (List.range (ccNs w)).map (markOf d2 n (opAddr im it (aw a 5)).toNat w)
        let modesBad := (List.range (ccCount w * cdModes cd)).any (fun i =>
          !modeOk (readMode d2 n (bitsOf (cw w 4) 25 0 + i * 24)))
        match cmd d2 x.uid with
        | none => (d2, .failed)
        | some c =>
          if !sessOk d2 c ss || modesBad || !marksOk cd marks || ss.any (fun s => tailClash d2 x.uid s (ccLayer w)) then
            (badAct d2 x it, .failed)
          else match engineReads d2 x.uid j n (itemAi it) false (cometCtl a cd im it w) ev with
            | (d3, false) => (d3, .failed)
            | (d3, true) => cometGo d3 n j x it ev w cd ss marks

def cometGr (d : Dev) (n j : Nat) (x : Ctx) (it : Item) : List Nat × List Nat :=
  let a := actOf x.image it
  let w := ctlWords d n (bitsOf (aw a 1) 25 0)
  let cd := cometOf d j (ccLayer w)
  (inScratch n (cometCtl a cd x.image it w ++ cometTabs cd w), inScratch n (cometWrites a cd x.image it w))

/-- COMET_CHUNK. -/
def opComet (d : Dev) (n j : Nat) (ev : Upset) : Dev :=
  microIssue d n j 0x10 .vector (fun d x it => cometGr d n j x it) (fun d x it => cometRun d n j x it ev)
def execCometChunk (core : CoreId) (job : JobId) (ev : Upset) (s : State) : Host.Outcome State Fault Refusal :=
  okDev s (opComet s.dev core.val job.val ev)

end Sys2Proof.Machine
end

