-- ==== Sys2Proof/Machine/Conv.lean ====
section
/-! DEFINITION. The convolution, pooling and quill microprograms (07 R204-R227; log 54). -/

namespace Sys2Proof.Machine
open Sys2Proof

/-! ### The convolution control block (R204) -/

def vOut (w : List Nat) : Nat := bitsOf (cw w 0) 31 28
def vA (w : List Nat) : Nat := bitsOf (cw w 0) 27 24
def vW (w : List Nat) : Nat := bitsOf (cw w 0) 23 20
def vPadMode (w : List Nat) : Nat := bitsOf (cw w 0) 19 18
def vBias (w : List Nat) : Bool := (cw w 0).testBit 17
def vSR (w : List Nat) : Bool := (cw w 0).testBit 16
def vSat (w : List Nat) : Bool := (cw w 0).testBit 15
def vArgmax (w : List Nat) : Bool := (cw w 0).testBit 14
def vArgVal (w : List Nat) : Bool := (cw w 0).testBit 13
def vPoolOp (w : List Nat) : Nat := bitsOf (cw w 0) 1 0
def vCin (w : List Nat) : Nat := bitsOf (cw w 1) 31 16
def vCout (w : List Nat) : Nat := bitsOf (cw w 1) 15 0
def vPitch (w : List Nat) : Nat := cw w 13

/-- One axis of a convolution: kernel extent, stride, dilation, padding, the dimension entries of its map extents, and
the region held. -/
structure VAxis where
  k : Nat
  s : Nat
  dil : Nat
  lo : Nat
  hi : Nat
  dimI : Nat
  dimO : Nat
  r0 : Nat
  rn : Nat
deriving DecidableEq, Repr

def axisT (w : List Nat) : VAxis :=
  ⟨bitsOf (cw w 2) 26 24, bitsOf (cw w 3) 20 16, bitsOf (cw w 5) 10 0, bitsOf (cw w 6) 29 16, bitsOf (cw w 6) 13 0,
   bitsOf (cw w 9) 26 24, bitsOf (cw w 9) 10 8, bitsOf (cw w 11) 31 16, bitsOf (cw w 11) 15 0⟩
def axisH (w : List Nat) : VAxis :=
  ⟨bitsOf (cw w 2) 19 16, bitsOf (cw w 3) 12 8, bitsOf (cw w 4) 26 16, bitsOf (cw w 7) 29 16, bitsOf (cw w 7) 13 0,
   bitsOf (cw w 9) 22 20, bitsOf (cw w 9) 6 4, bitsOf (cw w 10) 31 16, bitsOf (cw w 12) 31 16⟩
def axisW (w : List Nat) : VAxis :=
  ⟨bitsOf (cw w 2) 11 8, bitsOf (cw w 3) 4 0, bitsOf (cw w 4) 10 0, bitsOf (cw w 8) 29 16, bitsOf (cw w 8) 13 0,
   bitsOf (cw w 9) 18 16, bitsOf (cw w 9) 2 0, bitsOf (cw w 10) 15 0, bitsOf (cw w 12) 15 0⟩

/-- No reserved bit of the block is set. -/
def vClean (w : List Nat) : Bool :=
  bitsOf (cw w 0) 12 2 == 0 && bitsOf (cw w 2) 31 27 == 0 && bitsOf (cw w 2) 23 20 == 0 && bitsOf (cw w 2) 15 12 == 0
    && bitsOf (cw w 2) 7 0 == 0 && bitsOf (cw w 3) 31 21 == 0 && bitsOf (cw w 3) 15 13 == 0 && bitsOf (cw w 3) 7 5 == 0
    && bitsOf (cw w 4) 31 27 == 0 && bitsOf (cw w 4) 15 11 == 0 && bitsOf (cw w 5) 31 11 == 0
    && [6, 7, 8].all (fun i => bitsOf (cw w i) 31 30 == 0 && bitsOf (cw w i) 15 14 == 0)
    && bitsOf (cw w 9) 31 27 == 0 && bitsOf (cw w 9) 15 11 == 0 && [23, 19, 7, 3].all (fun b => !(cw w 9).testBit b) && zeroFrom w 14

/-- Run-time extent of a dimension entry. -/
def vExt (it : Item) (k : Nat) : Nat := extOf (itemExt it) k

/-- The bound of R206 on an output extent; none where it is below 1. -/
def outBound (x : VAxis) (i : Nat) : Option Nat :=
  let n := i + x.lo + x.hi
  let m := x.dil * (x.k - 1) + 1
  if n < m then none else some ((n - m) / x.s + 1)

def axisOk (im : Image) (it : Item) (x : VAxis) : Bool :=
  decide (1 ≤ x.k) && decide (1 ≤ x.s) && decide (x.s ≤ 16) && decide (1 ≤ x.dil) && decide (x.dil ≤ 1024)
    && decide (x.dimI < im.dims.length) && decide (x.dimO < im.dims.length)
    && (match outBound x (vExt it x.dimI) with
        | some b => decide (vExt it x.dimO ≤ b)
        | none => false)

/-- The checks of R209 that all three microprograms share. -/
def vOk (im : Image) (it : Item) (w : List Nat) : Bool :=
  vClean w && decide (vOut w ≤ 8) && decide (vPadMode w ≤ 2) && decide (vPoolOp w ≤ 1) && decide (1 ≤ vCin w)
    && decide (vCin w ≤ 16384) && decide (1 ≤ vCout w)
    && axisOk im it (axisT w) && axisOk im it (axisH w) && axisOk im it (axisW w)

/-- Output pixels of the map. -/
def outPixels (it : Item) (w : List Nat) : Nat := vExt it (axisT w).dimO * vExt it (axisH w).dimO * vExt it (axisW w).dimO
/-- The run-time extent of ROLE M is the number of output pixels (R209). -/
def vMOk (im : Image) (it : Item) (w : List Nat) : Bool :=
  match dimOfRole im 0 with
  | some m => vExt it m == outPixels it w
  | none => false

def fmtsOk (w : List Nat) : Bool :=
  match fmtOf (vA w), fmtOf (vW w) with
  | some a, some b => (groupOf a).isSome && groupOf a == groupOf b
  | _, _ => false

def vAF (w : List Nat) : ElemFmt := (fmtOf (vA w)).getD .bf16
def vWF (w : List Nat) : ElemFmt := (fmtOf (vW w)).getD .bf16
def vOF (w : List Nat) : ElemFmt := (fmtOf (vOut w)).getD .fp32

/-! ### Taps and positions (R204-R207, R211) -/

def vTaps (w : List Nat) : List (Nat × Nat × Nat) :=
  ((List.range (axisT w).k).map (fun t => ((List.range (axisH w).k).map (fun h =>
    (List.range (axisW w).k).map (fun x => (t, h, x)))).flatten)).flatten
/-- The length of a tap run (R205). -/
def cinPad (w : List Nat) : Nat := if isMX (vAF w) then ceilDiv (vCin w) 32 * 32 else vCin w

/-- The resolved coordinate of an axis (R211): none is padding. -/
def padAxis (mode n : Nat) (x : Int) : Option Nat :=
  if 0 ≤ x && x < n then some x.toNat
  else if n = 0 then none
  else match mode with
    | 0 => none
    | 1 => some (if x < 0 then 0 else n - 1)
    | _ =>
      let y : Int := if x < 0 then -x else 2 * ((n : Int) - 1) - x
      some (if y < 0 then 0 else if n ≤ y then n - 1 else y.toNat)

def coord (x : VAxis) (o k : Nat) : Int := ((o * x.s + k * x.dil : Nat) : Int) - x.lo

/-- The row-major output pixel p. -/
def pixelOf (it : Item) (w : List Nat) (p : Nat) : Nat × Nat × Nat :=
  let oh := max 1 (vExt it (axisH w).dimO)
  let ow := max 1 (vExt it (axisW w).dimO)
  (p / (oh * ow), p / ow % oh, p % ow)

/-- The input position of a tap for an output pixel, none for padding. -/
def inputPos (it : Item) (w : List Nat) (o tap : Nat × Nat × Nat) : Option (Nat × Nat × Nat) :=
  let pa (x : VAxis) (o k : Nat) : Option Nat := padAxis (vPadMode w) (vExt it x.dimI) (coord x o k)
  match pa (axisT w) o.1 tap.1, pa (axisH w) o.2.1 tap.2.1, pa (axisW w) o.2.2 tap.2.2 with
  | some t, some h, some x => some (t, h, x)
  | _, _, _ => none

/-- Place of an input position in the held region; none outside it (R207). -/
def regionIdx (w : List Nat) (p : Nat × Nat × Nat) : Option Nat :=
  let inR (x : VAxis) (v : Nat) : Bool := decide (x.r0 ≤ v) && decide (v < x.r0 + x.rn)
  if inR (axisT w) p.1 && inR (axisH w) p.2.1 && inR (axisW w) p.2.2 then
    some (((p.1 - (axisT w).r0) * (axisH w).rn + (p.2.1 - (axisH w).r0)) * (axisW w).rn + (p.2.2 - (axisW w).r0))
  else none
def regionPixels (w : List Nat) : Nat := (axisT w).rn * (axisH w).rn * (axisW w).rn
/-- Bytes of a pixel of the region. -/
def pixelBytes (w : List Nat) : Nat := cinPad w * elemBits (vAF w) / 8

/-- The positions of the valid rows of the output tile: for each row, one for each tap. -/
def rowTaps (im : Image) (it : Item) (w : List Nat) : List (List (Option (Nat × Nat × Nat))) :=
  (List.range (min 128 (passM im it))).map (fun m =>
    (vTaps w).map (inputPos it w (pixelOf it w (outRow im it m))))

/-- The input operand: its base, and the base of its scales. -/
def inRanges (w : List Nat) (base scale : Int) (rows : List (List (Option (Nat × Nat × Nat)))) : List (Int × Nat) :=
  let idx := ((rows.map (fun r => r.filterMap (fun p => p.bind (regionIdx w)))).flatten).dedup
  (idx.map (fun i => [(base + (i * pixelBytes w : Nat), ceilDiv (vCin w * elemBits (vAF w)) 8)]
    ++ (if isMX (vAF w) then [(scale + (i * (cinPad w / 32) : Nat), ceilDiv (vCin w) 32)] else []))).flatten
/-- A position inside the map that the region does not hold (R207). -/
def outsideRegion (w : List Nat) (rows : List (List (Option (Nat × Nat × Nat)))) : Bool :=
  rows.any (fun r => r.any (fun p => match p with
    | some q => (regionIdx w q).isNone
    | none => false))

/-- Rounding of output element (pixel, channel) with cols channels in the map (R58). -/
def vRnd (im : Image) (w : List Nat) (pix ch cols : Nat) : RndMode :=
  if vSR w then .sr (srBits im.srSeed ((pix * cols + ch) % 2 ^ 32)) else .rne

/-- Writes one output pixel: its channels at `base`, its MX scales at `sbase`. -/
def putPixel (d : Dev) (n base sbase : Nat) (f : ElemFmt) (r : List Nat × List Nat) (sl : Bool) : Dev :=
  let nb := ceilDiv (elemBits f * r.1.length) 8
  let old := ofLeBytes (readT0 d n base nb)
  let k := elemBits f * r.1.length
  let d1 := writeT0 d n base (leBytes nb (old / 2 ^ k * 2 ^ k + packBits (elemBits f) r.1)) sl
  if isMX f then writeT0 d1 n sbase r.2 sl else d1

/-- The ranges an output tile of `rows` pixels by `cols` channels writes; MX scales follow 128 pixels, `sp` bytes each
(log 54). -/
def outRanges (w : List Nat) (base : Int) (rows cols sp : Nat) : List (Int × Nat) :=
  ((List.range rows).map (fun m =>
    (base + (m * vPitch w : Nat), ceilDiv (cols * elemBits (vOF w)) 8)
      :: (if isMX (vOF w) then [(base + (128 * vPitch w + sp * m : Nat), ceilDiv cols 32)] else []))).flatten

/-! ### CONVOLUTION_FEED (R208-R214, R219) -/

/-- Output channels of the tile. -/
def convCols (im : Image) (it : Item) : Nat := min 128 (passN im it)
/-- K tiles of the convolution, and whether one is issued: some valid row has an element of it (R213). -/
def convKTiles (w : List Nat) : Nat :=
  ceilDiv ((vTaps w).length * cinPad w) (groupK ((groupOf (vWF w)).getD .single))
def kTileUsed (w : List Nat) (rows : List (List (Option (Nat × Nat × Nat)))) (t : Nat) : Bool :=
  let g := groupK ((groupOf (vWF w)).getD .single)
  (List.range (vTaps w).length).any (fun tap =>
    decide (t * g < tap * cinPad w + vCin w) && decide (tap * cinPad w < (t + 1) * g)
      && rows.any (fun r => ((r[tap]?).getD none).isSome))

/-- Scratchpad accesses of an activation vector of K tile t: one for each 128 B of each tap run that it contains (R210). -/
def feedAccesses (w : List Nat) (t : Nat) : Nat :=
  let g := groupK ((groupOf (vWF w)).getD .single)
  sumBy (List.range (vTaps w).length) (fun tap =>
    let lo := max (t * g) (tap * cinPad w)
    let hi := min ((t + 1) * g) ((tap + 1) * cinPad w)
    ceilDiv ((hi - lo) * elemBits (vAF w)) 1024)
/-- ARITH cycles in which the activation feed delivers the vectors of the K tiles that are issued (R210, R213). -/
def feedCycles (w : List Nat) (rows : List (List (Option (Nat × Nat × Nat)))) : Nat :=
  sumBy ((List.range (convKTiles w)).filter (kTileUsed w rows)) (fun t => rows.length * ceilDiv (feedAccesses w t) 8)

/-- Byte of weight row K, and of the scales of its block. -/
def wRowAt (f : ElemFmt) (k : Nat) : Nat := k / 128 * storedBytes f + k % 128 * rowBytes f
def wScaleAt (f : ElemFmt) (k : Nat) : Nat := k / 128 * storedBytes f + tileData (tileFmtOf f) + 128 * (k % 128 / 32)

/-- The K indices whose weights the convolution reads. -/
def convKs (w : List Nat) (rows : List (List (Option (Nat × Nat × Nat)))) : List Nat :=
  let g := groupK ((groupOf (vWF w)).getD .single)
  ((List.range (vTaps w).length).map (fun tap => (List.range (vCin w)).map (fun c => tap * cinPad w + c))).flatten.filter
    (fun k => kTileUsed w rows (k / g))
def convWRanges (im : Image) (it : Item) (a : ActionD) (w : List Nat) (rows : List (List (Option (Nat × Nat × Nat)))) :
    List (Int × Nat) :=
  let f := vWF w
  let base := opAddr im it (aw a 4)
  let cols := convCols im it
  ((convKs w rows).map (fun k => (base + (wRowAt f k : Nat), ceilDiv (cols * elemBits f) 8)
      :: (if isMX f && k % 32 == 0 then [(base + (wScaleAt f k : Nat), cols)] else []))).flatten
  ++ (if vBias w then [(opAddr im it (aw a 5) + (4 * outCol im it 0 : Nat), 4 * cols)] else [])

/-- What the writeback of a convolution writes. -/
def convOut (im : Image) (it : Item) (a : ActionD) (w : List Nat) : List (Int × Nat) :=
  let rows := min 128 (passM im it)
  outRanges w (opAddr im it (aw a 6)) rows (convCols im it) 4
    ++ (if vArgmax w then [(opAddr im it (aw a 7), rows * (if vArgVal w then 8 else 4))] else [])

/-- The sum of one output: taps in order, channels in order; a padded tap adds nothing (R205, R212). -/
def convSum (w : List Nat) (act : Nat → Nat → FVal) (sca : Nat → Nat → Nat) (wt : Nat → FVal) (wsc : Nat → Nat)
    (taps : List (Option Nat)) (s0 : Nat) : Nat :=
  taps.zipIdx.foldl (fun s p =>
    match p.1 with
    | none => s
    | some i =>
      let k0 := p.2 * cinPad w
      if isMX (vAF w) then
        (List.range (cinPad w / 32)).foldl (fun s b =>
          let prods := (List.range 32).map (fun c =>
            if 32 * b + c < vCin w then fMul (act i (32 * b + c)) (wt (k0 + 32 * b + c)) else .fin false 0 0)
          addBlock s (blockValue (sca i b) (wsc (k0 + 32 * b)) prods)) s
      else (List.range (vCin w)).foldl (fun s c => addSingle s (act i c) (wt (k0 + c))) s) s0

/-- Converts one output pixel: its channels ch0 on, of a map of `total` channels. -/
def cvtPixel (im : Image) (w : List Nat) (pix ch0 total : Nat) (vs : List FVal) : List Nat × List Nat :=
  cvtRow (vOF w) (fun c => vRnd im w pix (ch0 + c) total) (vSat w) vs

/-- The argmax of a convolution's rows, as in a WRITEBACK (R219-R221). -/
def convArgmax (d : Dev) (n j : Nat) (x : Ctx) (it : Item) (a : ActionD) (rows cols : Nat) (v32 : Nat → Nat → Nat) : Dev :=
  let im := x.image
  let am := (List.range rows).foldl (fun s m => argRow im it s cols m (v32 m)) x.argmax
  let d1 := setCtx d n j { x with argmax := am }
  if lastN im it then writeT0 d1 n (opAddr im it (aw a 4)).toNat (argRecords a am rows) false else d1

/-- What a convolution that has read its operands leaves: its sums, its output pixels, its skipped tiles. -/
def convData (d : Dev) (n j : Nat) (x : Ctx) (it : Item) (w : List Nat)
    (rows : List (List (Option (Nat × Nat × Nat)))) : Dev :=
  let im := x.image
  let a := actOf im it
  let f := vAF w
  let inB := (opAddr im it (aw a 2)).toNat
  let scB := (opAddr im it (aw a 3)).toNat
  let wB := (opAddr im it (aw a 4)).toNat
  let bB := (opAddr im it (aw a 5)).toNat
  let oB := (opAddr im it (aw a 6)).toNat
  let cols := convCols im it
  let act (i c : Nat) : FVal := elemVal f (eltAt d n (inB + i * pixelBytes w) f c)
  let sca (i b : Nat) : Nat := numT0 d n (scB + i * (cinPad w / 32) + b) 1
  let one (taps : List (Option Nat)) (c : Nat) : Nat :=
    convSum w act sca (fun k => elemVal (vWF w) (eltAt d n (wB + wRowAt (vWF w) k) (vWF w) c))
      (fun k => numT0 d n (wB + wScaleAt (vWF w) k + c) 1) taps
      (if vBias w then numT0 d n (bB + 4 * outCol im it c) 4 else 0)
  let sums := rows.map (fun r =>
    let taps := r.map (fun p => p.bind (regionIdx w))
    (List.range cols).map (one taps))
  let d1 := freeBanks d n j
  let d2 := sums.zipIdx.foldl (fun d p =>
    putPixel d n (oB + p.2 * vPitch w) (oB + 128 * vPitch w + 4 * p.2) (vOF w)
      (cvtPixel im w (outRow im it p.2) (outCol im it 0) (vCout w) (p.1.map val32)) false) d1
  let d3 := bump d2 (n / 6) (n % 6) 0x148 ((List.range (convKTiles w)).filter (fun t => !kTileUsed w rows t)).length
  if vArgmax w && !sums.isEmpty && cols ≠ 0 then
    match ctxOf d3 n j with
    | some x1 =>
      let am : ActionD := ⟨[if vArgVal w then 65536 else 0, 0, 0, 0, aw a 7]⟩
      convArgmax d3 n j x1 it am sums.length cols (fun m c => rne32 (val32 (((sums[m]?.getD [])[c]?).getD 0)))
    | none => d3
  else d3

/-- The checks of R209 for a convolution. -/
def convOk (im : Image) (it : Item) (w : List Nat) : Bool :=
  vOk im it w && decide (vA w ≤ 7) && decide (vW w ≤ 7) && fmtsOk w && vMOk im it w
    && (match dimOfRole im 1 with
        | some k => dimP im k == vCout w
        | none => false)
    && (!vArgmax w || argmaxLoopsOk im)

/-- The operand words that only the control block makes a convolution use: MX scales, bias, argmax (R105, R208). -/
def convExtra (w : List Nat) : List Nat :=
  (if isMX (vAF w) then [3] else []) ++ (if vBias w then [5] else []) ++ (if vArgmax w then [7] else [])

def cvbRange (im : Image) (it : Item) (a : ActionD) : List (Int × Nat) := [(opAddr im it (aw a 1), 128)]
def cvb (d : Dev) (n : Nat) (im : Image) (it : Item) (a : ActionD) : List Nat := ctlWords d n (opAddr im it (aw a 1)).toNat

/-- The operand and the region lie in the job's banks (R209). -/
def convRegion (im : Image) (it : Item) (a : ActionD) (w : List Nat) : List (Int × Nat) :=
  (opAddr im it (aw a 2), regionPixels w * pixelBytes w)
    :: (if isMX (vAF w) then [(opAddr im it (aw a 3), regionPixels w * (cinPad w / 32))] else [])

def convRun (d : Dev) (n j : Nat) (x : Ctx) (it : Item) (ev : Upset) : Dev × MicroEnd :=
  let im := x.image
  let a := actOf im it
  if !([1, 2, 4, 6].all (fun i => opWordOk (aw a i))) then (badAct d x it, .failed)
  else match engineReads d x.uid j n (itemAi it) false (cvbRange im it a) .none with
  | (d0, false) => (d0, .failed)
  | (d0, true) =>
    let w := cvb d0 n im it a
    let rows := rowTaps im it w
    let ws := convOut im it a w
    if !convOk im it w || !((convExtra w).all (fun i => opWordOk (aw a i))) then (badAct d0 x it, .failed)
    else if !rangesOwned d0 j n (convRegion im it a w) then (failOwned d0 x.uid j n (itemAi it) (convRegion im it a w), .failed)
    else if !rangesOwned d0 j n ws then (failOwned d0 x.uid j n (itemAi it) ws, .failed)
    else if outsideRegion w rows then (badAct d0 x it, .failed)
    else match engineReads d0 x.uid j n (itemAi it) false
        (inRanges w (opAddr im it (aw a 2)) (opAddr im it (aw a 3)) rows) ev with
    | (d1, false) => (d1, .failed)
    | (d1, true) =>
      match engineReads d1 x.uid j n (itemAi it) true (convWRanges im it a w rows) .none with
      | (d2, false) => (d2, .failed)
      | (d2, true) =>
        match arrayUpset d2 x.uid j n ev with
        | (d3, false) => (d3, .failed)
        | (d3, true) => (convData d3 n j x it w rows, .done (feedCycles w rows))

def convGr (d : Dev) (n : Nat) (x : Ctx) (it : Item) : List Nat × List Nat :=
  let im := x.image
  let a := actOf im it
  let w := cvb d n im it a
  let rows := rowTaps im it w
  (inScratch n (cvbRange im it a ++ inRanges w (opAddr im it (aw a 2)) (opAddr im it (aw a 3)) rows
     ++ convWRanges im it a w rows),
   inScratch n (convOut im it a w))

/-- CONVOLUTION_FEED. -/
def opConv (d : Dev) (n j : Nat) (ev : Upset) : Dev :=
  microIssue d n j 0x30 .vector (fun d x it => convGr d n x it) (fun d x it => convRun d n j x it ev)
def execConvolutionFeed (core : CoreId) (job : JobId) (ev : Upset) (s : State) : Host.Outcome State Fault Refusal :=
  okDev s (opConv s.dev core.val job.val ev)

/-! ### POOLING (R216-R218) -/

/-- MX scales of a pooling input follow its region (log 54). -/
def poolScale (im : Image) (it : Item) (a : ActionD) (w : List Nat) : Int :=
  opAddr im it (aw a 2) + (regionPixels w * pixelBytes w : Nat)
def poolOut (im : Image) (it : Item) (a : ActionD) (w : List Nat) : List (Int × Nat) :=
  outRanges w (opAddr im it (aw a 3)) (min 128 (passM im it)) (vCin w) (ceilDiv (vCin w) 32)

/-- The largest negative value of an MX format, as an element with the scale 2^127: for MXINT8 the bound of
R57, −127 × 2^−6 (R57, R218; log 54). -/
def mxLowest : ElemFmt → Nat
  | .e2m1 => 0xF
  | .e3m2 | .e2m3 => 0x3F
  | .e4m3 => 0xFE
  | .e5m2 => 0xFB
  | _ => 0x81
/-- The output of a MAX window with no valid element: −∞, or the largest negative value that OUT_FMT encodes (R218). -/
def emptyMax (w : List Nat) : List Nat × List Nat :=
  if isMX (vOF w) then (List.replicate (vCin w) (mxLowest (vOF w)), List.replicate (ceilDiv (vCin w) 32) 254)
  else cvtRow (vOF w) (fun _ => .rne) false (List.replicate (vCin w) (val32 negInf32))

/-- One channel of a window: MAX or AVG of its valid elements (R217, R218). -/
def poolVal (w : List Nat) (vs : List Nat) : FVal :=
  if vPoolOp w = 0 then val32 (vs.foldl max32 negInf32)
  else if vs.isEmpty then .fin false 0 0
  else val32 (div32 (treeOf add32 vs 0) (rne32 (fOfInt vs.length)))

/-- ARITH cycles of a pooling: 256 channels of one window element for each (R216). -/
def poolCycles (w : List Nat) (rows : List (List (Option (Nat × Nat × Nat)))) : Nat :=
  sumBy rows (fun r => (r.filter (·.isSome)).length) * ceilDiv (vCin w) 256

def poolOk (im : Image) (it : Item) (w : List Nat) : Bool :=
  vOk im it w && decide (vA w ≤ 8) && vPadMode w == 0 && vCout w == vCin w && !vArgmax w && vMOk im it w

def poolRegion (im : Image) (it : Item) (a : ActionD) (w : List Nat) : List (Int × Nat) :=
  (opAddr im it (aw a 2), regionPixels w * pixelBytes w)
    :: (if isMX (vAF w) then [(poolScale im it a w, regionPixels w * (cinPad w / 32))] else [])

def poolData (d : Dev) (n j : Nat) (x : Ctx) (it : Item) (w : List Nat)
    (rows : List (List (Option (Nat × Nat × Nat)))) (sl : Bool) : Dev :=
  let im := x.image
  let a := actOf im it
  let f := vAF w
  let inB := (opAddr im it (aw a 2)).toNat
  let scB := (poolScale im it a w).toNat
  let oB := (opAddr im it (aw a 3)).toNat
  let elt (i c : Nat) : Nat :=
    let v := elemVal f (eltAt d n (inB + i * pixelBytes w) f c)
    if isMX f then
      match e8m0 (numT0 d n (scB + i * (cinPad w / 32) + c / 32) 1) with
      | some e => rne32 (fScale v e)
      | none => rne32 .nan
    else rne32 v
  let out := rows.zipIdx.map (fun p =>
    let idx := p.1.filterMap (fun q => q.bind (regionIdx w))
    let vs := (List.range (vCin w)).map (fun c => poolVal w (idx.map (fun i => elt i c)))
    if idx.isEmpty && vPoolOp w = 0 then emptyMax w
    else cvtPixel im w (outRow im it p.2) 0 (vCin w) vs)
  out.zipIdx.foldl (fun d p =>
    putPixel d n (oB + p.2 * vPitch w) (oB + 128 * vPitch w + ceilDiv (vCin w) 32 * p.2) (vOF w) p.1 sl) (freeBanks d n j)

def poolRun (d : Dev) (n j : Nat) (x : Ctx) (it : Item) (ev : Upset) : Dev × MicroEnd :=
  let im := x.image
  let a := actOf im it
  if !([1, 2, 3].all (fun i => opWordOk (aw a i))) || (a.w.drop 4).any (· != 0) then (badAct d x it, .failed)
  else match engineReads d x.uid j n (itemAi it) false (cvbRange im it a) .none with
  | (d0, false) => (d0, .failed)
  | (d0, true) =>
    let w := cvb d0 n im it a
    let rows := rowTaps im it w
    let ws := poolOut im it a w
    let rs := inRanges w (opAddr im it (aw a 2)) (poolScale im it a w) rows
    if !poolOk im it w then (badAct d0 x it, .failed)
    else if !rangesOwned d0 j n (poolRegion im it a w) then (failOwned d0 x.uid j n (itemAi it) (poolRegion im it a w), .failed)
    else if !rangesOwned d0 j n ws then (failOwned d0 x.uid j n (itemAi it) ws, .failed)
    else if outsideRegion w rows then (badAct d0 x it, .failed)
    else match engineReads d0 x.uid j n (itemAi it) true rs ev with
    | (d1, false) => (d1, .failed)
    | (d1, true) =>
      match arrayUpset d1 x.uid j n ev with
      | (d2, false) => (d2, .failed)
      | (d2, true) => (poolData d2 n j x it w rows ((inScratch n rs).any (sealed d2)), .done (poolCycles w rows))

def poolGr (d : Dev) (n : Nat) (x : Ctx) (it : Item) : List Nat × List Nat :=
  let im := x.image
  let a := actOf im it
  let w := cvb d n im it a
  (inScratch n (cvbRange im it a ++ inRanges w (opAddr im it (aw a 2)) (poolScale im it a w) (rowTaps im it w)),
   inScratch n (poolOut im it a w))

/-- POOLING. -/
def opPool (d : Dev) (n j : Nat) (ev : Upset) : Dev :=
  microIssue d n j 0x31 .vector (fun d x it => poolGr d n x it) (fun d x it => poolRun d n j x it ev)
def execPooling (core : CoreId) (job : JobId) (ev : Upset) (s : State) : Host.Outcome State Fault Refusal :=
  okDev s (opPool s.dev core.val job.val ev)

/-! ### QUILL_LAYER (R222-R227) -/

/-- The maps of a quill action. -/
def quillIn (a : ActionD) : DevAddr := decodeAddr (aw a 2 + 2 ^ 32 * aw a 3)
def quillOut (a : ActionD) : DevAddr := decodeAddr (aw a 4 + 2 ^ 32 * aw a 5)
def rowFirst (a : ActionD) : Nat := bitsOf (aw a 7) 31 16
def rowCount (a : ActionD) : Nat := bitsOf (aw a 7) 15 0

/-- Place of position (t, h, x) in a map whose pitches are the planned extents. -/
def mapIdx (im : Image) (h w : Nat) (p : Nat × Nat × Nat) : Nat := (p.1 * dimP im h + p.2.1) * dimP im w + p.2.2

/-- The output pixels of the rows, by row-major number. -/
def quillPixels (it : Item) (a : ActionD) (w : List Nat) : List Nat :=
  let ow := vExt it (axisW w).dimO
  ((List.range (rowCount a)).map (fun r => (List.range ow).map (fun c => (rowFirst a + r) * ow + c))).flatten

/-- May the command read or write `bytes` bytes of a map from an address on (R244, R246)? T1 and T2 only. -/
def mapOk (d : Dev) (c : Cmd) (uid : Nat) (ad : DevAddr) (bytes : Nat) (wr : Bool) : Bool :=
  match ad with
  | .obj t oid o =>
    (t == 1 || t == 2) && inList c ad &&
    (match copyFor d uid oid t with
     | some (ob, _) => decide (o + bytes ≤ ob.size * 4096) && (if wr then mayWrite ob t c.job else mayRead ob c.job)
     | none => false)
  | _ => false

/-- The granules of a byte range of an object copy. -/
def mapKeys (ad : DevAddr) (off n : Nat) : List Nat :=
  match ad with
  | .obj t oid o =>
    if n = 0 then []
    else (List.range ((o + off + n + 4095) / 4096 - (o + off) / 4096)).map (fun i => gKey t oid ((o + off) / 4096 + i))
  | _ => []
def mapByte (ad : DevAddr) : Nat := addrOff ad
/-- Reads bytes of a map as the command sees them. -/
def readMap (d : Dev) (uid : Nat) (ad : DevAddr) (off n : Nat) : List Nat :=
  match ad with
  | .obj t oid o =>
    (List.range n).map (fun i => ((readView d uid (gKey t oid ((o + off + i) / 4096)) ((o + off + i) % 4096) 1)[0]?).getD 0)
  | _ => List.replicate n 0
/-- Writes bytes of a map for a command, granule by granule. -/
def writeMap (uid : Nat) (ad : DevAddr) (off : Nat) (bs : List Nat) (d : Dev) : Except Nat Dev :=
  match ad with
  | .obj t oid o =>
    let a := o + off
    (List.range ((a + bs.length + 4095) / 4096 - a / 4096)).foldl (fun r i =>
      match r with
      | .error e => .error e
      | .ok d =>
        let g := a / 4096 + i
        let lo := max a (g * 4096)
        let hi := min (a + bs.length) ((g + 1) * 4096)
        if hi ≤ lo then .ok d
        else writeView d uid (gKey t oid g) (lo - g * 4096) ((bs.drop (lo - a)).take (hi - lo)) false) (.ok d)
  | _ => .ok d

/-- Bytes from the start of a map to the end of its last valid pixel (R113, R223). -/
def mapEnd (im : Image) (h w t hh ww pb : Nat) : Nat :=
  if t = 0 || hh = 0 || ww = 0 then 0 else (mapIdx im h w (t - 1, hh - 1, ww - 1) + 1) * pb

/-- The checks of R224. -/
def quillOk (im : Image) (it : Item) (a : ActionD) (w : List Nat) : Bool :=
  vOk im it w && (vA w == 6 || vA w == 7) && (vW w == 6 || vW w == 7) && decide (6 ≤ vOut w) && !vArgmax w
    && decide (min (vCin w) (vCout w) ≤ 16) && decide (vCin w ≤ 1024) && decide (vCout w ≤ 1024)
    && decide ((vTaps w).length * vCin w * vCout w ≤ 65536)
    && decide (rowFirst a + rowCount a ≤ vExt it (axisT w).dimO * vExt it (axisH w).dimO)

def quillWBytes (w : List Nat) : Nat := 2 * (vTaps w).length * vCin w * vCout w
def quillWRanges (im : Image) (it : Item) (a : ActionD) (w : List Nat) : List (Int × Nat) :=
  [(opAddr im it (aw a 6), quillWBytes w + (if vBias w then 4 * vCout w else 0))]

def quillInB (im : Image) (it : Item) (w : List Nat) : Nat :=
  mapEnd im (axisH w).dimI (axisW w).dimI (vExt it (axisT w).dimI) (vExt it (axisH w).dimI) (vExt it (axisW w).dimI)
    (2 * vCin w)
def quillOutPb (w : List Nat) : Nat := vCout w * elemBits (vOF w) / 8
def quillOutAt (im : Image) (it : Item) (w : List Nat) (p : Nat) : Nat :=
  mapIdx im (axisH w).dimO (axisW w).dimO (pixelOf it w p) * quillOutPb w

/-- ARITH cycles of a quill action (R226). -/
def quillCycles (it : Item) (w : List Nat) (pix : List Nat) : Nat :=
  sumBy (List.range (ceilDiv pix.length 32)) (fun g =>
    let grp := (pix.drop (32 * g)).take 32
    let v := ((vTaps w).filter (fun t => grp.any (fun p => (inputPos it w (pixelOf it w p) t).isSome))).length
    max 1 (ceilDiv (v * vCin w * vCout w) 64))

/-- The input granules that the pixels read. -/
def quillReads (im : Image) (it : Item) (a : ActionD) (w : List Nat) : List Nat :=
  let pos := (((quillPixels it a w).map (fun p => (vTaps w).filterMap (inputPos it w (pixelOf it w p)))).flatten).dedup
  ((pos.map (fun q => mapKeys (quillIn a) (mapIdx im (axisH w).dimI (axisW w).dimI q * (2 * vCin w)) (2 * vCin w))).flatten).dedup
def quillWrites (im : Image) (it : Item) (a : ActionD) (w : List Nat) : List Nat :=
  (((quillPixels it a w).map (fun p => mapKeys (quillOut a) (quillOutAt im it w p) (quillOutPb w))).flatten).dedup

/-- One output pixel of the quill engine: sums with one rounding for each product (R225), then the conversion. -/
def quillPixel (d : Dev) (n uid : Nat) (im : Image) (it : Item) (a : ActionD) (w : List Nat) (p : Nat) : List Nat :=
  let wB := (opAddr im it (aw a 6)).toNat
  let f := vAF w
  let taps := (vTaps w).map (inputPos it w (pixelOf it w p))
  let px := taps.map (fun q => q.map (fun q =>
    let bs := readMap d uid (quillIn a) (mapIdx im (axisH w).dimI (axisW w).dimI q * (2 * vCin w)) (2 * vCin w)
    (List.range (vCin w)).map (fun c => elemVal f (ofLeBytes ((bs.drop (2 * c)).take 2)))))
  let sum (o : Nat) : Nat :=
    px.zipIdx.foldl (fun s t =>
      match t.1 with
      | none => s
      | some vs => vs.zipIdx.foldl (fun s v =>
          addSingle s v.1 (elemVal (vWF w) (numT0 d n (wB + 2 * ((t.2 * vCin w + v.2) * vCout w + o)) 2))) s)
      (if vBias w then numT0 d n (wB + quillWBytes w + 4 * o) 4 else 0)
  let r := cvtPixel im w p 0 (vCout w) ((List.range (vCout w)).map (fun o => val32 (sum o)))
  (r.1.map (leBytes (elemBits (vOF w) / 8))).flatten

/-- Writes the pixels into the output map. -/
def quillWriteAll (uid : Nat) (im : Image) (it : Item) (a : ActionD) (w : List Nat) : List (Nat × List Nat) → Dev → Except Nat Dev
  | [], d => .ok d
  | (p, bs) :: r, d =>
    match writeMap uid (quillOut a) (quillOutAt im it w p) bs d with
    | .ok d1 => quillWriteAll uid im it a w r d1
    | .error e => .error e

def quillRun (d : Dev) (n j : Nat) (x : Ctx) (it : Item) (ev : Upset) : Dev × MicroEnd :=
  let im := x.image
  let a := actOf im it
  let die := n / 6
  if SMap.get? (job d j).place.quill die ≠ some (n % 6) || !opWordOk (aw a 1) || !opWordOk (aw a 6) then (badAct d x it, .failed)
  else match engineReads d x.uid j n (itemAi it) false (cvbRange im it a) .none with
  | (d0, false) => (d0, .failed)
  | (d0, true) =>
    let w := cvb d0 n im it a
    let pix := quillPixels it a w
    match cmd d0 x.uid with
    | none => (d0, .failed)
    | some c =>
      let outB := pix.foldl (fun m p => max m (quillOutAt im it w p + quillOutPb w)) 0
      if !quillOk im it a w || !mapOk d0 c x.uid (quillIn a) (quillInB im it w) false
          || !mapOk d0 c x.uid (quillOut a) outB true then (badAct d0 x it, .failed)
      else match engineReads d0 x.uid j n (itemAi it) true (quillWRanges im it a w) .none with
      | (d1, false) => (d1, .failed)
      | (d1, true) =>
        let keys := quillReads im it a w
        let base := encodeAddr (quillIn a) / 4096 * 4096
        let k0 := match mapKeys (quillIn a) 0 1 with
          | k :: _ => k
          | [] => 0
        match keys.find? (fun k => match viewSid d1 x.uid k with | some s => sealed d1 s | none => false) with
        | some k => (endCmd d1 x.uid stSealed (base + 4096 * (k - k0)) false, .failed)
        | none =>
          match gather x.uid (coreCap n (some j) base 0 128) (keys.map (fun k => (base + 4096 * (k - k0), k)))
              (touchReads d1 keys) ev with
          | (d2, .error (st, ad)) => (endCmd d2 x.uid st ad false, .failed)
          | (d2, .ok _) =>
            if ev = .bufUE then (failFault (latch d2 die 18 0 (coreCap n (some j) 0 0 4)) x.uid die 18 true, .failed)
            else if ev = .parity then (failFault (latch d2 die 18 1 (coreCap n (some j) 0 0 2)) x.uid die 18 true, .failed)
            else
              match quillWriteAll x.uid im it a w (pix.map (fun p => (p, quillPixel d2 n x.uid im it a w p))) d2 with
              | .error t => (endCmd d2 x.uid stQuota t false, .failed)
              | .ok d3 =>
                let d4 := bump (bump64 d3 die 18 0x130 pix.length) die 18 0x138 (quillCycles it w pix)
                (if ev = .bufCE then bump d4 die 18 0x140 1 else d4, .done (quillCycles it w pix))

def quillGr (d : Dev) (n : Nat) (x : Ctx) (it : Item) : List Nat × List Nat :=
  let im := x.image
  let a := actOf im it
  let w := cvb d n im it a
  (inScratch n (cvbRange im it a ++ quillWRanges im it a w) ++ quillReads im it a w, quillWrites im it a w)

/-- QUILL_LAYER. -/
def opQuill (d : Dev) (n j : Nat) (ev : Upset) : Dev :=
  microIssue d n j 0x32 .quill (fun d x it => quillGr d n x it) (fun d x it => quillRun d n j x it ev)
def execQuillLayer (core : CoreId) (job : JobId) (ev : Upset) (s : State) : Host.Outcome State Fault Refusal :=
  okDev s (opQuill s.dev core.val job.val ev)

end Sys2Proof.Machine
end

