-- ==== Sys2Proof/Machine/Sec.lean ====
section
/-! DEFINITION. The security engine: key slots, weight packages, seal hits, measurement blocks and the SPDM responder
(12 R396; 13 R405-R435; log 8, 56). -/

namespace Sys2Proof.Machine
open Sys2Proof

/-- The SEC page lies on HC0. -/
def secSet (d : Dev) (x : Sec) : Dev := { d with sec := x }
def secBump (d : Dev) (reg : Nat) : Dev := bump d 60 1 reg 1
def secCap (p : Nat) (j : Nat) (a len : Nat) : Cap := ⟨a, 1, p, some j, 0, len⟩

/-! ### Seal hits (R425) -/

/-- A read from outside met sealed bytes: counted, and the first address and path captured until rearmed. -/
def sealHit (d : Dev) (addr path : Nat) : Dev :=
  let d1 := secBump d 0x180
  if rg d1 60 1 0x104 % 2 = 1 then d1
  else
    let d2 := setRg (setRg64 (setRg d1 60 1 0x104 (rg d1 60 1 0x104 + 1)) 60 1 0x108 addr) 60 1 0x110 path
    latch d2 60 1 3 (secCap 0 0 addr 0)

/-- What a read from outside returns of a granule's bytes: zeros where it is sealed. -/
def outerRead (d : Dev) (sid off n addr path : Nat) : Dev × List Nat :=
  if sealed d sid then (sealHit d addr path, List.replicate n 0) else (d, stRead d sid off n)

/-! ### Key slots (R416-R418, R434) -/

/-- A job is ACTIVE and owned through the accessor's port. -/
def secOwned (d : Dev) (a : Acc) (j : Nat) : Bool := (job d j).state == 1 && (job d j).port == accPort a

/-- Empties a key slot; LOAD_SEALED commands that use it end (R422). -/
def eraseSlot (d : Dev) (j k : Nat) (status detail : Nat) : Dev :=
  let d1 := secSet d { d.sec with keys := SMap.erase d.sec.keys (j * 16 + k) }
  endAll d1 (fun _ c => c.job == j && dOpcode c.desc == 0x09 && bitsOf (dBytes c.desc 28 4) 3 0 == k
    && (c.phase == .running || c.phase == .worked)) status detail false

/-- Ends a SEC_KEY_OP. -/
def keyResult (d : Dev) (r : Nat) : Dev := pageEvent (setRg d 60 1 0x130 r) 60 1 0

/-- Reads the 4 KiB of a wrap blob: a T1 or T2 copy that the job may read (R418). -/
def readBlob (d : Dev) (j addr : Nat) (ev : Upset) : Dev × Option (List Nat) :=
  match decodeAddr addr with
  | .obj t oid o =>
    (match copyFor d 0 oid t with
     | some (ob, _) =>
       if (t = 1 || t = 2) && mayRead ob j && o % 4096 = 0 && decide (o + 4096 ≤ ob.size * 4096) then
         match rootOf d (gKey t oid (o / 4096)) with
         | none => (d, some (List.replicate 4096 0))
         | some sid =>
           if sealed d sid then (d, none)
           else match checkRead d (gKey t oid (o / 4096)) sid addr ev (secCap 0 j addr 4096) with
             | (d1, some _) => (d1, none)
             | (d1, none) => (d1, some (stRead d1 sid 0 4096))
       else (d, none)
     | none => (d, none))
  | _ => (d, none)

/-- INSTALL of SEC_KEY_OP (R418): the checks in the order of log 56. -/
def opInstall (d : Dev) (a : Acc) (ev : Upset) : Dev :=
  let sel := rg d 60 1 0x120
  let j := bitsOf sel 7 0
  let k := bitsOf sel 11 8
  if !secOwned d a j then keyResult d 1
  else if d.factoryTest then keyResult d 5
  else if SMap.has d.sec.keys (j * 16 + k) then keyResult d 4
  else match readBlob d j (rg64 d 60 1 0x124) ev with
    | (d1, none) => keyResult d1 2
    | (d1, some bs) =>
      if ev = .bufUE then keyResult (latch d1 60 1 0 (secCap 0 j 0 0)) 3
      else
        let opened := if d1.sec.fuseErr then none else unwrapBlob d1.sec.krel bs
        match opened with
        | some (key, pkg) =>
          keyResult (secSet d1 { d1.sec with keys := SMap.insert d1.sec.keys (j * 16 + k) ⟨key, pkg⟩ }) 0
        | none => keyResult (latch (secBump d1 0x188) 60 1 1 (secCap 0 j (rg64 d 60 1 0x124) 4096)) 3
def execInstall (acc : Acc) (ev : Upset) (s : State) : Host.Outcome State Fault Refusal :=
  okDev s (withReg s.dev acc (regOff 60 1 0x12C) (fun d => opInstall d acc ev))

/-- ERASE of SEC_KEY_OP (R418, R422). -/
def opErase (d : Dev) (a : Acc) : Dev :=
  let sel := rg d 60 1 0x120
  let j := bitsOf sel 7 0
  if !secOwned d a j then keyResult d 1
  else keyResult (eraseSlot d j (bitsOf sel 11 8) stSealed 0) 0
def execErase (acc : Acc) (s : State) : Host.Outcome State Fault Refusal :=
  okDev s (withReg s.dev acc (regOff 60 1 0x12C) (fun d => opErase d acc))

/-! ### LOAD_SEALED (R420-R423) -/

def lsSrc (c : Cmd) : DevAddr := decodeAddr (dBytes c.desc 8 8)
def lsDst (c : Cmd) : DevAddr := decodeAddr (dBytes c.desc 16 8)
def lsGrans (c : Cmd) : Nat := dBytes c.desc 24 4
def lsSlot (c : Cmd) : Nat := bitsOf (dBytes c.desc 28 4) 3 0

/-- Plaintext granules of the chunks that n granules from a chunk on fill. -/
def chunkSizes (n : Nat) : List Nat := (List.range (ceilDiv n 256)).map (fun i => min 256 (n - 256 * i))
/-- Granules of the segment after its header: each chunk, and one with its tag (R421). -/
def segGrans (n : Nat) : Nat := n + ceilDiv n 256

/-- Opens the chunks in order: none where a tag fails (R420). `gs` are the segment's granules after the header. -/
def openAll (key : BitVec 256) (hdr : List Nat) : List Nat → Nat → List (List Nat) → Option (List (List Nat))
  | [], _, _ => some []
  | n :: r, c, gs =>
    let ct := ((gs.take n).flatten) ++ ((gs[n]?).getD []).take 16
    match openChunk key c hdr ct with
    | none => none
    | some pt =>
      match openAll key hdr r (c + 1) (gs.drop (n + 1)) with
      | none => none
      | some rest => some ((List.range n).map (fun i => padTo 4096 (((pt.drop (4096 * i)).take 4096).map (· % 256))) ++ rest)

/-- The addresses of LOAD_SEALED (R421). -/
def lsAddrOk (d : Dev) (uid : Nat) (c : Cmd) (n : Nat) : Bool :=
  (match lsDst c with
   | .obj .. => rangeOk d uid c.job (lsDst c) n true
   | _ => false)
  && (match lsSrc c with
      | .obj .. | .t0 .. => rangeOk d uid c.job (lsSrc c) (1 + segGrans n) false
      | _ => false)

/-- Writes the plaintext, every granule sealed (R423). -/
def lsWrite (d : Dev) (uid : Nat) (c : Cmd) (gs : List (List Nat)) : Dev :=
  let dk := rangeKeys (lsDst c) gs.length
  if dk.any (fun k => gKind k == 4 && !gIsT0 k) && (t4WriteFault d uid).isSome then (t4WriteFault d uid).getD d
  else
    match scatter uid (dk.zip (gs.map (fun g => (g, true)))) d with
    | .error t => endCmd d uid stQuota t false
    | .ok d1 => requestCommit (startPrograms (secBump d1 0x184) uid dk) uid

/-- LOAD_SEALED, its checks in the order of log 56. -/
def opLoadSealed (d : Dev) (uid : Nat) (ev : Upset) : Dev :=
  let ready (c : Cmd) : Bool := t0Ready d c.job (lsSrc c) && !movePending d (lsSrc c) (lsDst c) (lsGrans c)
  startCmd d uid 0x09 ready (fun d c =>
    let n := lsGrans c
    if n = 0 || !lsAddrOk d uid c n then failBad (isolation d c.job (lsSrc c) (1 + segGrans n)) uid none
    else if d.factoryTest || d.sec.fuseErr then endCmd d uid stSealed 0 false
    else match SMap.get? d.sec.keys (c.job * 16 + lsSlot c) with
      | none => endCmd d uid stSealed 0 false
      | some slot =>
        if ev = .bufUE then
          eraseSlot (latch d 60 1 0 (secCap 0 c.job 0 0)) c.job (lsSlot c) stFault (blkIdOf 60 1)
        else
          let d0 := holdAddr (holdAddr d uid (lsSrc c)) uid (lsDst c)
          let m := 1 + segGrans n
          let cp := qmCap d0 c.job (encodeAddr (lsSrc c)) 1 (min (m * 4096) 0xFFFF)
          let keys := rangeKeys (lsSrc c) m
          match gather uid cp ((granAddrs (lsSrc c) m).zip keys) (touchReads d0 keys) ev with
          | (d1, .error (st, a)) => endCmd d1 uid st a false
          | (d1, .ok data) =>
            match data.zipIdx.find? (fun g => g.1.2) with
            | some g => endCmd d1 uid stSealed (encodeAddr (addrAdd (lsSrc c) (4096 * g.2))) false
            | none =>
              let hd := ((data.map (·.1)).head?).getD []
              let num (o k : Nat) : Nat := ofLeBytes ((hd.drop o).take k)
              let first := num 256 8
              let total := num 24 8
              if num 0 4 ≠ 0x4B534750 || num 4 4 ≠ 1 || num 8 16 ≠ slot.pkgId.toNat then endCmd d1 uid stSealed 0 false
              else if decide (total < 256 * first + n) || (n % 256 ≠ 0 && 256 * first + n ≠ total) then failBad d1 uid none
              else match openAll slot.key (hd.take 256) (chunkSizes n) first ((data.map (·.1)).drop 1) with
                | none =>
                  endCmd (latch (secBump d1 0x18C) 60 1 2 (secCap 0 c.job (encodeAddr (lsSrc c)) 4096)) uid stSealed 0 false
                | some gs => lsWrite d1 uid c gs)
def execLoadSealed (uid : Nat) (ev : Upset) (s : State) : Host.Outcome State Fault Refusal :=
  okDev s (opLoadSealed s.dev uid ev)

/-! ### Measurement blocks (R412-R415) -/

/-- The digests of an image's components: blocks 2 to 6, numbered from `base` + 2 on. -/
def fwBlocks (base : Nat) (im : ImgSlot) (slot : Bool) : List (Nat × Nat × List Nat) :=
  [2, 3, 4, 5, 6].map (fun i => (base + i, 0x01, Config.digest i im.version im.svn (b2n slot)))

/-- The measurement blocks as they stand. -/
def measBlocks (d : Dev) : List (Nat × Nat × List Nat) :=
  let b := d.boot
  let run := runImg b
  let rom : Nat × Nat × List Nat := (1, 0x00, Config.digest 1 0 0 0)
  let cfg := Config.block7 [Config.keyGroup.toNat, b2n Config.ftClosed, b2n d.factoryTest,
    maskBits 8 (fun i => inkCache d i), orbStateNo d.orb.state]
  let micro := (List.range 48).map (fun i =>
    if NSet.mem d.sec.resetBlocks i then (16 + i, 0x81, [1, 0, 0, 0])
    else (16 + i, 0x01, Config.digest (16 + i) run.version run.svn 0))
  [rom] ++ (if b.runs then fwBlocks 0 run b.runSlot else []) ++ [(7, 0x82, cfg), (8, 0x80, Config.p384Pub d.sec.krel)]
    ++ (if b.runs then micro else [])
    ++ (if d.sec.pendingBlocks then fwBlocks 128 (stagedImg b) (if b.runs then !b.runSlot else false) else [])
    ++ [(0xFE, Config.deviceMode (devStateNo d.state))]

/-! ### The SPDM responder (12 R396; 13 R411, R414) -/

def spdmOf (d : Dev) (p : HostPort) : Nat := (match p with | .a => d.sec.spdmA | .b => d.sec.spdmB).length
def setSpdm (d : Dev) (p : HostPort) (n : Nat) : Dev :=
  let l : SMap Nat := (List.range (min 4 n)).map (fun i => (i, 1))
  match p with
  | .a => secSet d { d.sec with spdmA := l }
  | .b => secSet d { d.sec with spdmB := l }

/-- A configuration access reaches a port's function: link up and out of PERST# (12 R398). -/
def cfgReach (d : Dev) (p : HostPort) : Bool := (pcie d p).linkUp && !(pcie d p).perst

/-- IDE_KM programs the key of a stream over a Secured CMA/SPDM session of the same port; the stream is then Secure (12 R397). -/
def ideProgram (d : Dev) (p : HostPort) (protocol : Nat) (req : List Nat) (n : Nat) : Dev :=
  if protocol ≠ 2 || n = 0 then d
  else match Config.ideKm req n with
    | some (i, key) => setPcie d p { pcie d p with ide := SMap.insert (pcie d p).ide i.val ⟨true, key⟩ }
    | none => d

/-- GET_CERTIFICATE is answered from the certificate slots (R410). A whole object of the CMA/SPDM or Secured CMA/SPDM protocol is answered; DOE Discovery is answered by the port. -/
def answerDoe (d : Dev) (p : HostPort) (protocol : Nat) (req : List Nat) : Dev :=
  if protocol = 0 then emit d (.spdm (portNo p) false (Config.spdmAnswer req [] [] 0 0))
  else
    let d1 := secBump d 0x190
    if d.sec.windowOpen then emit (secBump d1 0x194) (.spdm (portNo p) true [])
    else
      let n := spdmOf d1 p
      if protocol = 1 && (req[1]?).getD 0 = 0x82 then emit d1 (.spdm (portNo p) false (certAnswer req))
      else
        let r := drbgDraw d1.sec.drbg 32
        let d2 := ideProgram (secSet d1 { d1.sec with drbg := r.1 }) p protocol req n
        emit (setSpdm d2 p (Config.spdmOpen req n))
          (.spdm (portNo p) false (Config.spdmAnswer req (measBlocks d1) certChain n (BitVec.ofNat 256 r.2)))

/-- SPDM_REQUEST: `len` is the object's length, `req` the bytes that arrive; an object that is not whole stays in
progress (R396; log 56). -/
def opSpdm (d : Dev) (p : HostPort) (protocol len : Nat) (req : List Nat) : Dev :=
  if !cfgReach d p then d
  else if decide (65536 < len) || decide (2 < protocol) then setPcie d p { pcie d p with doe := none }
  else
    let got := match (pcie d p).doe with
      | some o => if o.protocol = protocol then o.bytes ++ req else req
      | none => req
    if got.length < len then setPcie d p { pcie d p with doe := some ⟨protocol, got⟩ }
    else answerDoe (setPcie d p { pcie d p with doe := none }) p protocol (got.take len)
def execSpdmRequest (port : HostPort) (protocol : Fin 256) (len : Nat) (request : List Byte) (s : State) :
    Host.Outcome State Fault Refusal :=
  okDev s (opSpdm s.dev port protocol.val len (request.map BitVec.toNat))

/-- DOE_ABORT (R396). -/
def opDoeAbort (d : Dev) (p : HostPort) : Dev :=
  if cfgReach d p then setPcie d p { pcie d p with doe := none } else d
def execDoeAbort (port : HostPort) (s : State) : Host.Outcome State Fault Refusal := okDev s (opDoeAbort s.dev port)

end Sys2Proof.Machine
end

