-- ==== Sys2Proof/Machine/Host.lean ====
section
/-! DEFINITION. The host ports: HOST_LOST and adoption, the management port, VF assignment, apertures, MSI-X, function
resets, PERST# (12 R385-R404; 15 R477, R480; log 57). -/

namespace Sys2Proof.Machine
open Sys2Proof

/-- The port whose function makes an access; an accessor without one acts as port A (log 31). -/
def accHost (a : Acc) : HostPort := if accPort a = 0 then .a else .b
/-- The accessor is a port's PF. -/
def isPf (a : Acc) (p : HostPort) : Bool :=
  match a with
  | .pf q => decide (q = p)
  | _ => false
/-- A register of the PCIE page of a port. -/
def pcieOff (p : HostPort) (reg : Nat) : Nat := regOff (pgPcie p) 0 reg

/-! ### CNT_CLR (04 R130) -/

/-- The register that holds CNT_CLR on a page of a block. -/
def cntClrReg : Blk → Nat
  | .cdie => 0x108
  | .gddr => 0x10C
  | .onfi => 0x104
  | _ => 0x100
/-- CNT_CLR behind the access checks; a job page is reached as its accessor reaches it (R389). -/
def execCntClr (acc : Acc) (die : Fin 64) (page : Fin 1024) (s : State) : Host.Outcome State Fault Refusal :=
  match blkAt die.val page.val with
  | none => okDev s s.dev
  | some b =>
    let off := match b with
      | .qmgrJ => jobOff acc (page.val - 0x200) 0x100
      | _ => regOff die.val page.val (cntClrReg b)
    okDev s (withReg s.dev acc off (fun d => opCntClr d (if b = .fabr then 56 else die.val) page.val))

/-! ### HOST_LOST and adoption (R400-R403) -/

/-- A PUBLISH that has not finished writing ends with DEVICE_FAULT (R401). -/
def endPublish (d : Dev) (p : HostPort) (js : List Nat) : Dev :=
  (d.qm.cmds.filter (fun e => js.contains e.2.job && dOpcode e.2.desc == 0x05
    && (e.2.phase == .waiting || e.2.phase == .running))).foldl
    (fun d e => failFault d e.1 (pgPcie p) 0 true) d

/-- A port declares HOST_LOST (R400, R401, R403). -/
def declareLost (d : Dev) (p : HostPort) : Dev :=
  if (pcie d p).hostLost then d
  else
    let js := (d.qm.jobs.filter (fun e => e.2.state == 1 && e.2.port == portNo p && !e.2.orphan)).map (·.1)
    let d1 := setPcie d p { pcie d p with hostLost := true }
    let d2 := latch d1 (pgPcie p) 0 0 ⟨0, 5, portNo p, none, 8, 0⟩
    let d3 := js.foldl (fun d j => setJob d j { job d j with orphan := true, sq0 := emptySQ, sq1 := emptySQ, sq2 := emptySQ }) d2
    let d4 := { d3 with qm := { d3.qm with bells := d3.qm.bells.filter (fun b => !js.contains b.1) }
                        mgmtPortB := d3.mgmtPortB || decide (p = .a) }
    js.foldl (fun d _ => sendEventVec d 1026) (endPublish d4 p js)

/-- HOST_LOST: 100 ms (105,000,000 ARITH cycles) outside DL_Active. -/
def opHostLost (d : Dev) (p : HostPort) : Dev :=
  let x := pcie d p
  if !x.linkUp && x.downAt ≠ 0 && x.downAt + 105000000 ≤ d.now + 1 then declareLost d p else d
def execHostLost (port : HostPort) (s : State) : Host.Outcome State Fault Refusal := okDev s (opHostLost s.dev port)

/-- RELEASE, a write of the port's own PF. -/
def opHostRelease (d : Dev) (a : Acc) : Dev := if isPf a (accHost a) then declareLost d (accHost a) else d
def execRelease (acc : Acc) (s : State) : Host.Outcome State Fault Refusal :=
  okDev s (withReg s.dev acc (pcieOff (accHost acc) 0x100) (fun d => opHostRelease d acc))

/-- MGMT_CLAIM, a write of port A's PF. -/
def opMgmtClaim (d : Dev) (a : Acc) : Dev :=
  if isPf a .a && !d.pcieA.hostLost then { d with mgmtPortB := false } else d
def execMgmtClaim (acc : Acc) (s : State) : Host.Outcome State Fault Refusal :=
  okDev s (withReg s.dev acc (pcieOff (accHost acc) 0x100) (fun d => opMgmtClaim d acc))

/-- No VF of either port holds a job (R402). -/
def unassign (d : Dev) (j : Nat) : Dev :=
  let clr (x : Pcie) : Pcie := { x with vfJobs := SMap.keep (SMap.mapVals x.vfJobs (fun _ m => m &&& ~~~(1#256 <<< j))) (fun _ m => m != 0) }
  { d with pcieA := clr d.pcieA, pcieB := clr d.pcieB }

/-- The completion slots of an adopted job's commands in flight: the held entries first, from index 0 of the new ring
(R402; log 57). -/
def renumber (d : Dev) (j : Nat) : Dev :=
  let cs := jobCmds d j
  let order := (cs.filter (fun e => e.2.phase == .ended) ++ cs.filter (fun e => e.2.phase != .ended)).map (·.1)
  let d1 := order.zipIdx.foldl (fun d u => match cmd d u.1 with
    | some c => setCmd d u.1 { c with slot := u.2 }
    | none => d) d
  setJob d1 j { job d1 j with cqHead := 0, cqWr := 0, cqNext := order.length, cqWait := true }

/-- PCIE_ADOPT (R402). -/
def opAdopt (d : Dev) (p : HostPort) (j : Nat) : Dev :=
  let x := job d j
  if x.state ≠ 1 then setPcie d p { pcie d p with adoptResult := 1 }
  else if !x.orphan then setPcie d p { pcie d p with adoptResult := 2 }
  else
    let d1 := unassign (setJob d j { x with orphan := false, port := portNo p, sqErr := false,
                                            sq0 := emptySQ, sq1 := emptySQ, sq2 := emptySQ }) j
    let d2 := [0x130, 0x134, 0x138, 0x13C, 0x140, 0x144, 0x148, 0x14C].foldl (fun d r => setRj d j r 0) d1
    sendEventVec (setPcie (renumber d2 j) p { pcie d2 p with adoptResult := 0 }) 1026
def execPcieAdopt (acc : Acc) (job : JobId) (s : State) : Host.Outcome State Fault Refusal :=
  okDev s (withReg s.dev acc (pcieOff (accHost acc) 0x1A0) (fun d => opAdopt d (accHost acc) job.val))

/-! ### VF assignment (R388) -/

/-- A VF of either port other than VF n of port p holds a job. -/
def heldElsewhere (d : Dev) (p : HostPort) (n j : Nat) : Bool :=
  let holds (q : HostPort) : Bool := (pcie d q).vfJobs.any (fun e => e.2.getLsbD j && !(decide (q = p) && e.1 == n))
  holds .a || holds .b

/-- PCIE_VF_JOBSn, word w of the mask of the VF that PCIE_VF_SEL names. -/
def opVfJobs (d : Dev) (p : HostPort) (w v : Nat) (a : Acc) : Dev :=
  let n := rg d (pgPcie p) 0 0x160
  if n = 0 then d
  else
    let bits := (setBits 32 v).map (fun b => 32 * w + b)
    let ok := bits.filter (fun j => !heldElsewhere d p n j)
    let old := (vfMask (pcie d p) n).toNat
    let new := old - old / 2 ^ (32 * w) % 2 ^ 32 * 2 ^ (32 * w) + (ok.map (fun j => 2 ^ j)).foldl (· + ·) 0
    let d1 := setPcie d p { pcie d p with vfJobs := SMap.put (pcie d p).vfJobs n (BitVec.ofNat 256 new) 0 }
    if ok.length = bits.length then d1
    else latch (bump d1 (pgPcie p) 0 0x14C 1) (pgPcie p) 0 4 (accCap a (pcieOff p (0x164 + 4 * w)) 2 4)
def execPcieVfJobs (acc : Acc) (n : Fin 8) (value : Word) (s : State) : Host.Outcome State Fault Refusal :=
  okDev s (withReg s.dev acc (pcieOff (accHost acc) (0x164 + 4 * n.val)) (fun d => opVfJobs d (accHost acc) n.val value.toNat acc))

/-! ### BAR2 (R390-R392) -/

/-- The aperture entry that an access uses, and its device address (R390). -/
def apFind (d : Dev) (p : HostPort) (fn off : Nat) : Option (Aperture × Nat) :=
  ((pcie d p).aps.find? (fun e => e.2.valid && e.2.func == fn && e.2.slot == off / 2 ^ 30)).map
    (fun e => (e.2, e.2.base + off % 2 ^ 30))

/-- The granule that an access of n bytes reaches: its name, the device address, and the offset in it; none where R391
turns it away. -/
def apTarget (d : Dev) (p : HostPort) (fn off n : Nat) (wr : Bool) : Option (Nat × Nat × Nat) :=
  match apFind d p fn off with
  | none => none
  | some (e, a) =>
    if d.state ≠ .ready || !ownJob d p fn e.job || !isActive d e.job || (wr && !e.wr) then none
    else match decodeAddr a with
      | .obj t oid o =>
        (match copyFor d 0 oid t with
         | some (ob, _) =>
           if (t = 1 || t = 2) && decide (o + n ≤ ob.size * 4096) && (if wr then mayWrite ob t e.job else mayRead ob e.job)
           then some (gKey t oid (o / 4096), a, o % 4096) else none
         | none => none)
      | _ => none

/-- The function of a port that makes a BAR2 access; VFs are numbered from 1 (R385). -/
def accFn (a : Acc) : Option (HostPort × Nat) :=
  match a with
  | .pf p => some (p, 0)
  | .vf p n => if n.val = 0 then none else some (p, n.val)
  | _ => none

/-- The capture of a BAR2 access: the device address that it resolves to and the job of the aperture entry (14 table
"Capture address forms"). -/
def apCap (d : Dev) (a : Acc) (p : HostPort) (fn off kind n : Nat) : Cap :=
  match apFind d p fn off with
  | some (e, addr) => { accCap a addr kind n with job := some e.job }
  | none => accCap a 0 kind n

def bar2Reject (d : Dev) (p : HostPort) (c : Cap) : Dev := latch (bump d (pgPcie p) 0 0x138 1) (pgPcie p) 0 3 c

/-- What the checkers of memory find in a read through BAR2: counted and latched, the granule's state unchanged (R392). -/
def bar2Check (d : Dev) (k sid : Nat) (c : Cap) (ev : Upset) : Dev :=
  if gKind k = 1 then
    (match ev with
     | .ue _ => latch d (48 + inkOf d k) 18 0 c
     | .ce _ => countCE d k sid
     | _ => d)
  else (lineRead d (channelOf sid) c ev).1
/-- Such a read is uncorrectable. -/
def bar2Bad (k : Nat) (ev : Upset) : Bool :=
  match ev with
  | .ue _ => true
  | .at .tag _ => gKind k != 1
  | .at (.crc n) _ => gKind k != 1 && n == 4
  | _ => false

/-- A TLP of an IDE stream has failed its check: it is discarded, and the stream is Insecure (R397). -/
def ideInsecure (d : Dev) (p : HostPort) (i : Nat) : Dev :=
  match SMap.get? (pcie d p).ide i with
  | some s => setPcie d p { pcie d p with ide := SMap.insert (pcie d p).ide i { s with secure := false } }
  | none => d
/-- The stream whose check has failed. -/
def ideFailed : Upset → Option Nat
  | .ideFail i => some i.val
  | _ => none

/-- Data that a read returns, as one little-endian number. -/
def sendData (d : Dev) (bs : List Nat) : Dev := emit d (.readData (ofLeBytes bs))

/-- BAR2_READ. -/
def opBar2Read (d : Dev) (a : Acc) (off n : Nat) (ev : Upset) : Dev :=
  match accFn a with
  | none => d
  | some (p, fn) =>
    if let some i := ideFailed ev then ideInsecure d p i
    else if ev = .bufUE then latch d (pgPcie p) 0 1 (apCap d a p fn off 1 n)
    else match apTarget d p fn off n false with
      | none => emit (bar2Reject d p (apCap d a p fn off 1 n)) .unsupported
      | some (k, addr, o) =>
        let d0 := bump d (pgPcie p) 0 0x130 1
        match rootOf d0 k with
        | none => sendData d0 (List.replicate n 0)
        | some sid =>
          let d1 := if inT2 k then readLines d0 sid o n else d0
          let bad := poisoned d1 sid || bar2Bad k ev
          let d2 := if bar2Bad k ev && poisoned d1 sid then d1 else bar2Check d1 k sid (apCap d a p fn off 1 n) ev
          let d3 := if sealed d2 sid then sealHit (bump d2 (pgPcie p) 0 0x140 1) addr 0 else d2
          if bad then emit (bump d3 (pgPcie p) 0 0x13C 1) .readPoison
          else sendData d3 (if sealed d3 sid then List.replicate n 0 else stRead d3 sid o n)
def execBar2Read (acc : Acc) (off : BitVec 36) (len : Nat) (ev : Upset) (s : State) : Host.Outcome State Fault Refusal :=
  guardWf (bar2Ok off len) s (okDev s (opBar2Read s.dev acc off.toNat len ev))

/-- A host write of part of a granule: partial lines of T2 pass through the WCB (R272, R392). -/
def hostStore (d : Dev) (k o : Nat) (bs : List Nat) : Dev := writeRoot d k o bs false

/-- BAR2_WRITE. A write of a PENDING granule waits (08 R256). -/
def opBar2Write (d : Dev) (a : Acc) (off : Nat) (bs : List Nat) (ev : Upset) : Dev :=
  match accFn a with
  | none => d
  | some (p, fn) =>
    if let some i := ideFailed ev then ideInsecure d p i
    else if ev = .bufUE then latch d (pgPcie p) 0 1 (apCap d a p fn off 2 bs.length)
    else match apTarget d p fn off bs.length true with
      | none => bar2Reject d p (apCap d a p fn off 2 bs.length)
      | some (k, _, o) =>
        let d1 := bump d (pgPcie p) 0 0x134 1
        if isPending d1 k then holdWrite d1 (.host k o bs) else hostStore d1 k o bs
def execBar2Write (acc : Acc) (off : BitVec 36) (bytes : List Byte) (ev : Upset) (s : State) :
    Host.Outcome State Fault Refusal :=
  guardWf (bar2Ok off bytes.length) s (okDev s (opBar2Write s.dev acc off.toNat (bytes.map BitVec.toNat) ev))

/-! ### MSI-X (R394, R395) -/

/-- Entries of a function's MSI-X table. -/
def vecCount (fn : Nat) : Nat := if fn = 0 then 1040 else 16

/-- MSIX_UNMASK: the pending message, if any, is sent. -/
def opUnmask (d : Dev) (a : Acc) (vec : Nat) : Dev :=
  match accFn a with
  | none => d
  | some (p, fn) =>
    if vecCount fn ≤ vec then d
    else
      let x := pcie d p
      let k := fn * 2048 + vec
      let d1 := setPcie d p { x with unmasked := NSet.add x.unmasked k, pendingVec := NSet.del x.pendingVec k }
      if NSet.mem x.pendingVec k then emit d1 (.msix (portNo p) fn vec) else d1
def execMsixUnmask (acc : Acc) (vec : Fin 2048) (s : State) : Host.Outcome State Fault Refusal :=
  okDev s (opUnmask s.dev acc vec.val)

/-! ### CPL_TIMEOUT (R404) -/

def opCplTimeout (d : Dev) (p : HostPort) (addr : Nat) : Dev :=
  latch (bump d (pgPcie p) 0 0x144 1) (pgPcie p) 0 2 ⟨addr, 5, portNo p, none, 4, 0⟩
def execCplTimeout (port : HostPort) (addr : Addr) (s : State) : Host.Outcome State Fault Refusal :=
  okDev s (opCplTimeout s.dev port addr.toNat)

/-! ### PERST# and the link (15 R477; 12 R398, R400; 17 R513) -/

/-- Non-counter registers of a PCIE page return to their reset values; counters and the header stay (15 R477; log 57). -/
def resetPciePage (d : Dev) (p : HostPort) : Dev :=
  let lo := pcieOff p 0
  let isCnt (r : Nat) : Bool := match findRow .pcie r with
    | some x => x.cnt
    | none => false
  { d with regs := SMap.keep d.regs (fun k _ =>
      decide (k < lo + 0x100) || decide (lo + 4096 ≤ k) || isCnt (k - lo)) }

/-- The port's own link, configuration space, apertures, VF assignments and MSI-X tables reset. -/
def resetPortCfg (d : Dev) (p : HostPort) : Dev :=
  setPcie d p { pcie d p with
    perst := true, linkUp := false, width := 0, flit := false, speed := 0, downAt := 0, perstAt := d.now,
    numVfs := 0, aps := [], vfJobs := [], unmasked := [], pendingVec := [], doe := none, adoptResult := 0 }

/-- PERST_ASSERT; an assertion while the input is below 46 V is ignored, and while the module is held in reset only the pin changes. -/
def opPerst (d : Dev) (p : HostPort) : Dev :=
  if (pcie d p).perst || d.powerLost then d
  else if held d then setPcie d p { pcie d p with perst := true, perstAt := d.now }
  else
    let d0 := if (pcie d p).linkUp then bump d (pgPcie p) 0 0x148 1 else d
    declareLost (resetPciePage (resetPortCfg d0 p) p) p
def execPerstAssert (port : HostPort) (s : State) : Host.Outcome State Fault Refusal := okAny s (opPerst s.dev port)

/-- PERST_DEASSERT: the port begins to train. -/
def opPerstEnd (d : Dev) (p : HostPort) : Dev :=
  if (pcie d p).perst then setPcie d p { pcie d p with perst := false, perstAt := d.now } else d
def execPerstDeassert (port : HostPort) (s : State) : Host.Outcome State Fault Refusal := okAny s (opPerstEnd s.dev port)

/-- PCIE_LINK_DOWN. -/
def opPcieDown (d : Dev) (p : HostPort) : Dev :=
  if (pcie d p).linkUp then
    bump (setPcie d p { pcie d p with linkUp := false, downAt := d.now + 1 }) (pgPcie p) 0 0x148 1
  else d
def execPcieLinkDown (port : HostPort) (s : State) : Host.Outcome State Fault Refusal := okDev s (opPcieDown s.dev port)

/-- PCIE_LINK_UP: the configuration space is ready with the link (log 57). -/
def opPcieUp (d : Dev) (p : HostPort) (speed width : Nat) (flit : Bool) : Dev :=
  let x := pcie d p
  if x.perst || x.linkUp || d.modRst then d
  else setPcie d p { x with linkUp := true, downAt := 0, speed := speed, width := width, flit := flit }
def execPcieLinkUp (port : HostPort) (speed : Fin 7) (width : Fin 9) (flit : Bool) (s : State) :
    Host.Outcome State Fault Refusal :=
  okDev s (opPcieUp s.dev port speed.val width.val flit)

/-! ### FLR (15 R480) -/

/-- MSI-X table and aperture entries of the functions that satisfy q are cleared. -/
def clearFns (x : Pcie) (q : Nat → Bool) : Pcie :=
  { x with unmasked := SMap.keep x.unmasked (fun k _ => !q (k / 2048)), pendingVec := SMap.keep x.pendingVec (fun k _ => !q (k / 2048))
           aps := SMap.keep x.aps (fun _ e => !q e.func) }

def opFlr (d : Dev) (a : Acc) : Dev :=
  match a with
  | .vf p n =>
    if n.val = 0 then d else
    let js := (List.range 256).filter (fun j => (vfMask (pcie d p) n.val).getLsbD j && (job d j).port == portNo p)
    let d1 := js.foldl opDestroy d
    setPcie d1 p (clearFns (pcie d1 p) (· == n.val))
  | .pf p =>
    let js := (d.qm.jobs.filter (fun e => e.2.port == portNo p)).map (·.1)
    let d1 := js.foldl opDestroy d
    setPcie d1 p { clearFns (pcie d1 p) (fun _ => true) with aps := [], vfJobs := [], numVfs := 0, doe := none }
  | _ => d
def execFlr (acc : Acc) (s : State) : Host.Outcome State Fault Refusal := okDev s (opFlr s.dev acc)

end Sys2Proof.Machine
end

