-- ==== Sys2Proof/Machine/Time.lean ====
section
/-! DEFINITION. The time counter: steps, PTP messages, the servo, and the module's time inputs (11 R375-R379, R384). -/

namespace Sys2Proof.Machine
open Sys2Proof

def timeCtrl (d : Dev) : Nat := rg d 56 17 0x100
def isGm (d : Dev) : Bool := (timeCtrl d).testBit 1
def setTim (d : Dev) (t : Tim) : Dev := { d with tim := t }

/-- Adds a signed number of 2^−32 ns to the counter. -/
def addTime (d : Dev) (i : Int) : Dev := setTim d { d.tim with ns := (((d.tim.ns : Int) + i) % 2 ^ 96).toNat }

/-- TIME_STEP (R375). -/
def opTimeStep (d : Dev) (v : Word) : Dev := addTime d (v.toInt * 2 ^ 32)
def execTimeStep (acc : Acc) (value : Word) (s : State) : Host.Outcome State Fault Refusal :=
  okDev s (withReg s.dev acc (regOff 56 17 0x11C) (fun d => opTimeStep d value))

/-- PTP runs and a message of this domain is not discarded (R376). -/
def ptpHere (d : Dev) (domain : Nat) : Bool := (timeCtrl d).testBit 4 && bitsOf (timeCtrl d) 22 16 == domain
/-- The slave port of a device that is not the time master. -/
def isSlavePort (d : Dev) (p : Nat) : Bool :=
  !isGm d && (timeCtrl d).testBit 13 && bitsOf (timeCtrl d) 12 8 == p
def isMasterPort (d : Dev) (p : Nat) : Bool := (rg d 56 17 0x108).testBit p && !isSlavePort d p

/-- Sync on the slave port (R377): `off` is the measured difference to the master in 2^−8 ns before the peer delay is
taken off. The new rate is the servo's (log 14). -/
def ptpSyncNow (d : Dev) (p domain : Nat) (off : Int) : Dev :=
  if ptpHere d domain && isSlavePort d p && (fabPort d p).up then
    let o := off - d.tim.peerDelay
    let d1 := bump d 56 17 0x130 1
    let d2 := if d.tim.synced && o.natAbs > 12800 then latch d1 56 17 3 noCap else d1
    let rate := Config.servoRate o (BitVec.ofNat 32 (rg d 56 17 0x118))
    let d3 := setRg d2 56 17 0x118 rate.toNat
    let d4 := if o.natAbs > 256000 then addTime d3 (-o * 2 ^ 24) else d3
    setTim d4 { d4.tim with offset := o, synced := decide (o.natAbs ≤ 1280), lastSync := d4.now, holdover := false }
  else d
/-- A PTP message of n units goes out on a port; its bytes are those of IEEE 1588-2019 clause 13, which the model
leaves free (log 3). -/
def sendPtp (d : Dev) (p n : Nat) : Dev :=
  let pay := (List.range (16 * n)).map (fun i => (Config.freeByte d.freeCtr i).toNat)
  let d1 := { d with freeCtr := d.freeCtr + 1 }
  sendPort d1 p (mkPkt d1 14 3 (fabPort d1 p).peerDid 0 0 0 pay)

/-- Pdelay_Req on a port of the clock is answered with a one-step Pdelay_Resp of 54 bytes (R376). -/
def pdelayReqNow (d : Dev) (p domain : Nat) : Dev :=
  if ptpHere d domain && (isSlavePort d p || isMasterPort d p) && (fabPort d p).up then sendPtp d p 4 else d

/-- Pdelay_Resp ends a peer delay exchange; on the slave port the servo uses the delay (R376, R377). -/
def pdelayRespNow (d : Dev) (p domain : Nat) (delay : Int) : Dev :=
  if ptpHere d domain && (isSlavePort d p || isMasterPort d p) && (fabPort d p).up then
    let d1 := bump d 56 17 0x134 1
    if isSlavePort d p then setTim d1 { d1.tim with peerDelay := delay } else d1
  else d

/-- Announce on the slave port: counted; port states are configured, so it selects nothing (R376). -/
def announceNow (d : Dev) (p domain : Nat) : Dev :=
  if ptpHere d domain && isSlavePort d p && (fabPort d p).up then bump d 56 17 0x138 1 else d

/-- The messages discarded on receipt: Delay_Req 1, Follow_Up 8, Delay_Resp 9, Pdelay_Resp_Follow_Up 10,
Signaling 12, Management 13 (R376; the numbers are those of IEEE 1588-2019, which R376 names). -/
def ptpDiscards (t : Nat) : Bool := t == 1 || t == 8 || t == 9 || t == 10 || t == 12 || t == 13
def discardNow (d : Dev) (p t : Nat) : Dev :=
  if (timeCtrl d).testBit 4 && ptpDiscards t && (fabPort d p).up then bump d 56 17 0x13C 1 else d

/-! The TIME channel crosses from the link layer at a fixed latency (01 R29): a message waits for its slot, and what it does
it does at its release. -/

/-- A PTP message arrives on a port that is up. -/
def ptpRx (d : Dev) (p stamp : Nat) (m : PtpMsg) : Dev := if (fabPort d p).up then holdLoad d p stamp (.ptp m) else d
/-- What a released message does. -/
def ptpNow (d : Dev) (p : Nat) : PtpMsg → Dev
  | .sync dom off => ptpSyncNow d p dom off
  | .delayReq dom => pdelayReqNow d p dom
  | .delayResp dom delay => pdelayRespNow d p dom delay
  | .announce dom => announceNow d p dom
  | .other t => discardNow d p t

/-- PTP_SYNC. -/
def opPtpSync (d : Dev) (p stamp domain : Nat) (off : Int) : Dev := ptpRx d p stamp (.sync domain off)
def execPtpSync (port : PortId) (stamp : BitVec 16) (domain : Fin 256) (offset : Int) (s : State) :
    Host.Outcome State Fault Refusal :=
  okDev s (opPtpSync s.dev port.val stamp.toNat domain.val offset)
/-- PTP_PDELAY_REQ. -/
def opPdelayReq (d : Dev) (p stamp domain : Nat) : Dev := ptpRx d p stamp (.delayReq domain)
def execPtpPdelayReq (port : PortId) (stamp : BitVec 16) (domain : Fin 256) (_request : List Byte) (s : State) :
    Host.Outcome State Fault Refusal :=
  okDev s (opPdelayReq s.dev port.val stamp.toNat domain.val)
/-- PTP_PDELAY_RESP. -/
def opPdelayResp (d : Dev) (p stamp domain : Nat) (delay : Int) : Dev := ptpRx d p stamp (.delayResp domain delay)
def execPtpPdelayResp (port : PortId) (stamp : BitVec 16) (domain : Fin 256) (delay : Int) (s : State) :
    Host.Outcome State Fault Refusal :=
  okDev s (opPdelayResp s.dev port.val stamp.toNat domain.val delay)
/-- PTP_ANNOUNCE. -/
def opPtpAnnounce (d : Dev) (p stamp domain : Nat) : Dev := ptpRx d p stamp (.announce domain)
def execPtpAnnounce (port : PortId) (stamp : BitVec 16) (domain : Fin 256) (s : State) :
    Host.Outcome State Fault Refusal :=
  okDev s (opPtpAnnounce s.dev port.val stamp.toNat domain.val)
/-- PTP_DISCARD. -/
def opPtpDiscard (d : Dev) (p stamp t : Nat) : Dev := ptpRx d p stamp (.other t)
def execPtpDiscard (port : PortId) (stamp : BitVec 16) (_domain : Fin 256) (msgType : Fin 16) (s : State) :
    Host.Outcome State Fault Refusal :=
  okDev s (opPtpDiscard s.dev port.val stamp.toNat msgType.val)

/-- A message interval expires: Sync of 44 bytes and Announce of 64 bytes on master ports, Pdelay_Req of 54 bytes on
every port of the clock (R376). Kinds: 0 Sync, 1 Announce, 2 Pdelay_Req. -/
def opPtpInterval (d : Dev) (p kind : Nat) : Dev :=
  if !(timeCtrl d).testBit 4 || !(fabPort d p).up then d
  else if kind = 2 then (if isSlavePort d p || isMasterPort d p then sendPtp d p 4 else d)
  else if isMasterPort d p then sendPtp d p (if kind = 0 then 3 else 4) else d
def execPtpInterval (port : PortId) (kind : Fin 3) (s : State) : Host.Outcome State Fault Refusal :=
  okDev s (opPtpInterval s.dev port.val kind.val)

/-- No Sync for 16 intervals (R377): the last rate is held. -/
def opTimeSyncLost (d : Dev) : Dev :=
  if !isGm d && (timeCtrl d).testBit 4 && decide (d.tim.lastSync + syncLossCycles ≤ d.now) && !(rg d 56 17 0x020).testBit 0
  then latch (setTim d { d.tim with holdover := true }) 56 17 0 noCap else d
def execTimeSyncLost (s : State) : Host.Outcome State Fault Refusal := okDev s (opTimeSyncLost s.dev)

/-- An edge lies 1 s ± 100 µs after the one at cycle t: 1,050,000,000 ± 105,000 ARITH cycles (17 R515). -/
def ppsSpaced (d : Dev) (t : Nat) : Bool := decide (t + 1049895000 ≤ d.now) && decide (d.now ≤ t + 1050105000)
/-- The edge counts: it is the first, or it has its distance from the edge before it or from the last that counted (log 14). -/
def ppsGood (d : Dev) : Bool :=
  match d.tim.ppsEdge with
  | none => true
  | some t => ppsSpaced d t || ppsSpaced d d.tim.lastPps

/-- A rising edge of TIME_PPS_IN on the time master with PPS_EN (R378); one outside the spacing of 17 R515 is ignored. -/
def opPpsEdge (d0 : Dev) : Dev :=
  let d := if isGm d0 && (timeCtrl d0).testBit 2 then setTim d0 { d0.tim with ppsEdge := some d0.now } else d0
  if isGm d0 && (timeCtrl d0).testBit 2 && ppsGood d0 then
    let sec := rg64 d 56 17 0x120
    let ns := (sec * 10 ^ 9 + rg d 56 17 0x128) % 2 ^ 64
    let d1 := setRg64 d 56 17 0x120 ((sec + 1) % 2 ^ 48)
    setTim d1 { d1.tim with ns := ns * 2 ^ 32, ppsOk := true, lastPps := d1.now,
                            holdover := d1.tim.holdover && (timeCtrl d1).testBit 3 && !d1.tim.refOk }
  else d
def execPpsEdge (s : State) : Host.Outcome State Fault Refusal := okDev s (opPpsEdge s.dev)

/-- TIME_PPS_IN absent for 2 s (2,100,000,000 ARITH cycles) on the time master (R378). -/
def opTimePpsLost (d : Dev) : Dev :=
  if isGm d && (timeCtrl d).testBit 2 && (d.tim.ppsOk || !(rg d 56 17 0x020).testBit 1) && decide (d.tim.lastPps + 2100000000 ≤ d.now) then
    latch (setTim d { d.tim with ppsOk := false, holdover := true }) 56 17 1 noCap
  else d
def execTimePpsLost (s : State) : Host.Outcome State Fault Refusal := okDev s (opTimePpsLost s.dev)

/-- REF10M_IN absent for 2 s on the time master (R378). -/
def opTimeRefLost (d : Dev) : Dev :=
  if isGm d && (timeCtrl d).testBit 3 && (d.tim.refOk || !(rg d 56 17 0x020).testBit 2) then
    latch (setTim d { d.tim with refOk := false, holdover := true }) 56 17 2 noCap
  else d
def execTimeRefLost (s : State) : Host.Outcome State Fault Refusal := okDev s (opTimeRefLost s.dev)

/-- REF10M_IN is valid again: REF_OK sets and the counter leaves holdover, unless TIME_PPS_IN keeps it there
(R378). -/
def opRefRestored (d : Dev) : Dev :=
  if isGm d && (timeCtrl d).testBit 3 then
    setTim d { d.tim with refOk := true,
                          holdover := d.tim.holdover && (timeCtrl d).testBit 2 && !d.tim.ppsOk }
  else d
def execRef10mInRestored (s : State) : Host.Outcome State Fault Refusal := okDev s (opRefRestored s.dev)

end Sys2Proof.Machine
end

