-- ==== Sys2Proof/Machine/Clock.lean ====
section
/-! DEFINITION. One ARITH cycle with no command: the scheduled flits of its two NOC cycles, the work of the engines, and
the counters of cycles and of time (01 R20-R23; 03 R66, R80; 04 R98, R108, R112, R120, R124; 08 R236-R238; 11 R367,
R370, R375; log 2). -/

namespace Sys2Proof.Machine
open Sys2Proof

/-! ### Flits that leave their port (08 R237) -/

/-- The action of a copy that is still on its way. -/
def copyAct (d : Dev) (n j uid id : Nat) : Option (Ctx × RunAct) :=
  match ctxOf d n j with
  | some x => if x.uid = uid then (x.running.find? (fun r => r.id == id)).map (fun r => (x, r)) else none
  | none => none

/-- Flits of a command that has ended do not leave (10 R319). -/
def jobAlive (d : Dev) (p : PortJob) : Bool :=
  match p.load with
  | .copyReq n j uid id | .copyData n j uid id _ _ _ _ => (copyAct d n j uid id).isSome
  | _ => true

/-- Reads the 512 bytes of flit i of a copy: from the copy's snapshot, or from the source as it is now; with the first flit of
a granule goes the granule's upset. Answers none for a read that has ended the command, and for granules beyond the extents
zeros (04 R113; 08 R238, R259). -/
def copyRead (d : Dev) (n j : Nat) (x : Ctx) (r : RunAct) (i : Nat) : Dev × Option (List Nat × Bool) :=
  let im := x.image
  let a := actOf im r.item
  let s := copySrcA im r.item a
  let g := i / 8
  let off := i % 8 * 512
  let fill (bs : List Nat) : List Nat := copyFill im r.item a g off bs
  if !copyReads im r.item a g then (d, some (List.replicate 512 0, false))
  else match r.held[g]? with
  | some (sl :: bs) => (d, some (fill ((bs.drop off).take 512), sl == 1))
  | _ =>
    match (rangeKeys s (g + 1))[g]? with
    | none => (d, some (List.replicate 512 0, false))
    | some k =>
      match viewSid d x.uid k with
      | none => (d, some (List.replicate 512 0, false))
      | some sid =>
        let at_ := encodeAddr (addrAdd s (4096 * g : Nat))
        match checkRead d k sid at_ (if off = 0 then evHere r.ev else .none) (coreCap n (some j) at_ 1 512) with
        | (d1, some st) => (endCmd d1 x.uid st at_ false, none)
        | (d1, none) =>
          (if off = 0 then setRun d1 n j r.id (fun q => { q with ev := evNext q.ev }) else d1,
           some (fill (stRead d1 sid off 512), sealed d1 sid))

/-- What a flit carries when it leaves its port in NOC cycle c, none when it does not leave. -/
def flitLoad (d : Dev) (c : Nat) (p : PortJob) : Dev × Option Load :=
  match p.load with
  | .copyData n j uid id _ _ _ _ =>
    match copyAct d n j uid id with
    | none => (d, none)
    | some (x, r) =>
      let a := actOf x.image r.item
      let t := copyDstA x.image r.item a
      match copyRead d n j x r p.sent with
      | (d1, none) => (d1, none)
      | (d1, some (bs, sl)) =>
        let last := p.sent + 1 == p.total
        if aCopyRemote a then
          let did := bitsOf (aw a 7) 15 0
          let rt := (orbitRoute d did).getD []
          let pk := orbitPkt d1 did 8 ((match t with | .t0 c2 o2 => c2 * 2 ^ 26 + o2 | _ => 0) + 512 * p.sent) bs rt sl
          (if last then setRun d1 n j id (fun q => { q with flying := false, endAt := c / 2 + 1 }) else d1,
           some (.toPort (egress rt) pk))
        else (d1, some (.copyData n j uid id last (encodeAddr (addrAdd t (512 * p.sent : Nat))) bs sl))
  | l => (d, some l)

/-- One NOC cycle of a network port: the first waiting flits that may leave, in a share of their job on a shared core, send
one (R98, R237). -/
def portCycle (c : Nat) (d : Dev) (np : Nat) : Dev :=
  let l := (SMap.getD d.ports np []).filter (jobAlive d)
  let may (p : PortJob) : Bool := decide (p.ready ≤ c) && (decide (288 ≤ np) || inShare d np p.job (c / 2))
  match l.findIdx? may with
  | none => { d with ports := SMap.put d.ports np l [] }
  | some i =>
    match l[i]? with
    | none => d
    | some p =>
      match flitLoad d c p with
      | (d1, load) =>
        let l1 := if p.sent + 1 < p.total then l.set i { p with sent := p.sent + 1 } else l.eraseIdx i
        let d2 := { d1 with ports := SMap.put d1.ports np l1 [] }
        match load with
        | some x => { d2 with flits := d2.flits ++ [flitOut p.src p.dst c x] }
        | none => d2

/-! ### Flits that arrive (R20, R120, R124) -/

/-- The write of a copy's flit (R316). A granule that a prefetch has still to write is waited for (08 R256). A copy of a
command that has ended still lands, in a scratchpad (10 R319). -/
def copyLand (d : Dev) (c : Nat) (f : Flit) (n j uid id : Nat) (last : Bool) (addr : Nat) (bs : List Nat) (sl : Bool) : Dev :=
  if (rangeKeys (decodeAddr addr) 1).any (isPending d) then { d with flits := d.flits ++ [{ f with due := c + 2 }] }
  else
    let x := copyAct d n j uid id
    if x.isNone && addrTier (decodeAddr addr) != 0 then d
    else match landBytes d uid addr bs sl with
    | .error t => endCmd d uid stQuota t false
    | .ok d0 =>
      let off := addrOff (decodeAddr addr) % 4096
      let d1 := landEdge d0 uid addr (off == 0) sl (off == 3584)
      match x with
      | some (_, r) =>
        if last then
          let d2 := doneSem (setRun d1 n j id (fun q => { q with doneSem := none })) n j uid r.doneSem
          { d2 with flits := d2.flits ++ [flitOut f.dst (coreDie n) (c + 1) (.copyReport n j uid id)] }
        else d1
      | none => d1

/-- A word of the ORBIT channel reaches its core (11 R370). -/
def coreLand (d : Dev) (c : Nat) (f : Flit) (p : Packet) : Dev :=
  if p.typ = 8 then
    let n := bitsOf p.addr 34 26
    let off := bitsOf p.addr 25 0
    if scratchBytes < off + p.payload.length then d
    else if isPending d (gT0 n (off / 4096)) then { d with flits := d.flits ++ [{ f with due := c + 2 }] }
    else landEdge (writeT0 d n off p.payload p.sealed) 0 (encodeAddr (.t0 n off)) (off % 4096 == 0) p.sealed
      (off % 4096 == 3584)
  else
    let n := sBytes p.payload 4 2
    { bump d (coreDie n) 16 0x12C 1 with
      sigs := d.sigs ++ [⟨n, sBytes p.payload 6 1, sBytes p.payload 2 2, sBytes p.payload 0 2, c / 2 + 1, none⟩] }

/-- A flit reaches its destination block's network port in NOC cycle c. -/
def flitLands (c : Nat) (d : Dev) (f : Flit) : Dev :=
  match f.load with
  | .signal n sem v tag act => { bump d (coreDie n) 16 0x12C 1 with sigs := d.sigs ++ [⟨n, sem, v, tag, c / 2 + 1, some act⟩] }
  | .copyReq n j uid id =>
    match copyAct d n j uid id with
    | none => d
    | some (x, r) =>
      let a := actOf x.image r.item
      let s := copySrcA x.image r.item a
      let t := copyDstA x.image r.item a
      let dst := if aCopyRemote a then fpDie (egress ((orbitRoute d (bitsOf (aw a 7) 15 0)).getD [])) else addrDie d t
      sendCopy d n j uid id (c + (match s with | .t0 _ _ => 1 | _ => 12)) s t dst (copyGrans a)
  | .copyData n j uid id last addr bs sl => copyLand d c f n j uid id last addr bs sl
  | .copyReport n j uid id =>
    match copyAct d n j uid id with
    | some _ => setRun d n j id (fun q => { q with flying := false, endAt := c / 2 + 1 })
    | none => d
  | .toPort port p => if (fabPort d port).up then sendPort d port p else routeDrop d port p 1
  | .toCore _ p => coreLand d c f p

/-- One NOC cycle of the mesh. -/
def nocCycle (d : Dev) (c : Nat) : Dev :=
  let d1 := (d.ports.map (·.1)).foldl (portCycle c) d
  let d2 := meshLinks d1 c
  let here (f : Flit) : Bool := f.path.isEmpty && f.due == c
  (d2.flits.filter here).foldl (flitLands c) { d2 with flits := d2.flits.filter (fun f => !here f) }

/-! ### The engines -/

/-- The last cycle of a pass's work, as a count from its first (R80). -/
def flyLast (a : ActionD) : Nat := passLen a + 1
/-- The sums of a pass whose weights the fill is still writing do not leave the array yet (R86). -/
def flyWaits (a : Arr) (f : PassFly) : Bool :=
  a.loading && a.current.any (fun p => p.actId == f.run.actId) && decide (passEntries f.run.act + 4 ≤ f.next + 1 - f.c0)

/-- The cycles of one pass up to the present one. -/
def flyCycles (n id : Nat) : Nat → Dev → Dev
  | 0, d => d
  | k + 1, d =>
    let a := (core d n).arr
    match a.flight.find? (fun f => f.run.actId == id) with
    | none => d
    | some f =>
      if d.now < f.next || flyWaits a f then d
      else match ctxOf d n f.run.job with
        | none => d
        | some x =>
          match passCycle d n x.image f with
          | (d1, none) => d1
          | (d1, some g) =>
            let a1 := (core d1 n).arr
            let fl := if flyLast f.run.act < g.next + 1 - g.c0 then a1.flight.filter (fun q => q.run.actId != id)
              else a1.flight.map (fun q => if q.run.actId = id then g else q)
            flyCycles n id k (setArr d1 n { a1 with flight := fl })

/-- One cycle of a WRITEBACK or a VECTOR action that runs, in a share of its job (R98). -/
def runCycle (n : Nat) (d : Dev) (q : Nat × Nat) : Dev :=
  match ctxOf d n q.1 with
  | none => d
  | some x =>
    match x.running.find? (fun r => r.id == q.2) with
    | none => d
    | some r =>
      if !r.started || r.len ≤ r.pos || !inShare d n q.1 d.now then d
      else match (match r.kind with
          | .writeback => wbCycle d n q.1 r
          | .vector => vecCycle d n q.1 r
          | _ => (d, none)) with
        | (d1, some r1) => setRun d1 n q.1 q.2 (fun _ => if r1.pos = r1.len then { r1 with endAt := d1.now + 1 } else r1)
        | (d1, none) => d1

/-- A context whose quill action waits for its input or its output: one more stalled cycle of the engine (07 R226). -/
def quillStall (n j : Nat) (d : Dev) : Dev :=
  match ctxOf d n j with
  | some x =>
    match x.todo with
    | it :: _ =>
      let a := actOf x.image it
      if x.heldFrom.isSome && aType a = 7 && aMicro a = 0x32 then bump d (coreDie n) 18 0x13C 1 else d
    | [] => d
  | none => d

/-- The engines of a core in one cycle, and the programs on it whose last pads have passed (R108, R112). -/
def coreCycle (d : Dev) (n : Nat) : Dev :=
  let c := core d n
  let d1 := c.arr.flight.foldl (fun d f => flyCycles n f.run.actId (d.now + 2 - f.next) d) d
  let runs := (c.ctxs.map (fun e => (e.2.running.filter (fun r => r.kind == .writeback || r.kind == .vector)).map
    (fun r => (e.1, r.id)))).flatten
  let d2 := runs.foldl (runCycle n) d1
  c.ctxs.foldl (fun d e => quillStall n e.1 (finishCore d n e.1)) d2

/-! ### Fixed-latency release (01 R27-R29; 11 R366, R370) -/

/-- What a word does when it is released: a control packet for this device, a packet of the ORBIT channel that goes on its
way, or a PTP message. -/
def releaseLoad (d : Dev) (port : Nat) : RelLoad → Dev
  | .ptp m => ptpNow d port m
  | .pkt p =>
    if p.typ = 10 && (match p.route with
        | some (h, i) => decide (h.length ≤ i)
        | none => false) then
      (if p.payload.head? = some 4 then heartbeatNow d port p else if p.payload.head? = some 5 then enterLost d 4 else d)
    else releaseWord d port p

/-- Releases word i of a port's crossing now; a release after its slot counts one slip. -/
def releaseAt (d : Dev) (port i : Nat) : Dev :=
  let q := fabPort d port
  match q.release[i]? with
  | none => d
  | some w =>
    let d1 := setPort d port { q with release := q.release.eraseIdx i }
    releaseLoad (if w.slot < cycNow d then portSlip d1 port else d1) port w.load

/-- The cycle by which a word has been released: its slot, or its passing of the synchroniser when that comes later, at most
3 ARITH cycles after its writing (R28). -/
def latestRelease (w : RelWord) : Nat := max w.slot (w.writtenAt + 3)

/-- FIXED_LATENCY_RELEASE: the first word whose slot has come is released in this cycle when it became available at `lateAt`,
which lies between its writing and 3 cycles after it. A word that no such command releases goes in its latest cycle. -/
def opRelease (d : Dev) (port lateAt : Nat) : Dev :=
  match (fabPort d port).release.findIdx? (fun w => decide (w.slot ≤ cycNow d)) with
  | none => d
  | some i =>
    match (fabPort d port).release[i]? with
    | none => d
    | some w =>
      if cycNow d = max w.slot (max w.writtenAt (min lateAt (w.writtenAt + 3))) then releaseAt d port i else d
def execFixedLatencyRelease (port : PortId) (lateAt : Nat) (s : State) : Host.Outcome State Fault Refusal :=
  okDev s (opRelease s.dev port.val lateAt)

/-- The words of a port that are released in this cycle, oldest first. -/
def releasePort : Nat → Nat → Dev → Dev
  | 0, _, d => d
  | k + 1, port, d =>
    match (fabPort d port).release.findIdx? (fun w => decide (latestRelease w ≤ cycNow d)) with
    | none => d
    | some i => releasePort k port (releaseAt d port i)
def releaseAll (d : Dev) : Dev :=
  (d.fab.ports.map (·.1)).foldl (fun d p => releasePort (fabPort d p).release.length p d) d

/-! ### Accesses that wait for a PENDING granule (08 R256) -/

/-- Does what waits as it would have done it when it arrived; it waits again where its granule is still PENDING. -/
def retryHeld (d : Dev) : HeldAcc → Dev
  | .host k o bs => if isPending d k then holdWrite d (.host k o bs) else hostStore d k o bs
  | .rx port p =>
    match p.typ with
    | 1 => opPut d port p .none
    | 3 => opGetReq d port p .none
    | 4 => drainReqs (opGetResp d port p)
    | 5 => opAtomic d port p .none
    | _ => d
def retryAll (d : Dev) : Dev :=
  if d.mem.waiting.isEmpty then d
  else d.mem.waiting.foldl retryHeld { d with mem := { d.mem with waiting := [] } }

/-! ### Time (11 R375; 01 R22) -/

/-- TIME_RATE as a signed number (R375). -/
def timeRate (d : Dev) : Int := ((SMap.getD d.regs (56 * 2 ^ 22 + 17 * 2 ^ 12 + 0x118) 0).toInt)

/-- One TIME clock: the counter advances by 4 ns and TIME_RATE × 2^−32 ns. `ns` counts 2^−32 ns, modulo 2^96. -/
def timeClock (d : Dev) (t : Tim) : Tim :=
  { t with ns := (((t.ns : Int) + 4 * 2 ^ 32 + timeRate d) % 2 ^ 96).toNat }
/-- The TIME clock of 250 MHz comes 5 times in 21 ARITH cycles of 1.05 GHz. -/
def timeStep (d : Dev) : Tim :=
  if d.tim.acc + 5 ≥ 21 then { timeClock d d.tim with acc := d.tim.acc + 5 - 21 } else { d.tim with acc := d.tim.acc + 5 }

/-- The mesh and the engines in one ARITH cycle: NOC cycles 2k and 2k + 1 belong to ARITH cycle k (R23). -/
def workCycle (d : Dev) : Dev :=
  let d0 := retryAll (releaseAll d)
  let d1 := nocCycle (nocCycle d0 (2 * d.now)) (2 * d.now + 1)
  (d1.cores.map (·.1)).foldl coreCycle d1

/-- One ARITH cycle. A module that is held in reset counts it and does nothing else. -/
def tick (d : Dev) : Dev :=
  if held d then { d with now := d.now + 1 }
  else
    let d1 := workCycle d
    { d1 with now := d1.now + 1, orb := { d1.orb with occ := (d1.orb.occ + 1) % 2 ^ 64 }, tim := timeStep d1 }

end Sys2Proof.Machine
end

