-- ==== Sys2Proof/Machine/Faults.lean ====
section
/-! DEFINITION. Fault collection: injection, clears, collectors, the package log, the origin table, fabric fault reports
(14 R437-R466; 16 R502-R504; log 58). -/

namespace Sys2Proof.Machine
open Sys2Proof

/-- Where an accessor reaches a header register of a page: a job page through the function's own map (R389), a FABR page
on FD0 (log 17). -/
def hdrOff (a : Acc) (die page reg : Nat) : Nat :=
  match blkAt die page with
  | some .qmgrJ => jobOff a (page - 0x200) reg
  | some .fabr => regOff 56 16 reg
  | _ => regOff die page reg
/-- The die whose page holds the state of a page (log 17). -/
def homeDie (die page : Nat) : Nat := if blkAt die page = some .fabr then 56 else die

/-! ### Injection and clears (R440, R464-R466) -/

def injectCap : Cap := ⟨0, 0, 0, none, 15, 0⟩

/-- FLT_INJECT with GO: acts in factory test mode on a source that the page has. -/
def opFltInject (d : Dev) (die page src : Nat) : Dev :=
  match blkAt die page with
  | none => d
  | some b => if d.factoryTest && decide (src < blkNsrc b) then latch d (homeDie die page) page src injectCap else d
def execFltInject (acc : Acc) (die : Fin 64) (page : Fin 1024) (src : Fin 32) (s : State) :
    Host.Outcome State Fault Refusal :=
  okDev s (withReg s.dev acc (hdrOff acc die.val page.val 0x04C) (fun d => opFltInject d die.val page.val src.val))

/-- FLT_STAT, a W1C write. -/
def opFltClear (d : Dev) (die page v : Nat) : Dev :=
  match blkAt die page with
  | none => d
  | some _ => clearStat d (homeDie die page) page v
def execFltStatClear (acc : Acc) (die : Fin 64) (page : Fin 1024) (value : Word) (s : State) :
    Host.Outcome State Fault Refusal :=
  okDev s (withReg s.dev acc (hdrOff acc die.val page.val 0x020) (fun d => opFltClear d die.val page.val value.toNat))

/-! ### The package log (R453-R457, R502, R503) -/

/-- IRQ_PEND sets; a change from 0 to 1 sends vector 1,024. -/
def raiseIrq (d : Dev) : Dev :=
  if d.flt.irqPend then d else sendEventVec { d with flt := { d.flt with irqPend := true } } 1024

/-- IRQ_PEND_CLEAR. -/
def opIrqClear (d : Dev) : Dev :=
  if !d.flt.irqPend then d
  else
    let d1 := { d with flt := { d.flt with irqPend := false } }
    if d1.flt.log.any flagged then raiseIrq d1 else d1
def execIrqPendClear (acc : Acc) (s : State) : Host.Outcome State Fault Refusal :=
  okDev s (withReg s.dev acc (regOff 60 3 0x104) opIrqClear)

/-- FLTAG_LOG_RD (R502): the new value lies between the old one and FLTAG_LOG_WR, counted forwards. -/
def opLogRd (d : Dev) (a : Acc) (v : Nat) : Dev :=
  let n := (v % 65536 + 65536 - d.flt.logRd) % 65536
  if n ≤ d.flt.log.length then { d with flt := { d.flt with log := d.flt.log.drop n, logRd := v % 65536 } }
  else bar0Error d a (regOff 60 3 0x114)
def execFltagLogRdWrite (acc : Acc) (value : Word) (s : State) : Host.Outcome State Fault Refusal :=
  okDev s (withReg s.dev acc (regOff 60 3 0x114) (fun d => opLogRd d acc value.toNat))

/-- A report is taken into the log; a report flagged for interrupt sets IRQ_PEND (R454, R455, R457). -/
def takeReport (d : Dev) (r : Rec) : Dev :=
  let d1 := logAppend d r
  if flagged r then raiseIrq d1 else d1

/-- FLTAG_UE: an uncorrectable error in the package log or the origin table; the record or entry is discarded (R437). -/
def fltagUE (d : Dev) : Dev := latch d 60 3 6 noCap
/-- FLTAG_REPORT: the oldest report of a die's collector arrives. A collector declared lost sends none (R456). -/
def opFltagReport (d : Dev) (die : Nat) (ev : Upset) : Dev :=
  match SMap.getD d.flt.reports die [] with
  | [] => d
  | r :: rest =>
    if NSet.mem d.flt.lost die then d
    else if ev = .tableUE then fltagUE { d with flt := { d.flt with reports := SMap.put d.flt.reports die rest [] } }
    else takeReport { d with flt := { d.flt with reports := SMap.put d.flt.reports die rest [] } } r
def execFltagReport (die : Fin 64) (ev : Upset) (s : State) : Host.Outcome State Fault Refusal :=
  okDev s (opFltagReport s.dev die.val ev)

/-- One die's collector is polled; a die under die reset and a retained die are not (R456; 16 R495). -/
def pollDie (answered : Nat) (d : Dev) (die : Nat) : Dev :=
  if dieResetting d die || dieRetained d die then d
  else if answered.testBit die then
    { d with flt := { d.flt with missed := SMap.erase d.flt.missed die, lost := NSet.del d.flt.lost die } }
  else
    let n := min 3 (SMap.getD d.flt.missed die 0 + 1)
    let d1 := { d with flt := { d.flt with missed := SMap.insert d.flt.missed die n } }
    if n = 3 && !NSet.mem d.flt.lost die then
      latch { d1 with flt := { d1.flt with lost := NSet.add d1.flt.lost die } } 60 3 3 ⟨0, 12, die, none, 8, 0⟩
    else d1
/-- COLLECTOR_POLL: bit d of `answered` says that the collector of die d answered. -/
def opCollectorPoll (d : Dev) (answered : Nat) : Dev := (List.range 64).foldl (pollDie answered) d
def execCollectorPoll (answered : BitVec 64) (s : State) : Host.Outcome State Fault Refusal :=
  okDev s (opCollectorPoll s.dev answered.toNat)

/-- CP_WATCHDOG: the watchdog of a control processor (R437). -/
def opCpWatchdog (d : Dev) (hc cp : Nat) : Dev := latch d 60 3 4 ⟨0, 8, hc * 256 + cp, none, 8, 0⟩
def execCpWatchdog (hc : Fin 2) (cp : Fin 4) (s : State) : Host.Outcome State Fault Refusal :=
  okDev s (opCpWatchdog s.dev hc.val cp.val)

/-! ### The origin table and fabric fault reports (R458-R463, R504) -/

/-- The record of an origin entry (R454, R463); its SRC and REACTION are zero (log 58). -/
def originRec (e : OrgEnt) : Rec :=
  { blk := blkIdOf 60 3, src := 0, reaction := 0, masked := false, err := false, origin := true, time := e.first,
    addr := e.origin % 2 ^ 16 + e.kinds % 256 * 2 ^ 16 + e.count * 2 ^ 32, master := e.reporter % 2 ^ 16,
    access := min ((e.last - e.first) / 1000) (2 ^ 32 - 1) }

/-- ORIGIN_CLOSE: the entry's LAST lies FLTAG_HOLD behind the time counter. -/
def opOriginClose (d : Dev) (k : Nat) (ev : Upset) : Dev :=
  match SMap.get? d.flt.org k with
  | none => d
  | some e =>
    if timeNs d < e.last + holdNs d then d
    else if ev = .tableUE then fltagUE { d with flt := { d.flt with org := SMap.erase d.flt.org k } }
    else logAppend { d with flt := { d.flt with org := SMap.erase d.flt.org k } } (originRec e)
def execOriginClose (entry : Fin 64) (ev : Upset) (s : State) : Host.Outcome State Fault Refusal :=
  okDev s (opOriginClose s.dev entry.val ev)

/-- The bucket of a port, refilled by one report in each microsecond of 1,050 ARITH cycles (R461). -/
def refill (d : Dev) (q : Port) : Port :=
  let n := (d.now - q.rptAt) / 1050
  if q.rptTokens + n ≥ 256 then { q with rptTokens := 256, rptAt := d.now }
  else { q with rptTokens := q.rptTokens + n, rptAt := q.rptAt + n * 1050 }

/-- A report enters the origin table (R459, R462). -/
def receiveReport (d : Dev) (p : Packet) : Dev :=
  let origin := sBytes p.payload 0 2
  let kind := sBytes p.payload 2 1
  if rptValid origin kind then
    match originTake d origin kind p.src with
    | (d1, some (src, cap)) => latch d1 60 3 src cap
    | (d1, none) => d1
  else d

/-- FAULT_REPORT: admitted through the port's bucket; FLTAG counts those admitted (log 58). -/
def opFaultReport (d : Dev) (port : Nat) (p : Packet) : Dev :=
  if p.typ ≠ 15 || p.dst ≠ ownDid d || !portIn d port p then d
  else if !headerOk p then dropMalformed d port p
  else
    let q := refill d (fabPort d port)
    if q.rptTokens = 0 then latch (bump (setPort d port q) 60 3 0x190 1) 60 3 7 noCap
    else receiveReport (bump (setPort d port { q with rptTokens := q.rptTokens - 1 }) 60 3 0x18C 1) p
def execFaultReport (port : PortId) (pkt : Packet) (s : State) : Host.Outcome State Fault Refusal :=
  guardWf (Packet.ok pkt) s (okDev s (opFaultReport s.dev port.val pkt))

/-! ### Reads that latch (R131, R504) -/

/-- A BAR0 read: what it returns is the model's output. -/
def opRegRead (d : Dev) (a : Acc) (off : Nat) : Dev :=
  let r := accRead d a off
  emit r.1 (.readData r.2)
/-- LO_READ_LATCH: a read of a register with the latching of its _HI partner, if any. -/
def execLoReadLatch (acc : Acc) (off : BitVec 28) (s : State) : Host.Outcome State Fault Refusal :=
  okDev s (opRegRead s.dev acc off.toNat)
/-- ORG_W0_READ. -/
def opOrgRead (d : Dev) (a : Acc) : Dev := opRegRead d a (regOff 60 3 0x144)
def execOrgW0Read (acc : Acc) (s : State) : Host.Outcome State Fault Refusal := okDev s (opOrgRead s.dev acc)

end Sys2Proof.Machine
end

