-- ==== Sys2Proof/Machine/Reset.lean ====
section
/-! DEFINITION. Device states, device reset, power-on reset, power loss, boot, die reset and block reset (09 R289-R291;
14 R450, R451; 15 R467-R484; 16 R495, R496, R501; 17 R508-R514; log 59, 60). -/

namespace Sys2Proof.Machine
open Sys2Proof

def setPwr (d : Dev) (p : Pwr) : Dev := { d with pwr := p }
def setBoot (d : Dev) (b : Boot) : Dev := { d with boot := b }

/-! ### Transitions of the device state (R467; 09 R278, R280) -/

/-- Brings an inkwell into a mode, with the whole of the change. -/
def inkTo (cache : Bool) (d : Dev) (md : Nat) : Dev :=
  if inkCache d md == cache && (ink d md).changeTo.isNone then d
  else inkChangeEnd (setInk d md { ink d md with changeTo := some cache }) md .none
def allInk (d : Dev) (cache : Bool) : Dev := (List.range 8).foldl (inkTo cache) d

/-- The device enters a state; a change is an event of the DEV page (16 R498). -/
def enterState (d : Dev) (st : DevState) : Dev :=
  if d.state = st then d else pageEvent { d with state := st } 60 4 0

/-- Vector 1,025 to each PF whose port is up and whose READY_IRQ_EN is set (12 R399). -/
def sendReady (d : Dev) : Dev :=
  [HostPort.a, HostPort.b].foldl (fun d p =>
    if (pcie d p).linkUp && (rg d (pgPcie p) 0 0x100).testBit 3 then sendVec d p 0 1025 else d) d

/-- Every job is FREE: no claim is held (log 59). -/
def noJobs (d : Dev) : Bool := d.qm.jobs.all (fun e => e.2.state == 0)

def offDevCtrl : Nat := regOff 60 4 0x100

/-- DEV_CTRL.TEST = 1. -/
def opTestEnter (d : Dev) : Dev := if d.state = .ready && noJobs d then enterState (allInk d true) .test else d
def execTestEnter (acc : Acc) (s : State) : Host.Outcome State Fault Refusal :=
  okDev s (withReg s.dev acc offDevCtrl opTestEnter)
/-- DEV_CTRL.TEST = 0. -/
def opTestLeave (d : Dev) : Dev := if d.state = .test then sendReady (enterState (allInk d false) .ready) else d
def execTestLeave (acc : Acc) (s : State) : Host.Outcome State Fault Refusal :=
  okDev s (withReg s.dev acc offDevCtrl opTestLeave)
/-- DEV_CTRL.RECOVER. -/
def opRecover (d : Dev) : Dev := if d.state = .ready && noJobs d then enterState (allInk d true) .recovery else d
def execRecover (acc : Acc) (s : State) : Host.Outcome State Fault Refusal :=
  okDev s (withReg s.dev acc offDevCtrl opRecover)

/-- INKWELL_MODE_CHANGE_END (09 R280). -/
def execInkwellModeChangeEnd (md : MemDie) (ev : Upset) (s : State) : Host.Outcome State Fault Refusal :=
  okDev s (inkChangeEnd s.dev md.val ev)

/-! ### What a device reset keeps (R477) -/

/-- The T4 part of memory: copies that are committed and not free-pending, with their bytes and marks. -/
def keepT4 (m : Mem) : Mem :=
  let objs := m.objs.filterMap (fun e =>
    if e.2.c4.present && e.2.c4.newBy == 0 && !e.2.c4.freePend then
      some (e.1, { e.2 with c1 := noCopy, c2 := noCopy, c4 := { e.2.c4 with holds := 0 }, newBy := 0 })
    else none)
  let roots := SMap.keep m.roots (fun k _ => !gIsT0 k && gKind k == 4 && SMap.has objs (gId k))
  let mine (s : Nat) : Bool := roots.any (fun e => e.2 == s)
  { bytes := m.bytes.filter (fun c => mine (c.1 / 4096)), sealMk := SMap.keep m.sealMk (fun k _ => mine k)
    poison := SMap.keep m.poison (fun k _ => mine k), roots := roots, marks := [], waiting := [], objs := objs, granCtr := m.granCtr }

/-- Clears what every reset of the device clears; the boot nonce and the release key are new. -/
def clearVolatile (d : Dev) : Dev :=
  { d with
      regs := [], latch := [], cores := [], sigs := [], flits := [], ports := [], mem := keepT4 d.mem
      qm := { emptyQm with uidCtr := d.qm.uidCtr }
      ext := { emptyExt with ftl := SMap.mapVals d.ext.ftl (fun _ x => { x with map := [], mir := [], written := [], progs := [], erases := [] }) }
      fab := emptyFab, orb := noOrbit, tim := zeroTime
      sec := bootSec { emptySec with seeds := d.sec.seeds, fuseErr := d.sec.fuseErr }
      state := .boot, rst := none }

/-! ### The ROM (R483, R484 step 2) -/

/-- A slot verifies: its image does, and its SVN is at least the fused minimum (R482). -/
def slotGood (b : Boot) (s : Bool) : Bool :=
  let x := if s then b.slotB else b.slotA
  x.ok && decide (b.fusedSvn ≤ x.svn)

/-- The ROM runs: fuse integrity, slot choice. With no slot that verifies the device enters RECOVERY. -/
def romBoot (d : Dev) : Dev :=
  let d0 := if d.sec.fuseErr then latch d 60 1 4 noCap else d
  let b := d0.boot
  let first := if b.unconfirmed then !b.pref else b.pref
  let b1 : Boot := { b with pref := first, unconfirmed := false, staging := none, staged := false, trial := false, window := false,
                            runs := true, runSlot := first, romRecovery := false }
  if slotGood b first then setBoot d0 b1
  else if slotGood b (!first) then
    latch (setRg (setBoot d0 { b1 with runSlot := !first }) 60 2 0x104 2) 60 2 0 noCap
  else
    enterState { setBoot d0 { b1 with runs := false, runSlot := false, romRecovery := true } with
                   flt := { d0.flt with errHold := false } } .recovery

/-! ### Device reset (R476, R477; 14 R451) -/

/-- The BLK_ID of the page behind a device reset that no fault source's reaction caused: what DEVICE_FAULT entries
carry (log 59). -/
def rstBlk (kind : Nat) : Nat := if kind = 7 then blkIdOf 60 2 else blkIdOf 61 1

/-- A device reset is requested; one that is under way stays. -/
def requestReset (d : Dev) (kind : Nat) : Dev :=
  match d.rst with
  | some _ => d
  | none => { d with rst := some ⟨kind, rstBlk kind, d.now⟩ }

/-- DEV_CTRL.RESET: no fault source stands behind it, so the DETAIL of the entries it causes is a free value (log 3). -/
def opDevReset (d : Dev) : Dev :=
  match d.rst with
  | some _ => d
  | none => let (d1, w) := freeVal d; { d1 with rst := some ⟨3, w.toNat, d1.now⟩ }
def execDevReset (acc : Acc) (s : State) : Host.Outcome State Fault Refusal :=
  okDev s (withReg s.dev acc offDevCtrl opDevReset)

/-- The reports that the collectors still hold reach the log (R451: the record of a CQ_ABANDON precedes the reset). -/
def flushReports (d : Dev) : Dev :=
  d.flt.reports.foldl (fun d e => e.2.foldl takeReport d) { d with flt := { d.flt with reports := [] } }

/-- The PCIe link and configuration space are kept; the result of an adoption is a register of the page. -/
def keepPcie (x : Pcie) : Pcie := { x with adoptResult := 0 }

/-- The device after the reset, before the ROM runs. -/
def afterReset (d : Dev) (r : RstReq) : Dev :=
  let sel := rg d 60 3 0x118
  let cnt := rg d 60 4 0x130
  let off := SMap.keep d.fab.ports (fun _ q => q.supplyOff)
  let d1 := clearVolatile d
  let d2 : Dev := { d1 with
    fab := { emptyFab with ports := SMap.mapVals off (fun _ _ => { downPort with supplyOff := true }) }
    flt := { emptyFlt with log := d.flt.log, logWr := d.flt.logWr, logRd := d.flt.logRd, errHold := d.flt.errHold }
    pwr := { resetPwr with vrFault := d.pwr.vrFault, crit := SMap.keep d.pwr.crit (fun k _ => decide (48 ≤ k)) }
    pcieA := keepPcie d.pcieA, pcieB := keepPcie d.pcieB, mgmtPortB := d.mgmtPortB && d.pcieA.hostLost }
  let d3 := setRg (setRg d2 60 3 0x118 sel) 60 4 0x110 r.kind
  setRg (setRg d3 60 4 0x114 (if r.kind = 4 then r.blk else 0)) 60 4 0x130 (min (cnt + 1) (2 ^ 32 - 1))

/-- DEVICE_RESET: first every command ends; when the last entry has been written or abandoned, the device is reset and
the ROM runs. -/
def opDeviceReset (d : Dev) : Dev :=
  match d.rst with
  | none => d
  | some r =>
    if d.qm.cmds.any (fun e => e.2.phase != .ended) then endAll d (fun _ _ => true) stFault r.blk true
    else if !d.qm.cmds.isEmpty then d
    else romBoot (afterReset (flushReports d) r)
def execDeviceReset (s : State) : Host.Outcome State Fault Refusal := okDev s (opDeviceReset s.dev)

/-! ### Power-on reset, MOD_RST_N, power loss (R476, R477; 09 R289, R290; 17 R508-R513) -/

def setFtls (d : Dev) (f : Ftl → Ftl) : Dev := setFtl (setFtl d 0 (f (ftl d 0))) 1 (f (ftl d 1))

/-- PCIe state after a power-on reset; the PERST# pin is what the host drives. -/
def porPcie (x : Pcie) : Pcie := { resetPcie with perst := x.perst, perstAt := x.perstAt }

/-- Everything volatile is lost, and the module waits in reset. -/
def loseState (d : Dev) : Dev :=
  let d1 := clearVolatile d
  { d1 with flt := emptyFlt, pwr := resetPwr, pcieA := porPcie d.pcieA, pcieB := porPcie d.pcieB, mgmtPortB := false }

/-- Power-on reset with the strap, the verification of both slots and the fuse check as the hardware finds them. -/
def powerOn (d : Dev) (kind : Nat) (strap okA okB fuseOk : Bool) : Dev :=
  let d1 := setFtls (loseState d) (fun x => { x with closed := false, seqRunning := false })
  let b := d1.boot
  let d2 : Dev := { d1 with
    powerLost := false, modRst := false, factoryTest := strap && !Config.ftClosed, sec := { d1.sec with fuseErr := !fuseOk }
    boot := { b with slotA := { b.slotA with ok := b.slotA.ok && okA }, slotB := { b.slotB with ok := b.slotB.ok && okB } } }
  romBoot (setRg d2 60 4 0x110 kind)

/-- POWER_ON_RESET: the input rises through 46 V after a sequence that has ended, or MOD_RST_N is released. -/
def opPowerOn (d : Dev) (byModRst strap okA okB fuseOk : Bool) : Dev :=
  if byModRst then
    if !d.modRst || (ftl d 0).seqRunning then d
    else if d.powerLost then setPwr { d with modRst := false } { d.pwr with heldInReset := true }
    else powerOn d 2 strap okA okB fuseOk
  else if !d.powerLost || (ftl d 0).seqRunning then d
  else if d.modRst then setPwr { d with powerLost := false } { d.pwr with heldInReset := false }
  else powerOn d 1 strap okA okB fuseOk
def execPowerOnReset (byModRst strap slotA slotB fuseOk : Bool) (s : State) : Host.Outcome State Fault Refusal :=
  okAny s (opPowerOn s.dev byModRst strap slotA slotB fuseOk)

/-- MOD_RST_N_ASSERT: the FTL sequence starts, and every other block is held in reset. -/
def opModRst (d : Dev) : Dev :=
  if d.modRst then d
  else if d.powerLost then { d with modRst := true }
  else setFtls { loseState d with modRst := true } (fun x => { x with closed := true, seqRunning := true })
def execModRstNAssert (s : State) : Host.Outcome State Fault Refusal := okAny s (opModRst s.dev)

/-- POWER_LOSS: PWR_IN_UV, and the sequence of R289 starts. -/
def opPowerLoss (d : Dev) : Dev :=
  if d.powerLost then d
  else if d.modRst then { d with powerLost := true }
  else
    setFtls { latch d 61 1 0 noCap with powerLost := true } (fun x => { x with closed := true, seqRunning := true })
def execPowerLoss (s : State) : Host.Outcome State Fault Refusal := okAny s (opPowerLoss s.dev)

/-- POWER_LOSS_SEQUENCE_END: the programs already started are finished and the journal is complete (09 R289); the module is
held in reset, or starts at once when the input is above 46 V (R510). The strap and the slots are then as they were. -/
def opSeqEnd (d : Dev) (above46 : Bool) : Dev :=
  if !(ftl d 0).seqRunning then d
  else
    let d0 := [0, 1].foldl (fun d sd => ((ftl d sd).progs.map (·.1)).foldl (fun d op => progDone d sd op) d) d
    let d1 := setFtls d0 (fun x => { x with seqRunning := false, progs := [], written := [], pwrJournal := d.powerLost })
    if !d1.powerLost then d1
    else if above46 && !d1.modRst then powerOn d1 1 d1.factoryTest true true (!d1.sec.fuseErr)
    else
      let d2 := loseState d1
      setPwr { d2 with powerLost := !above46 } { d2.pwr with heldInReset := true }
def execPowerLossSequenceEnd (above46 : Bool) (s : State) : Host.Outcome State Fault Refusal :=
  okAny s (opSeqEnd s.dev above46)

/-! ### The end of boot (R484; 09 R291) -/

/-- ONFI_CH_STAT after boot: the packages that answered, the interface trained (09 R298; log 6). -/
def trainOnfi (d : Dev) : Dev :=
  (List.range 32).foldl (fun d ch =>
    setRg d (sdDie (ch / 16)) (ch % 16) 0x100 ((Config.onfiPresent ch).toNat * 2 ^ 16 + 2 ^ 8)) d

/-- GDDR_CH_STAT.TRAINED of every channel that trains, at boot step 4. -/
def trainGddr (d : Dev) (ok : Nat → Bool) : Dev :=
  (List.range 64).foldl (fun d ch =>
    if ok ch then setRg d (chDie ch) (chPage ch) 0x100 (putBits (rg d (chDie ch) (chPage ch) 0x100) 16 16 1) else d) d

/-- The FTL mounts its map: rebuilt from checkpoint and journal, or from a scan; FTL_STAT and the registers that show its
blocks; FTL_PWR_JOURNAL after a power-loss journal (09 R291, R297). -/
def mountFtl (d : Dev) (clean : Bool) : Dev :=
  let gone := sumBy [0, 1] (fun sd => ((ftl d sd).blks.filter (fun e => e.2.retired)).length)
  let spare := Config.spareInit - gone
  let low := decide (spare * 100 < Config.spareInit)
  let pj := (ftl d 0).pwrJournal
  let d0 := setFtls (trainOnfi d) (fun x => { rebuildFtl x clean with pwrJournal := false })
  let d1 := ftlWear (setFtlBoth (setFtlBoth d0 0x110 spare) 0x114 gone)
  let d2 := setFtlBoth d1 0x104 (1 + (if clean then 2 else 4) + (if low then 8 else 0) + (if spare = 0 then 16 else 0))
  let d3 := if pj then latch (latch d2 62 16 5 noCap) 63 16 5 noCap else d2
  let d4 := if clean then d3 else latch (latch d3 62 16 3 noCap) 63 16 3 noCap
  let d5 := if low then latch d4 62 16 1 noCap else d4
  if spare = 0 then latch d5 62 16 2 noCap else d5

/-- Nothing holds the device in reset: no regulator fault, and no die but the compute dies above its critical limit
(R471, R475). -/
def pwrFree (d : Dev) : Bool := d.pwr.vrFault == 0 && !d.pwr.crit.any (fun e => decide (48 ≤ e.1))

/-- BOOT_READY: steps 3 to 7. In factory test mode the device enters TEST. -/
def opBootReady (d : Dev) (clean : Bool) : Dev :=
  if d.state ≠ .boot || !d.boot.runs || !pwrFree d || d.powerLost then d
  else
    let d1 := mountFtl (trainGddr { d with flt := { d.flt with errHold := false } } (fun _ => true)) clean
    if d1.factoryTest then powerSave (enterState (allInk d1 true) .test)
    else sendReady (powerSave (enterState (allInk d1 false) .ready))
def execBootReady (clean : Bool) (s : State) : Host.Outcome State Fault Refusal := okDev s (opBootReady s.dev clean)

/-- BOOT_TRAIN_FAIL. -/
def opTrainFail (d : Dev) (ch : Nat) : Dev :=
  if d.state ≠ .boot || !d.boot.runs || !pwrFree d then d
  else
    let d1 := trainGddr { d with flt := { d.flt with errHold := false } } (fun c => c != ch)
    enterState (latch d1 60 2 1 ⟨0, 11, ch, none, 8, 0⟩) .recovery
def execBootTrainFail (ch : ChanId) (s : State) : Host.Outcome State Fault Refusal := okDev s (opTrainFail s.dev ch.val)

/-! ### Die reset (R479; 16 R496, R501) -/

def dieCores (die : Nat) : List Nat := (List.range 6).map (fun i => die * 6 + i)
/-- A command that has started uses a die. -/
def usesCores (c : Cmd) (cores : List Nat) : Bool := (c.phase == .running || c.phase == .worked) && touchesCores c cores
/-- Commands that use some cores end with DEVICE_FAULT, RETRY set. -/
def failCores (d : Dev) (cores : List Nat) (blk : Nat) : Dev := endAll d (fun _ c => usesCores c cores) stFault blk true

/-- The scratchpad granules of a die lose their bytes and marks (13 R426). -/
def clearScratch (d : Dev) (die : Nat) : Dev :=
  let mine (g : Nat) : Bool := decide (gT0 (die * 6) 0 ≤ g) && decide (g < gT0 (die * 6 + 6) 0)
  { d with mem := { d.mem with bytes := d.mem.bytes.filter (fun c => !mine (c.1 / 4096))
                               sealMk := SMap.keep d.mem.sealMk (fun k _ => !mine k)
                               poison := SMap.keep d.mem.poison (fun k _ => !mine k) } }

/-- State slots whose arena lies on the die (step 4). -/
def slotAfterReset (d : Dev) (die : Nat) (s : Slot) : Slot :=
  if slotDie d s ≠ die then s
  else match s.state with
    | .resident | .swappingOut => { s with state := .swapped, poison := true, swapPend := false, queuedOpp := false }
    | .swappingIn => { s with state := .swapped, swapPend := false, queuedOpp := false }
    | _ => s

/-- A die reset starts; one that runs already goes on. -/
def opDieReset (d : Dev) (die : Nat) : Dev :=
  let d0 : Dev := { d with flt := { d.flt with blkRst := NSet.del d.flt.blkRst (die * 1024 + 16) } }
  if 48 ≤ die || dieResetting d die then d0
  else
    let d1 := failCores d0 (dieCores die) (blkIdOf die 16)
    let d2 := secSet (setPwr d1 { d1.pwr with resetting := SMap.insert d1.pwr.resetting die d1.now })
      { d1.sec with resetBlocks := NSet.add d1.sec.resetBlocks die }
    let d3 := (dieCores die).foldl (fun d n => setCore d n idleCore) d2
    let d4 := clearScratch { d3 with sigs := d3.sigs.filter (fun g => coreDie g.core != die) } die
    let d5 := [0, 1, 2, 3, 4, 5, 16, 17, 18].foldl (fun d p => resetPage d die p) d4
    { d5 with qm := { d5.qm with slots := SMap.mapVals d5.qm.slots (fun _ s => slotAfterReset d5 die s) } }

/-- A write of DEV_DIE_RST: DIE is stored; GO with a DIE above 47 is an access error (16 R501). -/
def writeDieRst (d : Dev) (err : Dev → Dev) (die : Nat) (go : Bool) : Dev :=
  let d1 := setRg d 60 4 0x10C die
  if !go then d1 else if 48 ≤ die then err d1 else opDieReset d1 die
/-- DEV_DIE_RST with GO, or the die reset that a reaction on the CDIE page requests. -/
def opDieRst (d : Dev) (a : Acc) (die : Nat) : Dev :=
  if NSet.mem d.flt.blkRst (die * 1024 + 16) then opDieReset d die
  else
    let off := regOff 60 4 0x10C
    withReg d a off (fun d => writeDieRst d (fun d => bar0Error d a off) die true)
def execDieReset (acc : Acc) (die : Fin 64) (s : State) : Host.Outcome State Fault Refusal :=
  okDev s (opDieRst s.dev acc die.val)

/-- DIE_RESET_END: microcode loaded and measured, the die serves again. -/
def opDieResetEnd (d : Dev) (die : Nat) : Dev :=
  if !dieResetting d die || SMap.get? d.pwr.retained die = some 2 then d
  else
    let d1 := secSet (setPwr d { d.pwr with resetting := SMap.erase d.pwr.resetting die })
      { d.sec with resetBlocks := NSet.del d.sec.resetBlocks die }
    admitAwaiting (powerSave d1)
def execDieResetEnd (die : Fin 48) (s : State) : Host.Outcome State Fault Refusal := okDev s (opDieResetEnd s.dev die.val)

/-- DIE_RST_TIMEOUT: 20 ms, which are 21,000,000 ARITH cycles, have passed. The die stays retained and RESETTING. -/
def opDieTimeout (d : Dev) (die : Nat) : Dev :=
  match SMap.get? d.pwr.resetting die with
  | none => d
  | some t =>
    if d.now < t + 21000000 || SMap.get? d.pwr.retained die = some 2 then d
    else
      let d1 := latch d 60 4 1 noCap
      setPwr d1 { d1.pwr with retained := SMap.insert d1.pwr.retained die 2, waking := NSet.del d1.pwr.waking die }
def execDieRstTimeout (die : Fin 48) (s : State) : Host.Outcome State Fault Refusal := okDev s (opDieTimeout s.dev die.val)

/-! ### Block reset (R478; 14 R450) -/

/-- A command uses a block: the commands that a reset of the block fails (log 60). -/
def usesBlock (d : Dev) (b : Blk) (die page : Nat) (uid : Nat) (c : Cmd) : Bool :=
  let started := c.phase == .running || c.phase == .worked
  let t3 (q : Req → Bool) : Bool :=
    d.fab.reqs.any (fun e => ownedBy uid e.2 && q e.2) || d.fab.reqWait.any (fun x => ownedBy uid x.2 && q x.2)
  started && (match b with
    | .core => touchesCores c [die * 6 + page]
    | .quill => (dieCores die).any (fun n => (core d n).ctxs.any (fun e => e.2.uid == uid && e.2.running.any (fun r => r.kind == .quill)))
    | .comet => dOpcode c.desc == 0x02 && (dBits c.desc 8 3 0 == 5 || dBits c.desc 8 3 0 == 6)
        && c.swaps.any (fun x => slotDie d (slot d (x % 2 ^ 24)) == die)
    | .ftl => (ftl d (die - 62)).progs.any (fun e => e.2.uid == uid)
    | .onfi => (ftl d (die - 62)).progs.any (fun e => e.2.uid == uid && blkCh (pageBlk e.2.page) == page)
    | .fabp => t3 (fun r => match routePort d 1 r.did with
        | some (p, _) => p == blkInst die page
        | none => false)
    | .fabr => t3 (fun _ => true)
    | .pcie => dOpcode c.desc == 0x05 && (job d c.job).port == die - 60
    | _ => false)

/-- The words of a page that a block reset returns: counters, and words that software writes; INKWELL_CTRL and
INKWELL_STAT hold the mode, which is kept. -/
def resetWords (d : Dev) (b : Blk) (die page : Nat) : Dev :=
  let lo := regOff die page 0
  let back (r : Nat) : Bool :=
    r == 0x00C || r == 0x080 || r == 0x084 ||
    (decide (0x100 ≤ r) && !(decide (b = .inkwell) && (r == 0x100 || r == 0x104)) && (match findRow b r with
      | some x => x.cnt || x.rw != 0 || x.w1c != 0
      | none => false))
  { d with regs := SMap.keep d.regs (fun k _ => decide (k < lo) || decide (lo + 4096 ≤ k) || !back (k - lo))
           latch := SMap.keep d.latch (fun k _ => decide (k < lo) || decide (lo + 4096 ≤ k)) }

/-- What a block reset does beside the registers. -/
def blockEffect (d : Dev) (b : Blk) (die page : Nat) : Dev :=
  match b with
  | .core => setCore d (die * 6 + page) idleCore
  | .wcb | .memd => wcbFlushAll d (die - 48) false .none
  | .fabp => retrainPort d (blkInst die page)
  | .fabr =>
    let d1 := if d.fab.mbBusy then finishMailbox d 2 else d
    let d2 := if d1.fab.ropBusy then finishRop d1 1 else d1
    { d2 with fab := { d2.fab with reqs := SMap.keep d2.fab.reqs (fun _ r => match r.owner with
        | .mailbox | .rop => false
        | _ => true) } }
  | .time => setTimHold d
  | _ => d
where
  setTimHold (d : Dev) : Dev := { d with tim := { d.tim with holdover := true } }

/-- A block reset, or the die reset that a request on a CDIE page stands for. -/
def opBlockReset (d : Dev) (die0 page : Nat) : Dev :=
  let die := homeDie die0 page
  let d0 : Dev := { d with flt := { d.flt with blkRst := NSet.del d.flt.blkRst (die * 1024 + page) } }
  match blkAt die page with
  | none => d0
  | some b =>
    if !blkRstCtl b || dieResetting d die then d0
    else if b = .cdie then opDieReset d0 die
    else
      let d1 := endAll d0 (fun u c => usesBlock d0 b die page u c) stFault (blkIdOf die page) true
      resetWords (blockEffect d1 b die page) b die page

/-- BLOCK_RESET: a reset that reaction 3 has requested, or a write of BLK_CTRL.RST_REQ; a retained die takes none
(16 R495). -/
def opBlkRst (d : Dev) (a : Acc) (die page : Nat) : Dev :=
  if NSet.mem d.flt.blkRst (homeDie die page * 1024 + page) then opBlockReset d die page
  else withReg d a (hdrOff a die page 0x00C) (fun d => if dieRetained d die then d else opBlockReset d die page)
def execBlockReset (acc : Acc) (die : Fin 64) (page : Fin 1024) (s : State) : Host.Outcome State Fault Refusal :=
  okDev s (opBlkRst s.dev acc die.val page.val)

end Sys2Proof.Machine
end

