-- ==== Sys2Proof/Machine/Boot.lean ====
section
/-! DEFINITION. Firmware staging, activation and confirmation (15 R481-R488; 13 R413, R414; log 61). -/

namespace Sys2Proof.Machine
open Sys2Proof

def offBootCtrl : Nat := regOff 60 2 0x100
/-- An operation of the BOOT page is in progress. -/
def bootBusy (d : Dev) : Bool := d.boot.staging.isSome || d.boot.window

/-- An operation ends with a RESULT: an event of the BOOT page (16 R498). -/
def bootResult (d : Dev) (r : Nat) : Dev :=
  pageEvent (setRg d 60 2 0x104 (putBits (rg d 60 2 0x104) 15 12 r)) 60 2 0
/-- A STAGE ends with a RESULT other than 0: BOOT_STAGE_FAIL; a flash error is also BOOT_NOR_UE. -/
def stageFails (d : Dev) (r : Nat) : Dev :=
  let d1 := latch (bootResult d r) 60 2 2 noCap
  if r = 7 then latch d1 60 2 4 noCap else d1

/-- The slot that a STAGE writes: the one that does not run, slot A when no image runs. -/
def stageSlot (b : Boot) : Bool := b.runs && !b.runSlot
def setSlotImg (b : Boot) (s : Bool) (x : ImgSlot) : Boot := if s then { b with slotB := x } else { b with slotA := x }
/-- Takes the staged image and its measurement blocks away. -/
def unstage (d : Dev) : Dev := secSet (setBoot d { d.boot with staged := false }) { d.sec with pendingBlocks := false }

/-- STAGE. -/
def opBootStage (d : Dev) (a : Acc) : Dev :=
  if bootBusy d then d
  else if d.boot.trial then stageFails d 8
  else if rg d 60 2 0x110 < 8192 then stageFails d 4
  else
    let d1 := unstage d
    let s := stageSlot d1.boot
    let old := stagedImg d1.boot
    setBoot d1 { setSlotImg d1.boot s { old with ok := false } with staging := some (accPort a) }
def execBootStage (acc : Acc) (s : State) : Host.Outcome State Fault Refusal :=
  okDev s (withReg s.dev acc offBootCtrl (fun d => opBootStage d acc))

/-- BOOT_STAGE_END: the DMA and the verification are done with a RESULT of the table; an SVN below the fused minimum
does not verify. -/
def opBootStageEnd (d : Dev) (r version svn : Nat) : Dev :=
  if d.boot.staging.isNone || r = 5 || r = 6 || r = 8 then d
  else
    let r' := if r = 0 && decide (svn < d.boot.fusedSvn) then 2 else r
    let d1 := setBoot d { d.boot with staging := none }
    if r' ≠ 0 then stageFails d1 r'
    else
      let b := setSlotImg d1.boot (stageSlot d1.boot) ⟨true, version, svn⟩
      let d2 := secSet (setBoot d1 { b with staged := true }) { d1.sec with pendingBlocks := true }
      bootResult (bump d2 60 2 0x134 1) 0
def execBootStageEnd (result : Fin 9) (version : Word) (svn : BitVec 6) (s : State) : Host.Outcome State Fault Refusal :=
  okDev s (opBootStageEnd s.dev result.val version.toNat svn.toNat)

/-- DISCARD. -/
def opDiscard (d : Dev) : Dev :=
  if bootBusy d then d else if d.boot.staged then bootResult (unstage d) 0 else bootResult d 6
def execBootDiscard (acc : Acc) (s : State) : Host.Outcome State Fault Refusal :=
  okDev s (withReg s.dev acc offBootCtrl opDiscard)

/-- The conditions of R486. -/
def mayActivate (d : Dev) : Bool :=
  decide (d.state = .ready) && d.boot.staged && d.qm.cmds.isEmpty && decide (d.orb.state = .none)

/-- ACTIVATE: the activation window opens, or RESULT 5. -/
def opBootActivate (d : Dev) : Dev :=
  if bootBusy d then d
  else if !mayActivate d then bootResult d 5
  else secSet (setBoot d { d.boot with window := true }) { d.sec with windowOpen := true }
def execBootActivate (acc : Acc) (s : State) : Host.Outcome State Fault Refusal :=
  okDev s (withReg s.dev acc offBootCtrl opBootActivate)

/-- ACTIVATION_WINDOW_END: the staged slot runs in trial; keys are erased, KREL is new, SPDM sessions end. A component
that fails its digest causes a device reset, after which the previous slot boots. -/
def opWindowEnd (d : Dev) (digestOk : Bool) : Dev :=
  if !d.boot.window then d
  else
    let b := d.boot
    let b1 : Boot := { b with window := false, staged := false, trial := true, runSlot := !b.runSlot, pref := !b.runSlot, unconfirmed := true }
    let x : Sec := { newKrel d.sec with keys := [], spdmA := [], spdmB := [], pendingBlocks := false, windowOpen := false }
    let d1 := secSet (setBoot d b1) x
    if digestOk then bootResult (bump d1 60 2 0x130 1) 0
    else requestReset (latch d1 60 2 3 noCap) 7
def execActivationWindowEnd (digestOk : Bool) (s : State) : Host.Outcome State Fault Refusal :=
  okDev s (opWindowEnd s.dev digestOk)

/-- CONFIRM. -/
def opConfirm (d : Dev) : Dev :=
  if bootBusy d || !d.boot.trial then d
  else
    let b := d.boot
    bootResult (setBoot d { b with trial := false, unconfirmed := false, fusedSvn := max b.fusedSvn (runImg b).svn }) 0
def execBootConfirm (acc : Acc) (s : State) : Host.Outcome State Fault Refusal :=
  okDev s (withReg s.dev acc offBootCtrl opConfirm)

end Sys2Proof.Machine
end

