-- ==== Sys2Proof/Machine/Power.lean ====
section
/-! DEFINITION. The power manager and the management bus: power requests, wake-up, input power, regulators, issue gate,
die temperatures (15 R469-R475; 17 R517-R519; log 62). -/

namespace Sys2Proof.Machine
open Sys2Proof

/-! ### Power requests (R469, R470) -/

/-- A retained die begins to wake. -/
def startWake (d : Dev) (die : Nat) : Dev :=
  setPwr d { d.pwr with retained := SMap.erase d.pwr.retained die, waking := NSet.add d.pwr.waking die }

/-- BLK_CTRL.PWR_REQ of a CDIE page: 1 wakes a die that is retained for want of a job, 0 lets R469 switch it off. -/
def opPwrReq (d : Dev) (die : Nat) (on : Bool) : Dev :=
  let d1 := setRg d die 16 0x00C (putBits (rg d die 16 0x00C) 2 2 (b2n on))
  if !on then powerSave d1
  else if SMap.get? d1.pwr.retained die = some 0 then startWake d1 die else d1
def execPwrReq (acc : Acc) (die : Fin 48) (on : Bool) (s : State) : Host.Outcome State Fault Refusal :=
  okDev s (withReg s.dev acc (regOff die.val 16 0x00C) (fun d => opPwrReq d die.val on))

/-- DIE_WAKE: the die is awake, its cores cleared; waiting jobs become resident, and a die that nothing needs any more
is switched off again. -/
def opDieWake (d : Dev) (die : Nat) : Dev :=
  if !NSet.mem d.pwr.waking die then d
  else
    let d1 := setPwr d { d.pwr with waking := NSet.del d.pwr.waking die }
    powerSave (admitAwaiting ((dieCores die).foldl (fun d n => setCore d n idleCore) d1))
def execDieWake (die : Fin 48) (s : State) : Host.Outcome State Fault Refusal := okDev s (opDieWake s.dev die.val)

/-! ### Input power and regulators (R471) -/

/-- PWR_IN_OV. -/
def opInOv (d : Dev) : Dev := latch d 61 1 1 noCap
def execPwrInOv (s : State) : Host.Outcome State Fault Refusal := okDev s (opInOv s.dev)

/-- PMBUS_POLL: input voltage and current, and the regulators that report a fault; a new fault performs a device reset. -/
def opPmbus (d : Dev) (vin iin rails : Nat) : Dev :=
  let fresh := (List.range 24).any (fun r => rails.testBit r && !d.pwr.vrFault.testBit r)
  let d1 := setPwr (setRg d 61 1 0x10C (iin * 2 ^ 16 + vin)) { d.pwr with vrFault := rails }
  if fresh then requestReset (latch d1 61 1 2 noCap) 5 else d1
def execPmbusPoll (vin iin : BitVec 16) (rails : BitVec 24) (s : State) : Host.Outcome State Fault Refusal :=
  okDev s (opPmbus s.dev vin.toNat iin.toNat rails.toNat)

/-! ### The issue gate (R472-R474) -/

def pwrCap (d : Dev) : Nat := rg d 61 1 0x108

/-- Input energy in joules: P watts for 1 ms. -/
def addEnergy (d : Dev) (p : Nat) : Dev :=
  let e := d.pwr.energyRest + p
  setPwr (bump64 d 61 1 0x1AC (e / 1000)) { d.pwr with energyRest := e % 1000 }

/-- The hard limit: on after 10 intervals above 3,800 W, off after 10 below the cap (R474). Answers whether it begins. -/
def hardLimit (d : Dev) (p : Nat) : Dev × Bool :=
  let over' := if 3800 < p then min 10 (d.pwr.overRun + 1) else 0
  let below := if d.pwr.hard && decide (p < pwrCap d) then d.pwr.belowRun + 1 else 0
  let d1 := setPwr d { d.pwr with overRun := over', belowRun := below }
  if !d1.pwr.hard && over' = 10 then (setPwr d1 { d1.pwr with hard := true, belowRun := 0 }, true)
  else if d1.pwr.hard && 10 ≤ below then (setPwr d1 { d1.pwr with hard := false, belowRun := 0 }, false)
  else (d1, false)

/-- G after an interval (R472, R473). -/
def nextG (d : Dev) (p : Nat) : Nat :=
  let g := d.pwr.g
  if orbitMode d && !d.pwr.hard then 64
  else if pwrCap d < p then max 8 (g - 8)
  else if p * 100 < pwrCap d * 97 then min 64 (g + 8)
  else g

/-- G takes a value: its change is an event of the PWR page, its first fall below 64 latches PWR_CAP_GATE. -/
def takeG (d : Dev) (new : Nat) : Dev :=
  let old := d.pwr.g
  let d1 := setPwr d { d.pwr with g := new }
  let d2 := if new ≠ old then pageEvent d1 61 1 0 else d1
  let d3 := if old = 64 && new < 64 then latch d2 61 1 3 noCap else d2
  if new < 64 then bump d3 61 1 0x1A4 1 else d3

/-- POWER_EVAL. What one interval detects meets in one cycle, so the lowest source is latched first (14 R443). -/
def opPowerEval (d : Dev) (p : Nat) : Dev :=
  match hardLimit (addEnergy (setPwr d { d.pwr with watts := p }) p) p with
  | (d1, starts) =>
    let d2 := takeG d1 (nextG d1 p)
    let d3 := if orbitMode d1 && decide (pwrCap d1 < p) then latch (bump d2 61 1 0x1A0 1) 61 1 4 noCap else d2
    if starts then latch d3 61 1 5 noCap else d3
def execPowerEval (watts : BitVec 16) (s : State) : Host.Outcome State Fault Refusal :=
  okDev s (opPowerEval s.dev watts.toNat)

/-! ### Die temperatures (R475) -/

/-- THERM_WARN of a die begins or ends. -/
def thermWarn (d : Dev) (die : Nat) (t : Int) : Dev :=
  let hi : Int := if die < 48 then 100 else 105
  if hi ≤ t && !NSet.mem d.pwr.warm die then
    latch (bump (setPwr d { d.pwr with warm := NSet.add d.pwr.warm die }) 61 1 0x1A8 1) 61 1 6 noCap
  else if t ≤ hi - 5 then setPwr d { d.pwr with warm := NSet.del d.pwr.warm die }
  else d

/-- A compute die whose THERM_CRIT has ended wakes when a job or PWR_REQ wants it, else it stays off for want of a job. -/
def critEnds (d : Dev) (die : Nat) : Dev :=
  let d1 := setPwr d { d.pwr with crit := NSet.del d.pwr.crit die }
  if SMap.get? d1.pwr.retained die = some 1 then
    (if dieNamed d1 die || (rg d1 die 16 0x00C).testBit 2 then startWake d1 die
     else setPwr d1 { d1.pwr with retained := SMap.insert d1.pwr.retained die 0 })
  else d1

/-- THERM_CRIT of a compute die begins: the commands that use the die fail, and the die is retained. A die that
DIE_RST_TIMEOUT holds stays so. -/
def critStarts (d : Dev) (die : Nat) : Dev :=
  let d1 := latch (setPwr d { d.pwr with crit := NSet.add d.pwr.crit die }) 61 1 7 noCap
  let d2 := failCores d1 (dieCores die) (blkIdOf 61 1)
  if SMap.get? d2.pwr.retained die = some 2 then d2
  else setPwr d2 { d2.pwr with retained := SMap.insert d2.pwr.retained die 1, waking := NSet.del d2.pwr.waking die }

/-- THERM_CRIT by one die's reading. -/
def thermDie (d : Dev) (x : BitVec 8 × Nat) : Dev :=
  let t := x.1.toInt
  let die := x.2
  let crit := NSet.mem d.pwr.crit die
  if die < 48 then
    if 110 ≤ t && !crit then critStarts d die else if t ≤ 95 && crit then critEnds d die else d
  else if 115 ≤ t && !crit then
    requestReset (latch (setPwr d { d.pwr with crit := NSet.add d.pwr.crit die }) 61 1 7 noCap) 6
  else d

/-- The hottest die, the lowest number on a tie. -/
def hottest (ts : List (BitVec 8)) : BitVec 8 × Nat :=
  ts.zipIdx.foldl (fun best x => if best.1.toInt < x.1.toInt then x else best) ((ts[0]?).getD 0, 0)

/-- DIE_TEMP_READ: the 64 dies in order, every warning before what is critical, as the readings meet in one cycle
(14 R443). The hold of a device reset ends when every die reads 95 °C or less. -/
def opDieTemps (d : Dev) (ts : List (BitVec 8)) : Dev :=
  let temps : SMap Nat := ts.zipIdx.filterMap (fun x => if x.1 = 0 then none else some (x.2, x.1.toNat))
  let h := hottest ts
  let d1 := setRg (setPwr d { d.pwr with temps := temps }) 61 1 0x110 (h.2 * 256 + h.1.toNat)
  let d2 := ts.zipIdx.foldl thermDie (ts.zipIdx.foldl (fun d x => thermWarn d x.2 x.1.toInt) d1)
  if ts.all (fun t => decide (t.toInt ≤ 95)) then
    setPwr d2 { d2.pwr with crit := SMap.keep d2.pwr.crit (fun k _ => decide (k < 48)) } else d2
def execDieTempRead (temps : List (BitVec 8)) (s : State) : Host.Outcome State Fault Refusal :=
  guardWf (tempsOk temps) s (okDev s (opDieTemps s.dev temps))

/-! ### The management bus (17 R517, R518) -/

/-- The input is within 48 V to 54 V (17 R508). -/
def inputInRange (d : Dev) : Bool :=
  let v := rg d 61 1 0x10C % 2 ^ 16
  !d.powerLost && decide (48000 ≤ v) && decide (v ≤ 54000)

/-- The bytes of the status endpoint; while the input is below 46 V only FORMAT and STATE are given. -/
def statusBytes (d : Dev) : List Nat :=
  if d.powerLost then [1, 0xFF, 0, 0, 0, 0, 0, 0]
  else
    [1, devStateNo d.state] ++ leBytes 2 d.pwr.watts ++ leBytes 2 (rg d 61 1 0x10C % 2 ^ 16) ++ [rg d 61 1 0x110 % 256]
      ++ [b2n (d.state == .ready) + 2 * b2n (errOutLow d) + 4 * b2n (decide (d.pwr.g < 64)) + 8 * b2n (fltSum d != 0)
          + 16 * b2n (inputInRange d)]

/-- MGMT_BUS_READ: target 0 is the status endpoint of 256 bytes, target 1 the FRU memory of 2 KiB. -/
def opBusRead (d : Dev) (target off n : Nat) : Dev :=
  emit d (.bus ((List.range n).map (fun i =>
    if target = 0 then ((statusBytes d)[(off + i) % 256]?).getD 0 else (Config.fruByte ((off + i) % 2048)).toNat)))
def execMgmtBusRead (dev : Fin 2) (off len : Nat) (s : State) : Host.Outcome State Fault Refusal :=
  okAny s (opBusRead s.dev dev.val off len)

end Sys2Proof.Machine
end

