-- ==== Sys2Proof/Machine/BusOps.lean ====
section
/-! DEFINITION. The write of any register with the actions of its fields, and what reaches it: BAR0 writes, management
packets, JTAG; and the forwarding of packets (11 R349, R352-R354; 16 R490-R494; 17 R520; log 63). -/

namespace Sys2Proof.Machine
open Sys2Proof

/-! ### One write of one register (16 R491, R494) -/

/-- Runs an action when a bit of the written word is 1. -/
def onBit (v i : Nat) (f : Dev → Dev) (d : Dev) : Dev := if v.testBit i then f d else d
/-- A plain write; a field out of range is an access error (R494). -/
def plainErr (err : Dev → Dev) (off v : Nat) (d : Dev) : Dev :=
  let r := plainWrite d off v
  if r.2 then err r.1 else r.1

/-- FABP_CTRL.EN: a port that is disabled goes down, one that is enabled trains (11 R336, R340). -/
def setPortEn (d : Dev) (p : Nat) (en : Bool) : Dev :=
  let old := (rp d p 0x100).testBit 0
  let d1 := setRp d p 0x100 (putBits (rp d p 0x100) 0 0 (b2n en))
  if en == old then d1
  else if en then setPort d1 p { fabPort d1 p with training := !(fabPort d1 p).supplyOff }
  else
    let d2 := portGoesDown d1 p
    setPort d2 p { fabPort d2 p with training := false, wasUp := false }

/-- FABP_CTRL. -/
def writeFabpCtrl (d : Dev) (p v : Nat) : Dev :=
  let d1 := setPortEn d p (v.testBit 0)
  let d2 := setRp d1 p 0x100 (putBits (rp d1 p 0x100) 4 4 (bitsOf v 4 4))
  onBit v 3 (fun d => opCntClr d (fpDie p) (p % 6)) (onBit v 2 (fun d => opCalReq d p) (onBit v 1 (fun d => retrainPort d p) d2))

/-- BLK_CTRL (16 R497). -/
def writeBlkCtrl (d : Dev) (b : Blk) (die page v : Nat) : Dev :=
  let d1 := match b with
    | .cdie => opPwrReq d die (v.testBit 2)
    | .fabp => setPortEn d (blkInst die page) (v.testBit 0)
    | _ => d
  if v.testBit 1 && !dieRetained d die then opBlockReset d1 die page else d1

/-- The header of a page. -/
def writeHdr (d : Dev) (err : Dev → Dev) (b : Blk) (die page reg v : Nat) : Dev :=
  if reg = 0x00C then writeBlkCtrl d b die page v
  else if reg = 0x020 then opFltClear d die page v
  else if reg = 0x04C then onBit v 31 (fun d => opFltInject d die page (v % 32)) d
  else plainErr err (regOff die page reg) v d

/-- TIME_CTRL: an input or PTP that is enabled now is watched from now on (11 R377, R378; log 14). -/
def writeTimeCtrl (d : Dev) (err : Dev → Dev) (v : Nat) : Dev :=
  let old := timeCtrl d
  let d1 := plainErr err (regOff 56 17 0x100) v d
  let d2 := if v.testBit 2 && !old.testBit 2 then setTim d1 { d1.tim with lastPps := d1.now } else d1
  let d3 := if v.testBit 4 && !old.testBit 4 then setTim d2 { d2.tim with lastSync := d2.now } else d2
  onBit v 0 (fun d => opCntClr d 56 17) d3

/-- FABR_HDL_OP and FABR_ORB_CTRL, bit by bit. -/
def writeOrbCtrl (d : Dev) (v : Nat) : Dev :=
  onBit v 3 opDisband (onBit v 2 opRunOrbit (onBit v 1 opOrbStart (onBit v 0 opLockReq d)))

/-- PCIE_CTRL of a port's page; RELEASE and MGMT_CLAIM act for the port's own PF (12 R400, R403). -/
def writePcieCtrl (d : Dev) (a : Acc) (p : HostPort) (v : Nat) : Dev :=
  let d1 := setRg d (pgPcie p) 0 0x100 (putBits (rg d (pgPcie p) 0 0x100) 3 3 (bitsOf v 3 3))
  let d2 := onBit v 1 (fun d => if isPf a p then declareLost d p else d) d1
  let d3 := onBit v 2 (fun d => if decide (p = .a) then opMgmtClaim d a else d) d2
  onBit v 0 (fun d => opCntClr d (pgPcie p) 0) d3

/-- Does the PF of a port write this job's entries of the SEC page? Port B's PF only for jobs it owns (chapter 13). -/
def secJobOk (d : Dev) (a : Acc) (j : Nat) : Bool :=
  match a with
  | .pf .b => (job d j).state == 1 && (job d j).port == 1
  | _ => true
/-- SEC_SESS_KS: the session must be bound to a job of the writing port (13 R432). -/
def sessKsOk (d : Dev) (a : Acc) : Bool :=
  match (sess d (rg d 60 1 0x140)).job with
  | some j => (job d j).port == accPort a
  | none => false

/-- The words of the host's memory that ACTIVATE reads, when a plain register write starts it: free bytes (log 63). -/
def freeRecord (d : Dev) : Dev × List Nat :=
  ({ d with freeCtr := d.freeCtr + 1 }, (List.range placeBytes).map (fun i => (Config.freeByte d.freeCtr i).toNat))

/-- QMGR_J_CTRL: PRIV is a physical function's alone to write (10 R303; 12 R389). -/
def writeJobCtrl (d : Dev) (a : Acc) (j v : Nat) : Dev :=
  let d1 := match a with
    | .pf _ => setRj d j 0x100 (bitsOf v 2 2 * 4)
    | _ => d
  let d2 := onBit v 0 (fun d => let r := freeRecord d; opActivate r.1 a j (some r.2)) d1
  onBit v 3 (fun d => opCntClr d 60 (jPage j)) (onBit v 1 (fun d => opDestroy d j) d2)

/-- The registers of a job page. -/
def writeJobReg (d : Dev) (a : Acc) (err : Dev → Dev) (j reg v : Nat) : Dev :=
  if reg = 0x100 then writeJobCtrl d a j v
  else if reg = 0x104 then
    onBit v 3 (fun d => opSqErrClear d j) (onBit v 2 (fun d => setJob d j { job d j with declRej := false }) d)
  else if reg = 0x188 then opListSet d a j v
  else if (decide (0x1A0 ≤ reg) && decide (reg ≤ 0x1BC)) || (decide (0x1C4 ≤ reg) && decide (reg ≤ 0x1CC)) then opDecl d a j reg v
  else if reg = 0x1D0 then
    (if bitsOf v 31 30 = 1 then opBind d j (v % 16384) else if bitsOf v 31 30 = 2 then opUnbind d j (v % 16384) else d)
  else plainErr err (regOff 60 (jPage j) reg) v d

/-- The registers of the SEC page. -/
def writeSecReg (d : Dev) (a : Acc) (err : Dev → Dev) (reg v : Nat) : Dev :=
  if reg = 0x100 then onBit v 0 (fun d => opCntClr d 60 1) d
  else if reg = 0x120 && !secJobOk d a (v % 256) then d
  else if reg = 0x12C then (if v % 4 = 1 then opInstall d a .none else if v % 4 = 2 then opErase d a else d)
  else if reg = 0x144 && !sessKsOk d a then d
  else plainErr err (regOff 60 1 reg) v d

/-- The registers of a PCIE page. -/
def writePcieReg (d : Dev) (a : Acc) (err : Dev → Dev) (p : HostPort) (reg v : Nat) : Dev :=
  if reg = 0x100 then writePcieCtrl d a p v
  else if 0x164 ≤ reg && reg ≤ 0x180 then opVfJobs d p ((reg - 0x164) / 4) v a
  else if reg = 0x1A0 then opAdopt d p (v % 256)
  else plainErr err (pcieOff p reg) v d

/-- The registers of the FABR page. -/
def writeFabrReg (d : Dev) (err : Dev → Dev) (reg v : Nat) : Dev :=
  if reg = 0x100 then onBit v 0 (fun d => opCntClr d 56 16) d
  else if reg = 0x168 then (if v % 4 = 1 then opHandleOpen d else if v % 4 = 2 then opHandleFree d else d)
  else if reg = 0x170 then opMailbox d err v
  else if reg = 0x180 then opRop d v .none
  else if reg = 0x1C4 then writeOrbCtrl d v
  else plainErr err (regOff 56 16 reg) v d

/-- BOOT_CTRL, bit by bit. -/
def writeBootCtrl (d : Dev) (a : Acc) (v : Nat) : Dev :=
  onBit v 4 (fun d => opCntClr d 60 2)
    (onBit v 3 opConfirm (onBit v 2 opBootActivate (onBit v 1 opDiscard (onBit v 0 (fun d => opBootStage d a) d))))
/-- DEV_CTRL: RECOVER, TEST, RESET. -/
def writeDevCtrl (d : Dev) (v : Nat) : Dev :=
  onBit v 3 (fun d => opCntClr d 60 4)
    (onBit v 0 opDevReset (onBit v 2 opRecover (if v.testBit 1 then opTestEnter d else opTestLeave d)))

/-- CORE_SEQ_CTRL. -/
def writeSeqCtrl (d : Dev) (n v : Nat) : Dev :=
  onBit v 16 (fun d => opCntClr d (n / 6) (n % 6)) (onBit v 1 (fun d => opStep d n) (opHalt d n (v.testBit 0)))

/-- The write of a register that is listed, after the access checks: `t` is its BAR0 offset as a PF has it, `err` what
an access error does. -/
def busWrite (d : Dev) (a : Acc) (err : Dev → Dev) (t v : Nat) : Dev :=
  let die := offDie t
  let page := offPage t
  let reg := offReg t
  match blkAt die page with
  | none => d
  | some b =>
    if reg < 0x100 then writeHdr d err b die page reg v
    else match b with
      | .core => if reg = 0x100 then writeSeqCtrl d (die * 6 + page) v else plainErr err t v d
      | .inkwell =>
        if reg = 0x100 then opInkMode (onBit v 0 (fun d => opCntClr d die page) d) (die - 48) (v.testBit 8) else plainErr err t v d
      | .fabp => if reg = 0x100 then writeFabpCtrl d (blkInst die page) v else plainErr err t v d
      | .fabr => writeFabrReg d err reg v
      | .time =>
        if reg = 0x100 then writeTimeCtrl d err v
        else if reg = 0x11C then opTimeStep d (BitVec.ofNat 32 v) else plainErr err t v d
      | .pcie => writePcieReg d a err (if die = 60 then .a else .b) reg v
      | .qmgrJ => writeJobReg d a err (page - 0x200) reg v
      | .sec => writeSecReg d a err reg v
      | .boot => if reg = 0x100 then writeBootCtrl d a v else plainErr err t v d
      | .fltag =>
        if reg = 0x100 then onBit v 0 (fun d => opCntClr d 60 3) d
        else if reg = 0x104 then onBit v 0 opIrqClear d
        else if reg = 0x114 then opLogRd d a v else plainErr err t v d
      | .dev =>
        if reg = 0x100 then writeDevCtrl d v
        else if reg = 0x10C then writeDieRst d err (v % 64) (v.testBit 31) else plainErr err t v d
      | _ => if reg = cntClrReg b then onBit v 0 (fun d => opCntClr d die page) d else plainErr err t v d

/-! ### REGISTER_WRITE (16 R491, R492) -/

/-- The offset names a register that is listed. -/
def isListed (t : Nat) : Bool :=
  match blkAt (offDie t) (offPage t) with
  | some b => (findRow b (offReg t)).isSome
  | none => false

/-- A BAR0 write of one register with byte enables: one whose enables are not all set is discarded
and counted, and its capture has the bytes that it enables. -/
def opRegWrite (d : Dev) (a : Acc) (off be v : Nat) : Dev :=
  match accTarget d a off with
  | none => d
  | some t =>
    if !isListed t then d
    else match accWrite d a off with
      | (d1, none) => d1
      | (d1, some t') =>
        if be ≠ 15 then latch (countBar0Err d1) 60 4 0 (accCap a off 2 (setBits 4 be).length) else busWrite d1 a (fun x => bar0Error x a off) t' v
def execRegisterWrite (acc : Acc) (off : BitVec 28) (be : BitVec 4) (value : Word) (s : State) :
    Host.Outcome State Fault Refusal :=
  okDev s (opRegWrite s.dev acc off.toNat be.toNat value.toNat)

/-! ### Management packets (11 R348-R350) -/

/-- The register that a management packet names, in a FABP, FABR or TIME page. -/
def mgmtTarget (p : Packet) : Option Nat :=
  if 2 ^ 28 ≤ p.addr then none
  else match blkAt (offDie p.addr) (offPage p.addr) with
    | some .fabp | some .fabr | some .time => some (canonOff p.addr)
    | _ => none

/-- The packet's source may access (R349). -/
def mgmtSrcOk (d : Dev) (p : Packet) : Bool := if mgrDid d = 0 then p.dst == 0xFFFF else p.src == mgrDid d
/-- FABR_ID_SERIAL_LO, _HI, FABR_ID_INFO and FABP_STAT may be read from any source. -/
def anyoneReads (t : Nat) : Bool :=
  match blkAt (offDie t) (offPage t) with
  | some .fabr => offReg t == 0x10C || offReg t == 0x110 || offReg t == 0x114
  | some .fabp => offReg t == 0x104
  | _ => false

/-- MGMT_RESP: status in byte 0, data in bytes 4 to 7 (log 22). -/
def mgmtResp (d : Dev) (port : Nat) (p : Packet) (status data : Nat) : Dev :=
  respond d port p (mkPkt d 13 2 p.src p.tag p.addr 0 ([status, 0, 0, 0] ++ leBytes 4 data ++ List.replicate 8 0))
/-- A refused access: status REJECT, counted, MGMT_REJECT. -/
def mgmtReject (d : Dev) (port : Nat) (p : Packet) : Dev :=
  mgmtResp (latch (bump d 56 16 0x20C 1) 56 16 3 (remoteCap p p.addr (if p.typ = 11 then 1 else 2) 4)) port p 1 0

/-- An access error of a management packet. -/
def mgmtErr (p : Packet) (d : Dev) : Dev := latch (countBar0Err d) 60 4 0 (remoteCap p p.addr 2 4)

/-- Performs a management request that is for this device. -/
def mgmtAccess (d : Dev) (port : Nat) (p : Packet) : Dev :=
  match mgmtTarget p with
  | none => mgmtReject d port p
  | some t =>
    if p.typ = 11 then
      if mgmtSrcOk d p || anyoneReads t then
        let r := readEffect d t
        mgmtResp r.1 port p 0 r.2
      else mgmtReject d port p
    else if mgmtSrcOk d p then
      mgmtResp (if isListed t then busWrite d .firmware (mgmtErr p) t (sBytes p.payload 0 4) else d) port p 0 0
    else mgmtReject d port p

/-- A management request arrives on a port. -/
def opMgmt (d : Dev) (port typ : Nat) (p : Packet) : Dev :=
  if p.typ ≠ typ || !(p.dst == ownDid d || p.dst == 0xFFFF) || !portIn d port p then d
  else if !headerOk p then dropMalformed d port p
  else mgmtAccess d port p
def execMgmtRd (port : PortId) (pkt : Packet) (s : State) : Host.Outcome State Fault Refusal :=
  guardWf (Packet.ok pkt) s (okDev s (opMgmt s.dev port.val 11 pkt))
/-- MGMT_WR. -/
def opMgmtWr (d : Dev) (port : Nat) (p : Packet) : Dev := opMgmt d port 12 p
def execMgmtWr (port : PortId) (pkt : Packet) (s : State) : Host.Outcome State Fault Refusal :=
  guardWf (Packet.ok pkt) s (okDev s (opMgmtWr s.dev port.val pkt))

/-! ### Forwarding (11 R345, R352-R354) -/

/-- What a packet for a group does on a device whose entry has LOCAL = 1: management requests, HALT, fault reports. -/
def deliverGroup (d : Dev) (port : Nat) (p : Packet) : Dev :=
  match p.typ with
  | 10 => opHaltRx d port p
  | 11 | 12 => mgmtAccess d port p
  | 15 => opFaultReport d port { p with dst := ownDid d }
  | _ => d

/-- Only MGMT packets and ORBIT_CTRL HALT may be sent to a group (R352). -/
def groupOk (p : Packet) : Bool := p.vc == 2

/-- A packet for a group: a copy to every port of the mask but the one it came from, and local delivery. -/
def forwardGroup (d : Dev) (port : Nat) (p : Packet) : Dev :=
  match SMap.get? d.fab.mc (p.dst % 4096) with
  | none => routeDrop d port p 1
  | some e =>
    if !e.valid || e.did ≠ p.dst || !groupOk p then routeDrop d port p 1
    else
      let named := (setBits 24 e.ports).filter (· ≠ port)
      let outs := named.filter (fun o => (fabPort d o).up)
      let d1 := if named.isEmpty then d
        else if p.ttl ≤ 1 then routeDrop d port p 2
        else if outs.isEmpty then routeDrop d port p 1
        else outs.foldl (fun d o => sendPort d o { p with ttl := p.ttl - 1 }) d
      if e.local_ then deliverGroup d1 port p else d1

/-- FORWARD: a packet that is not for this device leaves by its source route, its group's ports or its route entry. -/
def opForward (d : Dev) (port : Nat) (p : Packet) (ev : Upset) : Dev :=
  if !(fabPort d port).up || p.dst = 0xFFFF then d
  else if ev = .bufUE then portUE d port
  else if !headerOk p then dropMalformed d port p
  else if p.vc = 0 then
    holdWord d port p
  else if p.dst = ownDid d then d
  else if ownDid d = 0 then routeDrop d port p 1
  else if 0x8000 ≤ p.dst then
    forwardGroup (if ev = .tableUE then tableUE d (fun f => { f with mc := SMap.erase f.mc (p.dst % 4096) }) else d) port p
  else if p.ttl ≤ 1 then routeDrop d port p 2
  else if p.vc = 3 then routeDrop d port p 1
  else
    let d := if ev = .tableUE then tableUE d (fun f => { f with rt := SMap.erase f.rt p.dst }) else d
    match routePort d p.vc p.dst with
    | none => routeDrop d port p 1
    | some (out, alt) => sendPort (if alt then bump d 56 16 0x204 1 else d) out { p with ttl := p.ttl - 1 }
def execForward (port : PortId) (pkt : Packet) (ev : Upset) (s : State) : Host.Outcome State Fault Refusal :=
  guardWf (Packet.ok pkt) s (okDev s (opForward s.dev port.val pkt ev))

/-! ### JTAG (13 R425, R434; 17 R520) -/

/-- IDCODE: version 1, part number 0x4B64, the manufacturer identity, 1. -/
def idcode : Nat := 2 ^ 28 + 0x4B64 * 2 ^ 12 + Config.jedecId.toNat * 2 + 1

/-- One byte of a debug memory read, and the storage granule it lies in. -/
def debugByte (d : Dev) (a i : Nat) : Option Nat × Nat :=
  match decodeAddr (a + i) with
  | .t0 c o => (some (gT0 c (o / 4096)), stByte d (gT0 c (o / 4096)) (o % 4096))
  | .obj t oid o =>
    (match rootOf d (gKey t oid (o / 4096)) with
     | some s => (some s, stByte d s (o % 4096))
     | none => (none, 0))
  | _ => (none, (Config.freeByte d.freeCtr i).toNat)

/-- A debug read of n bytes: sealed bytes read as zero, and each byte's first sealed granule is a seal hit. -/
def debugRead (d : Dev) (a n : Nat) : Dev × List Nat :=
  let bs := (List.range n).map (fun i => (a + i, debugByte d a i))
  let hid (x : Nat × Option Nat × Nat) : Bool := match x.2.1 with
    | some s => sealed d s
    | none => false
  let d1 : Dev := { d with freeCtr := d.freeCtr + 1 }
  let d2 := match bs.find? hid with
    | some x => sealHit d1 x.1 2
    | none => d1
  (d2, bs.map (fun x => if hid x then 0 else x.2.2))

/-- JTAG_ACCESS; the port works while the input is at or above 46 V. -/
def opJtag (d : Dev) (r : JtagReq) : Dev :=
  if d.powerLost then d
  else match r with
    | .idcode => emit d (.jtag (leBytes 4 idcode))
    | .readMem a n =>
      let x := debugRead d a.toNat n
      emit x.1 (.jtag x.2)
    | .readVreg n i =>
      let c := core d n.val
      if NSet.mem c.vsealed i.val then emit (sealHit d 0 3) (.jtag (List.replicate 1024 0))
      else emit d (.jtag (leBytes 1024 (SMap.getD c.vregs i.val 0).toNat))
    | .readReg off =>
      let x := accRead d .jtag off.toNat
      emit x.1 (.jtag (leBytes 4 x.2))
    | .writeReg off v => opRegWrite d .jtag off.toNat 15 v.toNat
def execJtagAccess (req : JtagReq) (s : State) : Host.Outcome State Fault Refusal := okAny s (opJtag s.dev req)

end Sys2Proof.Machine
end

