-- ==== Sys2Proof/Machine/Dispatch.lean ====
section
/-! DEFINITION. One arm per command. -/

namespace Sys2Proof.Machine
open Sys2Proof

def exec (i : Instr) (s : State) : Host.Outcome State Fault Refusal :=
  match i with
  | .runSegment uid ev => Sys2Proof.Machine.execRunSegment uid ev s
  | .copyTilesCopy uid ev => Sys2Proof.Machine.execCopyTilesCopy uid ev s
  | .alloc uid => Sys2Proof.Machine.execAlloc uid s
  | .claim uid => Sys2Proof.Machine.execClaim uid s
  | .evict uid => Sys2Proof.Machine.execEvict uid s
  | .stage uid ev => Sys2Proof.Machine.execStage uid ev s
  | .slotOut uid ev => Sys2Proof.Machine.execSlotOut uid ev s
  | .slotIn uid ev => Sys2Proof.Machine.execSlotIn uid ev s
  | .pageStage uid ev => Sys2Proof.Machine.execPageStage uid ev s
  | .pageUnstage uid ev => Sys2Proof.Machine.execPageUnstage uid ev s
  | .forkSession uid => Sys2Proof.Machine.execForkSession uid s
  | .freePages uid => Sys2Proof.Machine.execFreePages uid s
  | .publish uid ev => Sys2Proof.Machine.execPublish uid ev s
  | .fence uid ev => Sys2Proof.Machine.execFence uid ev s
  | .setQuota uid => Sys2Proof.Machine.execSetQuota uid s
  | .preempt uid ev => Sys2Proof.Machine.execPreempt uid ev s
  | .loadSealed uid ev => Sys2Proof.Machine.execLoadSealed uid ev s
  | .sqDoorbell acc job queue value => Sys2Proof.Machine.execSqDoorbell acc job queue value s
  | .cqDoorbell acc job value => Sys2Proof.Machine.execCqDoorbell acc job value s
  | .descriptorFetch job queue desc ev => Sys2Proof.Machine.execDescriptorFetch job queue desc ev s
  | .commit uid ns => Sys2Proof.Machine.execCommit uid ns s
  | .completionEntry uid => Sys2Proof.Machine.execCompletionEntry uid s
  | .cqAbandon uid => Sys2Proof.Machine.execCqAbandon uid s
  | .sliceEnd job => Sys2Proof.Machine.execSliceEnd job s
  | .overrunExpiry uid => Sys2Proof.Machine.execOverrunExpiry uid s
  | .victimOut uid ev => Sys2Proof.Machine.execVictimOut uid ev s
  | .nopAct core job => Sys2Proof.Machine.execNopAct core job s
  | .passAct core job ev => Sys2Proof.Machine.execPassAct core job ev s
  | .writebackAct core job ev => Sys2Proof.Machine.execWritebackAct core job ev s
  | .vectorAct core job vreg ev => Sys2Proof.Machine.execVectorAct core job vreg ev s
  | .copyAct core job ev => Sys2Proof.Machine.execCopyAct core job ev s
  | .signalAct core job ev => Sys2Proof.Machine.execSignalAct core job ev s
  | .waitAct core job => Sys2Proof.Machine.execWaitAct core job s
  | .waitComplete core job => Sys2Proof.Machine.execWaitComplete core job s
  | .signalArrival n => Sys2Proof.Machine.execSignalArrival n s
  | .semTimeout core job => Sys2Proof.Machine.execSemTimeout core job s
  | .schedSlip core => Sys2Proof.Machine.execSchedSlip core s
  | .nocSlip die => Sys2Proof.Machine.execNocSlip die s
  | .reloadToken core ev => Sys2Proof.Machine.execReloadToken core ev s
  | .washLoad core ev => Sys2Proof.Machine.execWashLoad core ev s
  | .shadowFill core ev => Sys2Proof.Machine.execShadowFill core ev s
  | .passSlot core ev => Sys2Proof.Machine.execPassSlot core ev s
  | .attentionPrefill core job ev => Sys2Proof.Machine.execAttentionPrefill core job ev s
  | .attentionDecode core job ev => Sys2Proof.Machine.execAttentionDecode core job ev s
  | .partialMerge core job ev => Sys2Proof.Machine.execPartialMerge core job ev s
  | .cometChunk core job ev => Sys2Proof.Machine.execCometChunk core job ev s
  | .fp64Slicing core job ev => Sys2Proof.Machine.execFp64Slicing core job ev s
  | .fp64Recombination core job ev => Sys2Proof.Machine.execFp64Recombination core job ev s
  | .convolutionFeed core job ev => Sys2Proof.Machine.execConvolutionFeed core job ev s
  | .pooling core job ev => Sys2Proof.Machine.execPooling core job ev s
  | .quillLayer core job ev => Sys2Proof.Machine.execQuillLayer core job ev s
  | .coreHalt acc core halt => Sys2Proof.Machine.execCoreHalt acc core halt s
  | .coreStep acc core => Sys2Proof.Machine.execCoreStep acc core s
  | .cntClr acc die page => Sys2Proof.Machine.execCntClr acc die page s
  | .activate acc job rec => Sys2Proof.Machine.execActivate acc job rec s
  | .destroy acc job => Sys2Proof.Machine.execDestroy acc job s
  | .bind acc job sess => Sys2Proof.Machine.execBind acc job sess s
  | .unbind acc job sess => Sys2Proof.Machine.execUnbind acc job sess s
  | .sqErrClear acc job => Sys2Proof.Machine.execSqErrClear acc job s
  | .declarationWrite acc job reg value => Sys2Proof.Machine.execDeclarationWrite acc job reg value s
  | .prefetchListSet acc job value => Sys2Proof.Machine.execPrefetchListSet acc job value s
  | .prefetchEntryIssue md job idx ev => Sys2Proof.Machine.execPrefetchEntryIssue md job idx ev s
  | .prefetchEntryDone md job idx ev => Sys2Proof.Machine.execPrefetchEntryDone md job idx ev s
  | .pendingReadResume core job => Sys2Proof.Machine.execPendingReadResume core job s
  | .swapOutStart sid => Sys2Proof.Machine.execSwapOutStart sid s
  | .swapTransferEnd sid ev => Sys2Proof.Machine.execSwapTransferEnd sid ev s
  | .install acc ev => Sys2Proof.Machine.execInstall acc ev s
  | .erase acc => Sys2Proof.Machine.execErase acc s
  | .pcieAdopt acc job => Sys2Proof.Machine.execPcieAdopt acc job s
  | .release acc => Sys2Proof.Machine.execRelease acc s
  | .mgmtClaim acc => Sys2Proof.Machine.execMgmtClaim acc s
  | .pcieVfJobs acc n value => Sys2Proof.Machine.execPcieVfJobs acc n value s
  | .bootStage acc => Sys2Proof.Machine.execBootStage acc s
  | .bootStageEnd result version svn => Sys2Proof.Machine.execBootStageEnd result version svn s
  | .bootDiscard acc => Sys2Proof.Machine.execBootDiscard acc s
  | .bootActivate acc => Sys2Proof.Machine.execBootActivate acc s
  | .activationWindowEnd digestOk => Sys2Proof.Machine.execActivationWindowEnd digestOk s
  | .bootConfirm acc => Sys2Proof.Machine.execBootConfirm acc s
  | .devReset acc => Sys2Proof.Machine.execDevReset acc s
  | .deviceReset => Sys2Proof.Machine.execDeviceReset s
  | .testEnter acc => Sys2Proof.Machine.execTestEnter acc s
  | .testLeave acc => Sys2Proof.Machine.execTestLeave acc s
  | .recover acc => Sys2Proof.Machine.execRecover acc s
  | .dieReset acc die => Sys2Proof.Machine.execDieReset acc die s
  | .dieRstTimeout die => Sys2Proof.Machine.execDieRstTimeout die s
  | .blockReset acc die page => Sys2Proof.Machine.execBlockReset acc die page s
  | .pwrReq acc die on => Sys2Proof.Machine.execPwrReq acc die on s
  | .dieWake die => Sys2Proof.Machine.execDieWake die s
  | .inkwellModeWrite acc md cache => Sys2Proof.Machine.execInkwellModeWrite acc md cache s
  | .inkwellModeChangeEnd md ev => Sys2Proof.Machine.execInkwellModeChangeEnd md ev s
  | .lockReq acc => Sys2Proof.Machine.execLockReq acc s
  | .pllLockHeld => Sys2Proof.Machine.execPllLockHeld s
  | .orbStart acc => Sys2Proof.Machine.execOrbStart acc s
  | .runOrbit acc => Sys2Proof.Machine.execRunOrbit acc s
  | .disband acc => Sys2Proof.Machine.execDisband acc s
  | .epochBoundary => Sys2Proof.Machine.execEpochBoundary s
  | .hbMiss => Sys2Proof.Machine.execHbMiss s
  | .orbitLockLost cause => Sys2Proof.Machine.execOrbitLockLost cause s
  | .calReq acc port => Sys2Proof.Machine.execCalReq acc port s
  | .retrain acc port => Sys2Proof.Machine.execRetrain acc port s
  | .handleOpen acc => Sys2Proof.Machine.execHandleOpen acc s
  | .handleFree acc => Sys2Proof.Machine.execHandleFree acc s
  | .mailboxStart acc value => Sys2Proof.Machine.execMailboxStart acc value s
  | .remoteAtomic acc value ev => Sys2Proof.Machine.execRemoteAtomic acc value ev s
  | .timeStep acc value => Sys2Proof.Machine.execTimeStep acc value s
  | .fltInject acc die page src => Sys2Proof.Machine.execFltInject acc die page src s
  | .fltStatClear acc die page value => Sys2Proof.Machine.execFltStatClear acc die page value s
  | .irqPendClear acc => Sys2Proof.Machine.execIrqPendClear acc s
  | .fltagLogRdWrite acc value => Sys2Proof.Machine.execFltagLogRdWrite acc value s
  | .orgW0Read acc => Sys2Proof.Machine.execOrgW0Read acc s
  | .loReadLatch acc off => Sys2Proof.Machine.execLoReadLatch acc off s
  | .registerWrite acc off be value => Sys2Proof.Machine.execRegisterWrite acc off be value s
  | .bar2Read acc off len ev => Sys2Proof.Machine.execBar2Read acc off len ev s
  | .bar2Write acc off bytes ev => Sys2Proof.Machine.execBar2Write acc off bytes ev s
  | .perstAssert port => Sys2Proof.Machine.execPerstAssert port s
  | .perstDeassert port => Sys2Proof.Machine.execPerstDeassert port s
  | .hostLost port => Sys2Proof.Machine.execHostLost port s
  | .flr acc => Sys2Proof.Machine.execFlr acc s
  | .msixUnmask acc vec => Sys2Proof.Machine.execMsixUnmask acc vec s
  | .cplTimeout port addr => Sys2Proof.Machine.execCplTimeout port addr s
  | .spdmRequest port protocol len request => Sys2Proof.Machine.execSpdmRequest port protocol len request s
  | .doeAbort port => Sys2Proof.Machine.execDoeAbort port s
  | .linkEstablishment port keyGroup peerDid peerPort serial nonce confirm => Sys2Proof.Machine.execLinkEstablishment port keyGroup peerDid peerPort serial nonce confirm s
  | .linkFrameRx port frame => Sys2Proof.Machine.execLinkFrameRx port frame s
  | .replayTimeout port => Sys2Proof.Machine.execReplayTimeout port s
  | .linkRetrain port => Sys2Proof.Machine.execLinkRetrain port s
  | .linkDown port => Sys2Proof.Machine.execLinkDown port s
  | .rekey port => Sys2Proof.Machine.execRekey port s
  | .fixedLatencyRelease port lateAt => Sys2Proof.Machine.execFixedLatencyRelease port lateAt s
  | .forward port pkt ev => Sys2Proof.Machine.execForward port pkt ev s
  | .put port pkt ev => Sys2Proof.Machine.execPut port pkt ev s
  | .putAck port pkt => Sys2Proof.Machine.execPutAck port pkt s
  | .getReq port pkt ev => Sys2Proof.Machine.execGetReq port pkt ev s
  | .getResp port pkt => Sys2Proof.Machine.execGetResp port pkt s
  | .atomic port pkt ev => Sys2Proof.Machine.execAtomic port pkt ev s
  | .atomicResp port pkt => Sys2Proof.Machine.execAtomicResp port pkt s
  | .nack port pkt => Sys2Proof.Machine.execNack port pkt s
  | .requestTimeout tag => Sys2Proof.Machine.execRequestTimeout tag s
  | .orbitData port pkt => Sys2Proof.Machine.execOrbitData port pkt s
  | .orbitSignal port pkt => Sys2Proof.Machine.execOrbitSignal port pkt s
  | .cal port pkt => Sys2Proof.Machine.execCal port pkt s
  | .calEcho port pkt rtt => Sys2Proof.Machine.execCalEcho port pkt rtt s
  | .startRx port pkt late => Sys2Proof.Machine.execStartRx port pkt late s
  | .heartbeat port pkt => Sys2Proof.Machine.execHeartbeat port pkt s
  | .haltRx port pkt => Sys2Proof.Machine.execHaltRx port pkt s
  | .mgmtRd port pkt => Sys2Proof.Machine.execMgmtRd port pkt s
  | .mgmtWr port pkt => Sys2Proof.Machine.execMgmtWr port pkt s
  | .mgmtResp port pkt => Sys2Proof.Machine.execMgmtResp port pkt s
  | .faultReport port pkt => Sys2Proof.Machine.execFaultReport port pkt s
  | .ptpSync port stamp domain offset => Sys2Proof.Machine.execPtpSync port stamp domain offset s
  | .ptpPdelayReq port stamp domain request => Sys2Proof.Machine.execPtpPdelayReq port stamp domain request s
  | .ptpPdelayResp port stamp domain delay => Sys2Proof.Machine.execPtpPdelayResp port stamp domain delay s
  | .ptpAnnounce port stamp domain => Sys2Proof.Machine.execPtpAnnounce port stamp domain s
  | .ptpDiscard port stamp domain msgType => Sys2Proof.Machine.execPtpDiscard port stamp domain msgType s
  | .ptpInterval port kind => Sys2Proof.Machine.execPtpInterval port kind s
  | .timeSyncLost => Sys2Proof.Machine.execTimeSyncLost s
  | .ppsEdge => Sys2Proof.Machine.execPpsEdge s
  | .timePpsLost => Sys2Proof.Machine.execTimePpsLost s
  | .timeRefLost => Sys2Proof.Machine.execTimeRefLost s
  | .gddrTempRead ch reading => Sys2Proof.Machine.execGddrTempRead ch reading s
  | .scrub ch result => Sys2Proof.Machine.execScrub ch result s
  | .wcbWrite md line mask bytes ev => Sys2Proof.Machine.execWcbWrite md line mask bytes ev s
  | .wcbFlushAge md line ev => Sys2Proof.Machine.execWcbFlushAge md line ev s
  | .wcbFullWait md ev => Sys2Proof.Machine.execWcbFullWait md ev s
  | .readDisturbRelocation sd blk => Sys2Proof.Machine.execReadDisturbRelocation sd blk s
  | .wearLeveling sd src dst => Sys2Proof.Machine.execWearLeveling sd src dst s
  | .nandOperationEnd sd op ok => Sys2Proof.Machine.execNandOperationEnd sd op ok s
  | .onfiTimeout ch kind op => Sys2Proof.Machine.execOnfiTimeout ch kind op s
  | .powerLoss => Sys2Proof.Machine.execPowerLoss s
  | .powerOnReset byModRst strap slotA slotB fuseOk => Sys2Proof.Machine.execPowerOnReset byModRst strap slotA slotB fuseOk s
  | .modRstNAssert => Sys2Proof.Machine.execModRstNAssert s
  | .bootReady clean => Sys2Proof.Machine.execBootReady clean s
  | .pwrInOv => Sys2Proof.Machine.execPwrInOv s
  | .pmbusPoll vin iin rails => Sys2Proof.Machine.execPmbusPoll vin iin rails s
  | .powerEval watts => Sys2Proof.Machine.execPowerEval watts s
  | .dieTempRead temps => Sys2Proof.Machine.execDieTempRead temps s
  | .fltagReport die ev => Sys2Proof.Machine.execFltagReport die ev s
  | .collectorPoll answered => Sys2Proof.Machine.execCollectorPoll answered s
  | .originClose entry ev => Sys2Proof.Machine.execOriginClose entry ev s
  | .cpWatchdog hc cp => Sys2Proof.Machine.execCpWatchdog hc cp s
  | .portSupplyOvercurrent port => Sys2Proof.Machine.execPortSupplyOvercurrent port s
  | .mgmtBusRead dev off len => Sys2Proof.Machine.execMgmtBusRead dev off len s
  | .jtagAccess req => Sys2Proof.Machine.execJtagAccess req s
  | .actionCompletion core job act ev => Sys2Proof.Machine.execActionCompletion core job act ev s
  | .dieResetEnd die => Sys2Proof.Machine.execDieResetEnd die s
  | .bootTrainFail ch => Sys2Proof.Machine.execBootTrainFail ch s
  | .powerLossSequenceEnd above46 => Sys2Proof.Machine.execPowerLossSequenceEnd above46 s
  | .ref10mInRestored => Sys2Proof.Machine.execRef10mInRestored s
  | .pcieLinkDown port => Sys2Proof.Machine.execPcieLinkDown port s
  | .pcieLinkUp port speed width flit => Sys2Proof.Machine.execPcieLinkUp port speed width flit s

end Sys2Proof.Machine
end

