-- ==== Sys2Proof/Safety.lean ====
section
/-! DEFINITION. What counts as a safe run, and the words that claims use: commands that complete, what a command leaves as
it is, and the invariants of the module. -/

namespace Sys2Proof.Machine
open Sys2Proof

/-! ### Outcomes -/

/-- A step that neither faults nor is refused. -/
def stepSafe (s : State) : Prop := ∃ t, step s = .next t

/-- The command completes: exec answers a next state with the same queue, whose module satisfies `P`. -/
def Completes (c : Instr) (s : State) (P : Dev → Prop) : Prop :=
  ∃ t, exec c s = .next t ∧ t.pending = s.pending ∧ P t.dev

/-- The module is not held in reset (15 R476; 17 R510). -/
def live (s : State) : Prop := held s.dev = false

/-- A register write of this accessor to this offset is performed, and deciding so changes nothing (12 R389, R399, R403;
16 R495, R496). -/
def Performed (d : Dev) (a : Acc) (off : Nat) : Prop := ∃ r, accWrite d a off = (d, some r)

/-! ### Frames: what a command leaves as it is -/

/-- Only register words may differ. -/
structure RegSide (d t : Dev) : Prop where
  now : t.now = d.now
  freeCtr : t.freeCtr = d.freeCtr
  latch : t.latch = d.latch
  cores : t.cores = d.cores
  sigs : t.sigs = d.sigs
  flits : t.flits = d.flits
  net : t.ports = d.ports
  mem : t.mem = d.mem
  qm : t.qm = d.qm
  ext : t.ext = d.ext
  fab : t.fab = d.fab
  orb : t.orb = d.orb
  tim : t.tim = d.tim
  pcieA : t.pcieA = d.pcieA
  pcieB : t.pcieB = d.pcieB
  mgmtPortB : t.mgmtPortB = d.mgmtPortB
  sec : t.sec = d.sec
  flt : t.flt = d.flt
  state : t.state = d.state
  factoryTest : t.factoryTest = d.factoryTest
  powerLost : t.powerLost = d.powerLost
  modRst : t.modRst = d.modRst
  pwr : t.pwr = d.pwr
  boot : t.boot = d.boot
  rst : t.rst = d.rst
  out : t.out = d.out

/-- Only what latching a fault source may change differs: register words, reports on their way, the origin table, a requested
reset, and fault reports sent on the Toruf ports (14 R439-R462). The package log and the fabric's tables stay. -/
structure FaultSide (d t : Dev) : Prop where
  now : t.now = d.now
  freeCtr : t.freeCtr = d.freeCtr
  latch : t.latch = d.latch
  cores : t.cores = d.cores
  sigs : t.sigs = d.sigs
  flits : t.flits = d.flits
  net : t.ports = d.ports
  mem : t.mem = d.mem
  qm : t.qm = d.qm
  ext : t.ext = d.ext
  orb : t.orb = d.orb
  tim : t.tim = d.tim
  pcieA : t.pcieA = d.pcieA
  pcieB : t.pcieB = d.pcieB
  mgmtPortB : t.mgmtPortB = d.mgmtPortB
  sec : t.sec = d.sec
  state : t.state = d.state
  factoryTest : t.factoryTest = d.factoryTest
  powerLost : t.powerLost = d.powerLost
  modRst : t.modRst = d.modRst
  pwr : t.pwr = d.pwr
  boot : t.boot = d.boot
  ports : t.fab = { d.fab with ports := t.fab.ports }
  log : t.flt.log = d.flt.log
  logWr : t.flt.logWr = d.flt.logWr
  logRd : t.flt.logRd = d.flt.logRd
  irqPend : t.flt.irqPend = d.flt.irqPend
  missed : t.flt.missed = d.flt.missed
  lost : t.flt.lost = d.flt.lost

/-- Only what sending a packet may change differs: the ports, their counters, and what the module drives outwards. -/
structure SendSide (d t : Dev) : Prop where
  now : t.now = d.now
  freeCtr : t.freeCtr = d.freeCtr
  latch : t.latch = d.latch
  cores : t.cores = d.cores
  sigs : t.sigs = d.sigs
  flits : t.flits = d.flits
  net : t.ports = d.ports
  mem : t.mem = d.mem
  qm : t.qm = d.qm
  ext : t.ext = d.ext
  orb : t.orb = d.orb
  tim : t.tim = d.tim
  pcieA : t.pcieA = d.pcieA
  pcieB : t.pcieB = d.pcieB
  mgmtPortB : t.mgmtPortB = d.mgmtPortB
  sec : t.sec = d.sec
  flt : t.flt = d.flt
  state : t.state = d.state
  factoryTest : t.factoryTest = d.factoryTest
  powerLost : t.powerLost = d.powerLost
  modRst : t.modRst = d.modRst
  pwr : t.pwr = d.pwr
  boot : t.boot = d.boot
  rst : t.rst = d.rst
  ports : t.fab = { d.fab with ports := t.fab.ports }

/-- Only the queue managers' tables may differ. -/
structure QmSide (d t : Dev) : Prop where
  now : t.now = d.now
  freeCtr : t.freeCtr = d.freeCtr
  regs : t.regs = d.regs
  latch : t.latch = d.latch
  cores : t.cores = d.cores
  sigs : t.sigs = d.sigs
  flits : t.flits = d.flits
  net : t.ports = d.ports
  mem : t.mem = d.mem
  ext : t.ext = d.ext
  fab : t.fab = d.fab
  orb : t.orb = d.orb
  tim : t.tim = d.tim
  pcieA : t.pcieA = d.pcieA
  pcieB : t.pcieB = d.pcieB
  mgmtPortB : t.mgmtPortB = d.mgmtPortB
  sec : t.sec = d.sec
  flt : t.flt = d.flt
  state : t.state = d.state
  factoryTest : t.factoryTest = d.factoryTest
  powerLost : t.powerLost = d.powerLost
  modRst : t.modRst = d.modRst
  pwr : t.pwr = d.pwr
  boot : t.boot = d.boot
  rst : t.rst = d.rst
  out : t.out = d.out

/-! ### Canonical tables -/

/-- The register file is in its canonical form. -/
def regsSorted (d : Dev) : Prop := SMap.sorted d.regs = true

/-- Every table that the claims read by key is in its canonical form. -/
structure TablesSorted (d : Dev) : Prop where
  regs : SMap.sorted d.regs = true
  cores : SMap.sorted d.cores = true
  sems : ∀ e ∈ d.cores, SMap.sorted e.2.sems = true
  shadow : ∀ e ∈ d.cores, SMap.sorted e.2.arr.shadow = true
  full : ∀ e ∈ d.cores, SMap.sorted e.2.arr.full = true
  objs : SMap.sorted d.mem.objs = true
  roots : SMap.sorted d.mem.roots = true
  marks : SMap.sorted d.mem.marks = true
  jobs : SMap.sorted d.qm.jobs = true
  cmds : SMap.sorted d.qm.cmds = true
  sess : SMap.sorted d.qm.sess = true
  pst : SMap.sorted d.qm.pst = true
  slots : SMap.sorted d.qm.slots = true
  wcb : SMap.sorted d.ext.wcb = true
  wcbHeld : SMap.sorted d.ext.wcbHeld = true
  inks : SMap.sorted d.ext.inks = true
  ftl : SMap.sorted d.ext.ftl = true
  hdl : SMap.sorted d.fab.hdl = true
  reqs : SMap.sorted d.fab.reqs = true
  ports : SMap.sorted d.fab.ports = true
  keys : SMap.sorted d.sec.keys = true
  org : SMap.sorted d.flt.org = true
  net : SMap.sorted d.ports = true
  retained : SMap.sorted d.pwr.retained = true
  waking : SMap.sorted d.pwr.waking = true
  resetting : SMap.sorted d.pwr.resetting = true
  crit : SMap.sorted d.pwr.crit = true
  vfA : SMap.sorted d.pcieA.vfJobs = true
  vfB : SMap.sorted d.pcieB.vfJobs = true
  pendA : SMap.sorted d.pcieA.pendingVec = true
  pendB : SMap.sorted d.pcieB.pendingVec = true

/-! ### Invariants -/

/-- The package log holds at most 256 unread records (14 R454, R455). -/
def logBounded (s : State) : Prop := s.dev.flt.log.length ≤ 256

/-- The byte memory is in its canonical form. -/
def memCanonical (s : State) : Prop := Memory.wf s.dev.mem.bytes = true

/-- The device is in the orbit state LOST (11 R363). -/
def orbitLost (s : State) : Prop := s.dev.orb.state = .lost

/-! ### Commands on the way -/

/-- Nothing is under way for a command yet: it holds and has made nothing, and nothing runs or waits for it. -/
structure Untouched (d : Dev) (uid : Nat) (c : Cmd) : Prop where
  own : c = { c with coresLeft := [], pinP := [], pinS := [], held := [], snap := [], gens := [], newCopies := [], newPages := [],
                     newSlots := [], upds := [], t4left := 0, swaps := [], fenceUids := [], flushLeft := [], committed := false }
  idle : d.cores.all (fun e => e.2.ctxs.all (fun x => x.2.uid != uid)) = true
  pres : d.qm.pres.all (fun p => p.uid != uid) = true
  reqs : waitsReq d uid none = false

/-- A command that is waiting and may start now as one of an opcode: its queue lets it start and its job's save is not
lost (10 R308, R311, R330). Nothing is yet under way for it. -/
structure MayStart (d : Dev) (uid op : Nat) (c : Cmd) : Prop where
  listed : cmd d uid = some c
  waiting : c.phase = .waiting
  opcode : dOpcode c.desc = op
  queue : queueReady d uid c = true
  saved : (job d c.job).lost = false
  fresh : Untouched d uid c

/-- The list of a COPY_TILES list operation lies in a scratchpad of the command's job, readable now, and has the entries `es`
(10 R309; 08 R244, R256, R259). -/
structure ListReady (d : Dev) (c : Cmd) (n o : Nat) (es : List Nat) : Prop where
  src : decodeAddr (dBytes c.desc 16 8) = .t0 n o
  aligned : o % 4096 = 0
  own : banksOk d c.job n o (8 * dBytes c.desc 32 4) = true
  plain : ∀ k ∈ granRange n o (8 * dBytes c.desc 32 4), isPending d k = false ∧ sealed d k = false ∧ poisoned d k = false
  entries : es = (List.range (dBytes c.desc 32 4)).map (fun i => numT0 d n (o + 8 * i) 8)
/-- A list operation once it has read its list: it names the sessions of its entries (10 R304). -/
def withList (c : Cmd) (es : List Nat) : Cmd := { c with sess := es.map (fun e => bitsOf e 15 0) }

/-- Nothing moves in the module by itself: no flit, no word that waits for its release, no access that waits for a prefetch,
no program and no pass. -/
structure Quiet (d : Dev) : Prop where
  flits : d.flits = []
  ports : d.ports = []
  cores : ∀ e ∈ d.cores, e.2.ctxs = [] ∧ e.2.arr.flight = []
  crossing : ∀ e ∈ d.fab.ports, e.2.release = []
  accesses : d.mem.waiting = []

/-- The module after a command's work is done: it has requested the commit token, and nothing else has changed but the
command's own record `c` (10 R317). -/
def requested (d : Dev) (uid : Nat) (c : Cmd) : Dev :=
  { d with qm := { d.qm with cmds := SMap.insert d.qm.cmds uid { c with phase := .worked, reqAt := d.now }
                             commitQ := d.qm.commitQ ++ [uid] } }

/-- The next action of a context may issue, is of ATYPE `typ`, and nothing holds it: no operand is PENDING, and the issue
gate is open (04 R107, R108, R127; 15 R472). -/
structure MayIssue (d : Dev) (n j typ : Nat) (x : Ctx) (it : Item) : Prop where
  head : canIssue d n j = some (x, it)
  kind : aType (actOf x.image it) = typ
  free : x.heldFrom = none
  reads : (readGrans d n j x it).any (isPending d) = false
  writes : (writeGrans d n j x it).any (isPending d) = false
  gate : gated d n = false

/-- A context goes on past the action at its head, which issued in cycle `now`. -/
structure Advanced (now : Nat) (x x' : Ctx) : Prop where
  uid : x'.uid = x.uid
  todo : x'.todo <:+ x.todo.tail
  next : now < x'.readyAt
  wait : x'.waitFrom = none
  held : x'.heldFrom = none

/-- Only core n, its counters and the progress of its command may differ: no memory, no other core. -/
structure SeqSide (d t : Dev) (n : Nat) : Prop where
  rest : RegSide { d with cores := t.cores, qm := { d.qm with cmds := t.qm.cmds, commitQ := t.qm.commitQ } } t
  others : ∀ m, m ≠ n → core t m = core d m

/-- The next action of a context is the microprogram `id`, nothing of the context runs before it, and nothing holds it:
none of the granules it reads or writes is PENDING, and the issue gate is open. -/
structure MayRunMicro (d : Dev) (n j id : Nat) (x : Ctx) (it : Item) (gr : List Nat × List Nat) : Prop where
  head : canIssue d n j = some (x, it)
  kind : aType (actOf x.image it) = 7
  micro : aMicro (actOf x.image it) = id
  alone : x.running = []
  free : x.heldFrom = none
  reads : gr.1.any (isPending d) = false
  writes : gr.2.any (isPending d) = false
  gate : gated d n = false

/-! ### Packets -/

/-- A packet goes out of a port at once: nothing waits there, and its channel holds the credits (11 R341, R342). -/
structure MaySend (d : Dev) (port : Nat) (p : Packet) : Prop where
  empty : (fabPort d port).queued = []
  credit : pktUnits p ≤ creditOf (fabPort d port) p.vc
/-- A packet as it leaves: stamped on the ORBIT and TIME channels (11 R366). -/
def stamped (d : Dev) (p : Packet) : Packet := if p.vc = 0 || p.vc = 3 then { p with stamp := stampNow d } else p
/-- The packet has left by the port, and nothing else has left the module. -/
def Sent (d t : Dev) (port : Nat) (p : Packet) : Prop := t.out = d.out ++ [.packet port (stamped d p)]
/-- A word that has arrived on a port waits for its slot behind the others, and nothing else has changed (01 R27, R29). -/
def Waits (d t : Dev) (port stamp : Nat) (l : RelLoad) : Prop :=
  (fabPort t port).release = (fabPort d port).release ++ [⟨l, slotOf d port stamp, cycNow d⟩] ∧
  t = { d with fab := { d.fab with ports := t.fab.ports } }
/-- The word at the head of a port's crossing is released in this cycle when it becomes available at `lateAt` (01 R28). -/
structure Releases (d : Dev) (port lateAt : Nat) (w : RelWord) (r : List RelWord) : Prop where
  head : (fabPort d port).release = w :: r
  now : cycNow d = max w.slot (max w.writtenAt (min lateAt (w.writtenAt + 3)))

/-! ### Microprograms that run to their end -/

/-- Ranges that an engine may read now: in the job's banks, no granule poisoned, and none sealed unless the engine may read
sealed data (03 R96; 08 R259, R262). -/
def Readable (d : Dev) (n j : Nat) (sealOk : Bool) (rs : List (Int × Nat)) : Prop :=
  rangesOwned d j n rs = true ∧ ∀ g ∈ rangesGrans n rs, poisoned d g = false ∧ (sealOk = true ∨ sealed d g = false)
/-- Granules that a command may read as it sees them. -/
def Legible (d : Dev) (uid : Nat) (ks : List Nat) : Prop := ∀ k ∈ ks, viewSealed d uid k = false ∧ viewPoison d uid k = false

/-- The action at the head is on its engine and the context has moved on; no other core, no job and no pin has changed. -/
def Ran (d t : Dev) (n j : Nat) (x : Ctx) (it : Item) : Prop :=
  (∃ x' r, ctxOf t n j = some x' ∧ Advanced d.now x x' ∧ r ∈ x'.running ∧ r.item = it ∧ r.id = actId x n it ∧
    r.started = true) ∧
  (∀ m, m ≠ n → core t m = core d m) ∧ t.qm.jobs = d.qm.jobs ∧ t.out = d.out

/-- The control block of an attention or comet action. -/
def attBlock (d : Dev) (n : Nat) (a : ActionD) : List Nat := ctlWords d n (bitsOf (aw a 1) 25 0)

/-- The checks of an attention action that appends nothing pass, and its operands, pages and masks can be read (05 R142,
R146, R167). -/
structure AttReady (d : Dev) (n j : Nat) (decode : Bool) (x : Ctx) (it : Item) (c : Cmd) (a : ActionD)
    (w ss : List Nat) (pc : Nat) : Prop where
  words : attWordsOk a = true
  stats : acbFlag w 5 = true → opWordOk (aw a 4) = true
  block : acbOk d j decode w = true
  noAppend : acbAppend w = false
  own : rangesOwned d j n (attWrites pc decode x.image it w ++ attWorkRange a) = true
  reads : Readable d n j false (attCtl a w ++ attReads pc decode x.image it w)
  sessions : sessOk d c ss = true
  pages : ∀ s ∈ ss, ∀ e ∈ (snapOf c (listKey w s)).ents,
    (pst d e.pid).poison = false ∧ ∀ k ∈ pageKeys d j e.pid, viewPoison d x.uid k = false
  masks : ∀ m ∈ maskBytes w (attRows d n decode x.image it w c ss (poolD pc)),
    maskFault d x.uid c m = none ∧ maskPending d m = false

/-- The checks of a chunk action pass, its operands can be read, and every stream has a slot that is resident (06 R182, R194,
R201, R202). -/
structure CometReady (d : Dev) (n j : Nat) (x : Ctx) (it : Item) (c : Cmd) (a : ActionD) (w ss : List Nat)
    (cd : CometDecl) : Prop where
  words : ccWordsOk a = true
  mark : ccMarks w = true → opWordOk (aw a 5) = true
  block : ccOk x.image n cd w = true
  own : rangesOwned d j n (cometWrites a cd x.image it w ++ arenaRange cd) = true
  reads : Readable d n j false (cometCtl a cd x.image it w)
  tables : Readable d n j true (cometTabs cd w)
  modes : ∀ i < ccCount w * cdModes cd, modeOk (readMode d n (bitsOf (cw w 4) 25 0 + i * 24)) = true
  marks : ∀ m < ccNs w, ∀ v,
    markOf d n (opAddr x.image it (aw a 5)).toNat w m = some v → v < cdL cd
  sessions : sessOk d c ss = true
  slots : ∀ s ∈ ss, tailClash d x.uid s (ccLayer w) = false ∧
    ∃ k, slotFor d c s (ccLayer w) = some k ∧ (slot d k).state = .resident ∧
      (slot d k).poison = false ∧ (ccUpdate w = true → (slot d k).refcnt ≤ 1) ∧
      ((slot d k).zero = true ∨ Readable d n j true
        [(((halfOff d (slot d k) (slot d k).sel + ccFirst w * 512 : Nat) : Int), ccCount w * 512)])

/-- What a slicing action writes: its digits and its exponents. -/
def sliceWrites (im : Image) (it : Item) (a : ActionD) : List (Int × Nat) :=
  [(opAddr im it (aw a 2), im.slices * ceilDiv (fullK im it) 128 * 16384),
   (opAddr im it (aw a 3), 2 * sliceLines im it ((aw a 4).testBit 0))]
/-- The checks of a slicing action pass (02 R51, R52). -/
structure SliceReady (d : Dev) (n j : Nat) (x : Ctx) (it : Item) (a : ActionD) : Prop where
  sets : 4 ≤ x.image.slices ∧ x.image.slices ≤ 9
  words : ∀ i ∈ [1, 2, 3], opWordOk (aw a i) = true
  mode : aw a 4 ≤ 1
  rest : (a.w.drop 5).any (· != 0) = false
  own : rangesOwned d j n (sliceWrites x.image it a) = true
  reads : Readable d n j true (sliceRanges (opAddr x.image it (aw a 1)) ((aw a 4).testBit 0)
    (sliceLines x.image it ((aw a 4).testBit 0)) (fullK x.image it))
/-- The checks of a recombination pass (02 R54). -/
structure RecombReady (d : Dev) (n j : Nat) (x : Ctx) (it : Item) (a : ActionD) : Prop where
  sets : 4 ≤ x.image.slices ∧ x.image.slices ≤ 9
  words : ∀ i ∈ [1, 2, 3], opWordOk (aw a i) = true
  rest : (a.w.drop 4).any (· != 0) = false
  own : rangesOwned d j n (recombOut x.image it a) = true
  reads : Readable d n j true (recombRanges x.image it a)

/-- The checks of a convolution pass (07 R209). -/
structure ConvReady (d : Dev) (n j : Nat) (x : Ctx) (it : Item) (a : ActionD) (w : List Nat) : Prop where
  words : ∀ i ∈ [1, 2, 4, 6] ++ convExtra w, opWordOk (aw a i) = true
  block : Readable d n j false (cvbRange x.image it a)
  ok : convOk x.image it w = true
  own : rangesOwned d j n (convRegion x.image it a w ++ convOut x.image it a w) = true
  inside : outsideRegion w (rowTaps x.image it w) = false
  input : Readable d n j false (inRanges w (opAddr x.image it (aw a 2)) (opAddr x.image it (aw a 3))
    (rowTaps x.image it w))
  weights : Readable d n j true (convWRanges x.image it a w (rowTaps x.image it w))
/-- The checks of a pooling pass (07 R209, R216). -/
structure PoolReady (d : Dev) (n j : Nat) (x : Ctx) (it : Item) (a : ActionD) (w : List Nat) : Prop where
  words : ∀ i ∈ [1, 2, 3], opWordOk (aw a i) = true
  rest : (a.w.drop 4).any (· != 0) = false
  block : Readable d n j false (cvbRange x.image it a)
  ok : poolOk x.image it w = true
  own : rangesOwned d j n (poolRegion x.image it a w ++ poolOut x.image it a w) = true
  inside : outsideRegion w (rowTaps x.image it w) = false
  input : Readable d n j true (inRanges w (opAddr x.image it (aw a 2)) (poolScale x.image it a w)
    (rowTaps x.image it w))
/-- The checks of a quill action pass, its input can be read, and where it writes nothing is committed, so that no quota
bars it (07 R223, R224; 10 R316). -/
structure QuillReady (d : Dev) (n j : Nat) (x : Ctx) (it : Item) (c : Cmd) (a : ActionD) (w : List Nat) : Prop where
  home : SMap.get? (job d j).place.quill (n / 6) = some (n % 6)
  words : ∀ i ∈ [1, 6], opWordOk (aw a i) = true
  block : Readable d n j false (cvbRange x.image it a)
  ok : quillOk x.image it a w = true
  input : mapOk d c x.uid (quillIn a) (quillInB x.image it w) false = true
  output : mapOk d c x.uid (quillOut a) ((quillPixels it a w).foldl
    (fun m p => max m (quillOutAt x.image it w p + quillOutPb w)) 0) true = true
  weights : Readable d n j true (quillWRanges x.image it a w)
  reads : Legible d x.uid (quillReads x.image it a w)
  room : ∀ k ∈ quillWrites x.image it a w, SMap.has c.gens k = true ∨ rootOf d k = none

/-- The command has ended with a status, and kept its COMMITTED bit. -/
def EndedAs (t : Dev) (uid : Nat) (c : Cmd) (status : Nat) (retry : Bool) : Prop :=
  ∃ c', cmd t uid = some c' ∧ c'.phase = .ended ∧ c'.status = status ∧ c'.retry = retry ∧ c'.committed = c.committed

/-- The command's work is done: it has requested the commit token. -/
def WorkedNow (t : Dev) (uid : Nat) : Prop := (∃ c', cmd t uid = some c' ∧ c'.phase = .worked) ∧ uid ∈ t.qm.commitQ

/-- The bytes of the storage granules outside a list are as before. -/
def GransKept (d t : Dev) (gs : List Nat) : Prop :=
  ∀ a, a / 4096 ∉ gs → memByte t.mem.bytes a = memByte d.mem.bytes a

end Sys2Proof.Machine
end

