-- ==== Sys2Proof/Certificates/Slice0/Obligations.lean ====
section
/-! DEFINITION. The statements for the provers. Each names the rules of the spec that it says; `live` says that the module is
not held in reset, `Completes` that exec answers a next state with the same queue. -/

open Sys2Proof Sys2Proof.Machine

/-- A step at a state with a command in front is that command's meaning on the state with the queue's rest (log 2: the queue is the model's). -/
def Obligations.StepRunsFront : Prop :=
  ∀ (c : Instr) (rest : List Instr) (d : Dev),
    Sys2Proof.Machine.step { pending := c :: rest, dev := d } = Sys2Proof.Machine.exec c { pending := rest, dev := d }

/-- With no command waiting, a step is one ARITH cycle (the model's choice, log 2): the orbit cycle counter counts it (R367); the flits, releases and engines that work by themselves go on; with none of them only the counts and the time counter change. -/
def Obligations.IdleStepCountsACycle : Prop :=
  ∀ s : State, s.pending = [] →
    ∃ t, Sys2Proof.Machine.step s = .next t ∧ t.pending = [] ∧ t.dev.now = s.dev.now + 1 ∧
      (held s.dev = true → t.dev = { s.dev with now := t.dev.now }) ∧
      (live s → t.dev.orb.occ = (s.dev.orb.occ + 1) % 2 ^ 64) ∧
      (Quiet s.dev → t.dev = { s.dev with now := t.dev.now, orb := { s.dev.orb with occ := t.dev.orb.occ },
                                          tim := { s.dev.tim with ns := t.dev.tim.ns, acc := t.dev.tim.acc } })

/-- The queue is first in, first out: a step that answers a next state takes the front command and touches no other (log 2). -/
def Obligations.QueueIsServedInOrder : Prop :=
  ∀ (c : Instr) (rest : List Instr) (d : Dev) (t : State),
    Sys2Proof.Machine.step { pending := c :: rest, dev := d } = .next t → t.pending = rest

/-- Every command whose operands can exist on a bus or link of the module (11 R343, R345; 12 R385) has a next state; any other never arrives, so that nothing happens (log 15). -/
def Obligations.WellFormedCommandsComplete : Prop :=
  ∀ (c : Instr) (s : State),
    (∃ t, Sys2Proof.Machine.exec c s = .next t ∧ t.pending = s.pending) ∧
    (c.wellFormed = false → Sys2Proof.Machine.exec c s = .next s)

/-- While the module is held in reset (15 R476; 17 R510) no host access, packet, engine event or timer changes anything (that JTAG and the management bus still act is R517, R520; log 59). -/
def Obligations.HeldModuleIgnoresCommands : Prop :=
  ∀ (c : Instr) (s : State), held s.dev = true →
    (match c with
     | .powerOnReset .. | .modRstNAssert | .powerLoss | .powerLossSequenceEnd _ | .perstAssert _ | .perstDeassert _
     | .mgmtBusRead .. | .jtagAccess _ => True
     | _ => Sys2Proof.Machine.exec c s = .next s)

/-- The anti-rollback floor of 15 R482 and R487 is kept by every command, resets and power loss included: fuses are only ever programmed upwards. -/
def Obligations.RollbackFloorNeverFalls : Prop :=
  ∀ (n : Nat) (s t : State), n ≤ s.dev.boot.fusedSvn → Sys2Proof.Machine.step s = .next t → n ≤ t.dev.boot.fusedSvn

/-- The package log holds 256 records (14 R454) and discards what finds it full (R455): no command, of any family, makes it longer. -/
def Obligations.PackageLogStaysBounded : Prop :=
  ∀ s t : State, logBounded s → Sys2Proof.Machine.step s = .next t → logBounded t

/-- Equal memories are equal data, whatever wrote them: host writes, transfers, the WCB, swaps, saves, prefetches, microprograms, resets (log 5). -/
def Obligations.MemoryStaysCanonical : Prop :=
  ∀ s t : State, memCanonical s → Sys2Proof.Machine.step s = .next t → memCanonical t

/-- Only DISBAND leaves LOST (11 R363, R374), besides the resets of 15 R476 and R477: no link, timer, packet or job brings a lost device back into the orbit. -/
def Obligations.LostOrbitStaysLost : Prop :=
  ∀ s t : State, orbitLost s → Sys2Proof.Machine.step s = .next t →
    (match s.pending with
     | .disband _ :: _ | .registerWrite .. :: _ | .mgmtWr .. :: _ | .forward .. :: _ | .jtagAccess _ :: _
     | .deviceReset :: _ | .powerOnReset .. :: _ | .modRstNAssert :: _ | .powerLossSequenceEnd _ :: _ => True
     | _ => orbitLost t)

/-- State.reset is the module after power-on reset (15 R477, R484): state BOOT, registers at the values of the register tables (16 R499), volatile tables empty. -/
def Obligations.ResetState : Prop :=
  live State.reset ∧ State.reset.dev.state = .boot ∧ (∀ off, raw State.reset.dev off = (resetWord off).toNat) ∧
    (∀ j, (job State.reset.dev j).state = 0 ∧ (job State.reset.dev j).resident = false) ∧
    (∀ uid, cmd State.reset.dev uid = none) ∧ (∀ oid, obj State.reset.dev oid = none) ∧
    (∀ k, SMap.get? State.reset.dev.sec.keys k = none) ∧ State.reset.dev.orb.state = .none ∧ State.reset.dev.pwr.g = 64 ∧
    State.reset.pending = [] ∧ logBounded State.reset ∧ memCanonical State.reset ∧ ¬ orbitLost State.reset

/-- Register words are 32 bits (16 R490); counters saturate (04 R131); the register file keeps its canonical form. -/
def Obligations.RegisterWordsReadAsWritten : Prop :=
  ∀ (d : Dev) (die page reg v n : Nat), regsSorted d →
    rg (setRg d die page reg v) die page reg = v % 2 ^ 32 ∧
    (∀ off, off ≠ regOff die page reg → raw (setRg d die page reg v) off = raw d off) ∧
    rg (bump d die page reg n) die page reg = min (rg d die page reg + n) (2 ^ 32 - 1) ∧
    regsSorted (setRg d die page reg v) ∧ regsSorted (bump d die page reg n)

/-- A detection sets its FLT_STAT bit (14 R439, R442) and bits stay until software clears them (R440). -/
def Obligations.LatchedFaultShows : Prop :=
  ∀ (d : Dev) (die page src : Nat) (c : Cap), regsSorted d → src < 32 →
    (rg (latch d die page src c) die page 0x020).testBit src = true ∧ FaultSide d (latch d die page src c) ∧
    (∀ off i, off % 4096 = 0x020 → (raw d off).testBit i = true → (raw (latch d die page src c) off).testBit i = true)

/-- The form in which the model holds its tables (log 5, log 49) is kept by every command, so that equal tables are equal data and a written entry reads as written. The statements that read a written entry take this as a premise. -/
def Obligations.TablesStayCanonical : Prop :=
  (∀ s t : State, TablesSorted s.dev → Sys2Proof.Machine.step s = .next t → TablesSorted t.dev) ∧
    TablesSorted State.reset.dev

/-- 10 R306: TAIL and HEAD writes of an active job, and the overrun check. -/
def Obligations.DoorbellsMoveTheQueues : Prop :=
  ∀ (s : State) (acc : Acc) (j : JobId) (q : Fin 3) (v : Word), live s → (job s.dev j.val).state = 1 →
   (bellAllowed s.dev acc j.val = true →
    ((sqOf (job s.dev j.val) q.val).stopped = false → v.toNat % 65536 < sqSize s.dev j.val q.val →
      Completes (.sqDoorbell acc j q v) s (fun t =>
        (sqOf (job t j.val) q.val).tail = v.toNat % 65536 ∧
        t.qm.bells = (if v.toNat % 65536 = (sqOf (job s.dev j.val) q.val).fetch
            then s.dev.qm.bells.filter (fun b => !(b.1 == j.val && b.2.1 == q.val))
          else if s.dev.qm.bells.contains (j.val, q.val, v.toNat % 65536) then s.dev.qm.bells
          else s.dev.qm.bells ++ [(j.val, q.val, v.toNat % 65536)]) ∧
        t = { s.dev with qm := { s.dev.qm with jobs := t.qm.jobs, bells := t.qm.bells } })) ∧
    ((sqOf (job s.dev j.val) q.val).stopped = true →
      Completes (.sqDoorbell acc j q v) s (fun t =>
        (sqOf (job t j.val) q.val).tail = v.toNat % 65536 ∧ (sqOf (job t j.val) q.val).stopped = true ∧
        t = { s.dev with qm := { s.dev.qm with jobs := t.qm.jobs } })) ∧
    (regsSorted s.dev → (sqOf (job s.dev j.val) q.val).stopped = false → sqSize s.dev j.val q.val ≤ v.toNat % 65536 →
      Completes (.sqDoorbell acc j q v) s (fun t =>
        (sqOf (job t j.val) q.val).stopped = true ∧ (job t j.val).sqErr = true ∧
        (rg t (qmDie s.dev j.val) 0x100 0x020).testBit 1 = true)) ∧
    (v.toNat % 65536 < cqSize s.dev j.val →
      Completes (.cqDoorbell acc j v) s (fun t =>
        (job t j.val).cqHead % cqSize s.dev j.val = v.toNat % 65536 ∧ (job s.dev j.val).cqHead ≤ (job t j.val).cqHead ∧
        t = { s.dev with qm := { s.dev.qm with jobs := t.qm.jobs } })) ∧
    (regsSorted s.dev → cqSize s.dev j.val ≤ v.toNat % 65536 →
      Completes (.cqDoorbell acc j v) s (fun t =>
        (rg t (qmDie s.dev j.val) 0x100 0x020).testBit 1 = true ∧ FaultSide s.dev t))) ∧
   (Performed s.dev acc (jobOff acc j.val 0x104) →
      ((job s.dev j.val).sqErr = true → (∀ k : Fin 3, (sqOf (job s.dev j.val) k.val).stopped = false) →
        Completes (.sqErrClear acc j) s (fun t =>
          (job t j.val) = { job s.dev j.val with sqErr := false } ∧
          t = { s.dev with qm := { s.dev.qm with jobs := t.qm.jobs } })) ∧
      ((job s.dev j.val).sqErr = true → SMap.sorted s.dev.qm.jobs = true →
        ∀ k : Fin 3, (sqOf (job s.dev j.val) k.val).stopped = true →
          (sqOf (job s.dev j.val) k.val).tail < sqSize s.dev j.val k.val →
          Completes (.sqErrClear acc j) s (fun t => (sqOf (job t j.val) k.val).stopped = false)) ∧
      ((job s.dev j.val).sqErr = false → Completes (.sqErrClear acc j) s (fun t => t = s.dev)))

/-- 10 R307: descriptors are fetched in ring order, each reserving a completion slot; R309: the opcodes other than RUN_SEGMENT read nothing more at fetch. -/
def Obligations.FetchTakesTheNextDescriptor : Prop :=
  ∀ (s : State) (j : JobId) (q : Fin 3) (bt : Nat) (r : List (Nat × Nat × Nat)), live s →
    s.dev.qm.bells = (j.val, q.val, bt) :: r → mayFetch s.dev j.val q.val = true →
    (∀ w : BitVec 512, descOk w = true → dOpcode w ≠ 0x01 →
      Completes (.descriptorFetch j q (some w) .none) s (fun t =>
        (∃ c, cmd t s.dev.qm.uidCtr = some c ∧ c.job = j.val ∧ c.queue = q.val ∧ c.desc = w ∧ c.phase = .waiting ∧
          c.ringIdx = (sqOf (job s.dev j.val) q.val).fetch ∧
          c.slot = (job s.dev j.val).cqNext % cqSize s.dev j.val ∧ c.committed = false) ∧
        (sqOf (job t j.val) q.val).fetch
          = ((sqOf (job s.dev j.val) q.val).fetch + 1) % sqSize s.dev j.val q.val ∧
        (job t j.val).cqNext = (job s.dev j.val).cqNext + 1 ∧ t.qm.uidCtr = s.dev.qm.uidCtr + 1 ∧
        t = { s.dev with qm := { s.dev.qm with jobs := t.qm.jobs, cmds := t.qm.cmds, bells := t.qm.bells,
                                               uidCtr := t.qm.uidCtr } })) ∧
    (∀ ev, regsSorted s.dev → Completes (.descriptorFetch j q none ev) s (fun t =>
      (sqOf (job t j.val) q.val).stopped = true ∧ (job t j.val).sqErr = true ∧
      (∃ die, (rg t die 0x100 0x020).testBit 1 = true)))

/-- 10 R317, R318: commits are made one at a time in request order; 05 R161, R162 and 06 R199, R201: a version that has moved, or a child that is no longer empty, fails the command. -/
def Obligations.CommitPublishesTheOldestRequest : Prop :=
  ∀ (s : State) (uid ns : Nat) (c : Cmd), live s → TablesSorted s.dev → nextCommit s.dev = some uid → cmd s.dev uid = some c →
    (versionsOk s.dev c = true → forkBarred s.dev c = false → Completes (.commit uid ns) s (fun t =>
      (∃ c', cmd t uid = some c' ∧ c'.phase = .ended ∧ c'.status = 0x00 ∧ c'.committed = true) ∧ uid ∉ t.qm.commitQ)) ∧
    (versionsOk s.dev c = false → c.phase ≠ .ended → Completes (.commit uid ns) s (fun t =>
      (∃ c', cmd t uid = some c' ∧ c'.phase = .ended ∧ c'.status = 0x20 ∧ c'.detail = 1 ∧ c'.committed = c.committed) ∧
      uid ∉ t.qm.commitQ ∧ t.qm.sess = s.dev.qm.sess)) ∧
    (versionsOk s.dev c = true → forkBarred s.dev c = true → c.phase ≠ .ended → Completes (.commit uid ns) s (fun t =>
      (∃ c', cmd t uid = some c' ∧ c'.phase = .ended ∧ c'.status = 0x11 ∧ c'.committed = c.committed) ∧
      uid ∉ t.qm.commitQ ∧ t.qm.sess = s.dev.qm.sess))

/-- 10 R312, R314: the entry goes to the slot reserved at fetch; R313, R331: abandonment after 10 ms (10,500,000 ARITH cycles). -/
def Obligations.CompletionEntryIsWritten : Prop :=
  ∀ (s : State) (uid : Nat) (c : Cmd), live s → TablesSorted s.dev → cmd s.dev uid = some c → c.phase = .ended →
    (nextEntry s.dev c.job = some uid → entryRoom s.dev c = true → Completes (.completionEntry uid) s (fun t =>
      cmd t uid = none ∧ ∃ r, t.out = s.dev.out ++ .pcieWrite (job s.dev c.job).port (rj64 s.dev c.job 0x148 + 32 * c.slot)
        (entryBytes c (job s.dev c.job).seq) :: r)) ∧
    (∀ t0, entryRoom s.dev c = false → (job s.dev c.job).destroyAt = some t0 →
      t0 + 10500000 ≤ s.dev.now → Completes (.cqAbandon uid) s (fun t =>
        cmd t uid = none ∧ ∃ die, (rg t die 0x100 0x020).testBit 3 = true))

/-- 10 R308, R317; 05 R162, R163; 08 R239, R248; 10 R303. What they change takes effect at their commit. -/
def Obligations.CommandsOnTablesRequestTheToken : Prop :=
  ∀ (s : State) (uid : Nat) (c : Cmd), live s →
    (MayStart s.dev uid 0x03 c → boundTo s.dev (dBytes c.desc 8 2) c.job = true →
      boundTo s.dev (dBytes c.desc 10 2) c.job = true → dBytes c.desc 8 2 ≠ dBytes c.desc 10 2 →
      sessEmpty (sess s.dev (dBytes c.desc 10 2)) = true →
      Completes (.forkSession uid) s (fun t => t = requested s.dev uid c)) ∧
    (MayStart s.dev uid 0x04 c → boundTo s.dev (dBytes c.desc 8 2) c.job = true →
      Completes (.freePages uid) s (fun t => t = requested s.dev uid c)) ∧
    (MayStart s.dev uid 0x07 c → isPriv s.dev c.job = true →
      Completes (.setQuota uid) s (fun t => t = requested s.dev uid c)) ∧
    (∀ (n o : Nat) (es : List Nat) (ps : List PEnt), MayStart s.dev uid 0x02 c → dBits c.desc 8 3 0 = 8 →
      ListReady s.dev c n o es → listPages s.dev c.job es = some ps →
      Completes (.pageUnstage uid .none) s (fun t =>
        t = requested s.dev uid { withList c es with swaps := (ps.map (pageRef s.dev)).dedup }))

/-- 10 R303, R304, R313; 08 R240: a failed check ends the command with BAD_DESCRIPTOR (0x11). -/
def Obligations.CommandsWithoutTheirRightsFail : Prop :=
  ∀ (s : State) (uid : Nat) (c : Cmd), live s →
    let ends (i : Instr) : Prop := Completes i s (fun t =>
      (∃ c', cmd t uid = some c' ∧ c'.phase = .ended ∧ c'.status = 0x11 ∧ c'.committed = c.committed) ∧
      t.mem = s.dev.mem ∧ t.qm.jobs = s.dev.qm.jobs ∧ t.qm.sess = s.dev.qm.sess ∧ t.qm.pst = s.dev.qm.pst ∧
      t.qm.slots = s.dev.qm.slots ∧ t.regs = s.dev.regs ∧ t.out = s.dev.out)
    (MayStart s.dev uid 0x07 c → isPriv s.dev c.job = false → ends (.setQuota uid)) ∧
    (∀ ev, MayStart s.dev uid 0x08 c → isPriv s.dev c.job = false → ends (.preempt uid ev)) ∧
    (MayStart s.dev uid 0x04 c → boundTo s.dev (dBytes c.desc 8 2) c.job = false → ends (.freePages uid)) ∧
    (MayStart s.dev uid 0x03 c → boundTo s.dev (dBytes c.desc 8 2) c.job = false → ends (.forkSession uid)) ∧
    (MayStart s.dev uid 0x02 c → dBits c.desc 8 3 0 = 2 → copyFor s.dev uid (cOid c) (cTier c) = none →
      ends (.claim uid)) ∧
    (MayStart s.dev uid 0x02 c → dBits c.desc 8 3 0 = 3 → copyFor s.dev uid (cOid c) (cTier c) = none →
      ends (.evict uid))

/-- 08 R239, R240, R242 to R246, R248. -/
def Obligations.ObjectsAreAllocatedClaimedAndEvicted : Prop :=
  ∀ (s : State) (uid : Nat) (c : Cmd), live s → MayStart s.dev uid 0x02 c → okTier (cTier c) = true →
    c.held.contains (cTier c, cOid c) = false →
    (dBits c.desc 8 3 0 = 1 → obj s.dev (cOid c) = none →
      (∀ e ∈ s.dev.mem.roots, e.1 / 2 ^ 32 ≠ cTier c * 2 ^ 32 + cOid c) → 1 ≤ dBytes c.desc 32 4 → dBytes c.desc 32 4 ≤ 0x10000000 →
      fits (setCmd s.dev uid { c with phase := .running }) c.job (cTier c)
        (if cTier c = 4 && (dBits c.desc 8 31 0).testBit 22 then 2 * dBytes c.desc 32 4 else dBytes c.desc 32 4)
        (dBits c.desc 8 18 16) = true →
      Completes (.alloc uid) s (fun t =>
        (∃ o, obj t (cOid c) = some o ∧ o.size = dBytes c.desc 32 4 ∧ o.creator = c.job ∧ o.newBy = uid ∧
          (copyOf o (cTier c)).present = true ∧ (copyOf o (cTier c)).payer = c.job ∧
          claims (copyOf o (cTier c)) c.job = decide (c.job < 256) ∧ (copyOf o (cTier c)).newBy = uid ∧
          (copyOf o (cTier c)).holds = 1) ∧
        (∃ c', cmd t uid = some c' ∧ c'.phase = .worked ∧ c'.newCopies = c.newCopies ++ [(cTier c, cOid c)]) ∧
        t.qm.commitQ = s.dev.qm.commitQ ++ [uid] ∧ (cTier c ≠ 4 → t.ext = s.dev.ext) ∧
        t = { s.dev with mem := { s.dev.mem with objs := t.mem.objs }, ext := t.ext,
                         qm := { s.dev.qm with cmds := t.qm.cmds, commitQ := t.qm.commitQ } })) ∧
    (∀ (o : Obj) (cp : CopySt), copyFor s.dev uid (cOid c) (cTier c) = some (o, cp) →
      ∀ i ∈ [Instr.claim uid, Instr.evict uid],
        ((i = .claim uid ∧ dBits c.desc 8 3 0 = 2 ∧ mayClaim s.dev o c.job = true) ∨
         (i = .evict uid ∧ dBits c.desc 8 3 0 = 3)) →
        Completes i s (fun t =>
          (∃ o', obj t (cOid c) = some o' ∧ copyOf o' (cTier c) = { cp with holds := cp.holds + 1 }) ∧
          (∃ c', cmd t uid = some c' ∧ c'.phase = .worked ∧ c'.held = c.held ++ [(cTier c, cOid c)]) ∧
          t.qm.commitQ = s.dev.qm.commitQ ++ [uid] ∧
          t = { s.dev with mem := { s.dev.mem with objs := t.mem.objs },
                           qm := { s.dev.qm with cmds := t.qm.cmds, commitQ := t.qm.commitQ } }))

/-- 12 R393, for both kinds of doorbell and both kinds of function; whose job it is, R388 says. -/
def Obligations.DoorbellsCountForOwnJobsOnly : Prop :=
  ∀ (s : State) (acc : Acc) (j : JobId) (q : Fin 3) (v : Word), live s →
    (∀ p, acc = .pf p → (ownJob s.dev p 0 j.val = false ∨ s.dev.state ≠ .ready) →
      Completes (.sqDoorbell acc j q v) s (fun t => t = s.dev) ∧ Completes (.cqDoorbell acc j v) s (fun t => t = s.dev)) ∧
    (∀ p n, acc = .vf p n → (ownJob s.dev p n.val j.val = false ∨ s.dev.state ≠ .ready) →
      Completes (.sqDoorbell acc j q v) s (fun t => t = s.dev) ∧ Completes (.cqDoorbell acc j v) s (fun t => t = s.dev))

/-- 15 R482, R485 to R487 and 13 R413: what each operation of the BOOT page does, and what it leaves (which RESULT a failed ACTIVATE has, and that a busy page ignores operations: log 61). -/
def Obligations.FirmwareIsStagedActivatedConfirmed : Prop :=
  ∀ (s : State) (acc : Acc), live s → regsSorted s.dev →
    let d := s.dev
    let b := s.dev.boot
    let result (t : Dev) : Nat := bitsOf (rg t 60 2 0x104) 15 12
    (bootBusy d = false → Performed d acc offBootCtrl →
      (b.trial = false → 8192 ≤ rg d 60 2 0x110 → Completes (.bootStage acc) s (fun t =>
        t.boot.staging = some (accPort acc) ∧ (stagedImg t.boot).ok = false ∧ t.boot.staged = false ∧
        (b.runs = true → runImg t.boot = runImg b) ∧
        t = { d with boot := { b with slotA := t.boot.slotA, slotB := t.boot.slotB, staging := t.boot.staging, staged := false }
                     sec := { d.sec with pendingBlocks := false } })) ∧
      (b.trial = true → Completes (.bootStage acc) s (fun t =>
        result t = 8 ∧ (rg t 60 2 0x020).testBit 2 = true ∧ FaultSide d t)) ∧
      (b.staged = true → Completes (.bootDiscard acc) s (fun t =>
        result t = 0 ∧ RegSide { d with boot := { b with staged := false }, sec := { d.sec with pendingBlocks := false } } t)) ∧
      ((d.state = .ready ∧ b.staged = true ∧ d.qm.cmds = [] ∧ d.orb.state = .none) →
        Completes (.bootActivate acc) s (fun t =>
          t = { d with boot := { b with window := true }, sec := { d.sec with windowOpen := true } })) ∧
      ((d.state ≠ .ready ∨ b.staged = false ∨ d.qm.cmds ≠ [] ∨ d.orb.state ≠ .none) →
        Completes (.bootActivate acc) s (fun t => result t = 5 ∧ RegSide d t)) ∧
      (b.trial = true → Completes (.bootConfirm acc) s (fun t => result t = 0 ∧
        RegSide { d with boot := { b with trial := false, unconfirmed := false,
                                          fusedSvn := max b.fusedSvn (runImg b).svn } } t))) ∧
    (b.staging.isSome = true → ∀ (v : Word) (n : BitVec 6),
      (b.fusedSvn ≤ n.toNat → Completes (.bootStageEnd 0 v n) s (fun t =>
        result t = 0 ∧ stagedImg t.boot = ⟨true, v.toNat, n.toNat⟩ ∧ (b.runs = true → runImg t.boot = runImg b) ∧
        RegSide { d with boot := { b with slotA := t.boot.slotA, slotB := t.boot.slotB, staging := none, staged := true }
                         sec := { d.sec with pendingBlocks := true } } t)) ∧
      (n.toNat < b.fusedSvn → Completes (.bootStageEnd 0 v n) s (fun t =>
        result t = 2 ∧ (rg t 60 2 0x020).testBit 2 = true ∧ FaultSide { d with boot := { b with staging := none } } t))) ∧
    (b.window = true →
      Completes (.activationWindowEnd true) s (fun t => result t = 0 ∧
        RegSide { d with boot := { b with window := false, staged := false, trial := true, runSlot := !b.runSlot,
                                          pref := !b.runSlot, unconfirmed := true }
                         sec := { newKrel d.sec with keys := [], spdmA := [], spdmB := [], pendingBlocks := false,
                                                     windowOpen := false } } t) ∧
      (d.rst = none → Completes (.activationWindowEnd false) s (fun t =>
        (∃ r, t.rst = some r) ∧ (rg t 60 2 0x020).testBit 3 = true ∧ t.boot.window = false ∧ t.sec.keys = [] ∧
        t.mem = d.mem ∧ t.qm = d.qm)))

/-- 15 R467, R476, R477, R484 and the table "Reset effects"; that a transition is one step is the model's (log 59). -/
def Obligations.DeviceStatesChangeAsCommanded : Prop :=
  ∀ (s : State) (acc : Acc), live s →
    let d := s.dev
    (Performed d acc offDevCtrl →
      (d.state = .ready → noJobs d = true →
        Completes (.testEnter acc) s (fun t => t.state = .test ∧ t.qm = d.qm ∧ t.boot = d.boot ∧ t.orb = d.orb) ∧
        Completes (.recover acc) s (fun t => t.state = .recovery ∧ t.qm = d.qm ∧ t.boot = d.boot ∧ t.orb = d.orb)) ∧
      (d.state ≠ .ready ∨ noJobs d = false →
        Completes (.testEnter acc) s (fun t => t = d) ∧ Completes (.recover acc) s (fun t => t = d)) ∧
      (d.state = .test → Completes (.testLeave acc) s (fun t => t.state = .ready ∧ t.qm = d.qm ∧ t.boot = d.boot)) ∧
      (d.state ≠ .test → Completes (.testLeave acc) s (fun t => t = d)) ∧
      (d.rst = none → Completes (.devReset acc) s (fun t => (∃ r, t.rst = some r ∧ r.kind = 3) ∧ t = { d with rst := t.rst, freeCtr := t.freeCtr })) ∧
      (d.rst ≠ none → Completes (.devReset acc) s (fun t => t = d))) ∧
    (∀ (r : RstReq) (uid : Nat) (c : Cmd), d.rst = some r → d.qm.cmds = [(uid, c)] → c.phase ≠ .ended →
      Completes .deviceReset s (fun t => t.rst = some r ∧ t.state = d.state ∧
        ∃ c', cmd t uid = some c' ∧ c'.phase = .ended ∧ c'.status = 0x70 ∧ c'.retry = true ∧ c'.committed = c.committed)) ∧
    (∀ r : RstReq, d.rst = some r → d.qm.cmds = [] →
      Completes .deviceReset s (fun t => (t.state = .boot ∨ t.state = .recovery) ∧ t.rst = none ∧ t.sec.keys = [] ∧
        t.sec = bootSec { emptySec with seeds := d.sec.seeds, fuseErr := d.sec.fuseErr } ∧ t.qm.jobs = [] ∧ t.qm.sess = [] ∧
        t.qm.pst = [] ∧ t.qm.slots = [] ∧ t.cores = [] ∧ t.orb = noOrbit ∧ t.boot.fusedSvn = d.boot.fusedSvn ∧
        (∀ oid o, obj t oid = some o → o.c1.present = false ∧ o.c2.present = false) ∧
        t.pcieA.linkUp = d.pcieA.linkUp ∧ t.pcieA.vfJobs = d.pcieA.vfJobs ∧ t.pcieA.aps = d.pcieA.aps)) ∧
    (∀ clean, d.state = .boot → d.boot.runs = true → pwrFree d = true → d.powerLost = false →
      Completes (.bootReady clean) s (fun t =>
        t.state = (if d.factoryTest then .test else .ready) ∧ t.boot = d.boot ∧ t.qm.cmds = d.qm.cmds)) ∧
    (∀ ch, regsSorted d → d.state = .boot → d.boot.runs = true → pwrFree d = true →
      Completes (.bootTrainFail ch) s (fun t =>
        t.state = .recovery ∧ (rg t 60 2 0x020).testBit 1 = true ∧ t.boot = d.boot ∧ t.mem = d.mem ∧ t.qm = d.qm))

/-- 09 R289; 15 R476, R477; 17 R510: the power inputs (log 59). -/
def Obligations.ModuleLosesAndRegainsPower : Prop :=
  ∀ s : State,
    let d := s.dev
    let fresh (t : Dev) : Prop := (t.state = .boot ∨ t.state = .recovery) ∧ held t = false ∧ t.powerLost = false ∧
      t.qm.jobs = [] ∧ t.qm.cmds = [] ∧ t.sec.keys = [] ∧ t.cores = [] ∧ t.flt.log = [] ∧
      t.boot.fusedSvn = d.boot.fusedSvn
    (d.powerLost = false → d.modRst = false → regsSorted d → Completes .powerLoss s (fun t =>
      t.powerLost = true ∧ (ftl t 0).seqRunning = true ∧ (ftl t 1).seqRunning = true ∧ (ftl t 0).closed = true ∧
      (rg t 61 1 0x020).testBit 0 = true ∧ FaultSide { d with powerLost := true, ext := { d.ext with ftl := t.ext.ftl } } t)) ∧
    (d.powerLost = true → Completes .powerLoss s (fun t => t = d)) ∧
    (d.modRst = false → d.powerLost = false → Completes .modRstNAssert s (fun t =>
      t.modRst = true ∧ held t = true ∧ (ftl t 0).seqRunning = true ∧ t.qm.jobs = [] ∧ t.sec.keys = [] ∧ t.boot = d.boot)) ∧
    ((ftl d 0).seqRunning = true → SMap.sorted d.ext.ftl = true → d.powerLost = true → Completes (.powerLossSequenceEnd false) s (fun t =>
      held t = true ∧ t.powerLost = true ∧ (ftl t 0).seqRunning = false ∧ (ftl t 1).seqRunning = false ∧
      t.qm.jobs = [] ∧ t.sec.keys = [] ∧ t.boot = d.boot)) ∧
    ((ftl d 0).seqRunning = true → d.powerLost = true → d.modRst = false →
      Completes (.powerLossSequenceEnd true) s fresh) ∧
    (∀ strap okA okB fuseOk : Bool, (ftl d 0).seqRunning = false →
      (d.powerLost = true → d.modRst = false → Completes (.powerOnReset false strap okA okB fuseOk) s fresh) ∧
      (d.modRst = true → d.powerLost = false → Completes (.powerOnReset true strap okA okB fuseOk) s fresh)) ∧
    (∀ by' strap okA okB fuseOk : Bool, (ftl d 0).seqRunning = true →
      Completes (.powerOnReset by' strap okA okB fuseOk) s (fun t => t = d))

/-- 15 R478, R479; 13 R426; 16 R496, R501; 14 R450 (logs 59, 60). 20 ms are 21,000,000 ARITH cycles. -/
def Obligations.ResetsOfDiesAndBlocks : Prop :=
  ∀ (s : State) (acc : Acc) (die : Fin 64) (cd : Fin 48), live s → cd.val = die.val →
    let d := s.dev
    (NSet.mem d.flt.blkRst (die.val * 1024 + 16) = true → dieResetting d die.val = false → d.qm.cmds = [] →
      SMap.sorted d.cores = true →
      Completes (.dieReset acc die) s (fun t =>
        dieResetting t die.val = true ∧
        (∀ n, core t n = (if n / 6 = die.val then idleCore else core d n)) ∧
        (∀ k, sealed t k = (if gT0 (die.val * 6) 0 ≤ k ∧ k < gT0 (die.val * 6 + 6) 0 then false else sealed d k)) ∧
        (∀ a, memByte t.mem.bytes a =
          (if gT0 (die.val * 6) 0 ≤ a / 4096 ∧ a / 4096 < gT0 (die.val * 6 + 6) 0 then 0 else memByte d.mem.bytes a)) ∧
        (∀ reg, reg < 4096 → rg t die.val 16 reg = (resetWord (regOff die.val 16 reg)).toNat) ∧
        t.mem.objs = d.mem.objs ∧ t.qm.jobs = d.qm.jobs ∧ t.qm.sess = d.qm.sess ∧ t.qm.pst = d.qm.pst)) ∧
    (dieResetting d die.val = true → NSet.mem d.flt.blkRst (die.val * 1024 + 16) = true →
      Completes (.dieReset acc die) s (fun t =>
        t = { d with flt := { d.flt with blkRst := NSet.del d.flt.blkRst (die.val * 1024 + 16) } })) ∧
    (dieResetting d die.val = true → SMap.get? d.pwr.retained die.val ≠ some 2 → SMap.sorted d.pwr.resetting = true →
      Completes (.dieResetEnd cd) s (fun t => dieResetting t die.val = false ∧ t.mem.bytes = d.mem.bytes ∧ t.orb = d.orb)) ∧
    (∀ t0, SMap.get? d.pwr.resetting die.val = some t0 → SMap.get? d.pwr.retained die.val ≠ some 2 → regsSorted d →
      t0 + 21000000 ≤ d.now → Completes (.dieRstTimeout cd) s (fun t =>
        dieRetained t die.val = true ∧ dieResetting t die.val = true ∧ (rg t 60 4 0x020).testBit 1 = true ∧
        FaultSide { d with pwr := { d.pwr with retained := t.pwr.retained, waking := t.pwr.waking } } t)) ∧
    (∀ p : Fin 1024, p.val < 6 → NSet.mem d.flt.blkRst (die.val * 1024 + p.val) = true → dieResetting d die.val = false →
      d.qm.cmds = [] → SMap.sorted d.cores = true →
      Completes (.blockReset acc die p) s (fun t =>
        core t (die.val * 6 + p.val) = idleCore ∧ (∀ n, n ≠ die.val * 6 + p.val → core t n = core d n) ∧
        rg t die.val p.val 0x020 = rg d die.val p.val 0x020 ∧
        (∀ off, off / 4096 ≠ die.val * 1024 + p.val → raw t off = raw d off) ∧ t.mem = d.mem ∧ t.qm = d.qm))

/-- 15 R470 to R475: requests, wake-up, input power, the issue gate and its bounds, die temperatures (log 62). -/
def Obligations.PowerManagerActs : Prop :=
  ∀ (s : State) (acc : Acc) (die : Fin 48), live s → regsSorted s.dev →
    let d := s.dev
    (Performed d acc (regOff die.val 16 0x00C) → SMap.get? d.pwr.retained die.val = some 0 →
      SMap.sorted d.pwr.retained = true → Completes (.pwrReq acc die true) s (fun t =>
        NSet.mem t.pwr.waking die.val = true ∧ dieRetained t die.val = false ∧ (rg t die.val 16 0x00C).testBit 2 = true ∧
        RegSide { d with pwr := { d.pwr with retained := t.pwr.retained, waking := t.pwr.waking } } t)) ∧
    (NSet.mem d.pwr.waking die.val = true → SMap.sorted d.pwr.waking = true → Completes (.dieWake die) s (fun t =>
      NSet.mem t.pwr.waking die.val = false ∧ t.mem.bytes = d.mem.bytes ∧ t.qm.cmds = d.qm.cmds ∧ t.orb = d.orb)) ∧
    Completes .pwrInOv s (fun t => (rg t 61 1 0x020).testBit 1 = true ∧ FaultSide d t) ∧
    (∀ (vin iin : BitVec 16) (rails : BitVec 24),
      (rails.toNat = d.pwr.vrFault → Completes (.pmbusPoll vin iin rails) s (fun t =>
        rg t 61 1 0x10C = iin.toNat * 65536 + vin.toNat ∧ RegSide { d with pwr := t.pwr } t)) ∧
      (d.rst = none → (∃ r, r < 24 ∧ rails.toNat.testBit r = true ∧ d.pwr.vrFault.testBit r = false) →
        Completes (.pmbusPoll vin iin rails) s (fun t =>
          t.pwr.vrFault = rails.toNat ∧ (rg t 61 1 0x020).testBit 2 = true ∧ (∃ r, t.rst = some r) ∧
          t.mem = d.mem ∧ t.qm = d.qm ∧ t.cores = d.cores))) ∧
    (∀ w : BitVec 16, d.pwr.hard = false → w.toNat ≤ 3800 → Completes (.powerEval w) s (fun t =>
      t.pwr.watts = w.toNat ∧ t.pwr.hard = false ∧ t.pwr.overRun = 0 ∧
      t.pwr.g = (if orbitMode d then 64 else if pwrCap d < w.toNat then max 8 (d.pwr.g - 8)
        else if w.toNat * 100 < pwrCap d * 97 then min 64 (d.pwr.g + 8) else d.pwr.g) ∧
      FaultSide { d with pwr := t.pwr } t)) ∧
    (∀ ts : List (BitVec 8), ts.length = 64 → Completes (.dieTempRead ts) s (fun t =>
      (∀ i x, ts[i]? = some x → SMap.getD t.pwr.temps i 0 = x.toNat) ∧
      rg t 61 1 0x110 = (hottest ts).2 * 256 + (hottest ts).1.toNat)) ∧
    (∀ ts : List (BitVec 8), ts.length = 64 → d.rst = none → (∃ i, 48 ≤ i ∧ i < 64 ∧ (∃ x, ts[i]? = some x ∧ 115 ≤ x.toInt) ∧
        NSet.mem d.pwr.crit i = false) →
      Completes (.dieTempRead ts) s (fun t =>
        (rg t 61 1 0x020).testBit 7 = true ∧ (∃ r, t.rst = some r)))

/-- 11 R363, R364, R367, R368, R372 to R374: the orbit's states. -/
def Obligations.OrbitStatesChangeAsCommanded : Prop :=
  ∀ (s : State) (acc : Acc), live s → regsSorted s.dev → SMap.sorted s.dev.fab.ports = true →
    let d := s.dev
    let o := s.dev.orb
    (Performed d acc offOrbCtrl →
      (o.state = .none → Completes (.lockReq acc) s (fun t =>
        t.orb.state = .locking ∧ t.orb.pllRef = !isMaster d ∧ t.orb.occ = o.occ ∧ RegSide { d with orb := t.orb } t)) ∧
      (o.state ≠ .none → Completes (.lockReq acc) s (fun t => t = d)) ∧
      (isMaster d = true → o.state = .locked → Completes (.orbStart acc) s (fun t =>
        t.orb.state = .aligned ∧ t.orb.occ = o.occ ∧ t.mem = d.mem ∧ t.qm = d.qm ∧ t.cores = d.cores)) ∧
      (isMaster d = false → Completes (.orbStart acc) s (fun t => t = d)) ∧
      (o.state = .aligned → Completes (.runOrbit acc) s (fun t => t = { d with orb := { o with armed := true } })) ∧
      (o.state ≠ .aligned → Completes (.runOrbit acc) s (fun t => t = d)) ∧
      Completes (.disband acc) s (fun t => t.orb.state = .none ∧ t.orb.pllRef = false ∧ t.orb.armed = false ∧
        t.orb.occ = o.occ ∧ t.orb.cause = o.cause ∧ RegSide { d with orb := t.orb } t)) ∧
    (o.state = .locking → Completes .pllLockHeld s (fun t =>
      t.orb = { o with state := .locked } ∧ RegSide { d with orb := t.orb } t)) ∧
    (o.state ≠ .locking → Completes .pllLockHeld s (fun t => t = d)) ∧
    (∀ (port : PortId) (pkt : Packet), Packet.ok pkt = true → headerOk pkt = true → pkt.typ = 10 → port.val = upstreamPort d →
      (fabPort d port.val).up = true → isMaster d = false →
      (pkt.payload.head? = some 3 → o.state = .locked →
        Completes (.startRx port pkt false) s (fun t => t.orb.state = .aligned ∧
          t.orb.occ = (sBytes pkt.payload 8 8 + rp d port.val 0x108 + relD d port.val) % 2 ^ 64 ∧
          t.mem = d.mem ∧ t.qm = d.qm ∧ t.cores = d.cores)) ∧
      (pkt.payload.head? = some 4 → orbitMode d = true → orbBase d ≤ o.occ →
        (o.occ - orbBase d) % orbLen d ≤ 65536 → slotOf d port.val pkt.stamp ≤ cycNow d →
        Completes (.heartbeat port pkt) s (fun t => t.orb = { o with lastHb := o.occ } ∧ t.mem = d.mem ∧ t.qm = d.qm)) ∧
      (pkt.payload.head? = some 4 → orbitMode d = true → cycNow d < slotOf d port.val pkt.stamp →
        Completes (.heartbeat port pkt) s (fun t => Waits d t port.val pkt.stamp (.pkt pkt)))) ∧
    (∀ (port : PortId) (pkt : Packet), Packet.ok pkt = true → headerOk pkt = true → pkt.typ = 10 → pkt.payload.head? = some 5 →
      (fabPort d port.val).up = true →
      (pkt.vc = 0 → Completes (.haltRx port pkt) s (fun t => Waits d t port.val pkt.stamp (.pkt pkt))) ∧
      (pkt.vc ≠ 0 → orbitMode d = true →
        Completes (.haltRx port pkt) s (fun t => t.orb.state = .lost ∧ t.orb.cause = 4))) ∧
    (o.state = .aligned → o.armed = true → o.occ = orbBase d → o.haltDue = false →
      Completes .epochBoundary s (fun t => t.orb.state = .running ∧ t.orb.epoch = 0 ∧ t.orb.lastHb = o.occ ∧
        t.mem = d.mem ∧ t.qm = d.qm ∧ t.cores = d.cores)) ∧
    (o.state = .running → isMaster d = false → hbMissed d = true →
      Completes .hbMiss s (fun t => t.orb.state = .lost ∧ t.orb.cause = 3)) ∧
    (o.state = .running → hbMissed d = false → Completes .hbMiss s (fun t => t = d)) ∧
    (∀ c : Fin 6, lossHolds d c.val = true → orbitMode d = true → Completes (.orbitLockLost c) s (fun t =>
      t.orb.state = .lost ∧ t.orb.cause = c.val ∧ t.orb.haltDue = true ∧ (rg t 56 16 0x020).testBit 0 = true ∧
      t.mem = d.mem ∧ t.qm = d.qm ∧ t.cores = d.cores)) ∧
    (∀ c : Fin 6, lossHolds d c.val = false → Completes (.orbitLockLost c) s (fun t => t = d))

/-- 11 R336, R338 to R341; 17 R507. 1 µs is 1,050 and 500 ms are 525,000,000 ARITH cycles. -/
def Obligations.LinksComeUpAndGoDown : Prop :=
  ∀ (s : State) (acc : Acc) (port : PortId), live s → regsSorted s.dev → SMap.sorted s.dev.fab.ports = true →
    let d := s.dev
    let p := port.val
    let q := fabPort s.dev port.val
    let page := p % 6
    let onlyPorts (t : Dev) : Prop := t = { d with fab := { d.fab with ports := t.fab.ports } }
    (q.up = false → q.supplyOff = false → (rp d p 0x100).testBit 0 = true → ∀ (kg did : BitVec 16) (pp : Fin 32),
      ∀ (serial : BitVec 64) (nonce : BitVec 256) (confirm : BitVec 128),
      let own : LinkEnd := ⟨Config.serial.toNat, p, (drbgDraw d.sec.drbg 32).2⟩
      let peer : LinkEnd := ⟨serial.toNat, pp.val, nonce.toNat⟩
      let drawn : Dev := { d with sec := { d.sec with drbg := (drbgDraw d.sec.drbg 32).1 } }
      let good := d.sec.fuseErr = false ∧ kg.toNat = Config.keyGroup.toNat ∧ confirm = confirmTag own peer peer
      (good → Completes (.linkEstablishment port kg did pp serial nonce confirm) s (fun t =>
        t = { drawn with fab := { d.fab with ports := t.fab.ports } } ∧
        let u := fabPort t p
        (u.txKey, u.txSalt) = (linkKeys own peer).1 ∧ (u.rxKey, u.rxSalt) = (linkKeys own peer).2 ∧ u.keyId = 0 ∧ u.up = true ∧ u.peerDid = did.toNat ∧ u.peerPort = pp.val ∧ u.keyGen = q.keyGen + 1 ∧ u.txSeq = 0 ∧ u.rxSeq = 0 ∧
        u.creditOrbit = 1024 ∧ u.creditBulk = 4096 ∧ u.creditMgmt = 256 ∧ u.creditTime = 64)) ∧
      (¬good → Completes (.linkEstablishment port kg did pp serial nonce confirm) s (fun t =>
        (fabPort t p).up = false ∧ (rg t (fpDie p) page 0x020).testBit 2 = true ∧ FaultSide drawn t))) ∧
    (q.up = true → ∀ f : LinkFrame, LinkFrame.ok f = true →
      (f.fecOk = false ∨ f.tagOk = false ∨ f.seq ≠ q.rxSeq % 2 ^ 40 → Completes (.linkFrameRx port f) s (fun t =>
        t.out = d.out ++ [.linkNak p] ∧ RegSide { d with out := t.out } t ∧
        rg t (fpDie p) page 0x134 = (if f.fecOk then rg d (fpDie p) page 0x134
          else min (rg d (fpDie p) page 0x134 + 1) (2 ^ 32 - 1)) ∧
        rg t (fpDie p) page 0x138 = (if f.fecOk && !f.tagOk then min (rg d (fpDie p) page 0x138 + 1) (2 ^ 32 - 1)
          else rg d (fpDie p) page 0x138))) ∧
      (f.fecOk = true → f.tagOk = true → f.seq = q.rxSeq % 2 ^ 40 → f.nak = false → q.queued = [] →
        Completes (.linkFrameRx port f) s (fun t => t.out = d.out ∧ t.mem = d.mem ∧ t.qm = d.qm ∧
          let u := fabPort t p
          u.rxSeq = q.rxSeq + 1 ∧ u.creditOrbit = q.creditOrbit + f.creditOrbit ∧ u.creditBulk = q.creditBulk + f.creditBulk ∧
          u.creditMgmt = q.creditMgmt + f.creditMgmt ∧ u.creditTime = q.creditTime + f.creditTime ∧ u.txSeq = q.txSeq))) ∧
    (∀ f r, q.up = true → q.unacked = f :: r → f.sentAt + 1050 ≤ d.now → Completes (.replayTimeout port) s (fun t =>
      t.out = d.out ++ (q.unacked.map (fun x => .resend p x.seq)) ∧
      (fabPort t p).unacked = q.unacked.map (fun x => { x with resends := x.resends + 1, sentAt := d.now }) ∧
      t.mem = d.mem ∧ t.qm = d.qm)) ∧
    (∀ i ∈ [Instr.linkRetrain port, Instr.retrain acc port],
      (i = .linkRetrain port ∧ (∃ f ∈ q.unacked, 8 ≤ f.resends)) ∨
        (i = .retrain acc port ∧ Performed d acc (regOff (fpDie p) page 0x100)) →
      q.up = true → Completes i s (fun t =>
        (fabPort t p).up = false ∧ (rg t (fpDie p) page 0x020).testBit 1 = true ∧
        rg t (fpDie p) page 0x140 = min (rg d (fpDie p) page 0x140 + 1) (2 ^ 32 - 1) ∧
        t.mem = d.mem ∧ t.qm.jobs = d.qm.jobs ∧ t.cores = d.cores)) ∧
    (q.up = false → q.wasUp = true → (rp d p 0x100).testBit 0 = true → q.downAt + 525000000 ≤ d.now →
      Completes (.linkDown port) s (fun t => (rg t (fpDie p) page 0x020).testBit 0 = true ∧ FaultSide d t)) ∧
    (q.up = true → Completes (.linkDown port) s (fun t => t = d)) ∧
    (q.up = true → 2 ^ 40 ≤ q.txSeq → Completes (.rekey port) s (fun t => onlyPorts t ∧
      fabPort t p = { q with keyId := q.keyId + 1, txSeq := 0, rxSeq := 0,
                             txKey := (rekeyed q.txKey (q.keyId + 1)).1, txSalt := (rekeyed q.txKey (q.keyId + 1)).2,
                             rxKey := (rekeyed q.rxKey (q.keyId + 1)).1, rxSalt := (rekeyed q.rxKey (q.keyId + 1)).2 })) ∧
    (q.txSeq < 2 ^ 40 → Completes (.rekey port) s (fun t => t = d)) ∧
    Completes (.portSupplyOvercurrent port) s (fun t => (fabPort t p).up = false ∧ (fabPort t p).supplyOff = true ∧
      t.mem = d.mem ∧ t.qm = d.qm ∧ t.cores = d.cores)

/-- 11 R344, over every row that takes packets in (a request's NACK is R343). -/
def Obligations.PacketsOnAWrongVcAreDiscarded : Prop :=
  ∀ (s : State) (port : PortId) (p : Packet) (ev : Upset), live s → regsSorted s.dev →
    Packet.ok p = true → typeVcOk p = false → (fabPort s.dev port.val).up = true → ev ≠ .bufUE →
    let discards (i : Instr) : Prop := Completes i s (fun t =>
      rg t 56 16 0x200 = min (rg s.dev 56 16 0x200 + 1) (2 ^ 32 - 1) ∧ SendSide s.dev t ∧
      (isRequest p = false → t.out = s.dev.out ∧ t.fab = s.dev.fab))
    (p.dst = ownDid s.dev →
      ∀ x ∈ [(1, Instr.put port p ev), (2, .putAck port p), (3, .getReq port p ev), (4, .getResp port p), (5, .atomic port p ev),
        (6, .atomicResp port p), (8, .orbitData port p), (9, .orbitSignal port p), (15, .faultReport port p)],
      p.typ = x.1 → discards x.2) ∧
    (p.dst = ownDid s.dev ∨ p.dst = 0xFFFF →
      ∀ x ∈ [(7, Instr.nack port p), (11, .mgmtRd port p), (12, .mgmtWr port p), (13, .mgmtResp port p)],
      p.typ = x.1 → discards x.2) ∧
    (p.dst ≠ 0xFFFF → discards (.forward port p ev))

/-- 11 R345, R353, R354: forwarding; the release of ORBIT words is FIXED_LATENCY_RELEASE's. -/
def Obligations.PacketsAreForwarded : Prop :=
  ∀ (s : State) (port : PortId) (p : Packet) (ev : Upset), live s → regsSorted s.dev → Packet.ok p = true →
    let d := s.dev
    ((fabPort d port.val).up = false → Completes (.forward port p ev) s (fun t => t = d)) ∧
    ((fabPort d port.val).up = true → p.dst ≠ 0xFFFF → Completes (.forward port p .bufUE) s (fun t =>
      (rg t (fpDie port.val) (port.val % 6) 0x020).testBit 3 = true ∧ FaultSide d t)) ∧
    ((fabPort d port.val).up = true → headerOk p = true → p.dst ≠ 0xFFFF → ev ≠ .bufUE → ev ≠ .tableUE →
      (p.vc ≠ 0 → p.dst = ownDid d → Completes (.forward port p ev) s (fun t => t = d)) ∧
      (p.vc ≠ 0 → p.dst ≠ ownDid d → ownDid d ≠ 0 → p.dst < 0x8000 → p.ttl ≤ 1 →
        Completes (.forward port p ev) s (fun t => (rg t 56 16 0x020).testBit 2 = true ∧
          rg t 56 16 0x200 = min (rg d 56 16 0x200 + 1) (2 ^ 32 - 1) ∧ t.mem = d.mem ∧ t.qm = d.qm ∧ t.cores = d.cores)) ∧
      (∀ out : Nat, p.vc = 1 ∨ p.vc = 2 → p.dst ≠ ownDid d → ownDid d ≠ 0 → p.dst < 0x8000 → 1 < p.ttl →
        routePort d p.vc p.dst = some (out, false) → MaySend d out p →
        Completes (.forward port p ev) s (fun t => Sent d t out { p with ttl := p.ttl - 1 } ∧ SendSide d t)) ∧
      (p.vc = 0 → SMap.sorted d.fab.ports = true → Completes (.forward port p ev) s (fun t =>
        Waits d t port.val p.stamp (.pkt p))))

/-- 11 R355 to R360: what a window lets in, and where it lands. -/
def Obligations.WindowsServeRemoteAccesses : Prop :=
  ∀ (s : State) (port : PortId) (p : Packet) (ev : Upset), live s → regsSorted s.dev → Packet.ok p = true →
    headerOk p = true → (fabPort s.dev port.val).up = true → p.dst = ownDid s.dev → ev ≠ .bufUE → ev ≠ .tableUE →
    let d := s.dev
    let w := p.stamp / 16
    let at_ := winBase d w + p.addr
    let n := ofLeBytes (p.payload.take 4)
    (p.typ = 1 → winRefuses d w p.src 29 p.addr p.payload.length = none → winPending d w p.addr p.payload.length = false →
      Completes (.put port p ev) s (fun t =>
        t.mem = (writeT0 d (winCore d w) at_ p.payload p.sealed).mem ∧ t.qm = d.qm ∧ t.cores = d.cores)) ∧
    (p.typ = 3 → winRefuses d w p.src 30 p.addr n = none → winPending d w p.addr n = false → ev = .none →
      Completes (.getReq port p ev) s (fun t => SendSide d t) ∧
      (∀ out : Nat, n ≤ 512 → (∀ k ∈ winGrans d w p.addr n, ∀ sid, rootOf d k = some sid → poisoned d sid = false) →
        p.src ≠ ownDid d → ownDid d ≠ 0 → p.src < 0x8000 → routePort d 1 p.src = some (out, false) →
        (fabPort d out).queued = [] → ceilDiv (16 + n) 64 ≤ (fabPort d out).creditBulk →
        Completes (.getReq port p ev) s (fun t => ∃ q : Packet, Sent d t out q ∧ q.typ = 4 ∧ q.vc = 1 ∧ q.dst = p.src ∧
          q.tag = p.tag ∧ q.addr = p.addr ∧ q.payload = winRead d w p.addr n))) ∧
    (∀ x ∈ [(1, Instr.put port p .bufUE), (3, .getReq port p .bufUE), (5, .atomic port p .bufUE)], p.typ = x.1 →
      Completes x.2 s (fun t => (rg t (fpDie port.val) (port.val % 6) 0x020).testBit 3 = true ∧ FaultSide d t)) ∧
    (p.typ = 5 → winRefuses d w p.src 28 p.addr 8 = none → at_ % 8 = 0 → (p.payload[0]?).getD 0 ≤ 7 →
      isPending d (winGran d w p.addr).1 = false → ev = .none →
      poisoned d (winGran d w p.addr).1 = false →
      Completes (.atomic port p ev) s (fun t =>
        t.mem = (writeT0 d (winCore d w) at_
          (leBytes 8 (atomicNew ((p.payload[0]?).getD 0) (numT0 d (winCore d w) at_ 8) (sBytes p.payload 8 8)
            (sBytes p.payload 16 8))) false).mem ∧ t.qm = d.qm ∧ t.cores = d.cores)) ∧
    (∀ x ∈ [(1, 29, p.payload.length, Instr.put port p ev), (3, 30, n, .getReq port p ev), (5, 28, 8, .atomic port p ev)],
      p.typ = x.1 → ∀ r, winRefuses d w p.src x.2.1 p.addr x.2.2.1 = some r → Completes x.2.2.2 s (fun t =>
        SendSide d t ∧ rg t 56 16 0x208 = min (rg d 56 16 0x208 + 1) (2 ^ 32 - 1))) ∧
    (winValid d w = true → winSrcOk d w p.src = true → (winWord d w 0).testBit 29 = true → winTier d w = 0 →
      p.addr + p.payload.length ≤ winSize d w → at_ + p.payload.length ≤ scratchBytes →
      (job d (winJob d w)).resident = false → winRefuses d w p.src 29 p.addr p.payload.length = some 6)

/-- 11 R350, R357, R360, R361 and the table "Remote operation failures". -/
def Obligations.ResponsesEndRequests : Prop :=
  ∀ (s : State) (port : PortId) (p : Packet) (r : Req), live s → regsSorted s.dev → Packet.ok p = true → headerOk p = true →
    (fabPort s.dev port.val).up = true → p.dst = ownDid s.dev → SMap.get? s.dev.fab.reqs p.tag = some r →
    SMap.sorted s.dev.fab.reqs = true → s.dev.fab.reqWait = [] →
    let d := s.dev
    let gone (t : Dev) : Prop := SMap.get? t.fab.reqs p.tag = none ∧ t.fab.reqWait = []
    (∀ j i, p.typ = 2 → r.typ = 1 → r.did = p.src → r.owner = .pf j i → Completes (.putAck port p) s (fun t =>
      gone t ∧ t = { d with fab := { d.fab with reqs := t.fab.reqs } })) ∧
    (∀ j i c o, p.typ = 4 → r.typ = 3 → r.did = p.src → r.owner = .pf j i → p.addr = r.addr → r.left ≤ p.payload.length →
      decodeAddr r.local_ = .t0 c o → Completes (.getResp port p) s (fun t =>
        gone t ∧ t.mem.bytes = (writeT0 d c o p.payload p.sealed).mem.bytes ∧ t.qm = d.qm ∧ t.regs = d.regs)) ∧
    (p.typ = 6 → r.typ = 5 → r.did = p.src → Completes (.atomicResp port p) s (fun t =>
      gone t ∧ t.fab.ropBusy = false ∧ t.fab.ropStatus = 0 ∧ t.fab.ropRes = sBytes p.payload 0 8 ∧
      RegSide { d with fab := t.fab } t)) ∧
    (p.typ = 13 → r.owner = .mailbox → Completes (.mgmtResp port p) s (fun t =>
      gone t ∧ t.fab.mbBusy = false ∧ t.fab.mbStatus = (p.payload[0]?).getD 0 % 4 ∧
      (r.typ = 11 → rf t 0x178 = sBytes p.payload 4 4 % 2 ^ 32) ∧ RegSide { d with fab := t.fab } t)) ∧
    (p.typ = 7 → p.addr % 256 = 4 → r.owner = .rop → Completes (.nack port p) s (fun t =>
      gone t ∧ t.fab.ropBusy = false ∧ t.fab.ropStatus = 3 ∧ RegSide { d with fab := t.fab } t)) ∧
    (∀ (uid act : Nat) (c : Cmd), p.typ = 7 → p.addr % 256 = 3 → r.owner = .cmd uid act → cmd d uid = some c → c.phase ≠ .ended →
      Completes (.nack port p) s (fun t => gone t ∧
        ∃ c', cmd t uid = some c' ∧ c'.phase = .ended ∧ c'.status = 0x50 ∧ c'.detail = r.did % 2 ^ 64 ∧
          c'.committed = c.committed)) ∧
    (∀ tag : Fin 1024, tag.val = p.tag →
      (d.now < r.sentAt + rf d 0x11C * 1050 → Completes (.requestTimeout tag) s (fun t => t = d)) ∧
      (r.sentAt + rf d 0x11C * 1050 ≤ d.now → r.owner = .rop → Completes (.requestTimeout tag) s (fun t =>
        t.fab.ropBusy = false ∧ t.fab.ropStatus = 1 ∧ t.mem = d.mem ∧ t.qm = d.qm)))

/-- 11 R350, R356, R360, R365 (one marker at a time: log 23). -/
def Obligations.RemoteOperationsAreStarted : Prop :=
  ∀ (s : State) (acc : Acc) (port : PortId), live s → regsSorted s.dev → SMap.sorted s.dev.fab.ports = true →
    let d := s.dev
    let h := rf d 0x15C
    let j := bitsOf (rf d 0x160) 23 16
    (Performed d acc (regOff 56 16 0x168) →
      (SMap.get? d.fab.hdl h = none → usage d j 3 < quotaOf (job d j) 3 → Completes (.handleOpen acc) s (fun t =>
        SMap.get? t.fab.hdl h = some (j, bitsOf (rf d 0x160) 15 0, rf d 0x164) ∧ rf t 0x16C = 0 ∧
        RegSide { d with fab := { d.fab with hdl := t.fab.hdl } } t)) ∧
      (∀ v, SMap.get? d.fab.hdl h = some v →
        Completes (.handleOpen acc) s (fun t => rf t 0x16C = 2 ∧ RegSide d t) ∧
        (SMap.sorted d.fab.hdl = true → Completes (.handleFree acc) s (fun t => SMap.get? t.fab.hdl h = none ∧ rf t 0x16C = 0 ∧
          RegSide { d with fab := { d.fab with hdl := t.fab.hdl } } t))) ∧
      (SMap.get? d.fab.hdl h = none → Completes (.handleFree acc) s (fun t => rf t 0x16C = 3 ∧ RegSide d t))) ∧
    (Performed d acc (regOff 56 16 0x180) → ∀ v : Word,
      (v.toNat.testBit 31 = false → ∀ ev, Completes (.remoteAtomic acc v ev) s (fun t =>
        rf t 0x180 = (v.toNat % 2 ^ 31 &&& 0x70FF0FFF) ∧ RegSide d t)) ∧
      (v.toNat.testBit 31 = true → d.fab.ropBusy = false → SMap.get? d.fab.hdl (bitsOf v.toNat 11 0) = none →
        Completes (.remoteAtomic acc v .none) s (fun t => t.fab.ropBusy = false ∧ t.fab.ropStatus = 7 ∧
          RegSide { d with fab := t.fab } t)) ∧
      (∀ did win : Nat, v.toNat.testBit 31 = true → d.fab.ropBusy = false → d.fab.reqWait = [] → d.fab.reqs = [] →
        SMap.get? d.fab.hdl (bitsOf v.toNat 11 0) = some (bitsOf v.toNat 23 16, did, win) → ownDid d ≠ 0 →
        (did = ownDid d ∨ (did < 0x8000 ∧ (routePort d 1 did).isSome = true)) → Completes (.remoteAtomic acc v .none) s (fun t => t.fab.ropBusy = true ∧
          (∃ r, SMap.get? t.fab.reqs 0 = some r ∧ r.owner = .rop ∧ r.did = did ∧ r.typ = 5) ∧ t.mem = d.mem ∧ t.qm = d.qm))) ∧
    (Performed d acc (regOff 56 16 0x170) → ∀ v : Word, v.toNat.testBit 31 = true → d.fab.mbBusy = false → ownDid d = 0 →
      bitsOf v.toNat 28 24 ≤ 23 → Completes (.mailboxStart acc v) s (fun t =>
        t.fab.mbBusy = false ∧ t.fab.mbStatus = 2 ∧ RegSide { d with fab := t.fab } t)) ∧
    (Performed d acc (regOff 56 16 0x170) → ∀ (v : Word) (out : Nat), v.toNat.testBit 31 = true → d.fab.mbBusy = false →
      d.fab.reqs = [] → d.fab.reqWait = [] → ownDid d ≠ 0 → bitsOf v.toNat 28 24 ≤ 23 → bitsOf v.toNat 15 0 ≠ ownDid d →
      bitsOf v.toNat 15 0 < 0x8000 → routePort d 2 (bitsOf v.toNat 15 0) = some (out, false) →
      (fabPort d out).queued = [] → 1 ≤ (fabPort d out).creditMgmt → Completes (.mailboxStart acc v) s (fun t =>
        t.fab.mbBusy = true ∧ (∃ r, SMap.get? t.fab.reqs 0 = some r ∧ r.owner = .mailbox) ∧
        (∃ q, Sent d t out q ∧ q.typ = (if v.toNat.testBit 30 then 11 else 12) ∧ q.vc = 2 ∧
          q.dst = bitsOf v.toNat 15 0 ∧ q.addr = rf d 0x174 ∧
          (v.toNat.testBit 30 = false → q.payload = leBytes 4 (rf d 0x178) ++ List.replicate 12 0)) ∧
        t.mem = d.mem ∧ t.qm = d.qm)) ∧
    (Performed d acc (regOff (fpDie port.val) (port.val % 6) 0x100) → (fabPort d port.val).up = true →
      (fabPort d port.val).queued = [] → 1 ≤ (fabPort d port.val).creditOrbit → Completes (.calReq acc port) s (fun t =>
        (∃ q, Sent d t port.val q ∧ q.typ = 10 ∧ q.vc = 0 ∧ q.payload.head? = some 1) ∧ (fabPort t port.val).calDone = false ∧ (fabPort t port.val).calLeft = 1024 ∧
        SendSide d t)) ∧
    (∀ p : Packet, Packet.ok p = true → headerOk p = true → p.typ = 10 → (fabPort d port.val).up = true →
      (p.payload.head? = some 1 → (fabPort d port.val).queued = [] → 1 ≤ (fabPort d port.val).creditOrbit →
       Completes (.cal port p) s (fun t =>
        (∃ q, Sent d t port.val q ∧ q.typ = 10 ∧ q.vc = 0 ∧ q.payload.head? = some 2) ∧ t.freeCtr = d.freeCtr + 1 ∧ SendSide { d with freeCtr := t.freeCtr } t)) ∧
      (∀ rtt : BitVec 16, p.payload.head? = some 2 → (fabPort d port.val).calLeft = 1 → Completes (.calEcho port p rtt) s (fun t =>
        (fabPort t port.val).calDone = true ∧
        (fabPort t port.val).calMin = (if (fabPort d port.val).calSeen then min (fabPort d port.val).calMin rtt.toNat else rtt.toNat) ∧
        (fabPort t port.val).calMax = (if (fabPort d port.val).calSeen then max (fabPort d port.val).calMax rtt.toNat else rtt.toNat) ∧
        t = { d with fab := { d.fab with ports := t.fab.ports } })))

/-- 01 R27, R28; 11 R366, R370: fixed-latency crossings. -/
def Obligations.OrbitWordsAreReleasedInTheirSlots : Prop :=
  ∀ (s : State) (port : PortId) (p : Packet), live s → regsSorted s.dev → SMap.sorted s.dev.fab.ports = true →
    let d := s.dev
    let q := fabPort s.dev port.val
    (∀ x ∈ [(8, Instr.orbitData port p), (9, Instr.orbitSignal port p)], p.typ = x.1 → Packet.ok p = true → headerOk p = true →
      q.up = true → Completes x.2 s (fun t =>
        (fabPort t port.val).release = q.release ++ [⟨.pkt p, (if orbitMode d then
          extendStamp d.orb.occ p.stamp + rp d port.val 0x108 + relD d port.val else d.now + relD d port.val), cycNow d⟩] ∧
        t = { d with fab := { d.fab with ports := t.fab.ports } })) ∧
    (∀ lateAt, (∀ w ∈ q.release, cycNow d < w.slot) → Completes (.fixedLatencyRelease port lateAt) s (fun t => t = d)) ∧
    (∀ (lateAt : Nat) (w : RelWord) (r : List RelWord) (hops : List Nat) (core : Nat), Releases d port.val lateAt w r →
      w.load = .pkt p → p.route = some (hops, hops.length) → p.dst = ownDid d → core < 288 →
      (p.typ = 8 ∧ core = bitsOf p.addr 34 26) ∨ (p.typ = 9 ∧ core = sBytes p.payload 4 2) →
      Completes (.fixedLatencyRelease port lateAt) s (fun t =>
        (fabPort t port.val).release = r ∧
        SMap.getD t.ports (npFab (fpDie port.val)) [] = SMap.getD d.ports (npFab (fpDie port.val)) [] ++
          [⟨2 * d.now, fpDie port.val, coreDie core, 0, 1, 0, .toCore port.val p⟩] ∧
        rp t port.val 0x144 = (if w.slot < cycNow d then min (rp d port.val 0x144 + 1) (2 ^ 32 - 1) else rp d port.val 0x144) ∧
        RegSide { d with ports := t.ports, fab := { d.fab with ports := t.fab.ports } } t))

/-- 11 R348, R349: who may access over the fabric, and what a refused access does. -/
def Obligations.ManagementPacketsReachRegisters : Prop :=
  ∀ (s : State) (port : PortId) (p : Packet), live s → regsSorted s.dev → Packet.ok p = true → headerOk p = true →
    (fabPort s.dev port.val).up = true → p.dst = ownDid s.dev →
    let d := s.dev
    (p.typ = 11 → Completes (.mgmtRd port p) s (fun t => t.mem = d.mem ∧ t.qm = d.qm ∧ t.cores = d.cores ∧ t.tim = d.tim ∧ t.orb = d.orb)) ∧
    (∀ out a : Nat, p.typ = 11 → mgmtTarget p = some a → mgmtSrcOk d p = true ∨ anyoneReads a = true →
      p.src ≠ ownDid d → ownDid d ≠ 0 → p.src < 0x8000 → routePort d 2 p.src = some (out, false) →
      (fabPort d out).queued = [] → 1 ≤ (fabPort d out).creditMgmt → Completes (.mgmtRd port p) s (fun t =>
        ∃ q, t.out = d.out ++ [.packet out q] ∧ q.typ = 13 ∧ q.dst = p.src ∧ q.tag = p.tag ∧
          q.payload = [0, 0, 0, 0] ++ leBytes 4 (readEffect d a).2 ++ List.replicate 8 0)) ∧
    (p.typ = 12 → p.addr = regOff 56 17 0x11C → mgmtSrcOk d p = true → Completes (.mgmtWr port p) s (fun t =>
      (t.tim.ns : Int) = ((d.tim.ns : Int) + (BitVec.ofNat 32 (sBytes p.payload 0 4)).toInt * 2 ^ 32) % 2 ^ 96 ∧
      SendSide { d with tim := { d.tim with ns := t.tim.ns } } t)) ∧
    (p.typ = 12 → mgmtSrcOk d p = false → Completes (.mgmtWr port p) s (fun t =>
      (rg t 56 16 0x020).testBit 3 = true ∧ rg t 56 16 0x20C = min (rg d 56 16 0x20C + 1) (2 ^ 32 - 1) ∧
      t.mem = d.mem ∧ t.qm = d.qm ∧ t.cores = d.cores ∧ t.tim = d.tim ∧ t.orb = d.orb))

/-- 11 R375 to R378 (the rate that the servo sets is free: log 14). -/
def Obligations.TimeIsSetAndMeasured : Prop :=
  ∀ (s : State) (acc : Acc) (port : PortId) (dom : Fin 256), live s → regsSorted s.dev → SMap.sorted s.dev.fab.ports = true →
    let d := s.dev
    let onPorts (t : Dev) : Dev := { d with fab := { d.fab with ports := t.fab.ports } }
    let here := ptpHere d dom.val = true ∧ isSlavePort d port.val = true ∧ (fabPort d port.val).up = true
    (Performed d acc (regOff 56 17 0x11C) → ∀ v : Word, Completes (.timeStep acc v) s (fun t =>
      (t.tim.ns : Int) = ((d.tim.ns : Int) + v.toInt * 2 ^ 32) % 2 ^ 96 ∧
      t = { d with tim := { d.tim with ns := t.tim.ns } })) ∧
    ((fabPort d port.val).up = true → ∀ (stamp : BitVec 16) (off : Int) (m : Fin 16) (req : List Byte),
      ∀ x ∈ [(Instr.ptpSync port stamp dom off, PtpMsg.sync dom.val off), (.ptpPdelayReq port stamp dom req, .delayReq dom.val),
        (.ptpPdelayResp port stamp dom off, .delayResp dom.val off), (.ptpAnnounce port stamp dom, .announce dom.val),
        (.ptpDiscard port stamp dom m, .other m.val)],
      Completes x.1 s (fun t => Waits d t port.val stamp.toNat (.ptp x.2))) ∧
    (∀ (lateAt : Nat) (w : RelWord) (r : List RelWord), Releases d port.val lateAt w r →
      let goes (P : Dev → Prop) : Prop :=
        Completes (.fixedLatencyRelease port lateAt) s (fun t => (fabPort t port.val).release = r ∧ P t)
      (here → ∀ off : Int, w.load = .ptp (.sync dom.val off) → goes (fun t =>
        t.tim.offset = off - d.tim.peerDelay ∧ t.tim.lastSync = d.now ∧
        t.tim.synced = decide ((off - d.tim.peerDelay).natAbs ≤ 1280) ∧
        (t.tim.ns : Int) = (if (off - d.tim.peerDelay).natAbs > 256000
          then ((d.tim.ns : Int) - (off - d.tim.peerDelay) * 2 ^ 24) % 2 ^ 96 else (d.tim.ns : Int)) ∧
        rg t 56 17 0x130 = min (rg d 56 17 0x130 + 1) (2 ^ 32 - 1) ∧ FaultSide { d with tim := t.tim } t)) ∧
      (here → ∀ delay : Int, w.load = .ptp (.delayResp dom.val delay) → goes (fun t =>
        RegSide { onPorts t with tim := { d.tim with peerDelay := delay } } t ∧
        rg t 56 17 0x134 = min (rg d 56 17 0x134 + 1) (2 ^ 32 - 1))) ∧
      (here → w.load = .ptp (.announce dom.val) → goes (fun t =>
        RegSide (onPorts t) t ∧ rg t 56 17 0x138 = min (rg d 56 17 0x138 + 1) (2 ^ 32 - 1))) ∧
      (here → w.load = .ptp (.delayReq dom.val) → (fabPort d port.val).queued = [] → 2 ≤ (fabPort d port.val).creditTime →
        goes (fun t => (∃ q, Sent d t port.val q ∧ q.typ = 14 ∧ q.vc = 3 ∧ q.payload.length = 64) ∧
          SendSide { d with freeCtr := d.freeCtr + 1 } t)) ∧
      (∀ off : Int, ptpHere d dom.val = false → w.load = .ptp (.sync dom.val off) → goes (fun t => RegSide (onPorts t) t)) ∧
      (∀ m : Fin 16, (timeCtrl d).testBit 4 = true → (fabPort d port.val).up = true → ptpDiscards m.val = true →
        w.load = .ptp (.other m.val) → goes (fun t =>
          RegSide (onPorts t) t ∧ rg t 56 17 0x13C = min (rg d 56 17 0x13C + 1) (2 ^ 32 - 1)))) ∧
    ((timeCtrl d).testBit 4 = true → (fabPort d port.val).up = true → isMasterPort d port.val = true →
      (fabPort d port.val).queued = [] → 2 ≤ (fabPort d port.val).creditTime →
      ∀ k : Fin 3, Completes (.ptpInterval port k) s (fun t =>
        (∃ q, Sent d t port.val q ∧ q.typ = 14 ∧ q.vc = 3 ∧ q.payload.length = (if k.val = 0 then 48 else 64)) ∧
        SendSide { d with freeCtr := d.freeCtr + 1 } t)) ∧
    (isGm d = false → (timeCtrl d).testBit 4 = true → d.tim.lastSync + syncLossCycles ≤ d.now →
      (rg d 56 17 0x020).testBit 0 = false → Completes .timeSyncLost s (fun t =>
        (rg t 56 17 0x020).testBit 0 = true ∧ t.tim = { d.tim with holdover := true } ∧ FaultSide { d with tim := t.tim } t)) ∧
    (isGm d = true → (timeCtrl d).testBit 2 = true →
      (ppsGood d = false → Completes .ppsEdge s (fun t => t = { d with tim := { d.tim with ppsEdge := some d.now } })) ∧
      (ppsGood d = true → Completes .ppsEdge s (fun t => t.tim.ppsEdge = some d.now ∧ t.tim.lastPps = d.now ∧
        t.tim.ns = (rg64 d 56 17 0x120 * 10 ^ 9 + rg d 56 17 0x128) % 2 ^ 64 * 2 ^ 32 ∧ t.tim.ppsOk = true ∧
        rg64 t 56 17 0x120 = (rg64 d 56 17 0x120 + 1) % 2 ^ 48 ∧ RegSide { d with tim := t.tim } t)) ∧
      (d.tim.ppsOk = true → d.tim.lastPps + 2100000000 ≤ d.now → Completes .timePpsLost s (fun t =>
        (rg t 56 17 0x020).testBit 1 = true ∧ t.tim = { d.tim with ppsOk := false, holdover := true } ∧
        FaultSide { d with tim := t.tim } t))) ∧
    (isGm d = true → (timeCtrl d).testBit 3 = true →
      (d.tim.refOk = true → Completes .timeRefLost s (fun t =>
        (rg t 56 17 0x020).testBit 2 = true ∧ t.tim = { d.tim with refOk := false, holdover := true } ∧
        FaultSide { d with tim := t.tim } t)) ∧
      ((timeCtrl d).testBit 2 = false → Completes .ref10mInRestored s (fun t =>
        t = { d with tim := { d.tim with refOk := true, holdover := false } }))) ∧
    (isGm d = false → Completes .ppsEdge s (fun t => t = d) ∧ Completes .timePpsLost s (fun t => t = d) ∧
      Completes .timeRefLost s (fun t => t = d) ∧ Completes .ref10mInRestored s (fun t => t = d))

/-- 14 R466, of every page. In factory test mode a write with a source of the page latches it (the second statement, R465). -/
def Obligations.FaultsAreInjectedAndCleared : Prop :=
  ∀ (s : State) (acc : Acc) (die : Fin 64) (page : Fin 1024) (src : Fin 32) (b : Blk), live s →
    blkAt die.val page.val = some b → Performed s.dev acc (hdrOff acc die.val page.val 0x04C) →
    (s.dev.factoryTest = false → Completes (.fltInject acc die page src) s (fun t => t = s.dev) ∧
      regVal s.dev (regOff die.val page.val 0x04C) = 0) ∧
    (blkNsrc b ≤ src.val → Completes (.fltInject acc die page src) s (fun t => t = s.dev))

/-- 14 R437, R440, R454 to R457, R463, R465; 16 R502. -/
def Obligations.FaultRecordsAreCollected : Prop :=
  ∀ (s : State) (acc : Acc), live s → regsSorted s.dev →
    let d := s.dev
    (∀ (die : Fin 64) (page : Fin 1024) (b : Blk), blkAt die.val page.val = some b → homeDie die.val page.val = die.val →
      (∀ src : Fin 32, d.factoryTest = true → src.val < blkNsrc b → Performed d acc (hdrOff acc die.val page.val 0x04C) →
        Completes (.fltInject acc die page src) s (fun t =>
          (rg t die.val page.val 0x020).testBit src.val = true ∧ FaultSide d t)) ∧
      (∀ v : Word, Performed d acc (hdrOff acc die.val page.val 0x020) → Completes (.fltStatClear acc die page v) s (fun t =>
        (∀ i, i < 8 → (rg t die.val page.val 0x020).testBit i =
          ((rg d die.val page.val 0x020).testBit i && (!v.toNat.testBit i || condPersists d die.val page.val i))) ∧
        (∀ off, off / 4096 ≠ die.val * 1024 + page.val → raw t off = raw d off) ∧ RegSide d t))) ∧
    (∀ (die : Fin 64) (r : Rec) (rest : List Rec), SMap.get? d.flt.reports die.val = some (r :: rest) →
      NSet.mem d.flt.lost die.val = false →
      (d.flt.log.length < 256 → Completes (.fltagReport die .none) s (fun t =>
        t.flt.log = d.flt.log ++ [r] ∧ t.flt.logWr = (d.flt.logWr + 1) % 65536 ∧
        t.flt.irqPend = (d.flt.irqPend || flagged r) ∧ t.mem = d.mem ∧ t.qm = d.qm ∧ t.cores = d.cores)) ∧
      (256 ≤ d.flt.log.length → Completes (.fltagReport die .none) s (fun t =>
        t.flt.log = d.flt.log ∧ (rg t 60 3 0x020).testBit 2 = true ∧
        rg t 60 3 0x184 = min (rg d 60 3 0x184 + 1) (2 ^ 32 - 1) ∧ t.mem = d.mem ∧ t.qm = d.qm)) ∧
      Completes (.fltagReport die .tableUE) s (fun t => t.flt.log = d.flt.log ∧ (rg t 60 3 0x020).testBit 6 = true ∧
        t.mem = d.mem ∧ t.qm = d.qm)) ∧
    (Performed d acc (regOff 60 3 0x104) → d.flt.irqPend = true →
      Completes (.irqPendClear acc) s (fun t => t.flt.irqPend = d.flt.log.any flagged ∧ t.flt.log = d.flt.log ∧
        t.mem = d.mem ∧ t.qm = d.qm ∧ t.regs = d.regs)) ∧
    (∀ v : Word, Performed d acc (regOff 60 3 0x114) →
      let n := (v.toNat % 65536 + 65536 - d.flt.logRd) % 65536
      (n ≤ d.flt.log.length → Completes (.fltagLogRdWrite acc v) s (fun t =>
        t = { d with flt := { d.flt with log := d.flt.log.drop n, logRd := v.toNat % 65536 } })) ∧
      (d.flt.log.length < n → Completes (.fltagLogRdWrite acc v) s (fun t =>
        t.flt.log = d.flt.log ∧ t.flt.logRd = d.flt.logRd ∧ (rg t 60 4 0x020).testBit 0 = true ∧ FaultSide d t))) ∧
    (∀ answered : BitVec 64, SMap.sorted d.flt.missed = true → Completes (.collectorPoll answered) s (fun t =>
      (∀ die, die < 64 → dieResetting d die = false → dieRetained d die = false →
        SMap.getD t.flt.missed die 0 = (if answered.toNat.testBit die then 0 else min 3 (SMap.getD d.flt.missed die 0 + 1))) ∧
      t.flt.log = d.flt.log ∧ t.mem = d.mem ∧ t.qm = d.qm ∧ t.cores = d.cores)) ∧
    (∀ die, die < 64 → dieResetting d die = false → dieRetained d die = false → NSet.mem d.flt.lost die = false →
      SMap.getD d.flt.missed die 0 = 2 → Completes (.collectorPoll 0) s (fun t =>
        NSet.mem t.flt.lost die = true ∧ (rg t 60 3 0x020).testBit 3 = true ∧ t.flt.log = d.flt.log ∧ t.mem = d.mem ∧ t.qm = d.qm)) ∧
    (∀ (k : Fin 64) (e : OrgEnt), SMap.get? d.flt.org k.val = some e → SMap.sorted d.flt.org = true →
      (timeNs d < e.last + holdNs d → ∀ ev, Completes (.originClose k ev) s (fun t => t = d)) ∧
      (e.last + holdNs d ≤ timeNs d → d.flt.log.length < 256 → Completes (.originClose k .none) s (fun t =>
        SMap.get? t.flt.org k.val = none ∧ (∃ r, t.flt.log = d.flt.log ++ [r] ∧ r.origin = true ∧ r.time = e.first) ∧
        t.mem = d.mem ∧ t.qm = d.qm))) ∧
    (∀ (hc : Fin 2) (cp : Fin 4), Completes (.cpWatchdog hc cp) s (fun t => (rg t 60 3 0x020).testBit 4 = true ∧ FaultSide d t))

/-- 14 R459, R461, R462. -/
def Obligations.FabricReportsEnterTheOriginTable : Prop :=
  ∀ (s : State) (port : PortId) (p : Packet), live s → regsSorted s.dev → SMap.sorted s.dev.fab.ports = true →
    Packet.ok p = true → headerOk p = true → p.typ = 15 → p.dst = ownDid s.dev → (fabPort s.dev port.val).up = true →
    let d := s.dev
    let origin := sBytes p.payload 0 2
    let kind := sBytes p.payload 2 1
    (0 < (refill d (fabPort d port.val)).rptTokens → rptValid origin kind = true → ∀ (k : Nat) (e : OrgEnt),
      d.flt.org.find? (fun x => x.2.origin == origin) = some (k, e) → Completes (.faultReport port p) s (fun t =>
        SMap.get? t.flt.org k = some { e with count := min (e.count + 1) (2 ^ 32 - 1), kinds := e.kinds ||| 2 ^ (kind - 1), last := timeNs d } ∧
        rg t 60 3 0x18C = min (rg d 60 3 0x18C + 1) (2 ^ 32 - 1) ∧ t.mem = d.mem ∧ t.qm = d.qm)) ∧
    ((refill d (fabPort d port.val)).rptTokens = 0 → Completes (.faultReport port p) s (fun t =>
      (rg t 60 3 0x020).testBit 7 = true ∧ min (rg d 60 3 0x190 + 1) (2 ^ 32 - 1) ≤ rg t 60 3 0x190 ∧ FaultSide d t))

/-- 09 R272 to R276: the write-combining buffer. -/
def Obligations.PartialLinesAreCombined : Prop :=
  ∀ (s : State) (md : MemDie) (line : Nat), live s → regsSorted s.dev → SMap.sorted s.dev.ext.wcb = true →
    SMap.sorted s.dev.ext.wcbHeld = true →
    let d := s.dev
    let room := (wcbOf d md.val).length + 1 < rg d (48 + md.val) 17 0x108 % 2048 ∧ (wcbOf d md.val).length < 1024
    let absent (l : Nat) := (wcbOf d md.val).find? (fun e => e.line == l) = none
    (∀ (mask : BitVec 128) (bytes : BitVec 1024) (ev : Upset), granDie (line / 32) = md.val → mask ≠ 0 → mask.toNat ≠ 2 ^ 128 - 1 →
      isT2Gran d (line / 32) = true → absent line →
      (room → Completes (.wcbWrite md line mask bytes ev) s (fun t =>
        wcbOf t md.val = wcbOf d md.val ++ [⟨line, mask.toNat, wcbMerge 0 bytes.toNat mask.toNat, d.now⟩] ∧
        t = { d with ext := { d.ext with wcb := t.ext.wcb } })) ∧
      (1024 ≤ (wcbOf d md.val).length → Completes (.wcbWrite md line mask bytes ev) s (fun t =>
        wcbHeldOf t md.val = wcbHeldOf d md.val ++ [⟨line, mask.toNat, bytes.toNat, d.now⟩] ∧
        t = { d with ext := { d.ext with wcbHeld := t.ext.wcbHeld } }))) ∧
    (∀ (e : WcbEnt) (ev : Upset), (wcbOf d md.val).find? (fun x => x.line == line) = some e →
      ((d.now - e.at_) * 1000 < rg d (48 + md.val) 17 0x104 % 4096 * 1050 →
        Completes (.wcbFlushAge md line ev) s (fun t => t = d)) ∧
      (rg d (48 + md.val) 17 0x104 % 4096 * 1050 ≤ (d.now - e.at_) * 1000 →
        ev = .none ∨ ev = .ue 0 → Completes (.wcbFlushAge md line ev) s (fun t =>
          wcbOf t md.val = (wcbOf d md.val).filter (fun x => x.line != line) ∧
          (∀ i, i < 128 → memByte t.mem.bytes (line * 128 + i) =
            (if e.mask.testBit i then wcbByte e.data i else memByte d.mem.bytes (line * 128 + i))) ∧
          (∀ a, a < line * 128 ∨ line * 128 + 128 ≤ a → memByte t.mem.bytes a = memByte d.mem.bytes a) ∧
          (ev = .ue 0 → poisoned t (line / 32) = true) ∧ (ev = .none → t.mem.poison = d.mem.poison) ∧ t.qm = d.qm ∧ t.cores = d.cores)) ∧
      (rg d (48 + md.val) 17 0x104 % 4096 * 1050 ≤ (d.now - e.at_) * 1000 →
        Completes (.wcbFlushAge md line .bufUE) s (fun t =>
          wcbOf t md.val = (wcbOf d md.val).filter (fun x => x.line != line) ∧ t.mem.bytes = d.mem.bytes ∧
          poisoned t (line / 32) = true ∧ (rg t (48 + md.val) 17 0x020).testBit 0 = true ∧ t.qm = d.qm ∧ t.cores = d.cores))) ∧
    (∀ (h : WcbHeld) (r : List WcbHeld) (ev : Upset), wcbHeldOf d md.val = h :: r →
      (1024 ≤ (wcbOf d md.val).length → Completes (.wcbFullWait md ev) s (fun t => t = d)) ∧
      (room → absent h.line → Completes (.wcbFullWait md ev) s (fun t =>
        wcbHeldOf t md.val = r ∧
        wcbOf t md.val = wcbOf d md.val ++ [⟨h.line, h.mask, wcbMerge 0 h.data h.mask, d.now⟩] ∧
        rg t (48 + md.val) 17 0x148 = min (rg d (48 + md.val) 17 0x148 + 2 * (d.now - h.since)) (2 ^ 32 - 1) ∧
        RegSide { d with ext := t.ext } t)))

/-- 09 R267, R269 to R271, R278, R280; 16 R498. -/
def Obligations.MemoryChannelsAreWatched : Prop :=
  ∀ (s : State) (acc : Acc) (ch : ChanId) (md : MemDie), live s → regsSorted s.dev → SMap.sorted s.dev.ext.wcb = true →
    SMap.sorted s.dev.ext.inks = true →
    let d := s.dev
    let die := chDie ch.val
    let page := chPage ch.val
    let onlyRegs (t : Dev) : Prop := FaultSide { d with ext := { d.ext with sensorFails := t.ext.sensorFails } } t
    (∀ x : BitVec 8, Completes (.gddrTempRead ch (some x)) s (fun t => onlyRegs t ∧
      bitsOf (rg t die page 0x100) 7 0 = x.toNat ∧
      (105 ≤ x.toNat → bitsOf (rg t die page 0x100) 18 17 = 2 ∧
        (bitsOf (rg d die page 0x100) 18 17 ≠ 2 → (rg t die page 0x020).testBit 4 = true)) ∧
      (x.toNat ≤ 92 → bitsOf (rg t die page 0x100) 18 17 = 0))) ∧
    (SMap.getD d.ext.sensorFails ch.val 0 = 2 → Completes (.gddrTempRead ch none) s (fun t => onlyRegs t ∧
      bitsOf (rg t die page 0x100) 18 17 = 2 ∧ bitsOf (rg t die page 0x100) 7 0 = bitsOf (rg d die page 0x100) 7 0)) ∧
    ((rg d die page 0x104).testBit 31 = true → rg d die page 0x108 + 1 < chLines →
      Completes (.scrub ch .clean) s (fun t => rg t die page 0x108 = rg d die page 0x108 + 1 ∧ RegSide d t) ∧
      Completes (.scrub ch .corrected) s (fun t => rg t die page 0x108 = rg d die page 0x108 + 1 ∧
        rg t die page 0x130 = min (rg d die page 0x130 + 1) (2 ^ 32 - 1) ∧ RegSide d t) ∧
      Completes (.scrub ch .double) s (fun t => rg t die page 0x108 = rg d die page 0x108 + 1 ∧
        rg t die page 0x134 = min (rg d die page 0x134 + 1) (2 ^ 32 - 1) ∧
        ((rg t die page 0x020).testBit 0 = true ∨ (rg t die page 0x020).testBit 1 = true) ∧
        t.mem.bytes = d.mem.bytes ∧ t.qm = d.qm ∧ t.cores = d.cores)) ∧
    ((rg d die page 0x104).testBit 31 = false → ∀ r, Completes (.scrub ch r) s (fun t => t = d)) ∧
    (∀ cache : Bool, Performed d acc (regOff (48 + md.val) 18 0x100) →
      (ink d md.val).changeTo = none → inkCache d md.val ≠ cache →
      (d.state = .ready → Completes (.inkwellModeWrite acc md cache) s (fun t =>
        (rg t (48 + md.val) 18 0x104).testBit 17 = true ∧ inkCache t md.val = inkCache d md.val ∧ RegSide d t)) ∧
      (d.state = .test ∨ d.state = .recovery → (cache = true → inkHasCopy d md.val = false) →
        Completes (.inkwellModeWrite acc md cache) s (fun t => (ink t md.val).changeTo = some cache ∧
          inkCache t md.val = inkCache d md.val ∧ RegSide { d with ext := { d.ext with inks := t.ext.inks } } t))) ∧
    (∀ (cache : Bool) (ev : Upset), (ink d md.val).changeTo = some cache → Completes (.inkwellModeChangeEnd md ev) s (fun t =>
      inkCache t md.val = cache ∧ (ink t md.val).changeTo = none ∧ (ink t md.val).sets = [] ∧ wcbOf t md.val = [] ∧
      (rg t (48 + md.val) 18 0x080).testBit 0 = true ∧ t.qm = d.qm ∧ t.cores = d.cores)) ∧
    (∀ ev, (ink d md.val).changeTo = none → Completes (.inkwellModeChangeEnd md ev) s (fun t => t = d)) ∧
    (Performed d acc (regOff (48 + md.val) 18 0x100) →
      Completes (.inkwellModeWrite acc md (inkCache d md.val)) s (fun t => t = d))

/-- 09 R283 to R288, R298 (which block takes a program: log 6). -/
def Obligations.FlashIsKeptInOrder : Prop :=
  ∀ (s : State) (sd : Fin 2), live s → regsSorted s.dev → SMap.sorted s.dev.ext.ftl = true →
    SMap.sorted (ftl s.dev sd.val).progs = true → SMap.sorted (ftl s.dev sd.val).erases = true →
    SMap.sorted (ftl s.dev sd.val).blks = true →
    let d := s.dev
    let x := ftl s.dev sd.val
    let onlyFlash (t : Dev) : Prop := RegSide { d with ext := { d.ext with ftl := t.ext.ftl } } t
    let moves (t : Dev) (b : Nat) (into : Nat → Prop) : Prop := ∀ u page, ∀ m : Bool,
      ((u, page) ∈ if m then x.mir else x.map) → pageBlk page = b →
        ∃ op q, SMap.get? (ftl t sd.val).progs op = some q ∧ q.key = u ∧ q.mirror = m ∧ q.move = some page ∧ into (pageBlk q.page)
    (∀ b : Nat,
      ((nandBlk x b).reads < max 1 (rg d (sdDie sd.val) 16 0x10C) →
        Completes (.readDisturbRelocation sd b) s (fun t => t = d)) ∧
      (max 1 (rg d (sdDie sd.val) 16 0x10C) ≤ (nandBlk x b).reads → (nandBlk x b).moving = false → (nandBlk x b).retired = false →
        Completes (.readDisturbRelocation sd b) s (fun t => onlyFlash t ∧ moves t b (fun _ => True) ∧
          rg t (sdDie sd.val) 16 0x140 = min (rg d (sdDie sd.val) 16 0x140 + 1) (2 ^ 32 - 1) ∧
          ((∀ e ∈ x.map ++ x.mir, pageBlk e.2 ≠ b) → blkUsed x b = false →
            ∃ op, SMap.get? (ftl t sd.val).erases op = some b)))) ∧
    (∀ a b : Nat,
      ((nandBlk x b).erases ≤ (nandBlk x a).erases + 512 → Completes (.wearLeveling sd a b) s (fun t => t = d)) ∧
      ((nandBlk x a).erases + 512 < (nandBlk x b).erases → (nandBlk x a).retired = false → (nandBlk x a).moving = false →
        (nandBlk x a).fill ≠ 0 → (nandBlk x b).retired = false → (nandBlk x b).fill = 0 →
        (∀ e ∈ x.blks, e.2.retired = false →
          if e.2.fill = 0 then e.2.erases ≤ (nandBlk x b).erases else (nandBlk x a).erases ≤ e.2.erases) →
        Completes (.wearLeveling sd a b) s (fun t => onlyFlash t ∧
          moves t a (fun k => ((x.map ++ x.mir).filter (fun e => pageBlk e.2 == a)).length ≤ blkPages → k = b)))) ∧
    (∀ (op : Nat) (p : Prog), SMap.get? x.progs op = some p → SMap.has x.erases op = false →
      (∀ c : Cmd, p.move = none → cmd d p.uid = some c → c.phase = .running → c.coresLeft = [] → c.t4left = 1 →
        Completes (.nandOperationEnd sd op true) s (fun t => SMap.get? (ftl t sd.val).progs op = none ∧
          (ftl t sd.val).written = x.written ++ [⟨p.uid, p.key, p.page, p.mirror⟩] ∧
          cmd t p.uid = some { c with t4left := 0, phase := .worked, reqAt := d.now } ∧
          t.qm.commitQ = d.qm.commitQ ++ [p.uid] ∧ t.mem = d.mem ∧ t.regs = d.regs)) ∧
      (op < x.nextProg → ∀ i ∈ [Instr.nandOperationEnd sd op false, .onfiTimeout ⟨16 * sd.val, by omega⟩ 1 op],
        Completes i s (fun t =>
          SMap.get? (ftl t sd.val).progs op = none ∧ (nandBlk (ftl t sd.val) (pageBlk p.page)).retired = true ∧
          (∃ q, SMap.get? (ftl t sd.val).progs x.nextProg = some q ∧ q.uid = p.uid ∧ q.key = p.key ∧ q.mirror = p.mirror) ∧
          t.mem = d.mem ∧ t.qm = d.qm))) ∧
    (∀ op b : Nat, SMap.get? x.erases op = some b →
      Completes (.nandOperationEnd sd op true) s (fun t => onlyFlash t ∧ SMap.get? (ftl t sd.val).erases op = none ∧
        nandBlk (ftl t sd.val) b = ⟨0, (nandBlk x b).erases + 1, (nandBlk x b).retired, 0, false⟩ ∧
        ∀ e ∈ (ftl t sd.val).pages, pageBlk e.1 ≠ b) ∧
      ∀ i ∈ [Instr.nandOperationEnd sd op false, .onfiTimeout ⟨16 * sd.val, by omega⟩ 2 op],
        Completes i s (fun t => (nandBlk (ftl t sd.val) b).retired = true ∧ SMap.get? (ftl t sd.val).erases op = none ∧
          t.mem = d.mem ∧ t.qm = d.qm)) ∧
    (∀ (ch : Fin 32) (u : Nat), ch.val / 16 = sd.val →
      Completes (.onfiTimeout ch 0 u) s (fun t => (rg t (sdDie sd.val) (ch.val % 16) 0x020).testBit 0 = true ∧
        rg t (sdDie sd.val) (ch.val % 16) 0x13C = min (rg d (sdDie sd.val) (ch.val % 16) 0x13C + 1) (2 ^ 32 - 1) ∧
        (∀ k sid, k / 4 = u → gKind k = 4 → rootOf d k = some sid → poisoned t sid = true) ∧
        t.mem.bytes = d.mem.bytes ∧ t.qm = d.qm ∧ t.cores = d.cores))

/-- 12 R394, R398, R400, R401, R403, R404; 15 R477, R480. 100 ms are 105,000,000 ARITH cycles. -/
def Obligations.HostPortsComeAndGo : Prop :=
  ∀ (s : State) (p : HostPort), live s → regsSorted s.dev → SMap.sorted s.dev.qm.jobs = true →
    let d := s.dev
    let x := pcie s.dev p
    let lose (i : Instr) : Prop := Completes i s (fun t => (pcie t p).hostLost = true ∧
      (rg t (pgPcie p) 0 0x020).testBit 0 = true ∧ t.mgmtPortB = (d.mgmtPortB || decide (p = .a)) ∧
      (∀ j, job t j = (if (job d j).state = 1 ∧ (job d j).port = portNo p ∧ (job d j).orphan = false
        then { job d j with orphan := true, sq0 := emptySQ, sq1 := emptySQ, sq2 := emptySQ } else job d j)) ∧
      t.mem = d.mem ∧ t.orb = d.orb)
    (x.perst = false → x.linkUp = false → ∀ (sp : Fin 7) (w : Fin 9) (f : Bool), Completes (.pcieLinkUp p sp w f) s (fun t =>
      t = setPcie d p { x with linkUp := true, downAt := 0, speed := sp.val, width := w.val, flit := f })) ∧
    (x.linkUp = true → Completes (.pcieLinkDown p) s (fun t =>
      pcie t p = { x with linkUp := false, downAt := d.now + 1 } ∧ RegSide (setPcie d p (pcie t p)) t ∧
      rg t (pgPcie p) 0 0x148 = min (rg d (pgPcie p) 0 0x148 + 1) (2 ^ 32 - 1))) ∧
    (x.linkUp = false → Completes (.pcieLinkDown p) s (fun t => t = d)) ∧
    (x.perst = false → d.powerLost = false → Completes (.perstAssert p) s (fun t =>
      (pcie t p).perst = true ∧ (pcie t p).linkUp = false ∧ (pcie t p).aps = [] ∧ (pcie t p).vfJobs = [] ∧
      (pcie t p).unmasked = [] ∧ (pcie t p).doe = none ∧ (pcie t p).hostLost = true ∧ t.mem = d.mem ∧ t.orb = d.orb)) ∧
    (x.perst = true → Completes (.perstDeassert p) s (fun t => t = setPcie d p { x with perst := false, perstAt := d.now })) ∧
    (x.hostLost = false →
      (x.linkUp = false → x.downAt ≠ 0 → x.downAt + 105000000 ≤ d.now + 1 → lose (.hostLost p)) ∧
      (Performed d (.pf p) (pcieOff p 0x100) → lose (.release (.pf p)))) ∧
    (x.linkUp = true → Completes (.hostLost p) s (fun t => t = d)) ∧
    (d.pcieA.hostLost = false → Performed d (.pf .a) (pcieOff .a 0x100) → Completes (.mgmtClaim (.pf .a)) s (fun t =>
      t = { d with mgmtPortB := false })) ∧
    (∀ a : Addr, Completes (.cplTimeout p a) s (fun t => (rg t (pgPcie p) 0 0x020).testBit 2 = true ∧
      rg t (pgPcie p) 0 0x144 = min (rg d (pgPcie p) 0 0x144 + 1) (2 ^ 32 - 1) ∧ FaultSide d t)) ∧
    (∀ (acc : Acc) (fn : Nat) (v : Fin 2048), accFn acc = some (p, fn) → v.val < vecCount fn → SMap.sorted x.pendingVec = true →
      Completes (.msixUnmask acc v) s (fun t => NSet.mem (pcie t p).unmasked (fn * 2048 + v.val) = true ∧
        NSet.mem (pcie t p).pendingVec (fn * 2048 + v.val) = false ∧
        t.out = (if NSet.mem x.pendingVec (fn * 2048 + v.val) then d.out ++ [.msix (portNo p) fn v.val] else d.out) ∧
        t = { setPcie d p (pcie t p) with out := t.out })) ∧
    (∀ (n : Fin 64), n.val ≠ 0 → Completes (.flr (.vf p n)) s (fun t =>
      (∀ k e, SMap.get? (pcie t p).aps k = some e → e.func ≠ n.val) ∧
      (∀ j, j < 256 → (vfMask x n.val).getLsbD j = true → (job d j).port = portNo p → (job d j).state = 1 →
        jobCmds d j ≠ [] → (job t j).state = 2))) ∧
    Completes (.flr (.pf p)) s (fun t => (pcie t p).aps = [] ∧ (pcie t p).vfJobs = [] ∧ (pcie t p).unmasked = [] ∧
      (pcie t p).linkUp = x.linkUp)

/-- 12 R388, R402 (which slots held entries take: log 57). -/
def Obligations.JobsAreAdoptedAndAssigned : Prop :=
  ∀ (s : State) (acc : Acc) (j : JobId), live s → regsSorted s.dev →
    let d := s.dev
    let p := accHost acc
    let x := pcie s.dev (accHost acc)
    (Performed d acc (pcieOff p 0x1A0) →
      ((job d j.val).state ≠ 1 → Completes (.pcieAdopt acc j) s (fun t => t = setPcie d p { x with adoptResult := 1 })) ∧
      ((job d j.val).state = 1 → (job d j.val).orphan = false → Completes (.pcieAdopt acc j) s (fun t =>
        t = setPcie d p { x with adoptResult := 2 })) ∧
      ((job d j.val).state = 1 → (job d j.val).orphan = true → Completes (.pcieAdopt acc j) s (fun t =>
        (pcie t p).adoptResult = 0 ∧ (job t j.val).orphan = false ∧ (job t j.val).port = portNo p ∧ (job t j.val).state = 1 ∧
        (job t j.val).cqHead = 0 ∧ (job t j.val).place = (job d j.val).place ∧ rj64 t j.val 0x148 = 0 ∧ rj64 t j.val 0x130 = 0 ∧
        vfOf t .a j.val = 0 ∧ vfOf t .b j.val = 0 ∧ t.mem = d.mem ∧ (∀ k, k ≠ j.val → job t k = job d k)))) ∧
    (∀ (w : Fin 8) (v : Word), Performed d acc (pcieOff p (0x164 + 4 * w.val)) →
      let n := rg d (pgPcie p) 0 0x160
      (n = 0 → Completes (.pcieVfJobs acc w v) s (fun t => t = d)) ∧
      (n ≠ 0 → SMap.sorted x.vfJobs = true →
        (∀ b, b < 32 → v.toNat.testBit b = true → heldElsewhere d p n (32 * w.val + b) = false) →
        Completes (.pcieVfJobs acc w v) s (fun t =>
          (∀ k, k < 256 → (vfMask (pcie t p) n).getLsbD k =
            (if k / 32 = w.val then v.toNat.testBit (k % 32) else (vfMask x n).getLsbD k)) ∧
          t = setPcie d p { x with vfJobs := (pcie t p).vfJobs })))

/-- 12 R390 to R392; 13 R425. A write of part of a T2 line passes through the write-combining buffer (WCB_WRITE). -/
def Obligations.AperturesReachOnlyTheirCopies : Prop :=
  ∀ (s : State) (acc : Acc) (p : HostPort) (fn : Nat) (off : BitVec 36), live s → regsSorted s.dev →
    accFn acc = some (p, fn) →
    let d := s.dev
    (∀ n, bar2Ok off n = true →
      (apTarget d p fn off.toNat n false = none → Completes (.bar2Read acc off n .none) s (fun t =>
        (rg t (pgPcie p) 0 0x020).testBit 3 = true ∧ (∃ l, t.out = l ++ [.unsupported]) ∧ FaultSide d t)) ∧
      (∀ k a o sid, apTarget d p fn off.toNat n false = some (k, a, o) → rootOf d k = some sid →
        (poisoned d sid = true → sealed d sid = false → Completes (.bar2Read acc off n .none) s (fun t =>
          t.out = d.out ++ [.readPoison] ∧ t.mem = d.mem ∧ t.qm = d.qm)) ∧
        (poisoned d sid = false → Completes (.bar2Read acc off n .none) s (fun t =>
          (∃ l, t.out = l ++ [.readData (if sealed d sid then 0 else ofLeBytes (stRead d sid o n))]) ∧
          rg t (pgPcie p) 0 0x130 = min (rg d (pgPcie p) 0 0x130 + 1) (2 ^ 32 - 1) ∧ t.mem = d.mem ∧ t.qm = d.qm))) ∧
      (∀ k a o, apTarget d p fn off.toNat n false = some (k, a, o) → rootOf d k = none →
        Completes (.bar2Read acc off n .none) s (fun t =>
          t.out = d.out ++ [.readData (ofLeBytes (List.replicate n 0))] ∧ RegSide { d with out := t.out } t))) ∧
    (∀ bs : List Byte, bar2Ok off bs.length = true →
      (apTarget d p fn off.toNat bs.length true = none → Completes (.bar2Write acc off bs .none) s (fun t =>
        (rg t (pgPcie p) 0 0x020).testBit 3 = true ∧ FaultSide d t)) ∧
      (∀ k a o, apTarget d p fn off.toNat bs.length true = some (k, a, o) → isPending d k = true →
        Completes (.bar2Write acc off bs .none) s (fun t =>
          t.mem = { d.mem with waiting := d.mem.waiting ++ [.host k o (bs.map BitVec.toNat)] } ∧ t.qm = d.qm)) ∧
      (∀ k a o, apTarget d p fn off.toNat bs.length true = some (k, a, o) → isPending d k = false →
        o + bs.length ≤ 4096 → (gKind k = 1 ∨ (o % 128 = 0 ∧ bs.length % 128 = 0)) →
        (∀ md e, e ∈ wcbOf d md → some (e.line / 32) ≠ rootOf d k ∧ e.line / 32 < 2 ^ 32 + d.mem.granCtr) →
        Completes (.bar2Write acc off bs .none) s (fun t =>
          readRoot t k o bs.length = bs.map BitVec.toNat ∧ t.mem.objs = d.mem.objs ∧ t.qm = d.qm ∧ t.cores = d.cores)))

/-- 12 R396; 13 R411, R414, R416, R418, R422 (order of the checks: log 56). -/
def Obligations.SecurityEngineKeepsKeys : Prop :=
  ∀ (s : State) (acc : Acc) (p : HostPort), live s → regsSorted s.dev → SMap.sorted s.dev.sec.keys = true →
    let d := s.dev
    let j := bitsOf (rg d 60 1 0x120) 7 0
    let k := bitsOf (rg d 60 1 0x120) 11 8
    let key := j * 16 + k
    let result (t : Dev) (r : Nat) : Prop := rg t 60 1 0x130 = r ∧ (rg t 60 1 0x080).testBit 0 = true
    (Performed d acc (regOff 60 1 0x12C) →
      (secOwned d acc j = false → Completes (.install acc .none) s (fun t => result t 1 ∧ RegSide d t) ∧
        Completes (.erase acc) s (fun t => result t 1 ∧ RegSide d t)) ∧
      (secOwned d acc j = true →
        (d.factoryTest = true → Completes (.install acc .none) s (fun t => result t 5 ∧ RegSide d t)) ∧
        (∀ v, d.factoryTest = false → SMap.get? d.sec.keys key = some v →
          Completes (.install acc .none) s (fun t => result t 4 ∧ RegSide d t)) ∧
        (∀ bs, d.factoryTest = false → SMap.get? d.sec.keys key = none → d.sec.fuseErr = false →
          readBlob d j (rg64 d 60 1 0x124) .none = (d, some bs) → ofLeBytes (bs.take 4) = 1 →
          (∀ kk pkg, unwrapBlob d.sec.krel bs = some (kk, pkg) → Completes (.install acc .none) s (fun t => result t 0 ∧
            SMap.get? t.sec.keys key = some ⟨kk, pkg⟩ ∧ (∀ k', k' ≠ key → SMap.get? t.sec.keys k' = SMap.get? d.sec.keys k') ∧
            RegSide { d with sec := { d.sec with keys := t.sec.keys } } t)) ∧
          (unwrapBlob d.sec.krel bs = none → Completes (.install acc .none) s (fun t => result t 3 ∧
            (rg t 60 1 0x020).testBit 1 = true ∧ FaultSide d t))) ∧
        Completes (.erase acc) s (fun t => result t 0 ∧ SMap.get? t.sec.keys key = none ∧
          (∀ k', k' ≠ key → SMap.get? t.sec.keys k' = SMap.get? d.sec.keys k') ∧ t.mem = d.mem ∧
          (∀ uid c, d.qm.cmds = [(uid, c)] → c.job = j → dOpcode c.desc = 0x09 → bitsOf (dBytes c.desc 28 4) 3 0 = k →
            c.phase = .worked → ∃ c', cmd t uid = some c' ∧ c'.phase = .ended ∧ c'.status = 0x60)))) ∧
    (cfgReach d p = true → ∀ (pr : Fin 256) (len : Nat) (req : List Byte), len ≤ 65536 → pr.val ≤ 2 → (pcie d p).doe = none →
      (req.length < len → Completes (.spdmRequest p pr len req) s (fun t =>
        (pcie t p).doe = some ⟨pr.val, req.map BitVec.toNat⟩ ∧ t = setPcie d p (pcie t p))) ∧
      (len ≤ req.length → pr.val ≠ 0 → d.sec.windowOpen = true → Completes (.spdmRequest p pr len req) s (fun t =>
        t.out = d.out ++ [.spdm (portNo p) true []] ∧
        rg t 60 1 0x190 = min (rg d 60 1 0x190 + 1) (2 ^ 32 - 1) ∧ RegSide { d with out := t.out } t)) ∧
      (len ≤ req.length → pr.val ≠ 0 → d.sec.windowOpen = false → Completes (.spdmRequest p pr len req) s (fun t =>
        t.sec.keys = d.sec.keys ∧ rg t 60 1 0x190 = min (rg d 60 1 0x190 + 1) (2 ^ 32 - 1) ∧
        (if pr.val = 1 ∧ (((req.map BitVec.toNat).take len)[1]?).getD 0 = 0x82
          then t.out = d.out ++ [.spdm (portNo p) false (certAnswer ((req.map BitVec.toNat).take len))] ∧ t.sec = d.sec
          else (∃ r, t.out = d.out ++ [.spdm (portNo p) false r]) ∧ t.sec.drbg = (drbgDraw d.sec.drbg 32).1) ∧
        RegSide { d with out := t.out, sec := t.sec, pcieA := t.pcieA, pcieB := t.pcieB } t))) ∧
    (cfgReach d p = true → Completes (.doeAbort p) s (fun t => t = setPcie d p { pcie d p with doe := none })) ∧
    (cfgReach d p = false → Completes (.doeAbort p) s (fun t => t = d))

/-- 04 R131; 16 R491, R492, R494, R504; 17 R517, R518, R520. -/
def Obligations.RegistersAreReadAndWritten : Prop :=
  ∀ (s : State) (acc : Acc) (off : BitVec 28) (v : Word), live s → regsSorted s.dev →
    let d := s.dev
    (∀ be t0, accTarget d acc off.toNat = some t0 → isListed t0 = false →
      Completes (.registerWrite acc off be v) s (fun t => t = d)) ∧
    (∀ be t0, accTarget d acc off.toNat = some t0 → isListed t0 = true → accWrite d acc off.toNat = (d, some t0) → be ≠ 15#4 →
      Completes (.registerWrite acc off be v) s (fun t =>
        rg t 60 4 0x134 = min (rg d 60 4 0x134 + 1) (2 ^ 32 - 1) ∧ (rg t 60 4 0x020).testBit 0 = true ∧ FaultSide d t)) ∧
    (∀ (j : JobId) (reg : Nat) (r : RegRow), accTarget d acc off.toNat = some (regOff 60 (jPage j.val) reg) →
      accWrite d acc off.toNat = (d, some (regOff 60 (jPage j.val) reg)) → findRow .qmgrJ reg = some r → r.w1c = 0 →
      reg ∈ [0x108, 0x10C, 0x110, 0x114, 0x118, 0x11C, 0x120, 0x130, 0x134, 0x138, 0x13C, 0x140, 0x144, 0x148, 0x14C] →
      Completes (.registerWrite acc off 15#4 v) s (fun t =>
        rj t j.val reg = (rj d j.val reg &&& (0xFFFFFFFF - r.rw)) + (v.toNat &&& r.rw) ∧
        (∀ o, o ≠ regOff 60 (jPage j.val) reg → raw t o = raw d o) ∧ RegSide d t)) ∧
    (off.toNat = regOff 56 16 0x1D8 → accTarget d acc off.toNat = some off.toNat → pageResponds d acc .fabr = true →
      dieRetained d 56 = false → dieResetting d 56 = false → SMap.get? d.latch off.toNat = none →
      Completes (.loReadLatch acc off) s (fun t => t.out = d.out ++ [.readData (d.orb.occ % 2 ^ 32)] ∧
        SMap.get? t.latch (regOff 56 16 0x1DC) = some (BitVec.ofNat 32 (d.orb.occ / 2 ^ 32 % 2 ^ 32)) ∧
        t = { d with latch := t.latch, out := t.out })) ∧
    (accTarget d acc (regOff 60 3 0x144) = some (regOff 60 3 0x144) → pageResponds d acc .fltag = true →
      dieRetained d 60 = false → dieResetting d 60 = false →
      Completes (.orgW0Read acc) s (fun t => (∃ x, t.out = d.out ++ [.readData x]) ∧
        SMap.get? t.latch (regOff 60 3 0x148) = some (BitVec.ofNat 32 (match SMap.get? d.flt.org (rg d 60 3 0x140) with
          | some e => e.count
          | none => 0)) ∧
        t = { d with latch := t.latch, out := t.out })) ∧
    (d.powerLost = true → ∀ q, Completes (.jtagAccess q) s (fun t => t = d)) ∧
    (d.powerLost = false → Completes (.jtagAccess .idcode) s (fun t => t = { d with out := d.out ++ [.jtag (leBytes 4 idcode)] }) ∧
      (∀ (n : CoreId) (i : Fin 32),
        (NSet.mem (core d n.val).vsealed i.val = false → Completes (.jtagAccess (.readVreg n i)) s (fun t =>
          t = { d with out := d.out ++ [.jtag (leBytes 1024 (SMap.getD (core d n.val).vregs i.val 0).toNat)] })) ∧
        (NSet.mem (core d n.val).vsealed i.val = true → Completes (.jtagAccess (.readVreg n i)) s (fun t =>
          (∃ l, t.out = l ++ [.jtag (List.replicate 1024 0)]) ∧
          rg t 60 1 0x180 = min (rg d 60 1 0x180 + 1) (2 ^ 32 - 1) ∧ FaultSide d t)))) ∧
    (∀ (o n : Nat), ∃ bs : List Nat, bs.length = n ∧ Completes (.mgmtBusRead 0 o n) s (fun t =>
      t = { d with out := d.out ++ [.bus bs] }) ∧
      (o = 0 → d.powerLost = false → 2 ≤ n → bs[0]? = some 1 ∧ bs[1]? = some (devStateNo d.state)))

/-- 10 R300 to R302, R331; 15 R470 (log 31: a writer with no port makes port A the owner; log 33: a job that waits for its dies conflicts as a resident one). -/
def Obligations.JobsAreActivatedAndDestroyed : Prop :=
  ∀ (s : State) (acc : Acc) (j : JobId), live s → Performed s.dev acc (jobOff acc j.val 0x100) → TablesSorted s.dev →
    let d := s.dev
    let x := job s.dev j.val
    (x.state = 0 →
      Completes (.activate acc j none) s (fun t =>
        job t j.val = { x with err := 1 } ∧ t = { d with qm := { d.qm with jobs := t.qm.jobs } }) ∧
      (∀ bs : List Byte, decodePlacement (bs.map BitVec.toNat) = none →
        Completes (.activate acc j (some bs)) s (fun t =>
          job t j.val = { x with err := 2 } ∧ t = { d with qm := { d.qm with jobs := t.qm.jobs } })) ∧
      (∀ (bs : List Byte) (p : Placement), decodePlacement (bs.map BitVec.toNat) = some p → noConflict d j.val p = true →
        (sleepingDies d p = [] → Completes (.activate acc j (some bs)) s (fun t =>
          (job t j.val).state = 1 ∧ (job t j.val).resident = true ∧ (job t j.val).place = p ∧
          (job t j.val).port = accPort acc ∧ (job t j.val).sliceStart = d.now ∧ (job t j.val).quota1 = 0 ∧
          (job t j.val).quota2 = 0 ∧ (∀ k, k ≠ j.val → job t k = job d k) ∧
          (∀ n, (∀ e ∈ p.cores, e.core ≠ n) → core t n = core d n) ∧
          t = { d with qm := { d.qm with jobs := t.qm.jobs }, mem := { d.mem with marks := t.mem.marks },
                       cores := t.cores })) ∧
        (sleepingDies d p ≠ [] → Completes (.activate acc j (some bs)) s (fun t =>
          (job t j.val).state = 1 ∧ (job t j.val).resident = false ∧ (job t j.val).awaits = true ∧
          (job t j.val).place = p ∧ t.cores = d.cores ∧ t.regs = d.regs ∧
          (∀ e ∈ p.cores, SMap.get? d.pwr.retained (coreDie e.core) = some 0 →
            NSet.mem t.pwr.waking (coreDie e.core) = true ∧ dieRetained t (coreDie e.core) = false))))) ∧
    (x.state ≠ 0 → ∀ r, Completes (.activate acc j r) s (fun t => t = d)) ∧
    (x.state = 1 →
      (jobCmds d j.val = [] → Completes (.destroy acc j) s (fun t =>
        (job t j.val).state = 0 ∧ (job t j.val).resident = false ∧ (∀ n, (sess t n).job ≠ some j.val) ∧
        (∀ k, k / 16 = j.val → SMap.get? t.sec.keys k = none) ∧ t.qm.cmds = d.qm.cmds ∧ t.orb = d.orb ∧
        t.boot = d.boot)) ∧
      (∀ (uid : Nat) (c : Cmd), cmd d uid = some c → c.job = j.val → c.phase ≠ .ended →
        Completes (.destroy acc j) s (fun t =>
          (job t j.val).state = 2 ∧ (job t j.val).destroyAt = some d.now ∧ (∀ b ∈ t.qm.bells, b.1 ≠ j.val) ∧
          EndedAs t uid c 0x20 false ∧ t.out = d.out))) ∧
    (x.state ≠ 1 → Completes (.destroy acc j) s (fun t => t = d))

/-- 10 R304, R333; 16 R494. -/
def Obligations.SessionsAreBoundAndPoolsDeclared : Prop :=
  ∀ (s : State) (acc : Acc) (j : JobId), live s → TablesSorted s.dev →
    let d := s.dev
    (Performed s.dev acc (jobOff acc j.val 0x1D0) → ∀ n : SessId,
      ((job d j.val).state = 1 →
        ((sess d n.val).job = none → Completes (.bind acc j n) s (fun t =>
          sess t n.val = { sess d n.val with job := some j.val } ∧ (job t j.val).sessResult = 0 ∧
          (∀ k, k ≠ n.val → sess t k = sess d k) ∧
          t = { d with qm := { d.qm with jobs := t.qm.jobs, sess := t.qm.sess } })) ∧
        ((sess d n.val).job ≠ none → Completes (.bind acc j n) s (fun t =>
          (job t j.val).sessResult = 1 ∧ t = { d with qm := { d.qm with jobs := t.qm.jobs } })) ∧
        ((sess d n.val).job = some j.val → sessEmpty (sess d n.val) = true →
          (jobCmds d j.val).any (fun e => namesSess e.2 n.val) = false → Completes (.unbind acc j n) s (fun t =>
            sess t n.val = freeSess ∧ (job t j.val).sessResult = 0 ∧ (∀ k, k ≠ n.val → sess t k = sess d k) ∧
            t = { d with qm := { d.qm with jobs := t.qm.jobs, sess := t.qm.sess } })) ∧
        ((sess d n.val).job = some j.val →
          (sessEmpty (sess d n.val) = false ∨ (jobCmds d j.val).any (fun e => namesSess e.2 n.val) = true) → Completes (.unbind acc j n) s (fun t =>
          (job t j.val).sessResult = 2 ∧ t = { d with qm := { d.qm with jobs := t.qm.jobs } })) ∧
        ((sess d n.val).job ≠ some j.val → Completes (.unbind acc j n) s (fun t =>
          (job t j.val).sessResult = 3 ∧ t = { d with qm := { d.qm with jobs := t.qm.jobs } }))) ∧
      ((job d j.val).state ≠ 1 →
        Completes (.bind acc j n) s (fun t => t = d) ∧ Completes (.unbind acc j n) s (fun t => t = d))) ∧
    (∀ (reg : Fin 11) (v : Word), Performed s.dev acc (jobOff acc j.val (declReg reg.val)) →
      ((jobCmds d j.val ≠ [] ∨ declFree d j.val (declReg reg.val) = false) →
        Completes (.declarationWrite acc j reg v) s (fun t =>
          job t j.val = { job d j.val with declRej := true } ∧ t = { d with qm := { d.qm with jobs := t.qm.jobs } })) ∧
      (jobCmds d j.val = [] → declFree d j.val (declReg reg.val) = true →
        (reg.val = 0 ∨ reg.val = 2 ∨ reg.val = 4 ∨ reg.val = 6) →
        (∃ k, 1 ≤ k ∧ k ≤ 8 ∧ Wbits v 8 0 = 32 * k) → Wbits v 23 20 ∈ [3, 4, 6, 7] → Wbits v 27 24 ∈ [6, 7] →
        Completes (.declarationWrite acc j reg v) s (fun t =>
          bitsOf (rj t j.val (declReg reg.val)) 8 0 = Wbits v 8 0 ∧
          bitsOf (rj t j.val (declReg reg.val)) 18 16 = Wbits v 18 16 ∧
          bitsOf (rj t j.val (declReg reg.val)) 23 20 = Wbits v 23 20 ∧
          bitsOf (rj t j.val (declReg reg.val)) 27 24 = Wbits v 27 24 ∧ RegSide d t)))

/-- 10 R323 to R326, R330 (log 47: what the incoming job waits for). -/
def Obligations.SlicesEndAndJobsArePreempted : Prop :=
  ∀ (s : State), live s → TablesSorted s.dev →
    let d := s.dev
    (∀ j : JobId, (job d j.val).state = 1 → (job d j.val).resident = true → rj d j.val 0x108 ≠ 0 →
      (job d j.val).sliceStart + rj d j.val 0x108 * 1050 ≤ d.now →
      (d.qm.pres = [] → Completes (.sliceEnd j) s (fun t =>
        (job t j.val).sliceStart ≤ d.now ∧ d.now < (job t j.val).sliceStart + rj d j.val 0x108 * 1050 ∧
        job t j.val = { job d j.val with sliceStart := (job t j.val).sliceStart } ∧
        t = { d with qm := { d.qm with jobs := t.qm.jobs } })) ∧
      (∀ p : Pre, d.qm.pres = [p] → p.victim = j.val → p.endedAt = none →
        (∀ c, cmd d p.uid = some c → affectedBy d p c = false) → Completes (.sliceEnd j) s (fun t =>
        t.qm.pres = [{ p with endedAt := some d.now }] ∧ t.qm.jobs = d.qm.jobs ∧ t.out = d.out ∧
        (∀ (uid : Nat) (c : Cmd), cmd d uid = some c →
          (affectedBy d p c = false → ∃ c', cmd t uid = some c' ∧ c'.status = c.status ∧ c'.committed = c.committed ∧
            (c'.phase = .ended ↔ c.phase = .ended)) ∧
          (affectedBy d p c = true → dRTC c.desc = false → EndedAs t uid c 0x20 false) ∧
          (affectedBy d p c = true → dRTC c.desc = true → ∃ c', cmd t uid = some c' ∧ c'.affected = true ∧
            c'.phase ≠ .ended))))) ∧
    (∀ (uid : Nat) (c : Cmd), cmd d uid = some c →
      (c.affected = false → Completes (.overrunExpiry uid) s (fun t => t = d)) ∧
      (∀ (p : Pre) (t0 : Nat), c.affected = true → (c.phase = .running ∨ c.phase = .worked) → p ∈ d.qm.pres → p.victim = c.job →
        p.endedAt = some t0 → t0 + max 1 (rg d (qmDie d c.job) 0x100 0x108) * 1050 ≤ d.now →
        Completes (.overrunExpiry uid) s (fun t =>
          EndedAs t uid c 0x20 false))) ∧
    (∀ (uid : Nat) (c : Cmd) (ev : Upset), MayStart d uid 0x08 c → isPriv d c.job = true →
      dBits c.desc 10 1 1 = 0 →
      let v := dBytes c.desc 8 1
      let i := dBytes c.desc 9 1
      let kill := dBits c.desc 10 0 0 == 1
      let down := !kill && decide ((job d v).quota2 < usage (setCmd d uid { c with phase := .running }) v 2)
      isActive d v = true → isActive d i = true → (job d v).resident = true → (job d i).resident = false →
      (job d i).awaits = false → (job d i).save = none → bitsOf (rj d v 0x120) 15 0 = 0 → rj d v 0x108 = 0 →
      Completes (.preempt uid ev) s (fun t =>
        t.qm.pres = d.qm.pres ++ [⟨uid, v, i, kill || down, none, []⟩] ∧
        cmd t uid = some { c with phase := .running, detail := b2n down } ∧
        t = { d with qm := { d.qm with cmds := t.qm.cmds, pres := t.qm.pres } })) ∧
    (∀ (uid : Nat) (c : Cmd) (p : Pre) (ev : Upset), d.qm.pres = [p] → p.uid = uid → p.endedAt ≠ none →
      (∀ e ∈ d.qm.cmds, affectedBy d p e.2 = false) → pfMoving d p.victim = false → p.victim ≠ p.incoming →
      (∀ k, k ≠ p.victim → k ≠ p.incoming → (job d k).resident = false ∧ (job d k).awaits = false) →
      sleepingDies d (job d p.incoming).place = [] → isActive d p.incoming = true → (job d p.victim).resident = true →
      cmd d uid = some c → c.phase = .running → c.coresLeft = [] → c.t4left = 0 →
      Completes (.victimOut uid ev) s (fun t =>
        t.qm.pres = [] ∧ (job t p.victim).resident = false ∧ (job t p.incoming).resident = true ∧
        (job t p.incoming).sliceStart = d.now ∧ WorkedNow t uid ∧ t.orb = d.orb ∧ t.boot = d.boot))

/-- 08 R252 to R256. -/
def Obligations.PrefetchListsRun : Prop :=
  ∀ (s : State) (j : JobId), live s → TablesSorted s.dev →
    let d := s.dev
    (∀ (acc : Acc) (v : Word), Performed s.dev acc (jobOff acc j.val 0x188) → (job d j.val).state = 1 →
      (job d j.val).pf = [] → Wbits v 20 0 ≤ 1048576 → Completes (.prefetchListSet acc j v) s (fun t =>
        bitsOf (rj t j.val 0x188) 20 0 = Wbits v 20 0 ∧ (job t j.val).pfStep = 0 ∧
        (∀ i, SMap.get? (job t j.val).pf i =
          if i < Wbits v 20 0 ∧ pfWait (pfBytes d j.val i) = 0 ∧ pfStepOf (pfBytes d j.val i) ≤ max 1 (Wbits v 31 24)
          then some .eligible else none) ∧
        t.qm.cmds = d.qm.cmds ∧ t.cores = d.cores ∧ t.mem.bytes = d.mem.bytes)) ∧
    (∀ (md : MemDie) (i : Nat) (ev : Upset), pfReady d md.val j.val i (pfBytes d j.val i) = true →
      (pfBad d j.val i (pfBytes d j.val i) = false → addrTier (pfSrc (pfBytes d j.val i)) ≠ 3 →
        addrTier (pfDst (pfBytes d j.val i)) ≠ 3 → Completes (.prefetchEntryIssue md j i ev) s (fun t =>
          (∃ src, SMap.get? (job t j.val).pf i = some (.transfer md.val src)) ∧ t.regs = d.regs ∧
          t.qm.cmds = d.qm.cmds ∧ t.mem.bytes = d.mem.bytes ∧ t.mem.marks = d.mem.marks ∧ t.cores = d.cores)) ∧
      (pfBad d j.val i (pfBytes d j.val i) = true → Completes (.prefetchEntryIssue md j i ev) s (fun t =>
        SMap.get? (job t j.val).pf i = some .finished ∧ (rg t (48 + md.val) 16 0x020).testBit 0 = true ∧
        t.qm.cmds = d.qm.cmds))) ∧
    (∀ (md : MemDie) (i : Nat), SMap.get? (job d j.val).pf i = some (.transfer md.val none) → pfWaits d j.val i = false →
      Completes (.prefetchEntryDone md j i .none) s (fun t =>
        SMap.get? (job t j.val).pf i = some .finished ∧ t.qm.cmds = d.qm.cmds ∧ t.cores = d.cores ∧
        (∀ k ∈ rangeKeys (pfDst (pfBytes d j.val i)) (pfGrans (pfBytes d j.val i)),
          (j.val, i) ∉ SMap.getD t.mem.marks k []))) ∧
    (∀ (n : CoreId) (x : Ctx) (it : Item) (h : Nat) (r : List Item), ctxOf d n.val j.val = some x → x.todo = it :: r →
      x.heldFrom = some h → aType (actOf x.image it) ≠ 7 → (readGrans d n.val j.val x it).any (isPending d) = false →
      Completes (.pendingReadResume n j) s (fun t =>
        ctxOf t n.val j.val = some { x with heldFrom := none } ∧ SeqSide d t n.val))

/-- 06 R192, R195 to R197, R202 (log 30: the lowest free arena entry). -/
def Obligations.StateSlotsAreSwapped : Prop :=
  ∀ (s : State), live s → TablesSorted s.dev →
    let d := s.dev
    (∀ (uid : Nat) (c : Cmd) (n o : Nat) (es : List Nat) (sid : Nat), MayStart d uid 0x02 c →
      (job d c.job).resident = true → ListReady d c n o es → listSlots d c.job es = some [sid] → sid < 2 ^ 24 →
      (dBits c.desc 8 3 0 = 5 →
        ((slot d sid).state = .resident → (slot d sid).pins = 0 → Completes (.slotOut uid .none) s (fun t =>
          slot t sid = { slot d sid with state := .swappingOut, swapPend := false } ∧
          cmd t uid = some { withList c es with phase := .running, swaps := [slotRef d sid] } ∧ t.mem = d.mem ∧ t.regs = d.regs)) ∧
        ((slot d sid).state = .resident → (slot d sid).pins ≠ 0 → Completes (.slotOut uid .none) s (fun t =>
          slot t sid = { slot d sid with swapPend := true } ∧
          cmd t uid = some { withList c es with phase := .running, swaps := [slotRef d sid] } ∧ t.mem = d.mem ∧ t.regs = d.regs)) ∧
        ((slot d sid).state = .swapped → Completes (.slotOut uid .none) s (fun t =>
          WorkedNow t uid ∧ t.qm.slots = d.qm.slots ∧ t.mem = d.mem ∧ t.regs = d.regs))) ∧
      (dBits c.desc 8 3 0 = 6 →
        (∀ i, (slot d sid).state = .swapped → freeArena d (slot d sid).job (slot d sid).layer = some i →
          Completes (.slotIn uid .none) s (fun t =>
            slot t sid = { slot d sid with state := .swappingIn, arenaIdx := i } ∧
            cmd t uid = some { withList c es with phase := .running, swaps := [slotRef d sid] } ∧ t.mem = d.mem ∧ t.regs = d.regs)) ∧
        ((slot d sid).state = .swapped → freeArena d (slot d sid).job (slot d sid).layer = none →
          Completes (.slotIn uid .none) s (fun t => EndedAs t uid c 0x40 false ∧ t.qm.slots = d.qm.slots ∧ t.mem = d.mem)) ∧
        ((slot d sid).state = .resident → (slot d sid).swapPend = false → Completes (.slotIn uid .none) s (fun t =>
          WorkedNow t uid ∧ t.mem = d.mem ∧ t.regs = d.regs)))) ∧
    (∀ sid : Nat,
      ((slot d sid).state = .resident → (slot d sid).swapPend = true → (slot d sid).pins = 0 →
        Completes (.swapOutStart sid) s (fun t =>
          slot t sid = { slot d sid with state := .swappingOut, swapPend := false } ∧
          t = { d with qm := { d.qm with slots := t.qm.slots } })) ∧
      ((slot d sid).swapPend = false ∨ (slot d sid).pins ≠ 0 → Completes (.swapOutStart sid) s (fun t => t = d)) ∧
      (homeCore d (slot d sid).job (slot d sid).layer < 288 → (slot d sid).queuedOpp = false →
        let die := coreDie (homeCore d (slot d sid).job (slot d sid).layer)
        let gs := List.range (halfGrans (cometOf d (slot d sid).job (slot d sid).layer))
        (∀ ev, (slot d sid).state = .swappingOut →
          Completes (.swapTransferEnd sid ev) s (fun t =>
            slot t sid = { slot d sid with state := .swapped, arenaIdx := 0 } ∧ t.cores = d.cores ∧
            rg t die 17 0x140 = min (rg d die 17 0x140 + 1) (2 ^ 32 - 1) ∧
            ((slot d sid).zero = true → t.mem = d.mem))) ∧
        ((slot d sid).state = .swappingIn →
          ((slot d sid).zero = true ∨ (∀ g ∈ gs, ∀ r, rootOf d (gKey 10 sid g) = some r → poisoned d r = false) →
            Completes (.swapTransferEnd sid .none) s (fun t =>
              slot t sid = { slot d sid with state := .resident } ∧ t.cores = d.cores ∧
              rg t die 17 0x13C = min (rg d die 17 0x13C + 1) (2 ^ 32 - 1) ∧
              ((slot d sid).zero = true → t.mem = d.mem))) ∧
          (∀ ev, (slot d sid).zero = false →
            ((ev = .ue 0 ∧ ∃ g ∈ gs, (rootOf d (gKey 10 sid g)).isSome = true) ∨
             (∃ g ∈ gs, ∃ r, rootOf d (gKey 10 sid g) = some r ∧ poisoned d r = true)) →
            Completes (.swapTransferEnd sid ev) s (fun t =>
              slot t sid = { slot d sid with state := .resident, poison := true } ∧
              (rg t die 17 0x020).testBit 2 = true)))))

/-- 08 R238 to R240, R246; 10 R311, R322; 13 R421, R423. -/
def Obligations.DataIsCopiedStagedPublishedLoaded : Prop :=
  ∀ (s : State) (uid : Nat) (c : Cmd), live s → TablesSorted s.dev →
    let d := s.dev
    let c1 : Cmd := { c with phase := .running }
    let d1 := setCmd s.dev uid c1
    (∀ (a b : CoreId) (o p : Nat), MayStart d uid 0x02 c → dBits c.desc 8 3 0 = 0 →
      copySrc c = .t0 a.val o → copyDst c = .t0 b.val p → 0 < dBytes c.desc 32 4 →
      (tileGrans (dBits c.desc 8 7 4)).isSome = true →
      t0Ready d c.job (copySrc c) = true → t0Ready d c.job (copyDst c) = true →
      movePending d (copySrc c) (copyDst c) (copyN c) = false →
      rangeOk d uid c.job (copySrc c) (copyN c) false = true → rangeOk d uid c.job (copyDst c) (copyN c) true = true →
      (∀ k ∈ rangeKeys (copySrc c) (copyN c), poisoned d k = false) →
      Completes (.copyTilesCopy uid .none) s (fun t =>
        readT0 t b.val p (4096 * copyN c) = readT0 d a.val o (4096 * copyN c) ∧
        GransKept d t (rangeKeys (copyDst c) (copyN c)) ∧ WorkedNow t uid ∧ t.regs = d.regs ∧ t.mem.objs = d.mem.objs ∧
        t.mem.roots = d.mem.roots ∧ t.cores = d.cores)) ∧
    (∀ (o : Obj) (cp : CopySt), MayStart d uid 0x02 c → dBits c.desc 8 3 0 = 4 →
      let st := dBits c.desc 8 15 12
      let dt := cTier c
      okTier st = true → (dt = 1 ∨ dt = 2) → st ≠ dt → copyFor d uid (cOid c) st = some (o, cp) →
      movePending d (.obj st (cOid c) 0) (.obj dt (cOid c) 0) o.size = false →
      t0Ready d c.job (.obj st (cOid c) 0) = true → mayRead o c.job = true → underCreation o uid dt = false →
      (copyOf o dt).present = false → o.size ≤ 0x10000000 →
      fits d1 c.job dt (chargeOf o dt) o.t1die = true →
      (∀ g < o.size, ∀ k, rootOf d (gKey st (cOid c) g) = some k → poisoned d k = false) →
      Completes (.stage uid .none) s (fun t =>
        WorkedNow t uid ∧ (∃ o', obj t (cOid c) = some o' ∧ (copyOf o' dt).present = true ∧
          (copyOf o' dt).payer = c.job ∧ (copyOf o' dt).newBy = uid ∧ o'.size = o.size) ∧
        (∀ oid, oid ≠ cOid c → obj t oid = obj d oid) ∧ t.qm.jobs = d.qm.jobs ∧ t.cores = d.cores)) ∧
    (∀ (n o : Nat) (es : List Nat) (ps : List PEnt), MayStart d uid 0x02 c → dBits c.desc 8 3 0 = 7 →
      ListReady d c n o es → listPages d c.job es = some ps →
      (∀ e ∈ ps, (pst d e.pid).closed = true ∧ ((pst d e.pid).res = 1 ∨ (pst d e.pid).res = 2)) →
      stageFits (setCmd d uid { withList c es with phase := .running }) c.job
        (((ps.map (·.pid)).dedup).filter (fun p => (pst d p).res == 1)) = true →
      (∀ r ∈ d.mem.roots, gKind r.1 = 8 → gId r.1 ∈ ps.map (·.pid) → poisoned d r.2 = false) →
      Completes (.pageStage uid .none) s (fun t =>
        t.qm = (requested d uid { withList c es with swaps := (ps.map (pageRef d)).dedup }).qm ∧ t.mem = d.mem ∧
        t.cores = d.cores ∧ t.out = d.out)) ∧
    (∀ (t oid o : Nat) (ob : Obj) (cp : CopySt), MayStart d uid 0x05 c → pubSrc c = .obj t oid o →
      let len := dBytes c.desc 24 4
      0 < len → len ≤ 2 ^ 20 → t0Ready d c.job (pubSrc c) = true → copyFor d uid oid t = some (ob, cp) →
      mayRead ob c.job = true → o + len ≤ ob.size * 4096 → cmd d 0 = none → uid ≠ 0 →
      (∀ g < ob.size, isPending d (gKey t oid g) = false) →
      (∀ g < ob.size, ∀ k, rootOf d (gKey t oid g) = some k → sealed d k = false ∧ poisoned d k = false) →
      Completes (.publish uid .none) s (fun u =>
        (∃ bs : List Nat, u.out = d.out ++ [.pcieWrite (job d c.job).port (dBytes c.desc 16 8) bs] ∧ bs.length = len ∧
          ∀ i < len, bs[i]? = (readRoot d (gKey t oid ((o + i) / 4096)) ((o + i) % 4096) 1)[0]?) ∧
        WorkedNow u uid ∧ u.mem.bytes = d.mem.bytes ∧ u.qm.jobs = d.qm.jobs)) ∧
    (MayStart d uid 0x06 c →
      (∀ e ∈ d.qm.cmds, e.2.job = c.job → e.1 < uid → (dBits c.desc 8 2 0).testBit e.2.queue = true → e.2.phase = .ended) →
      Completes (.fence uid .none) s (fun t =>
        WorkedNow t uid ∧ (∀ md, md < 8 → wcbOf t md = []) ∧ t.mem.objs = d.mem.objs ∧ t.mem.roots = d.mem.roots ∧
        t.qm.jobs = d.qm.jobs ∧ t.cores = d.cores)) ∧
    (∀ (slot : KeySlot) (d2 : Dev) (data : List (List Nat × Bool)) (gs : List (List Nat)) (d3 : Dev),
      MayStart d uid 0x09 c → t0Ready d c.job (lsSrc c) = true →
      movePending d (lsSrc c) (lsDst c) (lsGrans c) = false → lsGrans c ≠ 0 → lsAddrOk d1 uid c1 (lsGrans c) = true →
      d.factoryTest = false → d.sec.fuseErr = false → SMap.get? d.sec.keys (c.job * 16 + lsSlot c) = some slot →
      let d0 := holdAddr (holdAddr d1 uid (lsSrc c)) uid (lsDst c)
      let m := 1 + segGrans (lsGrans c)
      let hd := ((data.map (·.1)).head?).getD []
      let dk := rangeKeys (lsDst c) gs.length
      gather uid (qmCap d0 c.job (encodeAddr (lsSrc c)) 1 (min (m * 4096) 0xFFFF))
        ((granAddrs (lsSrc c) m).zip (rangeKeys (lsSrc c) m)) (touchReads d0 (rangeKeys (lsSrc c) m)) .none
        = (d2, .ok data) →
      (∀ x ∈ data, x.2 = false) → ofLeBytes (hd.take 4) = 0x4B534750 → ofLeBytes ((hd.drop 4).take 4) = 1 →
      ofLeBytes ((hd.drop 8).take 16) = slot.pkgId.toNat →
      256 * ofLeBytes ((hd.drop 256).take 8) + lsGrans c ≤ ofLeBytes ((hd.drop 24).take 8) →
      (lsGrans c % 256 = 0 ∨ 256 * ofLeBytes ((hd.drop 256).take 8) + lsGrans c = ofLeBytes ((hd.drop 24).take 8)) →
      openAll slot.key (hd.take 256) (chunkSizes (lsGrans c)) (ofLeBytes ((hd.drop 256).take 8)) ((data.map (·.1)).drop 1)
        = some gs →
      dk.any (fun k => gKind k == 4 && !gIsT0 k) = false →
      scatter uid (dk.zip (gs.map (fun g => (g, true)))) d2 = .ok d3 →
      Completes (.loadSealed uid .none) s (fun t =>
        WorkedNow t uid ∧ t.mem = d3.mem ∧ t.sec = d.sec ∧ t.qm.jobs = d.qm.jobs ∧
        (∀ k ∈ dk.take gs.length, viewSealed t uid k = true)))

/-- 04 R106, R111, R118; 05 R143; 06 R194; 08 R252; 10 R308; 11 R369; 13 R433. -/
def Obligations.SegmentsStartOnTheirCores : Prop :=
  ∀ (s : State) (uid : Nat) (c : Cmd) (ims : List (Nat × Image)) (ps : List (Nat × Image × List PtrEnt)),
    live s → TablesSorted s.dev → MayStart s.dev uid 0x01 c → coresReady s.dev uid c = true →
    imagesPending s.dev uid c = false → (∀ o ∈ c.objs, (copyFor s.dev uid o.2 o.1).isSome = true) →
    (∀ x ∈ c.sess, x < 16384 ∧ boundTo s.dev x c.job = true) → c.cores.Nodup →
    let d := s.dev
    let c1 : Cmd := { c with phase := .running }
    let r1 := loadImages uid c1 (c.cores.zip c.images) (setCmd s.dev uid c1) .none
    let r2 := loadPtrs uid c1 ims r1.1 r1.2.1
    let ext (im : Image) : List Nat := runExts im (aExts c.desc)
    let orbit := ims.any (fun p => p.2.orbit)
    r1.2.2 = .ok ims → r2.2.2 = .ok ps →
      (ps.any (fun p => overPlan p.2.1 (ext p.2.1) p.2.2) = true → Completes (.runSegment uid .none) s (fun t =>
        EndedAs t uid c 0x10 false ∧ t.mem = d.mem ∧ t.regs = d.regs)) ∧
      (ps.any (fun p => overPlan p.2.1 (ext p.2.1) p.2.2) = false →
        (ps.any (fun p => isEmptyRun p.2.1 (ext p.2.1) p.2.2) = true → Completes (.runSegment uid .none) s (fun t =>
          EndedAs t uid c 0x01 false ∧ t.mem = d.mem ∧ t.regs = d.regs)) ∧
        (ps.any (fun p => isEmptyRun p.2.1 (ext p.2.1) p.2.2) = false → keyErased d c = true → Completes (.runSegment uid .none) s (fun t =>
          EndedAs t uid c 0x60 false ∧ t.mem = d.mem ∧ t.regs = d.regs)) ∧
        (ps.any (fun p => isEmptyRun p.2.1 (ext p.2.1) p.2.2) = false → keyErased d c = false → orbit = true → d.orb.state ≠ .running →
          Completes (.runSegment uid .none) s (fun t => EndedAs t uid c 0x51 false ∧ t.mem = d.mem ∧ t.regs = d.regs)) ∧
        (ps.any (fun p => isEmptyRun p.2.1 (ext p.2.1) p.2.2) = false → keyErased d c = false → orbit = false →
          (∀ x ∈ c.sess,
            (∀ e ∈ (sess d x).lists, ∀ p ∈ e.2.ents, (pst d p.pid).res ≠ 0 ∧ (pst d p.pid).gen = p.gen) ∧
            (∀ e ∈ (sess d x).tails, (slot d e.2.1).state ≠ .free ∧ (slot d e.2.1).gen = e.2.2)) →
          Completes (.runSegment uid .none) s (fun t =>
          (∀ p ∈ ps, ∃ x, ctxOf t p.1 c.job = some x ∧ x.uid = uid ∧ x.image = (foldImage p.2.1 (ext p.2.1)).1) ∧
          (∃ c', cmd t uid = some c' ∧ (c'.phase = .running ∨ c'.phase = .worked) ∧ c'.desc = c.desc) ∧
          (job t c.job).pfStep = max (job d c.job).pfStep (dBytes c.desc 48 4) ∧
          (c.cores = [] → WorkedNow t uid) ∧ (∀ n, n ∉ ps.map (·.1) → core t n = core d n) ∧
          t.mem.bytes = d.mem.bytes ∧ t.mem.objs.map (·.1) = d.mem.objs.map (·.1) ∧ (c.objs = [] → t.mem.objs = d.mem.objs) ∧ t.orb = d.orb)))

/-- 04 R107, R108, R119 to R122, R125, R127. -/
def Obligations.SequencerActionsIssue : Prop :=
  ∀ (s : State) (core : CoreId) (j : JobId), live s → TablesSorted s.dev →
    let d := s.dev
    let n := core.val
    (∀ (x : Ctx) (it : Item), MayIssue d n j.val 0 x it → Completes (.nopAct core j) s (fun t =>
      (∃ x', ctxOf t n j.val = some x' ∧ Advanced d.now x x') ∧ (∀ k, semOf t n k = semOf d n k) ∧ SeqSide d t n)) ∧
    (∀ (x : Ctx) (it : Item) (c : Cmd), MayIssue d n j.val 5 x it → cmd d x.uid = some c →
      let a := actOf x.image it
      (aFence a = true → copyLeft x false = false) → (aSigRemote a = false → semForeign d (aSigCore a) j.val (aSem a) = false) →
      (aSigRemote a = true → (orbitRoute d (bitsOf (aw a 2) 15 0)).isSome = true) →
      let queued (f : PortJob) : SMap (List PortJob) := SMap.insert d.ports n (SMap.getD d.ports n [] ++ [f])
      Completes (.signalAct core j .none) s (fun t =>
        (aSigRemote a = false → aSigCore a = n → t.ports = d.ports ∧
          t.sigs = d.sigs ++ [⟨n, aSem a, aValue a, c.tag, d.now + 1, some (itemAi it)⟩]) ∧
        (aSigRemote a = false → aSigCore a ≠ n → t.sigs = d.sigs ∧
          t.ports = queued (oneFlit (2 * d.now) (coreDie n) (coreDie (aSigCore a)) j.val
            (.signal (aSigCore a) (aSem a) (aValue a) c.tag (itemAi it)))) ∧
        (∀ r, aSigRemote a = true → orbitRoute d (bitsOf (aw a 2) 15 0) = some r → t.sigs = d.sigs ∧
          ∃ p : Packet, p.typ = 9 ∧ p.dst = bitsOf (aw a 2) 15 0 ∧ p.route = some (r, 1) ∧
            t.ports = queued (oneFlit (2 * d.now) (coreDie n) (fpDie (egress r)) j.val (.toPort (egress r) p))) ∧
        rg t (coreDie n) 16 0x128 = min (rg d (coreDie n) 16 0x128 + 1) (2 ^ 32 - 1) ∧
        (∃ x', ctxOf t n j.val = some x' ∧ Advanced d.now x x') ∧ t.mem = d.mem ∧ t.qm.jobs = d.qm.jobs)) ∧
    (∀ (x : Ctx) (it : Item), MayIssue d n j.val 6 x it →
      let a := actOf x.image it
      let k := bitsOf (aw a 1) 7 0
      (aValue a ≤ semOf d n k → Completes (.waitAct core j) s (fun t =>
        semOf t n k = semOf d n k - aValue a ∧ (∀ i, i ≠ k → semOf t n i = semOf d n i) ∧
        (∃ x', ctxOf t n j.val = some x' ∧ Advanced d.now x x') ∧ SeqSide d t n)) ∧
      (semOf d n k < aValue a → Completes (.waitAct core j) s (fun t =>
        (∀ i, semOf t n i = semOf d n i) ∧
        (∃ x', ctxOf t n j.val = some x' ∧ x'.waitFrom = some d.now ∧ x'.todo = x.todo ∧ x'.uid = x.uid) ∧
        SeqSide d t n))) ∧
    (∀ (x : Ctx) (it : Item) (r : List Item) (w : Nat), ctxOf d n j.val = some x → x.todo = it :: r →
      x.waitFrom = some w →
      let a := actOf x.image it
      let k := bitsOf (aw a 1) 7 0
      (aValue a ≤ semOf d n k → (rc d n 0x168 = 0 ∨ d.now ≤ w + rc d n 0x168) → Completes (.waitComplete core j) s (fun t =>
        semOf t n k = semOf d n k - aValue a ∧ (∀ i, i ≠ k → semOf t n i = semOf d n i) ∧
        (∃ x', ctxOf t n j.val = some x' ∧ Advanced d.now x x') ∧ SeqSide d t n)) ∧
      (semOf d n k < aValue a → Completes (.waitComplete core j) s (fun t => t = d)) ∧
      (∀ c, rc d n 0x168 ≠ 0 → w + rc d n 0x168 ≤ d.now → semOf d n k < aValue a → cmd d x.uid = some c →
        c.phase ≠ .ended → Completes (.semTimeout core j) s (fun t =>
          EndedAs t x.uid c 0x70 true ∧ (rg t (n / 6) (n % 6) 0x020).testBit 5 = true)) ∧
      (d.now < w + rc d n 0x168 → Completes (.semTimeout core j) s (fun t => t = d))) ∧
    (∀ (i : Nat) (g : Sig), d.sigs[i]? = some g →
      (d.now < g.visibleAt → Completes (.signalArrival i) s (fun t => t = d)) ∧
      (g.visibleAt ≤ d.now →
        ((Sys2Proof.Machine.core d g.core).ctxs = [] → Completes (.signalArrival i) s (fun t =>
          t.sigs = d.sigs.eraseIdx i ∧
          rg t (g.core / 6) (g.core % 6) 0x14C = min (rg d (g.core / 6) (g.core % 6) 0x14C + 1) (2 ^ 32 - 1) ∧
          RegSide { d with sigs := t.sigs } t)) ∧
        (∀ (q : Nat) (x : Ctx) (c : Cmd), (Sys2Proof.Machine.core d g.core).ctxs = [(q, x)] → cmd d x.uid = some c → c.tag = g.tag →
          (semForeign d g.core q g.sem = false → semOf d g.core g.sem + g.value ≤ 65535 → Completes (.signalArrival i) s (fun t =>
            semOf t g.core g.sem = semOf d g.core g.sem + g.value ∧
            (∀ m k, m ≠ g.core ∨ k ≠ g.sem → semOf t m k = semOf d m k) ∧
            t = { d with sigs := d.sigs.eraseIdx i, cores := t.cores })) ∧
          (c.phase ≠ .ended → semForeign d g.core q g.sem = false → 65535 < semOf d g.core g.sem + g.value →
            Completes (.signalArrival i) s (fun t => t.sigs = d.sigs.eraseIdx i ∧ EndedAs t x.uid c 0x70 false ∧
              (rg t (g.core / 6) (g.core % 6) 0x020).testBit 4 = true)) ∧
          (c.phase ≠ .ended → semForeign d g.core q g.sem = true → Completes (.signalArrival i) s (fun t =>
            t.sigs = d.sigs.eraseIdx i ∧ EndedAs t x.uid c 0x11 false ∧
            (rg t (g.core / 6) (g.core % 6) 0x020).testBit 3 = true)))))

/-- 04 R108, R128, R130, R131. -/
def Obligations.SlipsCountAndCoresHalt : Prop :=
  ∀ (s : State) (acc : Acc), live s → TablesSorted s.dev →
    let d := s.dev
    (∀ n : CoreId, rc d n.val 0x160 ≠ 0 → rc d n.val 0x164 ≠ 0 → d.now < (core d n.val).slipWin + rc d n.val 0x164 →
      ((core d n.val).slipBase + rc d n.val 0x160 ≤ rc d n.val 0x130 → Completes (.schedSlip n) s (fun t =>
        (rg t (n.val / 6) (n.val % 6) 0x020).testBit 6 = true ∧
        rc t n.val 0x130 < (Sys2Proof.Machine.core t n.val).slipBase ∧ FaultSide { d with cores := t.cores } t ∧
        (∀ m, m ≠ n.val → Sys2Proof.Machine.core t m = Sys2Proof.Machine.core d m))) ∧
      (rc d n.val 0x130 < (core d n.val).slipBase + rc d n.val 0x160 → Completes (.schedSlip n) s (fun t => t = d))) ∧
    (∀ die : Fin 48, rg d die.val 16 0x130 ≠ 0 → rc d (die.val * 6) 0x164 ≠ 0 →
      d.now < (core d (die.val * 6)).slipWin + rc d (die.val * 6) 0x164 →
      ((core d (die.val * 6)).nocBase + rg d die.val 16 0x130 ≤ rg d die.val 16 0x120 →
        Completes (.nocSlip die) s (fun t => (rg t die.val 16 0x020).testBit 1 = true ∧
          rg t die.val 16 0x120 < (Sys2Proof.Machine.core t (die.val * 6)).nocBase ∧ FaultSide { d with cores := t.cores } t ∧
          (∀ m, m ≠ die.val * 6 → Sys2Proof.Machine.core t m = Sys2Proof.Machine.core d m))) ∧
      (rg d die.val 16 0x120 < (core d (die.val * 6)).nocBase + rg d die.val 16 0x130 →
        Completes (.nocSlip die) s (fun t => t = d))) ∧
    (∀ n : CoreId, Performed d acc (regOff (n.val / 6) (n.val % 6) 0x100) →
      (∀ h : Bool, Completes (.coreHalt acc n h) s (fun t => rc t n.val 0x100 = b2n h ∧
        (∀ off, off ≠ regOff (n.val / 6) (n.val % 6) 0x100 → raw t off = raw d off) ∧ RegSide d t)) ∧
      ((rc d n.val 0x100).testBit 0 = true → Completes (.coreStep acc n) s (fun t =>
        (∀ j x, ctxOf d n.val j = some x → ctxOf t n.val j = some { x with stepOk := true }) ∧
        (∀ m, m ≠ n.val → core t m = core d m) ∧ t = { d with cores := t.cores })) ∧
      ((rc d n.val 0x100).testBit 0 = false → Completes (.coreStep acc n) s (fun t => t = d))) ∧
    (∀ (die : Fin 64) (page : Fin 1024) (b : Blk), blkAt die.val page.val = some b →
      Performed d acc (match b with
        | .qmgrJ => jobOff acc (page.val - 0x200) 0x100
        | _ => regOff die.val page.val (cntClrReg b)) →
      let die' := if b = .fabr then 56 else die.val
      Completes (.cntClr acc die page) s (fun t =>
        (∀ reg r, 0x100 ≤ reg → reg < 4096 → findRow b reg = some r → r.cnt = true →
          rg t die' page.val reg = (resetWord (regOff die' page.val reg)).toNat) ∧
        (∀ off, (offDie off ≠ die' ∨ offPage off ≠ page.val ∨ ∀ r, findRow b (offReg off) = some r → r.cnt = false) →
          raw t off = raw d off) ∧
        RegSide { d with cores := t.cores } t))

/-- 01 R18, 02 R56, 03 R66, R71, 04 R105, R110, R124, R525, R526, 08 R236 to R238 (what an engine does in its later cycles: log 39). -/
def Obligations.EngineActionsRun : Prop :=
  ∀ (s : State) (core : CoreId) (j : JobId) (x : Ctx) (it : Item), live s → TablesSorted s.dev →
    let d := s.dev
    let n := core.val
    let a := actOf x.image it
    let on (t : Dev) (k : EngKind) (st : Bool) : Prop := ∃ x' r, ctxOf t n j.val = some x' ∧ Advanced d.now x x' ∧
      r ∈ x'.running ∧ r.kind = k ∧ r.id = actId x n it ∧ r.started = st
    (∀ (c : Cmd) (sa da : CoreId) (so dO : Nat), MayIssue d n j.val 4 x it → cmd d x.uid = some c →
      let src := copySrcA x.image it a
      let dst := copyDstA x.image it a
      aCopyRemote a = false → src = .t0 sa.val so → dst = .t0 da.val dO → 0 < copyGrans a →
      rangeOk d x.uid j.val src (copyReach x.image it a) false = true → rangeOk d x.uid j.val dst (copyGrans a) true = true →
      (aClassBE a = true → (∀ k ∈ readGrans d n j.val x it, poisoned d k = false) →
        (∀ k, gIsT0 k = true → SMap.get? c.gens k = none) →
        Completes (.copyAct core j .none) s (fun t =>
          (∀ g < copyGrans a, readT0 t da.val (dO + 4096 * g) 4096
            = copyFill x.image it a g 0 (readT0 d sa.val (so + 4096 * g) 4096)) ∧
          GransKept d t (rangeKeys dst (copyGrans a)) ∧ on t .copy true ∧ t.ports = d.ports ∧
          t.mem.objs = d.mem.objs ∧ t.qm.jobs = d.qm.jobs)) ∧
      (aClassBE a = false → Completes (.copyAct core j .none) s (fun t =>
        t.ports = SMap.insert d.ports n (SMap.getD d.ports n [] ++
          [if sa.val = n then ⟨2 * d.now, coreDie n, coreDie da.val, 0, 8 * copyGrans a, j.val,
              .copyData n j.val x.uid (actId x n it) false 0 [] false⟩
           else oneFlit (2 * d.now) (coreDie n) (coreDie sa.val) j.val (.copyReq n j.val x.uid (actId x n it))]) ∧
        on t .copy true ∧ t.mem = d.mem ∧ t.qm.jobs = d.qm.jobs))) ∧
    (MayIssue d n j.val 2 x it → x.running = [] → (arrOf d n).waiting = [] →
      let ps := wbRegion d n j.val x (aBank a)
      wbIssueOk d n a ps = true → (regionBlocks (aBank a) ps.1 ps.2).all ((ownBlocks d n j.val).contains ·) = true →
      rangesOwned d j.val n (wbRanges x.image it a ps.1 ++ wbParts x.image it a ps.1) = true →
      Completes (.writebackAct core j .none) s (fun t =>
        on t .writeback true ∧ t.mem = d.mem ∧ SeqSide d t n ∧
        (∃ x' r, ctxOf t n j.val = some x' ∧ r ∈ x'.running ∧ r.id = actId x n it ∧ r.region = ps ∧ r.pos = 0 ∧
          r.len = wbCycles ps.1 ∧ r.endAt = d.now + wbCycles ps.1))) ∧
    (∀ vreg : Fin 32, MayIssue d n j.val 3 x it → x.running = [] → (arrOf d n).waiting = [] →
      vecIssueOk d n (ownBlocks d n j.val) a = true →
      rangesOwned d j.val n (vecReads x.image it a ++ vecWrites x.image it a) = true →
      Completes (.vectorAct core j vreg .none) s (fun t =>
        on t .vector true ∧ t.mem = d.mem ∧ SeqSide d t n ∧
        (∃ x' r, ctxOf t n j.val = some x' ∧ r ∈ x'.running ∧ r.id = actId x n it ∧ r.vreg = vreg.val ∧ r.pos = 0 ∧
          r.len = vecCycles a ∧ r.endAt = d.now + vecCycles a))) ∧
    (MayIssue d n j.val 1 x it → x.running = [] → (arrOf d n).waiting = [] → (arrOf d n).fresh = true →
      aLoadMode a ≠ 2 →
      let bl := regionBlocks (aBank a) (aPart a) (aSub a)
      (aInit a = false ∨ regionMode (Sys2Proof.Machine.core d n) bl = 0 ∨
        regionMode (Sys2Proof.Machine.core d n) bl = if aInt32 a then 2 else 1) →
      bl.all ((ownBlocks d n j.val).contains ·) = true →
      rangesOwned d j.val n (passReads x.image it a) = true →
      Completes (.passAct core j .none) s (fun t =>
        on t .pass false ∧
        (∃ p, (arrOf t n).waiting = [p] ∧ p.act = a ∧ p.job = j.val ∧ p.uid = x.uid ∧ p.actId = actId x n it ∧
          p.issuedAt = d.now) ∧
        t.mem = d.mem ∧ SeqSide d t n)) ∧
    (∀ r : RunAct, ctxOf d n j.val = some x → x.running = [r] → (arrOf d n).waiting = [] → runDone d n x r = true →
      (r.kind = .copy → addrTier (copySrcA x.image r.item (actOf x.image r.item)) ≠ 3) →
      (∀ k, r.doneSem = some k → semOf d n k ≠ 65535) →
      Completes (.actionCompletion core j r.id .none) s (fun t =>
        (∃ x', ctxOf t n j.val = some x' ∧ x'.running = [] ∧ x'.todo = x.todo ∧ x'.uid = x.uid) ∧
        (∀ k, semOf t n k = if r.doneSem = some k then semOf d n k + 1 else semOf d n k) ∧
        (∀ c, x.todo = [] → cmd d x.uid = some c → c.phase = .running → c.coresLeft = [n] → c.t4left = 0 → x.readyAt ≤ d.now + 1 →
          WorkedNow t x.uid) ∧ SeqSide d t n))

/-- 03 R72, R84 to R89, R94, R95, R528. -/
def Obligations.ArrayLoadsItsWeights : Prop :=
  ∀ (s : State) (core : CoreId) (p : PassRun) (x : Ctx), live s → TablesSorted s.dev →
    let d := s.dev
    let n := core.val
    let a := arrOf s.dev n
    a.waiting = [p] → ctxOf d n p.job = some x → x.uid = p.uid → (∀ r ∈ x.running, r.kind = .pass) →
    (a.part = 0 → aPart p.act = 0 → a.fresh = true → aLoadMode p.act ≠ 2 → a.loading = false → a.fillPtr < 128 →
      fillAt a ≤ d.now → rowEmpty a 0 0 a.fillPtr = true →
      rangesOwned d p.job n (wRowRanges x.image p.item p.act a.fillPtr) = true →
      (∀ g ∈ rangesGrans n (wRowRanges x.image p.item p.act a.fillPtr), poisoned d g = false) →
      Completes (.shadowFill core .none) s (fun t =>
        (arrOf t n).fillPtr = a.fillPtr + 1 ∧ rowFull (arrOf t n) 0 0 a.fillPtr = true ∧
        rowOf (arrOf t n).shadow a.fillPtr
          = spliceRow (rowOf a.shadow a.fillPtr) (fillRow d n x.image p.item p.act a.fillPtr zeroRow) 0 128 ∧
        (∀ r, r ≠ a.fillPtr → rowOf (arrOf t n).shadow r = rowOf a.shadow r) ∧ (arrOf t n).active = a.active ∧
        (arrOf t n).waiting = [p] ∧ t = { d with cores := t.cores })) ∧
    (a.part = 0 → aPart p.act = 0 → loadKind a p = 0 → a.loading = false → rowFull a 0 0 0 = true → a.fillPtr < 128 →
      passReady d n p = true → max a.lastWord p.issuedAt ≤ d.now → Completes (.reloadToken core .none) s (fun t =>
        (arrOf t n).waiting = [] ∧ (arrOf t n).current = [p] ∧ (arrOf t n).loading = true ∧
        (arrOf t n).lastWord = d.now + aMt p.act ∧ rowEmpty (arrOf t n) 0 0 0 = true ∧ t.mem = d.mem ∧
        (∀ m, m ≠ n → Sys2Proof.Machine.core t m = Sys2Proof.Machine.core d m) ∧ RegSide { d with cores := t.cores } t)) ∧
    (a.part = 0 → aPart p.act = 0 → loadKind a p = 1 → a.loading = false → a.fillPtr = 128 → subFull a 0 (aSub p.act) = true →
      passReady d n p = true → (if a.fresh then p.issuedAt else max a.drainedAt p.issuedAt) ≤ d.now →
      Completes (.washLoad core .none) s (fun t =>
        (arrOf t n).waiting = [] ∧ (arrOf t n).current = [p] ∧ (arrOf t n).lastWord = d.now + aMt p.act ∧
        (arrOf t n).fillPtr = 0 ∧ (∀ r < 128, rowEmpty (arrOf t n) 0 0 r = true) ∧ t.mem = d.mem ∧
        (∀ m, m ≠ n → Sys2Proof.Machine.core t m = Sys2Proof.Machine.core d m) ∧ RegSide { d with cores := t.cores } t)) ∧
    (a.part ≠ 0 → a.dead = [] → a.slotStart + partSlot a.part ≤ d.now + 1 →
      (p.slot ≠ a.slotNo + 1 → Completes (.passSlot core .none) s (fun t =>
        arrOf t n = { a with slotNo := a.slotNo + 1, slotStart := a.slotStart + partSlot a.part, fillPtr := 0, fillFrom := a.slotStart + partSlot a.part } ∧
        t = { d with cores := t.cores })) ∧
      (aPart p.act = a.part → p.slot = a.slotNo + 1 → aLoadMode p.act = 2 → passReady d n p = true →
        Completes (.passSlot core .none) s (fun t =>
          (arrOf t n).waiting = [] ∧ p ∈ (arrOf t n).current ∧ (arrOf t n).slotNo = a.slotNo + 1 ∧
          (arrOf t n).lastWord = a.slotStart + partSlot a.part + aMt p.act - 1 ∧ (arrOf t n).active = a.active ∧
          t.mem = d.mem ∧ RegSide { d with cores := t.cores } t)))

/-- 04 R104, R127 and the rows of the microprograms: 02 R51, R54, 05 R144, R152, R154, 06 R183, 07 R208, R216, R223 (log 40: a microprogram runs in one step). -/
def Obligations.MicroprogramsRun : Prop :=
  ∀ (s : State) (core : CoreId) (j : JobId) (ev : Upset) (x : Ctx) (it : Item), live s →
    let d := s.dev
    let n := core.val
    ∀ p ∈ ([(.attentionPrefill core j ev, 1, attGr false d n j.val x it, attentionRun d n j.val false x it ev),
            (.attentionDecode core j ev, 2, attGr true d n j.val x it, attentionRun d n j.val true x it ev),
            (.partialMerge core j ev, 3, mergeGr n x it, mergeRun d n j.val x it ev),
            (.cometChunk core j ev, 0x10, cometGr d n j.val x it, cometRun d n j.val x it ev),
            (.fp64Slicing core j ev, 0x20, sliceGr d n x it, sliceRun d n j.val x it ev),
            (.fp64Recombination core j ev, 0x21, recombGr d n x it, recombRun d n j.val x it ev),
            (.convolutionFeed core j ev, 0x30, convGr d n x it, convRun d n j.val x it ev),
            (.pooling core j ev, 0x31, poolGr d n x it, poolRun d n j.val x it ev),
            (.quillLayer core j ev, 0x32, quillGr d n x it, quillRun d n j.val x it ev)]
          : List (Instr × Nat × (List Nat × List Nat) × (Dev × MicroEnd))),
      MayRunMicro d n j.val p.2.1 x it p.2.2.1 →
      ((∃ k, p.2.2.2.2 = .done k) → ∀ y, ctxOf p.2.2.2.1 n j.val = some y → y.todo = x.todo → y.uid = x.uid →
        Completes p.1 s (fun t => t.mem = p.2.2.2.1.mem ∧ t.out = p.2.2.2.1.out ∧
          ∃ x' r, ctxOf t n j.val = some x' ∧ Advanced p.2.2.2.1.now x x' ∧ r ∈ x'.running ∧ r.item = it ∧
            r.id = actId x n it ∧ r.started = true)) ∧
      (p.2.2.2.2 = .held ∨ p.2.2.2.2 = .pending → ∀ y, ctxOf p.2.2.2.1 n j.val = some y → y.todo = x.todo → y.heldFrom = none →
        Completes p.1 s (fun t => t.mem = p.2.2.2.1.mem ∧
          ∃ x', ctxOf t n j.val = some x' ∧ x'.heldFrom = some p.2.2.2.1.now ∧ x'.todo = x.todo)) ∧
      (p.2.2.2.2 = .failed → Completes p.1 s (fun t => t = p.2.2.2.1))

/-- When each microprogram runs to its end: the checks of 02 R51, R54, 05 R142, R144, R154, 06 R182, R183, 07 R209, R216, R224 pass and its operands can be read (log 40: it runs in one step). -/
def Obligations.MicroprogramsComplete : Prop :=
  ∀ (s : State) (core : CoreId) (j : JobId) (x : Ctx) (it : Item) (c : Cmd), live s → cmd s.dev x.uid = some c →
    let d := s.dev
    let n := core.val
    let a := actOf x.image it
    let w := attBlock d n a
    let v := cvb d n x.image it a
    let pc := poolCfg d j.val (acbPool w)
    let ss := sessSet d n (bitsOf (cw w 4) 25 0) (acbNs w)
    let cd := cometOf d j.val (ccLayer w)
    let runs (i : Instr) (ws : List (Int × Nat)) : Prop :=
      Completes i s (fun t => Ran d t n j.val x it ∧ GransKept d t (rangesGrans n ws))
    (MayRunMicro d n j.val 1 x it (attGr false d n j.val x it) → AttReady d n j.val false x it c a w ss pc →
      runs (.attentionPrefill core j .none) (attWrites pc false x.image it w ++ attWorkRange a)) ∧
    (MayRunMicro d n j.val 2 x it (attGr true d n j.val x it) → AttReady d n j.val true x it c a w ss pc →
      runs (.attentionDecode core j .none) (attWrites pc true x.image it w ++ attWorkRange a)) ∧
    (MayRunMicro d n j.val 3 x it (mergeGr n x it) → mergeOk a = true →
      rangesOwned d j.val n (mergeWrites x.image it a) = true → Readable d n j.val true (mergeReads x.image it a) →
      runs (.partialMerge core j .none) (mergeWrites x.image it a)) ∧
    (MayRunMicro d n j.val 0x10 x it (cometGr d n j.val x it) →
      CometReady d n j.val x it c a w (sessSet d n (bitsOf (cw w 3) 25 0) (ccNs w)) cd →
      Completes (.cometChunk core j .none) s (fun t => Ran d t n j.val x it ∧ t.mem.objs = d.mem.objs ∧
        (ccUpdate w = false → GransKept d t (rangesGrans n (cometWrites a cd x.image it w))))) ∧
    (MayRunMicro d n j.val 0x20 x it (sliceGr d n x it) → SliceReady d n j.val x it a →
      runs (.fp64Slicing core j .none) (sliceWrites x.image it a)) ∧
    (MayRunMicro d n j.val 0x21 x it (recombGr d n x it) → RecombReady d n j.val x it a →
      runs (.fp64Recombination core j .none) (recombOut x.image it a)) ∧
    (MayRunMicro d n j.val 0x30 x it (convGr d n x it) → ConvReady d n j.val x it a v →
      runs (.convolutionFeed core j .none) (convOut x.image it a v)) ∧
    (MayRunMicro d n j.val 0x31 x it (poolGr d n x it) → PoolReady d n j.val x it a v →
      runs (.pooling core j .none) (poolOut x.image it a v)) ∧
    (MayRunMicro d n j.val 0x32 x it (quillGr d n x it) → QuillReady d n j.val x it c a v →
      Completes (.quillLayer core j .none) s (fun t => Ran d t n j.val x it ∧ t.mem.objs = d.mem.objs ∧
        t.mem.roots = d.mem.roots))
end

