-- ==== Sys2Proof/Laws/Map.lean ====
section
/-! SUPPORT. Laws of the sparse tables: what a read finds after a write, an erasure or a `put`, and that the strictly
rising order is kept. -/

namespace Sys2Proof.SMap
variable {α : Type}

@[simp] theorem get?_insert_same (m : SMap α) (i : Nat) (a : α) : get? (insert m i a) i = some a := by
  induction m with
  | nil => simp [insert, get?]
  | cons e r ih =>
    obtain ⟨k, v⟩ := e
    simp only [insert]
    split
    · simp [get?]
    · split
      · simp [get?]
      · simp [get?, ih, *]

theorem get?_insert_other (m : SMap α) {i j : Nat} (a : α) (h : j ≠ i) : get? (insert m i a) j = get? m j := by
  induction m with
  | nil =>
    simp only [insert, get?]
    split <;> simp [h]
  | cons e r ih =>
    obtain ⟨k, v⟩ := e
    simp only [insert]
    split
    · simp only [get?]
      split
      · rename_i h1 h2; rw [if_pos (by omega)]
      · simp [h]
    · split
      · rename_i h1 h2; subst h2; simp [get?, h]
      · simp [get?, ih]

theorem insert_insert (m : SMap α) (i : Nat) (a b : α) : insert (insert m i a) i b = insert m i b := by
  induction m with
  | nil => simp [insert]
  | cons e r ih =>
    obtain ⟨k, v⟩ := e
    simp only [insert]
    split
    · simp [insert]
    · split
      · simp [insert]
      · simp [insert, ih, *]

theorem get?_none_of_lt (m : SMap α) {lo i : Nat} (h : sortedFrom lo m = true) (hi : i < lo) : get? m i = none := by
  cases m with
  | nil => rfl
  | cons e r =>
    obtain ⟨k, v⟩ := e
    simp only [sortedFrom, Bool.and_eq_true, decide_eq_true_eq] at h
    simp [get?, show i < k by omega]

theorem sortedFrom_mono {m : SMap α} {a b : Nat} (h : sortedFrom b m = true) (hab : a ≤ b) : sortedFrom a m = true := by
  cases m with
  | nil => rfl
  | cons e r =>
    obtain ⟨k, v⟩ := e
    simp only [sortedFrom, Bool.and_eq_true, decide_eq_true_eq] at h ⊢
    exact ⟨by omega, h.2⟩

theorem sortedFrom_insert {m : SMap α} {lo i : Nat} {a : α} (h : sortedFrom lo m = true) (hi : lo ≤ i) :
    sortedFrom lo (insert m i a) = true := by
  induction m generalizing lo with
  | nil => simp [insert, sortedFrom, hi]
  | cons e r ih =>
    obtain ⟨k, v⟩ := e
    simp only [sortedFrom, Bool.and_eq_true, decide_eq_true_eq] at h
    simp only [insert]
    split
    · simp only [sortedFrom, Bool.and_eq_true, decide_eq_true_eq]; exact ⟨hi, by omega, h.2⟩
    · split
      · rename_i h1 h2; subst h2
        simp only [sortedFrom, Bool.and_eq_true, decide_eq_true_eq]; exact ⟨hi, h.2⟩
      · simp only [sortedFrom, Bool.and_eq_true, decide_eq_true_eq]
        exact ⟨h.1, ih h.2 (by omega)⟩

theorem sortedFrom_erase {m : SMap α} {lo : Nat} (i : Nat) (h : sortedFrom lo m = true) :
    sortedFrom lo (erase m i) = true := by
  induction m generalizing lo with
  | nil => rfl
  | cons e r ih =>
    obtain ⟨k, v⟩ := e
    have h' := h
    simp only [sortedFrom, Bool.and_eq_true, decide_eq_true_eq] at h
    simp only [erase]
    split
    · exact h'
    · split
      · exact sortedFrom_mono h.2 (by omega)
      · simp only [sortedFrom, Bool.and_eq_true, decide_eq_true_eq]; exact ⟨h.1, ih h.2⟩

theorem sorted_insert {m : SMap α} (i : Nat) (a : α) (h : sorted m = true) : sorted (insert m i a) = true :=
  sortedFrom_insert h (Nat.zero_le i)
theorem sorted_erase {m : SMap α} (i : Nat) (h : sorted m = true) : sorted (erase m i) = true := sortedFrom_erase i h
theorem sorted_put [DecidableEq α] {m : SMap α} (i : Nat) (a d : α) (h : sorted m = true) :
    sorted (put m i a d) = true := by
  unfold put
  split
  · exact sorted_erase i h
  · exact sorted_insert i a h

theorem sortedFrom_keep {m : SMap α} {lo : Nat} (p : Nat → α → Bool) (h : sortedFrom lo m = true) :
    sortedFrom lo (keep m p) = true := by
  induction m generalizing lo with
  | nil => rfl
  | cons e r ih =>
    obtain ⟨k, v⟩ := e
    simp only [sortedFrom, Bool.and_eq_true, decide_eq_true_eq] at h
    have hr := ih h.2
    unfold keep at hr ⊢
    rw [List.filter_cons]
    split
    · simp only [sortedFrom, Bool.and_eq_true, decide_eq_true_eq]; exact ⟨h.1, hr⟩
    · exact sortedFrom_mono hr (by omega)
theorem sorted_keep {m : SMap α} (p : Nat → α → Bool) (h : sorted m = true) : sorted (keep m p) = true :=
  sortedFrom_keep p h

theorem get?_erase_same {m : SMap α} (i : Nat) (h : sorted m = true) : get? (erase m i) i = none := by
  unfold sorted at h
  generalize 0 = lo at h
  induction m generalizing lo with
  | nil => rfl
  | cons e r ih =>
    obtain ⟨k, v⟩ := e
    simp only [sortedFrom, Bool.and_eq_true, decide_eq_true_eq] at h
    simp only [erase]
    split
    · simp [get?, *]
    · split
      · rename_i h1 h2; subst h2; exact get?_none_of_lt r h.2 (by omega)
      · simp only [get?]; rw [if_neg (by omega), if_neg (by omega)]; exact ih _ h.2

theorem get?_erase_other {m : SMap α} {i j : Nat} (h : sorted m = true) (hj : j ≠ i) :
    get? (erase m i) j = get? m j := by
  unfold sorted at h
  generalize 0 = lo at h
  induction m generalizing lo with
  | nil => rfl
  | cons e r ih =>
    obtain ⟨k, v⟩ := e
    simp only [sortedFrom, Bool.and_eq_true, decide_eq_true_eq] at h
    simp only [erase]
    split
    · rfl
    · split
      · rename_i h1 h2; subst h2
        simp only [get?]
        split
        · rename_i h3; exact get?_none_of_lt r h.2 (by omega)
        · simp [hj]
      · simp only [get?, ih _ h.2]

theorem getD_put_same [DecidableEq α] {m : SMap α} (i : Nat) (a d : α) (h : sorted m = true) :
    getD (put m i a d) i d = a := by
  unfold getD put
  split
  · rename_i h1; rw [get?_erase_same i h]; simp [h1]
  · simp

theorem getD_put_other [DecidableEq α] {m : SMap α} {i j : Nat} (a d e : α) (h : sorted m = true) (hj : j ≠ i) :
    getD (put m i a d) j e = getD m j e := by
  unfold getD put
  split
  · rw [get?_erase_other h hj]
  · rw [get?_insert_other _ _ hj]

/-- A write of a value that is listed needs no order. -/
theorem getD_put_listed [DecidableEq α] (m : SMap α) (i : Nat) {a d e : α} (h : a ≠ d) : getD (put m i a d) i e = a := by
  unfold getD put; simp [h]

end Sys2Proof.SMap
end

