-- ==== Sys2Proof/Laws/State.lean ====
section
/-! SUPPORT. One lemma per field per update: what each named write of the state leaves as it is. -/

namespace Sys2Proof.Machine
open Sys2Proof

/-! ### setRaw -/
@[simp] theorem setRaw_now (d : Dev) (off v : Nat) : (setRaw d off v).now = d.now := by simp only [setRaw]
@[simp] theorem setRaw_freeCtr (d : Dev) (off v : Nat) : (setRaw d off v).freeCtr = d.freeCtr := by simp only [setRaw]
@[simp] theorem setRaw_latch (d : Dev) (off v : Nat) : (setRaw d off v).latch = d.latch := by simp only [setRaw]
@[simp] theorem setRaw_cores (d : Dev) (off v : Nat) : (setRaw d off v).cores = d.cores := by simp only [setRaw]
@[simp] theorem setRaw_sigs (d : Dev) (off v : Nat) : (setRaw d off v).sigs = d.sigs := by simp only [setRaw]
@[simp] theorem setRaw_flits (d : Dev) (off v : Nat) : (setRaw d off v).flits = d.flits := by simp only [setRaw]
@[simp] theorem setRaw_mem (d : Dev) (off v : Nat) : (setRaw d off v).mem = d.mem := by simp only [setRaw]
@[simp] theorem setRaw_qm (d : Dev) (off v : Nat) : (setRaw d off v).qm = d.qm := by simp only [setRaw]
@[simp] theorem setRaw_ext (d : Dev) (off v : Nat) : (setRaw d off v).ext = d.ext := by simp only [setRaw]
@[simp] theorem setRaw_fab (d : Dev) (off v : Nat) : (setRaw d off v).fab = d.fab := by simp only [setRaw]
@[simp] theorem setRaw_orb (d : Dev) (off v : Nat) : (setRaw d off v).orb = d.orb := by simp only [setRaw]
@[simp] theorem setRaw_tim (d : Dev) (off v : Nat) : (setRaw d off v).tim = d.tim := by simp only [setRaw]
@[simp] theorem setRaw_pcieA (d : Dev) (off v : Nat) : (setRaw d off v).pcieA = d.pcieA := by simp only [setRaw]
@[simp] theorem setRaw_pcieB (d : Dev) (off v : Nat) : (setRaw d off v).pcieB = d.pcieB := by simp only [setRaw]
@[simp] theorem setRaw_mgmtPortB (d : Dev) (off v : Nat) : (setRaw d off v).mgmtPortB = d.mgmtPortB := by simp only [setRaw]
@[simp] theorem setRaw_sec (d : Dev) (off v : Nat) : (setRaw d off v).sec = d.sec := by simp only [setRaw]
@[simp] theorem setRaw_flt (d : Dev) (off v : Nat) : (setRaw d off v).flt = d.flt := by simp only [setRaw]
@[simp] theorem setRaw_state (d : Dev) (off v : Nat) : (setRaw d off v).state = d.state := by simp only [setRaw]
@[simp] theorem setRaw_factoryTest (d : Dev) (off v : Nat) : (setRaw d off v).factoryTest = d.factoryTest := by simp only [setRaw]
@[simp] theorem setRaw_powerLost (d : Dev) (off v : Nat) : (setRaw d off v).powerLost = d.powerLost := by simp only [setRaw]
@[simp] theorem setRaw_modRst (d : Dev) (off v : Nat) : (setRaw d off v).modRst = d.modRst := by simp only [setRaw]
@[simp] theorem setRaw_pwr (d : Dev) (off v : Nat) : (setRaw d off v).pwr = d.pwr := by simp only [setRaw]
@[simp] theorem setRaw_boot (d : Dev) (off v : Nat) : (setRaw d off v).boot = d.boot := by simp only [setRaw]
@[simp] theorem setRaw_rst (d : Dev) (off v : Nat) : (setRaw d off v).rst = d.rst := by simp only [setRaw]
@[simp] theorem setRaw_out (d : Dev) (off v : Nat) : (setRaw d off v).out = d.out := by simp only [setRaw]

/-! ### setRg -/
@[simp] theorem setRg_now (d : Dev) (die page reg v : Nat) : (setRg d die page reg v).now = d.now := by simp only [setRg, setRaw_now]
@[simp] theorem setRg_freeCtr (d : Dev) (die page reg v : Nat) : (setRg d die page reg v).freeCtr = d.freeCtr := by simp only [setRg, setRaw_freeCtr]
@[simp] theorem setRg_latch (d : Dev) (die page reg v : Nat) : (setRg d die page reg v).latch = d.latch := by simp only [setRg, setRaw_latch]
@[simp] theorem setRg_cores (d : Dev) (die page reg v : Nat) : (setRg d die page reg v).cores = d.cores := by simp only [setRg, setRaw_cores]
@[simp] theorem setRg_sigs (d : Dev) (die page reg v : Nat) : (setRg d die page reg v).sigs = d.sigs := by simp only [setRg, setRaw_sigs]
@[simp] theorem setRg_flits (d : Dev) (die page reg v : Nat) : (setRg d die page reg v).flits = d.flits := by simp only [setRg, setRaw_flits]
@[simp] theorem setRg_mem (d : Dev) (die page reg v : Nat) : (setRg d die page reg v).mem = d.mem := by simp only [setRg, setRaw_mem]
@[simp] theorem setRg_qm (d : Dev) (die page reg v : Nat) : (setRg d die page reg v).qm = d.qm := by simp only [setRg, setRaw_qm]
@[simp] theorem setRg_ext (d : Dev) (die page reg v : Nat) : (setRg d die page reg v).ext = d.ext := by simp only [setRg, setRaw_ext]
@[simp] theorem setRg_fab (d : Dev) (die page reg v : Nat) : (setRg d die page reg v).fab = d.fab := by simp only [setRg, setRaw_fab]
@[simp] theorem setRg_orb (d : Dev) (die page reg v : Nat) : (setRg d die page reg v).orb = d.orb := by simp only [setRg, setRaw_orb]
@[simp] theorem setRg_tim (d : Dev) (die page reg v : Nat) : (setRg d die page reg v).tim = d.tim := by simp only [setRg, setRaw_tim]
@[simp] theorem setRg_pcieA (d : Dev) (die page reg v : Nat) : (setRg d die page reg v).pcieA = d.pcieA := by simp only [setRg, setRaw_pcieA]
@[simp] theorem setRg_pcieB (d : Dev) (die page reg v : Nat) : (setRg d die page reg v).pcieB = d.pcieB := by simp only [setRg, setRaw_pcieB]
@[simp] theorem setRg_mgmtPortB (d : Dev) (die page reg v : Nat) : (setRg d die page reg v).mgmtPortB = d.mgmtPortB := by simp only [setRg, setRaw_mgmtPortB]
@[simp] theorem setRg_sec (d : Dev) (die page reg v : Nat) : (setRg d die page reg v).sec = d.sec := by simp only [setRg, setRaw_sec]
@[simp] theorem setRg_flt (d : Dev) (die page reg v : Nat) : (setRg d die page reg v).flt = d.flt := by simp only [setRg, setRaw_flt]
@[simp] theorem setRg_state (d : Dev) (die page reg v : Nat) : (setRg d die page reg v).state = d.state := by simp only [setRg, setRaw_state]
@[simp] theorem setRg_factoryTest (d : Dev) (die page reg v : Nat) : (setRg d die page reg v).factoryTest = d.factoryTest := by simp only [setRg, setRaw_factoryTest]
@[simp] theorem setRg_powerLost (d : Dev) (die page reg v : Nat) : (setRg d die page reg v).powerLost = d.powerLost := by simp only [setRg, setRaw_powerLost]
@[simp] theorem setRg_modRst (d : Dev) (die page reg v : Nat) : (setRg d die page reg v).modRst = d.modRst := by simp only [setRg, setRaw_modRst]
@[simp] theorem setRg_pwr (d : Dev) (die page reg v : Nat) : (setRg d die page reg v).pwr = d.pwr := by simp only [setRg, setRaw_pwr]
@[simp] theorem setRg_boot (d : Dev) (die page reg v : Nat) : (setRg d die page reg v).boot = d.boot := by simp only [setRg, setRaw_boot]
@[simp] theorem setRg_rst (d : Dev) (die page reg v : Nat) : (setRg d die page reg v).rst = d.rst := by simp only [setRg, setRaw_rst]
@[simp] theorem setRg_out (d : Dev) (die page reg v : Nat) : (setRg d die page reg v).out = d.out := by simp only [setRg, setRaw_out]

/-! ### setRg64 -/
@[simp] theorem setRg64_now (d : Dev) (die page reg v : Nat) : (setRg64 d die page reg v).now = d.now := by simp only [setRg64, setRg_now]
@[simp] theorem setRg64_freeCtr (d : Dev) (die page reg v : Nat) : (setRg64 d die page reg v).freeCtr = d.freeCtr := by simp only [setRg64, setRg_freeCtr]
@[simp] theorem setRg64_latch (d : Dev) (die page reg v : Nat) : (setRg64 d die page reg v).latch = d.latch := by simp only [setRg64, setRg_latch]
@[simp] theorem setRg64_cores (d : Dev) (die page reg v : Nat) : (setRg64 d die page reg v).cores = d.cores := by simp only [setRg64, setRg_cores]
@[simp] theorem setRg64_sigs (d : Dev) (die page reg v : Nat) : (setRg64 d die page reg v).sigs = d.sigs := by simp only [setRg64, setRg_sigs]
@[simp] theorem setRg64_flits (d : Dev) (die page reg v : Nat) : (setRg64 d die page reg v).flits = d.flits := by simp only [setRg64, setRg_flits]
@[simp] theorem setRg64_mem (d : Dev) (die page reg v : Nat) : (setRg64 d die page reg v).mem = d.mem := by simp only [setRg64, setRg_mem]
@[simp] theorem setRg64_qm (d : Dev) (die page reg v : Nat) : (setRg64 d die page reg v).qm = d.qm := by simp only [setRg64, setRg_qm]
@[simp] theorem setRg64_ext (d : Dev) (die page reg v : Nat) : (setRg64 d die page reg v).ext = d.ext := by simp only [setRg64, setRg_ext]
@[simp] theorem setRg64_fab (d : Dev) (die page reg v : Nat) : (setRg64 d die page reg v).fab = d.fab := by simp only [setRg64, setRg_fab]
@[simp] theorem setRg64_orb (d : Dev) (die page reg v : Nat) : (setRg64 d die page reg v).orb = d.orb := by simp only [setRg64, setRg_orb]
@[simp] theorem setRg64_tim (d : Dev) (die page reg v : Nat) : (setRg64 d die page reg v).tim = d.tim := by simp only [setRg64, setRg_tim]
@[simp] theorem setRg64_pcieA (d : Dev) (die page reg v : Nat) : (setRg64 d die page reg v).pcieA = d.pcieA := by simp only [setRg64, setRg_pcieA]
@[simp] theorem setRg64_pcieB (d : Dev) (die page reg v : Nat) : (setRg64 d die page reg v).pcieB = d.pcieB := by simp only [setRg64, setRg_pcieB]
@[simp] theorem setRg64_mgmtPortB (d : Dev) (die page reg v : Nat) : (setRg64 d die page reg v).mgmtPortB = d.mgmtPortB := by simp only [setRg64, setRg_mgmtPortB]
@[simp] theorem setRg64_sec (d : Dev) (die page reg v : Nat) : (setRg64 d die page reg v).sec = d.sec := by simp only [setRg64, setRg_sec]
@[simp] theorem setRg64_flt (d : Dev) (die page reg v : Nat) : (setRg64 d die page reg v).flt = d.flt := by simp only [setRg64, setRg_flt]
@[simp] theorem setRg64_state (d : Dev) (die page reg v : Nat) : (setRg64 d die page reg v).state = d.state := by simp only [setRg64, setRg_state]
@[simp] theorem setRg64_factoryTest (d : Dev) (die page reg v : Nat) : (setRg64 d die page reg v).factoryTest = d.factoryTest := by simp only [setRg64, setRg_factoryTest]
@[simp] theorem setRg64_powerLost (d : Dev) (die page reg v : Nat) : (setRg64 d die page reg v).powerLost = d.powerLost := by simp only [setRg64, setRg_powerLost]
@[simp] theorem setRg64_modRst (d : Dev) (die page reg v : Nat) : (setRg64 d die page reg v).modRst = d.modRst := by simp only [setRg64, setRg_modRst]
@[simp] theorem setRg64_pwr (d : Dev) (die page reg v : Nat) : (setRg64 d die page reg v).pwr = d.pwr := by simp only [setRg64, setRg_pwr]
@[simp] theorem setRg64_boot (d : Dev) (die page reg v : Nat) : (setRg64 d die page reg v).boot = d.boot := by simp only [setRg64, setRg_boot]
@[simp] theorem setRg64_rst (d : Dev) (die page reg v : Nat) : (setRg64 d die page reg v).rst = d.rst := by simp only [setRg64, setRg_rst]
@[simp] theorem setRg64_out (d : Dev) (die page reg v : Nat) : (setRg64 d die page reg v).out = d.out := by simp only [setRg64, setRg_out]

/-! ### bump -/
@[simp] theorem bump_now (d : Dev) (die page reg n : Nat) : (bump d die page reg n).now = d.now := by simp only [bump, setRg_now]
@[simp] theorem bump_freeCtr (d : Dev) (die page reg n : Nat) : (bump d die page reg n).freeCtr = d.freeCtr := by simp only [bump, setRg_freeCtr]
@[simp] theorem bump_latch (d : Dev) (die page reg n : Nat) : (bump d die page reg n).latch = d.latch := by simp only [bump, setRg_latch]
@[simp] theorem bump_cores (d : Dev) (die page reg n : Nat) : (bump d die page reg n).cores = d.cores := by simp only [bump, setRg_cores]
@[simp] theorem bump_sigs (d : Dev) (die page reg n : Nat) : (bump d die page reg n).sigs = d.sigs := by simp only [bump, setRg_sigs]
@[simp] theorem bump_flits (d : Dev) (die page reg n : Nat) : (bump d die page reg n).flits = d.flits := by simp only [bump, setRg_flits]
@[simp] theorem bump_mem (d : Dev) (die page reg n : Nat) : (bump d die page reg n).mem = d.mem := by simp only [bump, setRg_mem]
@[simp] theorem bump_qm (d : Dev) (die page reg n : Nat) : (bump d die page reg n).qm = d.qm := by simp only [bump, setRg_qm]
@[simp] theorem bump_ext (d : Dev) (die page reg n : Nat) : (bump d die page reg n).ext = d.ext := by simp only [bump, setRg_ext]
@[simp] theorem bump_fab (d : Dev) (die page reg n : Nat) : (bump d die page reg n).fab = d.fab := by simp only [bump, setRg_fab]
@[simp] theorem bump_orb (d : Dev) (die page reg n : Nat) : (bump d die page reg n).orb = d.orb := by simp only [bump, setRg_orb]
@[simp] theorem bump_tim (d : Dev) (die page reg n : Nat) : (bump d die page reg n).tim = d.tim := by simp only [bump, setRg_tim]
@[simp] theorem bump_pcieA (d : Dev) (die page reg n : Nat) : (bump d die page reg n).pcieA = d.pcieA := by simp only [bump, setRg_pcieA]
@[simp] theorem bump_pcieB (d : Dev) (die page reg n : Nat) : (bump d die page reg n).pcieB = d.pcieB := by simp only [bump, setRg_pcieB]
@[simp] theorem bump_mgmtPortB (d : Dev) (die page reg n : Nat) : (bump d die page reg n).mgmtPortB = d.mgmtPortB := by simp only [bump, setRg_mgmtPortB]
@[simp] theorem bump_sec (d : Dev) (die page reg n : Nat) : (bump d die page reg n).sec = d.sec := by simp only [bump, setRg_sec]
@[simp] theorem bump_flt (d : Dev) (die page reg n : Nat) : (bump d die page reg n).flt = d.flt := by simp only [bump, setRg_flt]
@[simp] theorem bump_state (d : Dev) (die page reg n : Nat) : (bump d die page reg n).state = d.state := by simp only [bump, setRg_state]
@[simp] theorem bump_factoryTest (d : Dev) (die page reg n : Nat) : (bump d die page reg n).factoryTest = d.factoryTest := by simp only [bump, setRg_factoryTest]
@[simp] theorem bump_powerLost (d : Dev) (die page reg n : Nat) : (bump d die page reg n).powerLost = d.powerLost := by simp only [bump, setRg_powerLost]
@[simp] theorem bump_modRst (d : Dev) (die page reg n : Nat) : (bump d die page reg n).modRst = d.modRst := by simp only [bump, setRg_modRst]
@[simp] theorem bump_pwr (d : Dev) (die page reg n : Nat) : (bump d die page reg n).pwr = d.pwr := by simp only [bump, setRg_pwr]
@[simp] theorem bump_boot (d : Dev) (die page reg n : Nat) : (bump d die page reg n).boot = d.boot := by simp only [bump, setRg_boot]
@[simp] theorem bump_rst (d : Dev) (die page reg n : Nat) : (bump d die page reg n).rst = d.rst := by simp only [bump, setRg_rst]
@[simp] theorem bump_out (d : Dev) (die page reg n : Nat) : (bump d die page reg n).out = d.out := by simp only [bump, setRg_out]

/-! ### bump64 -/
@[simp] theorem bump64_now (d : Dev) (die page reg n : Nat) : (bump64 d die page reg n).now = d.now := by simp only [bump64, setRg64_now]
@[simp] theorem bump64_freeCtr (d : Dev) (die page reg n : Nat) : (bump64 d die page reg n).freeCtr = d.freeCtr := by simp only [bump64, setRg64_freeCtr]
@[simp] theorem bump64_latch (d : Dev) (die page reg n : Nat) : (bump64 d die page reg n).latch = d.latch := by simp only [bump64, setRg64_latch]
@[simp] theorem bump64_cores (d : Dev) (die page reg n : Nat) : (bump64 d die page reg n).cores = d.cores := by simp only [bump64, setRg64_cores]
@[simp] theorem bump64_sigs (d : Dev) (die page reg n : Nat) : (bump64 d die page reg n).sigs = d.sigs := by simp only [bump64, setRg64_sigs]
@[simp] theorem bump64_flits (d : Dev) (die page reg n : Nat) : (bump64 d die page reg n).flits = d.flits := by simp only [bump64, setRg64_flits]
@[simp] theorem bump64_mem (d : Dev) (die page reg n : Nat) : (bump64 d die page reg n).mem = d.mem := by simp only [bump64, setRg64_mem]
@[simp] theorem bump64_qm (d : Dev) (die page reg n : Nat) : (bump64 d die page reg n).qm = d.qm := by simp only [bump64, setRg64_qm]
@[simp] theorem bump64_ext (d : Dev) (die page reg n : Nat) : (bump64 d die page reg n).ext = d.ext := by simp only [bump64, setRg64_ext]
@[simp] theorem bump64_fab (d : Dev) (die page reg n : Nat) : (bump64 d die page reg n).fab = d.fab := by simp only [bump64, setRg64_fab]
@[simp] theorem bump64_orb (d : Dev) (die page reg n : Nat) : (bump64 d die page reg n).orb = d.orb := by simp only [bump64, setRg64_orb]
@[simp] theorem bump64_tim (d : Dev) (die page reg n : Nat) : (bump64 d die page reg n).tim = d.tim := by simp only [bump64, setRg64_tim]
@[simp] theorem bump64_pcieA (d : Dev) (die page reg n : Nat) : (bump64 d die page reg n).pcieA = d.pcieA := by simp only [bump64, setRg64_pcieA]
@[simp] theorem bump64_pcieB (d : Dev) (die page reg n : Nat) : (bump64 d die page reg n).pcieB = d.pcieB := by simp only [bump64, setRg64_pcieB]
@[simp] theorem bump64_mgmtPortB (d : Dev) (die page reg n : Nat) : (bump64 d die page reg n).mgmtPortB = d.mgmtPortB := by simp only [bump64, setRg64_mgmtPortB]
@[simp] theorem bump64_sec (d : Dev) (die page reg n : Nat) : (bump64 d die page reg n).sec = d.sec := by simp only [bump64, setRg64_sec]
@[simp] theorem bump64_flt (d : Dev) (die page reg n : Nat) : (bump64 d die page reg n).flt = d.flt := by simp only [bump64, setRg64_flt]
@[simp] theorem bump64_state (d : Dev) (die page reg n : Nat) : (bump64 d die page reg n).state = d.state := by simp only [bump64, setRg64_state]
@[simp] theorem bump64_factoryTest (d : Dev) (die page reg n : Nat) : (bump64 d die page reg n).factoryTest = d.factoryTest := by simp only [bump64, setRg64_factoryTest]
@[simp] theorem bump64_powerLost (d : Dev) (die page reg n : Nat) : (bump64 d die page reg n).powerLost = d.powerLost := by simp only [bump64, setRg64_powerLost]
@[simp] theorem bump64_modRst (d : Dev) (die page reg n : Nat) : (bump64 d die page reg n).modRst = d.modRst := by simp only [bump64, setRg64_modRst]
@[simp] theorem bump64_pwr (d : Dev) (die page reg n : Nat) : (bump64 d die page reg n).pwr = d.pwr := by simp only [bump64, setRg64_pwr]
@[simp] theorem bump64_boot (d : Dev) (die page reg n : Nat) : (bump64 d die page reg n).boot = d.boot := by simp only [bump64, setRg64_boot]
@[simp] theorem bump64_rst (d : Dev) (die page reg n : Nat) : (bump64 d die page reg n).rst = d.rst := by simp only [bump64, setRg64_rst]
@[simp] theorem bump64_out (d : Dev) (die page reg n : Nat) : (bump64 d die page reg n).out = d.out := by simp only [bump64, setRg64_out]

/-! ### setRj -/
@[simp] theorem setRj_now (d : Dev) (j reg v : Nat) : (setRj d j reg v).now = d.now := by simp only [setRj, setRg_now]
@[simp] theorem setRj_freeCtr (d : Dev) (j reg v : Nat) : (setRj d j reg v).freeCtr = d.freeCtr := by simp only [setRj, setRg_freeCtr]
@[simp] theorem setRj_latch (d : Dev) (j reg v : Nat) : (setRj d j reg v).latch = d.latch := by simp only [setRj, setRg_latch]
@[simp] theorem setRj_cores (d : Dev) (j reg v : Nat) : (setRj d j reg v).cores = d.cores := by simp only [setRj, setRg_cores]
@[simp] theorem setRj_sigs (d : Dev) (j reg v : Nat) : (setRj d j reg v).sigs = d.sigs := by simp only [setRj, setRg_sigs]
@[simp] theorem setRj_flits (d : Dev) (j reg v : Nat) : (setRj d j reg v).flits = d.flits := by simp only [setRj, setRg_flits]
@[simp] theorem setRj_mem (d : Dev) (j reg v : Nat) : (setRj d j reg v).mem = d.mem := by simp only [setRj, setRg_mem]
@[simp] theorem setRj_qm (d : Dev) (j reg v : Nat) : (setRj d j reg v).qm = d.qm := by simp only [setRj, setRg_qm]
@[simp] theorem setRj_ext (d : Dev) (j reg v : Nat) : (setRj d j reg v).ext = d.ext := by simp only [setRj, setRg_ext]
@[simp] theorem setRj_fab (d : Dev) (j reg v : Nat) : (setRj d j reg v).fab = d.fab := by simp only [setRj, setRg_fab]
@[simp] theorem setRj_orb (d : Dev) (j reg v : Nat) : (setRj d j reg v).orb = d.orb := by simp only [setRj, setRg_orb]
@[simp] theorem setRj_tim (d : Dev) (j reg v : Nat) : (setRj d j reg v).tim = d.tim := by simp only [setRj, setRg_tim]
@[simp] theorem setRj_pcieA (d : Dev) (j reg v : Nat) : (setRj d j reg v).pcieA = d.pcieA := by simp only [setRj, setRg_pcieA]
@[simp] theorem setRj_pcieB (d : Dev) (j reg v : Nat) : (setRj d j reg v).pcieB = d.pcieB := by simp only [setRj, setRg_pcieB]
@[simp] theorem setRj_mgmtPortB (d : Dev) (j reg v : Nat) : (setRj d j reg v).mgmtPortB = d.mgmtPortB := by simp only [setRj, setRg_mgmtPortB]
@[simp] theorem setRj_sec (d : Dev) (j reg v : Nat) : (setRj d j reg v).sec = d.sec := by simp only [setRj, setRg_sec]
@[simp] theorem setRj_flt (d : Dev) (j reg v : Nat) : (setRj d j reg v).flt = d.flt := by simp only [setRj, setRg_flt]
@[simp] theorem setRj_state (d : Dev) (j reg v : Nat) : (setRj d j reg v).state = d.state := by simp only [setRj, setRg_state]
@[simp] theorem setRj_factoryTest (d : Dev) (j reg v : Nat) : (setRj d j reg v).factoryTest = d.factoryTest := by simp only [setRj, setRg_factoryTest]
@[simp] theorem setRj_powerLost (d : Dev) (j reg v : Nat) : (setRj d j reg v).powerLost = d.powerLost := by simp only [setRj, setRg_powerLost]
@[simp] theorem setRj_modRst (d : Dev) (j reg v : Nat) : (setRj d j reg v).modRst = d.modRst := by simp only [setRj, setRg_modRst]
@[simp] theorem setRj_pwr (d : Dev) (j reg v : Nat) : (setRj d j reg v).pwr = d.pwr := by simp only [setRj, setRg_pwr]
@[simp] theorem setRj_boot (d : Dev) (j reg v : Nat) : (setRj d j reg v).boot = d.boot := by simp only [setRj, setRg_boot]
@[simp] theorem setRj_rst (d : Dev) (j reg v : Nat) : (setRj d j reg v).rst = d.rst := by simp only [setRj, setRg_rst]
@[simp] theorem setRj_out (d : Dev) (j reg v : Nat) : (setRj d j reg v).out = d.out := by simp only [setRj, setRg_out]

/-! ### setRc -/
@[simp] theorem setRc_now (d : Dev) (n reg v : Nat) : (setRc d n reg v).now = d.now := by simp only [setRc, setRg_now]
@[simp] theorem setRc_freeCtr (d : Dev) (n reg v : Nat) : (setRc d n reg v).freeCtr = d.freeCtr := by simp only [setRc, setRg_freeCtr]
@[simp] theorem setRc_latch (d : Dev) (n reg v : Nat) : (setRc d n reg v).latch = d.latch := by simp only [setRc, setRg_latch]
@[simp] theorem setRc_cores (d : Dev) (n reg v : Nat) : (setRc d n reg v).cores = d.cores := by simp only [setRc, setRg_cores]
@[simp] theorem setRc_sigs (d : Dev) (n reg v : Nat) : (setRc d n reg v).sigs = d.sigs := by simp only [setRc, setRg_sigs]
@[simp] theorem setRc_flits (d : Dev) (n reg v : Nat) : (setRc d n reg v).flits = d.flits := by simp only [setRc, setRg_flits]
@[simp] theorem setRc_mem (d : Dev) (n reg v : Nat) : (setRc d n reg v).mem = d.mem := by simp only [setRc, setRg_mem]
@[simp] theorem setRc_qm (d : Dev) (n reg v : Nat) : (setRc d n reg v).qm = d.qm := by simp only [setRc, setRg_qm]
@[simp] theorem setRc_ext (d : Dev) (n reg v : Nat) : (setRc d n reg v).ext = d.ext := by simp only [setRc, setRg_ext]
@[simp] theorem setRc_fab (d : Dev) (n reg v : Nat) : (setRc d n reg v).fab = d.fab := by simp only [setRc, setRg_fab]
@[simp] theorem setRc_orb (d : Dev) (n reg v : Nat) : (setRc d n reg v).orb = d.orb := by simp only [setRc, setRg_orb]
@[simp] theorem setRc_tim (d : Dev) (n reg v : Nat) : (setRc d n reg v).tim = d.tim := by simp only [setRc, setRg_tim]
@[simp] theorem setRc_pcieA (d : Dev) (n reg v : Nat) : (setRc d n reg v).pcieA = d.pcieA := by simp only [setRc, setRg_pcieA]
@[simp] theorem setRc_pcieB (d : Dev) (n reg v : Nat) : (setRc d n reg v).pcieB = d.pcieB := by simp only [setRc, setRg_pcieB]
@[simp] theorem setRc_mgmtPortB (d : Dev) (n reg v : Nat) : (setRc d n reg v).mgmtPortB = d.mgmtPortB := by simp only [setRc, setRg_mgmtPortB]
@[simp] theorem setRc_sec (d : Dev) (n reg v : Nat) : (setRc d n reg v).sec = d.sec := by simp only [setRc, setRg_sec]
@[simp] theorem setRc_flt (d : Dev) (n reg v : Nat) : (setRc d n reg v).flt = d.flt := by simp only [setRc, setRg_flt]
@[simp] theorem setRc_state (d : Dev) (n reg v : Nat) : (setRc d n reg v).state = d.state := by simp only [setRc, setRg_state]
@[simp] theorem setRc_factoryTest (d : Dev) (n reg v : Nat) : (setRc d n reg v).factoryTest = d.factoryTest := by simp only [setRc, setRg_factoryTest]
@[simp] theorem setRc_powerLost (d : Dev) (n reg v : Nat) : (setRc d n reg v).powerLost = d.powerLost := by simp only [setRc, setRg_powerLost]
@[simp] theorem setRc_modRst (d : Dev) (n reg v : Nat) : (setRc d n reg v).modRst = d.modRst := by simp only [setRc, setRg_modRst]
@[simp] theorem setRc_pwr (d : Dev) (n reg v : Nat) : (setRc d n reg v).pwr = d.pwr := by simp only [setRc, setRg_pwr]
@[simp] theorem setRc_boot (d : Dev) (n reg v : Nat) : (setRc d n reg v).boot = d.boot := by simp only [setRc, setRg_boot]
@[simp] theorem setRc_rst (d : Dev) (n reg v : Nat) : (setRc d n reg v).rst = d.rst := by simp only [setRc, setRg_rst]
@[simp] theorem setRc_out (d : Dev) (n reg v : Nat) : (setRc d n reg v).out = d.out := by simp only [setRc, setRg_out]

/-! ### setRp -/
@[simp] theorem setRp_now (d : Dev) (port reg v : Nat) : (setRp d port reg v).now = d.now := by simp only [setRp, setRg_now]
@[simp] theorem setRp_freeCtr (d : Dev) (port reg v : Nat) : (setRp d port reg v).freeCtr = d.freeCtr := by simp only [setRp, setRg_freeCtr]
@[simp] theorem setRp_latch (d : Dev) (port reg v : Nat) : (setRp d port reg v).latch = d.latch := by simp only [setRp, setRg_latch]
@[simp] theorem setRp_cores (d : Dev) (port reg v : Nat) : (setRp d port reg v).cores = d.cores := by simp only [setRp, setRg_cores]
@[simp] theorem setRp_sigs (d : Dev) (port reg v : Nat) : (setRp d port reg v).sigs = d.sigs := by simp only [setRp, setRg_sigs]
@[simp] theorem setRp_flits (d : Dev) (port reg v : Nat) : (setRp d port reg v).flits = d.flits := by simp only [setRp, setRg_flits]
@[simp] theorem setRp_mem (d : Dev) (port reg v : Nat) : (setRp d port reg v).mem = d.mem := by simp only [setRp, setRg_mem]
@[simp] theorem setRp_qm (d : Dev) (port reg v : Nat) : (setRp d port reg v).qm = d.qm := by simp only [setRp, setRg_qm]
@[simp] theorem setRp_ext (d : Dev) (port reg v : Nat) : (setRp d port reg v).ext = d.ext := by simp only [setRp, setRg_ext]
@[simp] theorem setRp_fab (d : Dev) (port reg v : Nat) : (setRp d port reg v).fab = d.fab := by simp only [setRp, setRg_fab]
@[simp] theorem setRp_orb (d : Dev) (port reg v : Nat) : (setRp d port reg v).orb = d.orb := by simp only [setRp, setRg_orb]
@[simp] theorem setRp_tim (d : Dev) (port reg v : Nat) : (setRp d port reg v).tim = d.tim := by simp only [setRp, setRg_tim]
@[simp] theorem setRp_pcieA (d : Dev) (port reg v : Nat) : (setRp d port reg v).pcieA = d.pcieA := by simp only [setRp, setRg_pcieA]
@[simp] theorem setRp_pcieB (d : Dev) (port reg v : Nat) : (setRp d port reg v).pcieB = d.pcieB := by simp only [setRp, setRg_pcieB]
@[simp] theorem setRp_mgmtPortB (d : Dev) (port reg v : Nat) : (setRp d port reg v).mgmtPortB = d.mgmtPortB := by simp only [setRp, setRg_mgmtPortB]
@[simp] theorem setRp_sec (d : Dev) (port reg v : Nat) : (setRp d port reg v).sec = d.sec := by simp only [setRp, setRg_sec]
@[simp] theorem setRp_flt (d : Dev) (port reg v : Nat) : (setRp d port reg v).flt = d.flt := by simp only [setRp, setRg_flt]
@[simp] theorem setRp_state (d : Dev) (port reg v : Nat) : (setRp d port reg v).state = d.state := by simp only [setRp, setRg_state]
@[simp] theorem setRp_factoryTest (d : Dev) (port reg v : Nat) : (setRp d port reg v).factoryTest = d.factoryTest := by simp only [setRp, setRg_factoryTest]
@[simp] theorem setRp_powerLost (d : Dev) (port reg v : Nat) : (setRp d port reg v).powerLost = d.powerLost := by simp only [setRp, setRg_powerLost]
@[simp] theorem setRp_modRst (d : Dev) (port reg v : Nat) : (setRp d port reg v).modRst = d.modRst := by simp only [setRp, setRg_modRst]
@[simp] theorem setRp_pwr (d : Dev) (port reg v : Nat) : (setRp d port reg v).pwr = d.pwr := by simp only [setRp, setRg_pwr]
@[simp] theorem setRp_boot (d : Dev) (port reg v : Nat) : (setRp d port reg v).boot = d.boot := by simp only [setRp, setRg_boot]
@[simp] theorem setRp_rst (d : Dev) (port reg v : Nat) : (setRp d port reg v).rst = d.rst := by simp only [setRp, setRg_rst]
@[simp] theorem setRp_out (d : Dev) (port reg v : Nat) : (setRp d port reg v).out = d.out := by simp only [setRp, setRg_out]

/-! ### setRf -/
@[simp] theorem setRf_now (d : Dev) (reg v : Nat) : (setRf d reg v).now = d.now := by simp only [setRf, setRg_now]
@[simp] theorem setRf_freeCtr (d : Dev) (reg v : Nat) : (setRf d reg v).freeCtr = d.freeCtr := by simp only [setRf, setRg_freeCtr]
@[simp] theorem setRf_latch (d : Dev) (reg v : Nat) : (setRf d reg v).latch = d.latch := by simp only [setRf, setRg_latch]
@[simp] theorem setRf_cores (d : Dev) (reg v : Nat) : (setRf d reg v).cores = d.cores := by simp only [setRf, setRg_cores]
@[simp] theorem setRf_sigs (d : Dev) (reg v : Nat) : (setRf d reg v).sigs = d.sigs := by simp only [setRf, setRg_sigs]
@[simp] theorem setRf_flits (d : Dev) (reg v : Nat) : (setRf d reg v).flits = d.flits := by simp only [setRf, setRg_flits]
@[simp] theorem setRf_mem (d : Dev) (reg v : Nat) : (setRf d reg v).mem = d.mem := by simp only [setRf, setRg_mem]
@[simp] theorem setRf_qm (d : Dev) (reg v : Nat) : (setRf d reg v).qm = d.qm := by simp only [setRf, setRg_qm]
@[simp] theorem setRf_ext (d : Dev) (reg v : Nat) : (setRf d reg v).ext = d.ext := by simp only [setRf, setRg_ext]
@[simp] theorem setRf_fab (d : Dev) (reg v : Nat) : (setRf d reg v).fab = d.fab := by simp only [setRf, setRg_fab]
@[simp] theorem setRf_orb (d : Dev) (reg v : Nat) : (setRf d reg v).orb = d.orb := by simp only [setRf, setRg_orb]
@[simp] theorem setRf_tim (d : Dev) (reg v : Nat) : (setRf d reg v).tim = d.tim := by simp only [setRf, setRg_tim]
@[simp] theorem setRf_pcieA (d : Dev) (reg v : Nat) : (setRf d reg v).pcieA = d.pcieA := by simp only [setRf, setRg_pcieA]
@[simp] theorem setRf_pcieB (d : Dev) (reg v : Nat) : (setRf d reg v).pcieB = d.pcieB := by simp only [setRf, setRg_pcieB]
@[simp] theorem setRf_mgmtPortB (d : Dev) (reg v : Nat) : (setRf d reg v).mgmtPortB = d.mgmtPortB := by simp only [setRf, setRg_mgmtPortB]
@[simp] theorem setRf_sec (d : Dev) (reg v : Nat) : (setRf d reg v).sec = d.sec := by simp only [setRf, setRg_sec]
@[simp] theorem setRf_flt (d : Dev) (reg v : Nat) : (setRf d reg v).flt = d.flt := by simp only [setRf, setRg_flt]
@[simp] theorem setRf_state (d : Dev) (reg v : Nat) : (setRf d reg v).state = d.state := by simp only [setRf, setRg_state]
@[simp] theorem setRf_factoryTest (d : Dev) (reg v : Nat) : (setRf d reg v).factoryTest = d.factoryTest := by simp only [setRf, setRg_factoryTest]
@[simp] theorem setRf_powerLost (d : Dev) (reg v : Nat) : (setRf d reg v).powerLost = d.powerLost := by simp only [setRf, setRg_powerLost]
@[simp] theorem setRf_modRst (d : Dev) (reg v : Nat) : (setRf d reg v).modRst = d.modRst := by simp only [setRf, setRg_modRst]
@[simp] theorem setRf_pwr (d : Dev) (reg v : Nat) : (setRf d reg v).pwr = d.pwr := by simp only [setRf, setRg_pwr]
@[simp] theorem setRf_boot (d : Dev) (reg v : Nat) : (setRf d reg v).boot = d.boot := by simp only [setRf, setRg_boot]
@[simp] theorem setRf_rst (d : Dev) (reg v : Nat) : (setRf d reg v).rst = d.rst := by simp only [setRf, setRg_rst]
@[simp] theorem setRf_out (d : Dev) (reg v : Nat) : (setRf d reg v).out = d.out := by simp only [setRf, setRg_out]

/-! ### pageEvent -/
@[simp] theorem pageEvent_now (d : Dev) (die page bit : Nat) : (pageEvent d die page bit).now = d.now := by simp only [pageEvent, setRg_now]
@[simp] theorem pageEvent_freeCtr (d : Dev) (die page bit : Nat) : (pageEvent d die page bit).freeCtr = d.freeCtr := by simp only [pageEvent, setRg_freeCtr]
@[simp] theorem pageEvent_latch (d : Dev) (die page bit : Nat) : (pageEvent d die page bit).latch = d.latch := by simp only [pageEvent, setRg_latch]
@[simp] theorem pageEvent_cores (d : Dev) (die page bit : Nat) : (pageEvent d die page bit).cores = d.cores := by simp only [pageEvent, setRg_cores]
@[simp] theorem pageEvent_sigs (d : Dev) (die page bit : Nat) : (pageEvent d die page bit).sigs = d.sigs := by simp only [pageEvent, setRg_sigs]
@[simp] theorem pageEvent_flits (d : Dev) (die page bit : Nat) : (pageEvent d die page bit).flits = d.flits := by simp only [pageEvent, setRg_flits]
@[simp] theorem pageEvent_mem (d : Dev) (die page bit : Nat) : (pageEvent d die page bit).mem = d.mem := by simp only [pageEvent, setRg_mem]
@[simp] theorem pageEvent_qm (d : Dev) (die page bit : Nat) : (pageEvent d die page bit).qm = d.qm := by simp only [pageEvent, setRg_qm]
@[simp] theorem pageEvent_ext (d : Dev) (die page bit : Nat) : (pageEvent d die page bit).ext = d.ext := by simp only [pageEvent, setRg_ext]
@[simp] theorem pageEvent_fab (d : Dev) (die page bit : Nat) : (pageEvent d die page bit).fab = d.fab := by simp only [pageEvent, setRg_fab]
@[simp] theorem pageEvent_orb (d : Dev) (die page bit : Nat) : (pageEvent d die page bit).orb = d.orb := by simp only [pageEvent, setRg_orb]
@[simp] theorem pageEvent_tim (d : Dev) (die page bit : Nat) : (pageEvent d die page bit).tim = d.tim := by simp only [pageEvent, setRg_tim]
@[simp] theorem pageEvent_pcieA (d : Dev) (die page bit : Nat) : (pageEvent d die page bit).pcieA = d.pcieA := by simp only [pageEvent, setRg_pcieA]
@[simp] theorem pageEvent_pcieB (d : Dev) (die page bit : Nat) : (pageEvent d die page bit).pcieB = d.pcieB := by simp only [pageEvent, setRg_pcieB]
@[simp] theorem pageEvent_mgmtPortB (d : Dev) (die page bit : Nat) : (pageEvent d die page bit).mgmtPortB = d.mgmtPortB := by simp only [pageEvent, setRg_mgmtPortB]
@[simp] theorem pageEvent_sec (d : Dev) (die page bit : Nat) : (pageEvent d die page bit).sec = d.sec := by simp only [pageEvent, setRg_sec]
@[simp] theorem pageEvent_flt (d : Dev) (die page bit : Nat) : (pageEvent d die page bit).flt = d.flt := by simp only [pageEvent, setRg_flt]
@[simp] theorem pageEvent_state (d : Dev) (die page bit : Nat) : (pageEvent d die page bit).state = d.state := by simp only [pageEvent, setRg_state]
@[simp] theorem pageEvent_factoryTest (d : Dev) (die page bit : Nat) : (pageEvent d die page bit).factoryTest = d.factoryTest := by simp only [pageEvent, setRg_factoryTest]
@[simp] theorem pageEvent_powerLost (d : Dev) (die page bit : Nat) : (pageEvent d die page bit).powerLost = d.powerLost := by simp only [pageEvent, setRg_powerLost]
@[simp] theorem pageEvent_modRst (d : Dev) (die page bit : Nat) : (pageEvent d die page bit).modRst = d.modRst := by simp only [pageEvent, setRg_modRst]
@[simp] theorem pageEvent_pwr (d : Dev) (die page bit : Nat) : (pageEvent d die page bit).pwr = d.pwr := by simp only [pageEvent, setRg_pwr]
@[simp] theorem pageEvent_boot (d : Dev) (die page bit : Nat) : (pageEvent d die page bit).boot = d.boot := by simp only [pageEvent, setRg_boot]
@[simp] theorem pageEvent_rst (d : Dev) (die page bit : Nat) : (pageEvent d die page bit).rst = d.rst := by simp only [pageEvent, setRg_rst]
@[simp] theorem pageEvent_out (d : Dev) (die page bit : Nat) : (pageEvent d die page bit).out = d.out := by simp only [pageEvent, setRg_out]

/-! ### emit -/
@[simp] theorem emit_now (d : Dev) (o : Out) : (emit d o).now = d.now := by simp only [emit]
@[simp] theorem emit_freeCtr (d : Dev) (o : Out) : (emit d o).freeCtr = d.freeCtr := by simp only [emit]
@[simp] theorem emit_regs (d : Dev) (o : Out) : (emit d o).regs = d.regs := by simp only [emit]
@[simp] theorem emit_latch (d : Dev) (o : Out) : (emit d o).latch = d.latch := by simp only [emit]
@[simp] theorem emit_cores (d : Dev) (o : Out) : (emit d o).cores = d.cores := by simp only [emit]
@[simp] theorem emit_sigs (d : Dev) (o : Out) : (emit d o).sigs = d.sigs := by simp only [emit]
@[simp] theorem emit_flits (d : Dev) (o : Out) : (emit d o).flits = d.flits := by simp only [emit]
@[simp] theorem emit_mem (d : Dev) (o : Out) : (emit d o).mem = d.mem := by simp only [emit]
@[simp] theorem emit_qm (d : Dev) (o : Out) : (emit d o).qm = d.qm := by simp only [emit]
@[simp] theorem emit_ext (d : Dev) (o : Out) : (emit d o).ext = d.ext := by simp only [emit]
@[simp] theorem emit_fab (d : Dev) (o : Out) : (emit d o).fab = d.fab := by simp only [emit]
@[simp] theorem emit_orb (d : Dev) (o : Out) : (emit d o).orb = d.orb := by simp only [emit]
@[simp] theorem emit_tim (d : Dev) (o : Out) : (emit d o).tim = d.tim := by simp only [emit]
@[simp] theorem emit_pcieA (d : Dev) (o : Out) : (emit d o).pcieA = d.pcieA := by simp only [emit]
@[simp] theorem emit_pcieB (d : Dev) (o : Out) : (emit d o).pcieB = d.pcieB := by simp only [emit]
@[simp] theorem emit_mgmtPortB (d : Dev) (o : Out) : (emit d o).mgmtPortB = d.mgmtPortB := by simp only [emit]
@[simp] theorem emit_sec (d : Dev) (o : Out) : (emit d o).sec = d.sec := by simp only [emit]
@[simp] theorem emit_flt (d : Dev) (o : Out) : (emit d o).flt = d.flt := by simp only [emit]
@[simp] theorem emit_state (d : Dev) (o : Out) : (emit d o).state = d.state := by simp only [emit]
@[simp] theorem emit_factoryTest (d : Dev) (o : Out) : (emit d o).factoryTest = d.factoryTest := by simp only [emit]
@[simp] theorem emit_powerLost (d : Dev) (o : Out) : (emit d o).powerLost = d.powerLost := by simp only [emit]
@[simp] theorem emit_modRst (d : Dev) (o : Out) : (emit d o).modRst = d.modRst := by simp only [emit]
@[simp] theorem emit_pwr (d : Dev) (o : Out) : (emit d o).pwr = d.pwr := by simp only [emit]
@[simp] theorem emit_boot (d : Dev) (o : Out) : (emit d o).boot = d.boot := by simp only [emit]
@[simp] theorem emit_rst (d : Dev) (o : Out) : (emit d o).rst = d.rst := by simp only [emit]

/-! ### setPort -/
@[simp] theorem setPort_now (d : Dev) (p : Nat) (q : Port) : (setPort d p q).now = d.now := by simp only [setPort]
@[simp] theorem setPort_freeCtr (d : Dev) (p : Nat) (q : Port) : (setPort d p q).freeCtr = d.freeCtr := by simp only [setPort]
@[simp] theorem setPort_regs (d : Dev) (p : Nat) (q : Port) : (setPort d p q).regs = d.regs := by simp only [setPort]
@[simp] theorem setPort_latch (d : Dev) (p : Nat) (q : Port) : (setPort d p q).latch = d.latch := by simp only [setPort]
@[simp] theorem setPort_cores (d : Dev) (p : Nat) (q : Port) : (setPort d p q).cores = d.cores := by simp only [setPort]
@[simp] theorem setPort_sigs (d : Dev) (p : Nat) (q : Port) : (setPort d p q).sigs = d.sigs := by simp only [setPort]
@[simp] theorem setPort_flits (d : Dev) (p : Nat) (q : Port) : (setPort d p q).flits = d.flits := by simp only [setPort]
@[simp] theorem setPort_mem (d : Dev) (p : Nat) (q : Port) : (setPort d p q).mem = d.mem := by simp only [setPort]
@[simp] theorem setPort_qm (d : Dev) (p : Nat) (q : Port) : (setPort d p q).qm = d.qm := by simp only [setPort]
@[simp] theorem setPort_ext (d : Dev) (p : Nat) (q : Port) : (setPort d p q).ext = d.ext := by simp only [setPort]
@[simp] theorem setPort_orb (d : Dev) (p : Nat) (q : Port) : (setPort d p q).orb = d.orb := by simp only [setPort]
@[simp] theorem setPort_tim (d : Dev) (p : Nat) (q : Port) : (setPort d p q).tim = d.tim := by simp only [setPort]
@[simp] theorem setPort_pcieA (d : Dev) (p : Nat) (q : Port) : (setPort d p q).pcieA = d.pcieA := by simp only [setPort]
@[simp] theorem setPort_pcieB (d : Dev) (p : Nat) (q : Port) : (setPort d p q).pcieB = d.pcieB := by simp only [setPort]
@[simp] theorem setPort_mgmtPortB (d : Dev) (p : Nat) (q : Port) : (setPort d p q).mgmtPortB = d.mgmtPortB := by simp only [setPort]
@[simp] theorem setPort_sec (d : Dev) (p : Nat) (q : Port) : (setPort d p q).sec = d.sec := by simp only [setPort]
@[simp] theorem setPort_flt (d : Dev) (p : Nat) (q : Port) : (setPort d p q).flt = d.flt := by simp only [setPort]
@[simp] theorem setPort_state (d : Dev) (p : Nat) (q : Port) : (setPort d p q).state = d.state := by simp only [setPort]
@[simp] theorem setPort_factoryTest (d : Dev) (p : Nat) (q : Port) : (setPort d p q).factoryTest = d.factoryTest := by simp only [setPort]
@[simp] theorem setPort_powerLost (d : Dev) (p : Nat) (q : Port) : (setPort d p q).powerLost = d.powerLost := by simp only [setPort]
@[simp] theorem setPort_modRst (d : Dev) (p : Nat) (q : Port) : (setPort d p q).modRst = d.modRst := by simp only [setPort]
@[simp] theorem setPort_pwr (d : Dev) (p : Nat) (q : Port) : (setPort d p q).pwr = d.pwr := by simp only [setPort]
@[simp] theorem setPort_boot (d : Dev) (p : Nat) (q : Port) : (setPort d p q).boot = d.boot := by simp only [setPort]
@[simp] theorem setPort_rst (d : Dev) (p : Nat) (q : Port) : (setPort d p q).rst = d.rst := by simp only [setPort]
@[simp] theorem setPort_out (d : Dev) (p : Nat) (q : Port) : (setPort d p q).out = d.out := by simp only [setPort]

/-! ### setBytes -/
@[simp] theorem setBytes_now (d : Dev) (m : List Host.Cell) : (setBytes d m).now = d.now := by simp only [setBytes]
@[simp] theorem setBytes_freeCtr (d : Dev) (m : List Host.Cell) : (setBytes d m).freeCtr = d.freeCtr := by simp only [setBytes]
@[simp] theorem setBytes_regs (d : Dev) (m : List Host.Cell) : (setBytes d m).regs = d.regs := by simp only [setBytes]
@[simp] theorem setBytes_latch (d : Dev) (m : List Host.Cell) : (setBytes d m).latch = d.latch := by simp only [setBytes]
@[simp] theorem setBytes_cores (d : Dev) (m : List Host.Cell) : (setBytes d m).cores = d.cores := by simp only [setBytes]
@[simp] theorem setBytes_sigs (d : Dev) (m : List Host.Cell) : (setBytes d m).sigs = d.sigs := by simp only [setBytes]
@[simp] theorem setBytes_flits (d : Dev) (m : List Host.Cell) : (setBytes d m).flits = d.flits := by simp only [setBytes]
@[simp] theorem setBytes_qm (d : Dev) (m : List Host.Cell) : (setBytes d m).qm = d.qm := by simp only [setBytes]
@[simp] theorem setBytes_ext (d : Dev) (m : List Host.Cell) : (setBytes d m).ext = d.ext := by simp only [setBytes]
@[simp] theorem setBytes_fab (d : Dev) (m : List Host.Cell) : (setBytes d m).fab = d.fab := by simp only [setBytes]
@[simp] theorem setBytes_orb (d : Dev) (m : List Host.Cell) : (setBytes d m).orb = d.orb := by simp only [setBytes]
@[simp] theorem setBytes_tim (d : Dev) (m : List Host.Cell) : (setBytes d m).tim = d.tim := by simp only [setBytes]
@[simp] theorem setBytes_pcieA (d : Dev) (m : List Host.Cell) : (setBytes d m).pcieA = d.pcieA := by simp only [setBytes]
@[simp] theorem setBytes_pcieB (d : Dev) (m : List Host.Cell) : (setBytes d m).pcieB = d.pcieB := by simp only [setBytes]
@[simp] theorem setBytes_mgmtPortB (d : Dev) (m : List Host.Cell) : (setBytes d m).mgmtPortB = d.mgmtPortB := by simp only [setBytes]
@[simp] theorem setBytes_sec (d : Dev) (m : List Host.Cell) : (setBytes d m).sec = d.sec := by simp only [setBytes]
@[simp] theorem setBytes_flt (d : Dev) (m : List Host.Cell) : (setBytes d m).flt = d.flt := by simp only [setBytes]
@[simp] theorem setBytes_state (d : Dev) (m : List Host.Cell) : (setBytes d m).state = d.state := by simp only [setBytes]
@[simp] theorem setBytes_factoryTest (d : Dev) (m : List Host.Cell) : (setBytes d m).factoryTest = d.factoryTest := by simp only [setBytes]
@[simp] theorem setBytes_powerLost (d : Dev) (m : List Host.Cell) : (setBytes d m).powerLost = d.powerLost := by simp only [setBytes]
@[simp] theorem setBytes_modRst (d : Dev) (m : List Host.Cell) : (setBytes d m).modRst = d.modRst := by simp only [setBytes]
@[simp] theorem setBytes_pwr (d : Dev) (m : List Host.Cell) : (setBytes d m).pwr = d.pwr := by simp only [setBytes]
@[simp] theorem setBytes_boot (d : Dev) (m : List Host.Cell) : (setBytes d m).boot = d.boot := by simp only [setBytes]
@[simp] theorem setBytes_rst (d : Dev) (m : List Host.Cell) : (setBytes d m).rst = d.rst := by simp only [setBytes]
@[simp] theorem setBytes_out (d : Dev) (m : List Host.Cell) : (setBytes d m).out = d.out := by simp only [setBytes]

/-! ### setSeal -/
@[simp] theorem setSeal_now (d : Dev) (sid : Nat) (b : Bool) : (setSeal d sid b).now = d.now := by simp only [setSeal]
@[simp] theorem setSeal_freeCtr (d : Dev) (sid : Nat) (b : Bool) : (setSeal d sid b).freeCtr = d.freeCtr := by simp only [setSeal]
@[simp] theorem setSeal_regs (d : Dev) (sid : Nat) (b : Bool) : (setSeal d sid b).regs = d.regs := by simp only [setSeal]
@[simp] theorem setSeal_latch (d : Dev) (sid : Nat) (b : Bool) : (setSeal d sid b).latch = d.latch := by simp only [setSeal]
@[simp] theorem setSeal_cores (d : Dev) (sid : Nat) (b : Bool) : (setSeal d sid b).cores = d.cores := by simp only [setSeal]
@[simp] theorem setSeal_sigs (d : Dev) (sid : Nat) (b : Bool) : (setSeal d sid b).sigs = d.sigs := by simp only [setSeal]
@[simp] theorem setSeal_flits (d : Dev) (sid : Nat) (b : Bool) : (setSeal d sid b).flits = d.flits := by simp only [setSeal]
@[simp] theorem setSeal_qm (d : Dev) (sid : Nat) (b : Bool) : (setSeal d sid b).qm = d.qm := by simp only [setSeal]
@[simp] theorem setSeal_ext (d : Dev) (sid : Nat) (b : Bool) : (setSeal d sid b).ext = d.ext := by simp only [setSeal]
@[simp] theorem setSeal_fab (d : Dev) (sid : Nat) (b : Bool) : (setSeal d sid b).fab = d.fab := by simp only [setSeal]
@[simp] theorem setSeal_orb (d : Dev) (sid : Nat) (b : Bool) : (setSeal d sid b).orb = d.orb := by simp only [setSeal]
@[simp] theorem setSeal_tim (d : Dev) (sid : Nat) (b : Bool) : (setSeal d sid b).tim = d.tim := by simp only [setSeal]
@[simp] theorem setSeal_pcieA (d : Dev) (sid : Nat) (b : Bool) : (setSeal d sid b).pcieA = d.pcieA := by simp only [setSeal]
@[simp] theorem setSeal_pcieB (d : Dev) (sid : Nat) (b : Bool) : (setSeal d sid b).pcieB = d.pcieB := by simp only [setSeal]
@[simp] theorem setSeal_mgmtPortB (d : Dev) (sid : Nat) (b : Bool) : (setSeal d sid b).mgmtPortB = d.mgmtPortB := by simp only [setSeal]
@[simp] theorem setSeal_sec (d : Dev) (sid : Nat) (b : Bool) : (setSeal d sid b).sec = d.sec := by simp only [setSeal]
@[simp] theorem setSeal_flt (d : Dev) (sid : Nat) (b : Bool) : (setSeal d sid b).flt = d.flt := by simp only [setSeal]
@[simp] theorem setSeal_state (d : Dev) (sid : Nat) (b : Bool) : (setSeal d sid b).state = d.state := by simp only [setSeal]
@[simp] theorem setSeal_factoryTest (d : Dev) (sid : Nat) (b : Bool) : (setSeal d sid b).factoryTest = d.factoryTest := by simp only [setSeal]
@[simp] theorem setSeal_powerLost (d : Dev) (sid : Nat) (b : Bool) : (setSeal d sid b).powerLost = d.powerLost := by simp only [setSeal]
@[simp] theorem setSeal_modRst (d : Dev) (sid : Nat) (b : Bool) : (setSeal d sid b).modRst = d.modRst := by simp only [setSeal]
@[simp] theorem setSeal_pwr (d : Dev) (sid : Nat) (b : Bool) : (setSeal d sid b).pwr = d.pwr := by simp only [setSeal]
@[simp] theorem setSeal_boot (d : Dev) (sid : Nat) (b : Bool) : (setSeal d sid b).boot = d.boot := by simp only [setSeal]
@[simp] theorem setSeal_rst (d : Dev) (sid : Nat) (b : Bool) : (setSeal d sid b).rst = d.rst := by simp only [setSeal]
@[simp] theorem setSeal_out (d : Dev) (sid : Nat) (b : Bool) : (setSeal d sid b).out = d.out := by simp only [setSeal]

/-! ### setPoison -/
@[simp] theorem setPoison_now (d : Dev) (sid : Nat) (b : Bool) : (setPoison d sid b).now = d.now := by simp only [setPoison]
@[simp] theorem setPoison_freeCtr (d : Dev) (sid : Nat) (b : Bool) : (setPoison d sid b).freeCtr = d.freeCtr := by simp only [setPoison]
@[simp] theorem setPoison_regs (d : Dev) (sid : Nat) (b : Bool) : (setPoison d sid b).regs = d.regs := by simp only [setPoison]
@[simp] theorem setPoison_latch (d : Dev) (sid : Nat) (b : Bool) : (setPoison d sid b).latch = d.latch := by simp only [setPoison]
@[simp] theorem setPoison_cores (d : Dev) (sid : Nat) (b : Bool) : (setPoison d sid b).cores = d.cores := by simp only [setPoison]
@[simp] theorem setPoison_sigs (d : Dev) (sid : Nat) (b : Bool) : (setPoison d sid b).sigs = d.sigs := by simp only [setPoison]
@[simp] theorem setPoison_flits (d : Dev) (sid : Nat) (b : Bool) : (setPoison d sid b).flits = d.flits := by simp only [setPoison]
@[simp] theorem setPoison_qm (d : Dev) (sid : Nat) (b : Bool) : (setPoison d sid b).qm = d.qm := by simp only [setPoison]
@[simp] theorem setPoison_ext (d : Dev) (sid : Nat) (b : Bool) : (setPoison d sid b).ext = d.ext := by simp only [setPoison]
@[simp] theorem setPoison_fab (d : Dev) (sid : Nat) (b : Bool) : (setPoison d sid b).fab = d.fab := by simp only [setPoison]
@[simp] theorem setPoison_orb (d : Dev) (sid : Nat) (b : Bool) : (setPoison d sid b).orb = d.orb := by simp only [setPoison]
@[simp] theorem setPoison_tim (d : Dev) (sid : Nat) (b : Bool) : (setPoison d sid b).tim = d.tim := by simp only [setPoison]
@[simp] theorem setPoison_pcieA (d : Dev) (sid : Nat) (b : Bool) : (setPoison d sid b).pcieA = d.pcieA := by simp only [setPoison]
@[simp] theorem setPoison_pcieB (d : Dev) (sid : Nat) (b : Bool) : (setPoison d sid b).pcieB = d.pcieB := by simp only [setPoison]
@[simp] theorem setPoison_mgmtPortB (d : Dev) (sid : Nat) (b : Bool) : (setPoison d sid b).mgmtPortB = d.mgmtPortB := by simp only [setPoison]
@[simp] theorem setPoison_sec (d : Dev) (sid : Nat) (b : Bool) : (setPoison d sid b).sec = d.sec := by simp only [setPoison]
@[simp] theorem setPoison_flt (d : Dev) (sid : Nat) (b : Bool) : (setPoison d sid b).flt = d.flt := by simp only [setPoison]
@[simp] theorem setPoison_state (d : Dev) (sid : Nat) (b : Bool) : (setPoison d sid b).state = d.state := by simp only [setPoison]
@[simp] theorem setPoison_factoryTest (d : Dev) (sid : Nat) (b : Bool) : (setPoison d sid b).factoryTest = d.factoryTest := by simp only [setPoison]
@[simp] theorem setPoison_powerLost (d : Dev) (sid : Nat) (b : Bool) : (setPoison d sid b).powerLost = d.powerLost := by simp only [setPoison]
@[simp] theorem setPoison_modRst (d : Dev) (sid : Nat) (b : Bool) : (setPoison d sid b).modRst = d.modRst := by simp only [setPoison]
@[simp] theorem setPoison_pwr (d : Dev) (sid : Nat) (b : Bool) : (setPoison d sid b).pwr = d.pwr := by simp only [setPoison]
@[simp] theorem setPoison_boot (d : Dev) (sid : Nat) (b : Bool) : (setPoison d sid b).boot = d.boot := by simp only [setPoison]
@[simp] theorem setPoison_rst (d : Dev) (sid : Nat) (b : Bool) : (setPoison d sid b).rst = d.rst := by simp only [setPoison]
@[simp] theorem setPoison_out (d : Dev) (sid : Nat) (b : Bool) : (setPoison d sid b).out = d.out := by simp only [setPoison]

/-! ### setRoot -/
@[simp] theorem setRoot_now (d : Dev) (k sid : Nat) : (setRoot d k sid).now = d.now := by simp only [setRoot]
@[simp] theorem setRoot_freeCtr (d : Dev) (k sid : Nat) : (setRoot d k sid).freeCtr = d.freeCtr := by simp only [setRoot]
@[simp] theorem setRoot_regs (d : Dev) (k sid : Nat) : (setRoot d k sid).regs = d.regs := by simp only [setRoot]
@[simp] theorem setRoot_latch (d : Dev) (k sid : Nat) : (setRoot d k sid).latch = d.latch := by simp only [setRoot]
@[simp] theorem setRoot_cores (d : Dev) (k sid : Nat) : (setRoot d k sid).cores = d.cores := by simp only [setRoot]
@[simp] theorem setRoot_sigs (d : Dev) (k sid : Nat) : (setRoot d k sid).sigs = d.sigs := by simp only [setRoot]
@[simp] theorem setRoot_flits (d : Dev) (k sid : Nat) : (setRoot d k sid).flits = d.flits := by simp only [setRoot]
@[simp] theorem setRoot_qm (d : Dev) (k sid : Nat) : (setRoot d k sid).qm = d.qm := by simp only [setRoot]
@[simp] theorem setRoot_ext (d : Dev) (k sid : Nat) : (setRoot d k sid).ext = d.ext := by simp only [setRoot]
@[simp] theorem setRoot_fab (d : Dev) (k sid : Nat) : (setRoot d k sid).fab = d.fab := by simp only [setRoot]
@[simp] theorem setRoot_orb (d : Dev) (k sid : Nat) : (setRoot d k sid).orb = d.orb := by simp only [setRoot]
@[simp] theorem setRoot_tim (d : Dev) (k sid : Nat) : (setRoot d k sid).tim = d.tim := by simp only [setRoot]
@[simp] theorem setRoot_pcieA (d : Dev) (k sid : Nat) : (setRoot d k sid).pcieA = d.pcieA := by simp only [setRoot]
@[simp] theorem setRoot_pcieB (d : Dev) (k sid : Nat) : (setRoot d k sid).pcieB = d.pcieB := by simp only [setRoot]
@[simp] theorem setRoot_mgmtPortB (d : Dev) (k sid : Nat) : (setRoot d k sid).mgmtPortB = d.mgmtPortB := by simp only [setRoot]
@[simp] theorem setRoot_sec (d : Dev) (k sid : Nat) : (setRoot d k sid).sec = d.sec := by simp only [setRoot]
@[simp] theorem setRoot_flt (d : Dev) (k sid : Nat) : (setRoot d k sid).flt = d.flt := by simp only [setRoot]
@[simp] theorem setRoot_state (d : Dev) (k sid : Nat) : (setRoot d k sid).state = d.state := by simp only [setRoot]
@[simp] theorem setRoot_factoryTest (d : Dev) (k sid : Nat) : (setRoot d k sid).factoryTest = d.factoryTest := by simp only [setRoot]
@[simp] theorem setRoot_powerLost (d : Dev) (k sid : Nat) : (setRoot d k sid).powerLost = d.powerLost := by simp only [setRoot]
@[simp] theorem setRoot_modRst (d : Dev) (k sid : Nat) : (setRoot d k sid).modRst = d.modRst := by simp only [setRoot]
@[simp] theorem setRoot_pwr (d : Dev) (k sid : Nat) : (setRoot d k sid).pwr = d.pwr := by simp only [setRoot]
@[simp] theorem setRoot_boot (d : Dev) (k sid : Nat) : (setRoot d k sid).boot = d.boot := by simp only [setRoot]
@[simp] theorem setRoot_rst (d : Dev) (k sid : Nat) : (setRoot d k sid).rst = d.rst := by simp only [setRoot]
@[simp] theorem setRoot_out (d : Dev) (k sid : Nat) : (setRoot d k sid).out = d.out := by simp only [setRoot]

/-! ### setObj -/
@[simp] theorem setObj_now (d : Dev) (oid : Nat) (o : Obj) : (setObj d oid o).now = d.now := by simp only [setObj]
@[simp] theorem setObj_freeCtr (d : Dev) (oid : Nat) (o : Obj) : (setObj d oid o).freeCtr = d.freeCtr := by simp only [setObj]
@[simp] theorem setObj_regs (d : Dev) (oid : Nat) (o : Obj) : (setObj d oid o).regs = d.regs := by simp only [setObj]
@[simp] theorem setObj_latch (d : Dev) (oid : Nat) (o : Obj) : (setObj d oid o).latch = d.latch := by simp only [setObj]
@[simp] theorem setObj_cores (d : Dev) (oid : Nat) (o : Obj) : (setObj d oid o).cores = d.cores := by simp only [setObj]
@[simp] theorem setObj_sigs (d : Dev) (oid : Nat) (o : Obj) : (setObj d oid o).sigs = d.sigs := by simp only [setObj]
@[simp] theorem setObj_flits (d : Dev) (oid : Nat) (o : Obj) : (setObj d oid o).flits = d.flits := by simp only [setObj]
@[simp] theorem setObj_qm (d : Dev) (oid : Nat) (o : Obj) : (setObj d oid o).qm = d.qm := by simp only [setObj]
@[simp] theorem setObj_ext (d : Dev) (oid : Nat) (o : Obj) : (setObj d oid o).ext = d.ext := by simp only [setObj]
@[simp] theorem setObj_fab (d : Dev) (oid : Nat) (o : Obj) : (setObj d oid o).fab = d.fab := by simp only [setObj]
@[simp] theorem setObj_orb (d : Dev) (oid : Nat) (o : Obj) : (setObj d oid o).orb = d.orb := by simp only [setObj]
@[simp] theorem setObj_tim (d : Dev) (oid : Nat) (o : Obj) : (setObj d oid o).tim = d.tim := by simp only [setObj]
@[simp] theorem setObj_pcieA (d : Dev) (oid : Nat) (o : Obj) : (setObj d oid o).pcieA = d.pcieA := by simp only [setObj]
@[simp] theorem setObj_pcieB (d : Dev) (oid : Nat) (o : Obj) : (setObj d oid o).pcieB = d.pcieB := by simp only [setObj]
@[simp] theorem setObj_mgmtPortB (d : Dev) (oid : Nat) (o : Obj) : (setObj d oid o).mgmtPortB = d.mgmtPortB := by simp only [setObj]
@[simp] theorem setObj_sec (d : Dev) (oid : Nat) (o : Obj) : (setObj d oid o).sec = d.sec := by simp only [setObj]
@[simp] theorem setObj_flt (d : Dev) (oid : Nat) (o : Obj) : (setObj d oid o).flt = d.flt := by simp only [setObj]
@[simp] theorem setObj_state (d : Dev) (oid : Nat) (o : Obj) : (setObj d oid o).state = d.state := by simp only [setObj]
@[simp] theorem setObj_factoryTest (d : Dev) (oid : Nat) (o : Obj) : (setObj d oid o).factoryTest = d.factoryTest := by simp only [setObj]
@[simp] theorem setObj_powerLost (d : Dev) (oid : Nat) (o : Obj) : (setObj d oid o).powerLost = d.powerLost := by simp only [setObj]
@[simp] theorem setObj_modRst (d : Dev) (oid : Nat) (o : Obj) : (setObj d oid o).modRst = d.modRst := by simp only [setObj]
@[simp] theorem setObj_pwr (d : Dev) (oid : Nat) (o : Obj) : (setObj d oid o).pwr = d.pwr := by simp only [setObj]
@[simp] theorem setObj_boot (d : Dev) (oid : Nat) (o : Obj) : (setObj d oid o).boot = d.boot := by simp only [setObj]
@[simp] theorem setObj_rst (d : Dev) (oid : Nat) (o : Obj) : (setObj d oid o).rst = d.rst := by simp only [setObj]
@[simp] theorem setObj_out (d : Dev) (oid : Nat) (o : Obj) : (setObj d oid o).out = d.out := by simp only [setObj]

/-! ### eraseObj -/
@[simp] theorem eraseObj_now (d : Dev) (oid : Nat) : (eraseObj d oid).now = d.now := by simp only [eraseObj]
@[simp] theorem eraseObj_freeCtr (d : Dev) (oid : Nat) : (eraseObj d oid).freeCtr = d.freeCtr := by simp only [eraseObj]
@[simp] theorem eraseObj_regs (d : Dev) (oid : Nat) : (eraseObj d oid).regs = d.regs := by simp only [eraseObj]
@[simp] theorem eraseObj_latch (d : Dev) (oid : Nat) : (eraseObj d oid).latch = d.latch := by simp only [eraseObj]
@[simp] theorem eraseObj_cores (d : Dev) (oid : Nat) : (eraseObj d oid).cores = d.cores := by simp only [eraseObj]
@[simp] theorem eraseObj_sigs (d : Dev) (oid : Nat) : (eraseObj d oid).sigs = d.sigs := by simp only [eraseObj]
@[simp] theorem eraseObj_flits (d : Dev) (oid : Nat) : (eraseObj d oid).flits = d.flits := by simp only [eraseObj]
@[simp] theorem eraseObj_qm (d : Dev) (oid : Nat) : (eraseObj d oid).qm = d.qm := by simp only [eraseObj]
@[simp] theorem eraseObj_ext (d : Dev) (oid : Nat) : (eraseObj d oid).ext = d.ext := by simp only [eraseObj]
@[simp] theorem eraseObj_fab (d : Dev) (oid : Nat) : (eraseObj d oid).fab = d.fab := by simp only [eraseObj]
@[simp] theorem eraseObj_orb (d : Dev) (oid : Nat) : (eraseObj d oid).orb = d.orb := by simp only [eraseObj]
@[simp] theorem eraseObj_tim (d : Dev) (oid : Nat) : (eraseObj d oid).tim = d.tim := by simp only [eraseObj]
@[simp] theorem eraseObj_pcieA (d : Dev) (oid : Nat) : (eraseObj d oid).pcieA = d.pcieA := by simp only [eraseObj]
@[simp] theorem eraseObj_pcieB (d : Dev) (oid : Nat) : (eraseObj d oid).pcieB = d.pcieB := by simp only [eraseObj]
@[simp] theorem eraseObj_mgmtPortB (d : Dev) (oid : Nat) : (eraseObj d oid).mgmtPortB = d.mgmtPortB := by simp only [eraseObj]
@[simp] theorem eraseObj_sec (d : Dev) (oid : Nat) : (eraseObj d oid).sec = d.sec := by simp only [eraseObj]
@[simp] theorem eraseObj_flt (d : Dev) (oid : Nat) : (eraseObj d oid).flt = d.flt := by simp only [eraseObj]
@[simp] theorem eraseObj_state (d : Dev) (oid : Nat) : (eraseObj d oid).state = d.state := by simp only [eraseObj]
@[simp] theorem eraseObj_factoryTest (d : Dev) (oid : Nat) : (eraseObj d oid).factoryTest = d.factoryTest := by simp only [eraseObj]
@[simp] theorem eraseObj_powerLost (d : Dev) (oid : Nat) : (eraseObj d oid).powerLost = d.powerLost := by simp only [eraseObj]
@[simp] theorem eraseObj_modRst (d : Dev) (oid : Nat) : (eraseObj d oid).modRst = d.modRst := by simp only [eraseObj]
@[simp] theorem eraseObj_pwr (d : Dev) (oid : Nat) : (eraseObj d oid).pwr = d.pwr := by simp only [eraseObj]
@[simp] theorem eraseObj_boot (d : Dev) (oid : Nat) : (eraseObj d oid).boot = d.boot := by simp only [eraseObj]
@[simp] theorem eraseObj_rst (d : Dev) (oid : Nat) : (eraseObj d oid).rst = d.rst := by simp only [eraseObj]
@[simp] theorem eraseObj_out (d : Dev) (oid : Nat) : (eraseObj d oid).out = d.out := by simp only [eraseObj]

/-! ### setJob -/
@[simp] theorem setJob_now (d : Dev) (j : Nat) (x : Job) : (setJob d j x).now = d.now := by simp only [setJob]
@[simp] theorem setJob_freeCtr (d : Dev) (j : Nat) (x : Job) : (setJob d j x).freeCtr = d.freeCtr := by simp only [setJob]
@[simp] theorem setJob_regs (d : Dev) (j : Nat) (x : Job) : (setJob d j x).regs = d.regs := by simp only [setJob]
@[simp] theorem setJob_latch (d : Dev) (j : Nat) (x : Job) : (setJob d j x).latch = d.latch := by simp only [setJob]
@[simp] theorem setJob_cores (d : Dev) (j : Nat) (x : Job) : (setJob d j x).cores = d.cores := by simp only [setJob]
@[simp] theorem setJob_sigs (d : Dev) (j : Nat) (x : Job) : (setJob d j x).sigs = d.sigs := by simp only [setJob]
@[simp] theorem setJob_flits (d : Dev) (j : Nat) (x : Job) : (setJob d j x).flits = d.flits := by simp only [setJob]
@[simp] theorem setJob_mem (d : Dev) (j : Nat) (x : Job) : (setJob d j x).mem = d.mem := by simp only [setJob]
@[simp] theorem setJob_ext (d : Dev) (j : Nat) (x : Job) : (setJob d j x).ext = d.ext := by simp only [setJob]
@[simp] theorem setJob_fab (d : Dev) (j : Nat) (x : Job) : (setJob d j x).fab = d.fab := by simp only [setJob]
@[simp] theorem setJob_orb (d : Dev) (j : Nat) (x : Job) : (setJob d j x).orb = d.orb := by simp only [setJob]
@[simp] theorem setJob_tim (d : Dev) (j : Nat) (x : Job) : (setJob d j x).tim = d.tim := by simp only [setJob]
@[simp] theorem setJob_pcieA (d : Dev) (j : Nat) (x : Job) : (setJob d j x).pcieA = d.pcieA := by simp only [setJob]
@[simp] theorem setJob_pcieB (d : Dev) (j : Nat) (x : Job) : (setJob d j x).pcieB = d.pcieB := by simp only [setJob]
@[simp] theorem setJob_mgmtPortB (d : Dev) (j : Nat) (x : Job) : (setJob d j x).mgmtPortB = d.mgmtPortB := by simp only [setJob]
@[simp] theorem setJob_sec (d : Dev) (j : Nat) (x : Job) : (setJob d j x).sec = d.sec := by simp only [setJob]
@[simp] theorem setJob_flt (d : Dev) (j : Nat) (x : Job) : (setJob d j x).flt = d.flt := by simp only [setJob]
@[simp] theorem setJob_state (d : Dev) (j : Nat) (x : Job) : (setJob d j x).state = d.state := by simp only [setJob]
@[simp] theorem setJob_factoryTest (d : Dev) (j : Nat) (x : Job) : (setJob d j x).factoryTest = d.factoryTest := by simp only [setJob]
@[simp] theorem setJob_powerLost (d : Dev) (j : Nat) (x : Job) : (setJob d j x).powerLost = d.powerLost := by simp only [setJob]
@[simp] theorem setJob_modRst (d : Dev) (j : Nat) (x : Job) : (setJob d j x).modRst = d.modRst := by simp only [setJob]
@[simp] theorem setJob_pwr (d : Dev) (j : Nat) (x : Job) : (setJob d j x).pwr = d.pwr := by simp only [setJob]
@[simp] theorem setJob_boot (d : Dev) (j : Nat) (x : Job) : (setJob d j x).boot = d.boot := by simp only [setJob]
@[simp] theorem setJob_rst (d : Dev) (j : Nat) (x : Job) : (setJob d j x).rst = d.rst := by simp only [setJob]
@[simp] theorem setJob_out (d : Dev) (j : Nat) (x : Job) : (setJob d j x).out = d.out := by simp only [setJob]

/-! ### setCmd -/
@[simp] theorem setCmd_now (d : Dev) (uid : Nat) (c : Cmd) : (setCmd d uid c).now = d.now := by simp only [setCmd]
@[simp] theorem setCmd_freeCtr (d : Dev) (uid : Nat) (c : Cmd) : (setCmd d uid c).freeCtr = d.freeCtr := by simp only [setCmd]
@[simp] theorem setCmd_regs (d : Dev) (uid : Nat) (c : Cmd) : (setCmd d uid c).regs = d.regs := by simp only [setCmd]
@[simp] theorem setCmd_latch (d : Dev) (uid : Nat) (c : Cmd) : (setCmd d uid c).latch = d.latch := by simp only [setCmd]
@[simp] theorem setCmd_cores (d : Dev) (uid : Nat) (c : Cmd) : (setCmd d uid c).cores = d.cores := by simp only [setCmd]
@[simp] theorem setCmd_sigs (d : Dev) (uid : Nat) (c : Cmd) : (setCmd d uid c).sigs = d.sigs := by simp only [setCmd]
@[simp] theorem setCmd_flits (d : Dev) (uid : Nat) (c : Cmd) : (setCmd d uid c).flits = d.flits := by simp only [setCmd]
@[simp] theorem setCmd_mem (d : Dev) (uid : Nat) (c : Cmd) : (setCmd d uid c).mem = d.mem := by simp only [setCmd]
@[simp] theorem setCmd_ext (d : Dev) (uid : Nat) (c : Cmd) : (setCmd d uid c).ext = d.ext := by simp only [setCmd]
@[simp] theorem setCmd_fab (d : Dev) (uid : Nat) (c : Cmd) : (setCmd d uid c).fab = d.fab := by simp only [setCmd]
@[simp] theorem setCmd_orb (d : Dev) (uid : Nat) (c : Cmd) : (setCmd d uid c).orb = d.orb := by simp only [setCmd]
@[simp] theorem setCmd_tim (d : Dev) (uid : Nat) (c : Cmd) : (setCmd d uid c).tim = d.tim := by simp only [setCmd]
@[simp] theorem setCmd_pcieA (d : Dev) (uid : Nat) (c : Cmd) : (setCmd d uid c).pcieA = d.pcieA := by simp only [setCmd]
@[simp] theorem setCmd_pcieB (d : Dev) (uid : Nat) (c : Cmd) : (setCmd d uid c).pcieB = d.pcieB := by simp only [setCmd]
@[simp] theorem setCmd_mgmtPortB (d : Dev) (uid : Nat) (c : Cmd) : (setCmd d uid c).mgmtPortB = d.mgmtPortB := by simp only [setCmd]
@[simp] theorem setCmd_sec (d : Dev) (uid : Nat) (c : Cmd) : (setCmd d uid c).sec = d.sec := by simp only [setCmd]
@[simp] theorem setCmd_flt (d : Dev) (uid : Nat) (c : Cmd) : (setCmd d uid c).flt = d.flt := by simp only [setCmd]
@[simp] theorem setCmd_state (d : Dev) (uid : Nat) (c : Cmd) : (setCmd d uid c).state = d.state := by simp only [setCmd]
@[simp] theorem setCmd_factoryTest (d : Dev) (uid : Nat) (c : Cmd) : (setCmd d uid c).factoryTest = d.factoryTest := by simp only [setCmd]
@[simp] theorem setCmd_powerLost (d : Dev) (uid : Nat) (c : Cmd) : (setCmd d uid c).powerLost = d.powerLost := by simp only [setCmd]
@[simp] theorem setCmd_modRst (d : Dev) (uid : Nat) (c : Cmd) : (setCmd d uid c).modRst = d.modRst := by simp only [setCmd]
@[simp] theorem setCmd_pwr (d : Dev) (uid : Nat) (c : Cmd) : (setCmd d uid c).pwr = d.pwr := by simp only [setCmd]
@[simp] theorem setCmd_boot (d : Dev) (uid : Nat) (c : Cmd) : (setCmd d uid c).boot = d.boot := by simp only [setCmd]
@[simp] theorem setCmd_rst (d : Dev) (uid : Nat) (c : Cmd) : (setCmd d uid c).rst = d.rst := by simp only [setCmd]
@[simp] theorem setCmd_out (d : Dev) (uid : Nat) (c : Cmd) : (setCmd d uid c).out = d.out := by simp only [setCmd]

/-! ### setSess -/
@[simp] theorem setSess_now (d : Dev) (n : Nat) (x : Sess) : (setSess d n x).now = d.now := by simp only [setSess]
@[simp] theorem setSess_freeCtr (d : Dev) (n : Nat) (x : Sess) : (setSess d n x).freeCtr = d.freeCtr := by simp only [setSess]
@[simp] theorem setSess_regs (d : Dev) (n : Nat) (x : Sess) : (setSess d n x).regs = d.regs := by simp only [setSess]
@[simp] theorem setSess_latch (d : Dev) (n : Nat) (x : Sess) : (setSess d n x).latch = d.latch := by simp only [setSess]
@[simp] theorem setSess_cores (d : Dev) (n : Nat) (x : Sess) : (setSess d n x).cores = d.cores := by simp only [setSess]
@[simp] theorem setSess_sigs (d : Dev) (n : Nat) (x : Sess) : (setSess d n x).sigs = d.sigs := by simp only [setSess]
@[simp] theorem setSess_flits (d : Dev) (n : Nat) (x : Sess) : (setSess d n x).flits = d.flits := by simp only [setSess]
@[simp] theorem setSess_mem (d : Dev) (n : Nat) (x : Sess) : (setSess d n x).mem = d.mem := by simp only [setSess]
@[simp] theorem setSess_ext (d : Dev) (n : Nat) (x : Sess) : (setSess d n x).ext = d.ext := by simp only [setSess]
@[simp] theorem setSess_fab (d : Dev) (n : Nat) (x : Sess) : (setSess d n x).fab = d.fab := by simp only [setSess]
@[simp] theorem setSess_orb (d : Dev) (n : Nat) (x : Sess) : (setSess d n x).orb = d.orb := by simp only [setSess]
@[simp] theorem setSess_tim (d : Dev) (n : Nat) (x : Sess) : (setSess d n x).tim = d.tim := by simp only [setSess]
@[simp] theorem setSess_pcieA (d : Dev) (n : Nat) (x : Sess) : (setSess d n x).pcieA = d.pcieA := by simp only [setSess]
@[simp] theorem setSess_pcieB (d : Dev) (n : Nat) (x : Sess) : (setSess d n x).pcieB = d.pcieB := by simp only [setSess]
@[simp] theorem setSess_mgmtPortB (d : Dev) (n : Nat) (x : Sess) : (setSess d n x).mgmtPortB = d.mgmtPortB := by simp only [setSess]
@[simp] theorem setSess_sec (d : Dev) (n : Nat) (x : Sess) : (setSess d n x).sec = d.sec := by simp only [setSess]
@[simp] theorem setSess_flt (d : Dev) (n : Nat) (x : Sess) : (setSess d n x).flt = d.flt := by simp only [setSess]
@[simp] theorem setSess_state (d : Dev) (n : Nat) (x : Sess) : (setSess d n x).state = d.state := by simp only [setSess]
@[simp] theorem setSess_factoryTest (d : Dev) (n : Nat) (x : Sess) : (setSess d n x).factoryTest = d.factoryTest := by simp only [setSess]
@[simp] theorem setSess_powerLost (d : Dev) (n : Nat) (x : Sess) : (setSess d n x).powerLost = d.powerLost := by simp only [setSess]
@[simp] theorem setSess_modRst (d : Dev) (n : Nat) (x : Sess) : (setSess d n x).modRst = d.modRst := by simp only [setSess]
@[simp] theorem setSess_pwr (d : Dev) (n : Nat) (x : Sess) : (setSess d n x).pwr = d.pwr := by simp only [setSess]
@[simp] theorem setSess_boot (d : Dev) (n : Nat) (x : Sess) : (setSess d n x).boot = d.boot := by simp only [setSess]
@[simp] theorem setSess_rst (d : Dev) (n : Nat) (x : Sess) : (setSess d n x).rst = d.rst := by simp only [setSess]
@[simp] theorem setSess_out (d : Dev) (n : Nat) (x : Sess) : (setSess d n x).out = d.out := by simp only [setSess]

/-! ### setPst -/
@[simp] theorem setPst_now (d : Dev) (p : Nat) (x : Pst) : (setPst d p x).now = d.now := by simp only [setPst]
@[simp] theorem setPst_freeCtr (d : Dev) (p : Nat) (x : Pst) : (setPst d p x).freeCtr = d.freeCtr := by simp only [setPst]
@[simp] theorem setPst_regs (d : Dev) (p : Nat) (x : Pst) : (setPst d p x).regs = d.regs := by simp only [setPst]
@[simp] theorem setPst_latch (d : Dev) (p : Nat) (x : Pst) : (setPst d p x).latch = d.latch := by simp only [setPst]
@[simp] theorem setPst_cores (d : Dev) (p : Nat) (x : Pst) : (setPst d p x).cores = d.cores := by simp only [setPst]
@[simp] theorem setPst_sigs (d : Dev) (p : Nat) (x : Pst) : (setPst d p x).sigs = d.sigs := by simp only [setPst]
@[simp] theorem setPst_flits (d : Dev) (p : Nat) (x : Pst) : (setPst d p x).flits = d.flits := by simp only [setPst]
@[simp] theorem setPst_mem (d : Dev) (p : Nat) (x : Pst) : (setPst d p x).mem = d.mem := by simp only [setPst]
@[simp] theorem setPst_ext (d : Dev) (p : Nat) (x : Pst) : (setPst d p x).ext = d.ext := by simp only [setPst]
@[simp] theorem setPst_fab (d : Dev) (p : Nat) (x : Pst) : (setPst d p x).fab = d.fab := by simp only [setPst]
@[simp] theorem setPst_orb (d : Dev) (p : Nat) (x : Pst) : (setPst d p x).orb = d.orb := by simp only [setPst]
@[simp] theorem setPst_tim (d : Dev) (p : Nat) (x : Pst) : (setPst d p x).tim = d.tim := by simp only [setPst]
@[simp] theorem setPst_pcieA (d : Dev) (p : Nat) (x : Pst) : (setPst d p x).pcieA = d.pcieA := by simp only [setPst]
@[simp] theorem setPst_pcieB (d : Dev) (p : Nat) (x : Pst) : (setPst d p x).pcieB = d.pcieB := by simp only [setPst]
@[simp] theorem setPst_mgmtPortB (d : Dev) (p : Nat) (x : Pst) : (setPst d p x).mgmtPortB = d.mgmtPortB := by simp only [setPst]
@[simp] theorem setPst_sec (d : Dev) (p : Nat) (x : Pst) : (setPst d p x).sec = d.sec := by simp only [setPst]
@[simp] theorem setPst_flt (d : Dev) (p : Nat) (x : Pst) : (setPst d p x).flt = d.flt := by simp only [setPst]
@[simp] theorem setPst_state (d : Dev) (p : Nat) (x : Pst) : (setPst d p x).state = d.state := by simp only [setPst]
@[simp] theorem setPst_factoryTest (d : Dev) (p : Nat) (x : Pst) : (setPst d p x).factoryTest = d.factoryTest := by simp only [setPst]
@[simp] theorem setPst_powerLost (d : Dev) (p : Nat) (x : Pst) : (setPst d p x).powerLost = d.powerLost := by simp only [setPst]
@[simp] theorem setPst_modRst (d : Dev) (p : Nat) (x : Pst) : (setPst d p x).modRst = d.modRst := by simp only [setPst]
@[simp] theorem setPst_pwr (d : Dev) (p : Nat) (x : Pst) : (setPst d p x).pwr = d.pwr := by simp only [setPst]
@[simp] theorem setPst_boot (d : Dev) (p : Nat) (x : Pst) : (setPst d p x).boot = d.boot := by simp only [setPst]
@[simp] theorem setPst_rst (d : Dev) (p : Nat) (x : Pst) : (setPst d p x).rst = d.rst := by simp only [setPst]
@[simp] theorem setPst_out (d : Dev) (p : Nat) (x : Pst) : (setPst d p x).out = d.out := by simp only [setPst]

/-! ### setSlot -/
@[simp] theorem setSlot_now (d : Dev) (n : Nat) (x : Slot) : (setSlot d n x).now = d.now := by simp only [setSlot]
@[simp] theorem setSlot_freeCtr (d : Dev) (n : Nat) (x : Slot) : (setSlot d n x).freeCtr = d.freeCtr := by simp only [setSlot]
@[simp] theorem setSlot_regs (d : Dev) (n : Nat) (x : Slot) : (setSlot d n x).regs = d.regs := by simp only [setSlot]
@[simp] theorem setSlot_latch (d : Dev) (n : Nat) (x : Slot) : (setSlot d n x).latch = d.latch := by simp only [setSlot]
@[simp] theorem setSlot_cores (d : Dev) (n : Nat) (x : Slot) : (setSlot d n x).cores = d.cores := by simp only [setSlot]
@[simp] theorem setSlot_sigs (d : Dev) (n : Nat) (x : Slot) : (setSlot d n x).sigs = d.sigs := by simp only [setSlot]
@[simp] theorem setSlot_flits (d : Dev) (n : Nat) (x : Slot) : (setSlot d n x).flits = d.flits := by simp only [setSlot]
@[simp] theorem setSlot_mem (d : Dev) (n : Nat) (x : Slot) : (setSlot d n x).mem = d.mem := by simp only [setSlot]
@[simp] theorem setSlot_ext (d : Dev) (n : Nat) (x : Slot) : (setSlot d n x).ext = d.ext := by simp only [setSlot]
@[simp] theorem setSlot_fab (d : Dev) (n : Nat) (x : Slot) : (setSlot d n x).fab = d.fab := by simp only [setSlot]
@[simp] theorem setSlot_orb (d : Dev) (n : Nat) (x : Slot) : (setSlot d n x).orb = d.orb := by simp only [setSlot]
@[simp] theorem setSlot_tim (d : Dev) (n : Nat) (x : Slot) : (setSlot d n x).tim = d.tim := by simp only [setSlot]
@[simp] theorem setSlot_pcieA (d : Dev) (n : Nat) (x : Slot) : (setSlot d n x).pcieA = d.pcieA := by simp only [setSlot]
@[simp] theorem setSlot_pcieB (d : Dev) (n : Nat) (x : Slot) : (setSlot d n x).pcieB = d.pcieB := by simp only [setSlot]
@[simp] theorem setSlot_mgmtPortB (d : Dev) (n : Nat) (x : Slot) : (setSlot d n x).mgmtPortB = d.mgmtPortB := by simp only [setSlot]
@[simp] theorem setSlot_sec (d : Dev) (n : Nat) (x : Slot) : (setSlot d n x).sec = d.sec := by simp only [setSlot]
@[simp] theorem setSlot_flt (d : Dev) (n : Nat) (x : Slot) : (setSlot d n x).flt = d.flt := by simp only [setSlot]
@[simp] theorem setSlot_state (d : Dev) (n : Nat) (x : Slot) : (setSlot d n x).state = d.state := by simp only [setSlot]
@[simp] theorem setSlot_factoryTest (d : Dev) (n : Nat) (x : Slot) : (setSlot d n x).factoryTest = d.factoryTest := by simp only [setSlot]
@[simp] theorem setSlot_powerLost (d : Dev) (n : Nat) (x : Slot) : (setSlot d n x).powerLost = d.powerLost := by simp only [setSlot]
@[simp] theorem setSlot_modRst (d : Dev) (n : Nat) (x : Slot) : (setSlot d n x).modRst = d.modRst := by simp only [setSlot]
@[simp] theorem setSlot_pwr (d : Dev) (n : Nat) (x : Slot) : (setSlot d n x).pwr = d.pwr := by simp only [setSlot]
@[simp] theorem setSlot_boot (d : Dev) (n : Nat) (x : Slot) : (setSlot d n x).boot = d.boot := by simp only [setSlot]
@[simp] theorem setSlot_rst (d : Dev) (n : Nat) (x : Slot) : (setSlot d n x).rst = d.rst := by simp only [setSlot]
@[simp] theorem setSlot_out (d : Dev) (n : Nat) (x : Slot) : (setSlot d n x).out = d.out := by simp only [setSlot]

/-! ### setCore -/
@[simp] theorem setCore_now (d : Dev) (n : Nat) (x : CoreSt) : (setCore d n x).now = d.now := by simp only [setCore]
@[simp] theorem setCore_freeCtr (d : Dev) (n : Nat) (x : CoreSt) : (setCore d n x).freeCtr = d.freeCtr := by simp only [setCore]
@[simp] theorem setCore_regs (d : Dev) (n : Nat) (x : CoreSt) : (setCore d n x).regs = d.regs := by simp only [setCore]
@[simp] theorem setCore_latch (d : Dev) (n : Nat) (x : CoreSt) : (setCore d n x).latch = d.latch := by simp only [setCore]
@[simp] theorem setCore_sigs (d : Dev) (n : Nat) (x : CoreSt) : (setCore d n x).sigs = d.sigs := by simp only [setCore]
@[simp] theorem setCore_flits (d : Dev) (n : Nat) (x : CoreSt) : (setCore d n x).flits = d.flits := by simp only [setCore]
@[simp] theorem setCore_mem (d : Dev) (n : Nat) (x : CoreSt) : (setCore d n x).mem = d.mem := by simp only [setCore]
@[simp] theorem setCore_qm (d : Dev) (n : Nat) (x : CoreSt) : (setCore d n x).qm = d.qm := by simp only [setCore]
@[simp] theorem setCore_ext (d : Dev) (n : Nat) (x : CoreSt) : (setCore d n x).ext = d.ext := by simp only [setCore]
@[simp] theorem setCore_fab (d : Dev) (n : Nat) (x : CoreSt) : (setCore d n x).fab = d.fab := by simp only [setCore]
@[simp] theorem setCore_orb (d : Dev) (n : Nat) (x : CoreSt) : (setCore d n x).orb = d.orb := by simp only [setCore]
@[simp] theorem setCore_tim (d : Dev) (n : Nat) (x : CoreSt) : (setCore d n x).tim = d.tim := by simp only [setCore]
@[simp] theorem setCore_pcieA (d : Dev) (n : Nat) (x : CoreSt) : (setCore d n x).pcieA = d.pcieA := by simp only [setCore]
@[simp] theorem setCore_pcieB (d : Dev) (n : Nat) (x : CoreSt) : (setCore d n x).pcieB = d.pcieB := by simp only [setCore]
@[simp] theorem setCore_mgmtPortB (d : Dev) (n : Nat) (x : CoreSt) : (setCore d n x).mgmtPortB = d.mgmtPortB := by simp only [setCore]
@[simp] theorem setCore_sec (d : Dev) (n : Nat) (x : CoreSt) : (setCore d n x).sec = d.sec := by simp only [setCore]
@[simp] theorem setCore_flt (d : Dev) (n : Nat) (x : CoreSt) : (setCore d n x).flt = d.flt := by simp only [setCore]
@[simp] theorem setCore_state (d : Dev) (n : Nat) (x : CoreSt) : (setCore d n x).state = d.state := by simp only [setCore]
@[simp] theorem setCore_factoryTest (d : Dev) (n : Nat) (x : CoreSt) : (setCore d n x).factoryTest = d.factoryTest := by simp only [setCore]
@[simp] theorem setCore_powerLost (d : Dev) (n : Nat) (x : CoreSt) : (setCore d n x).powerLost = d.powerLost := by simp only [setCore]
@[simp] theorem setCore_modRst (d : Dev) (n : Nat) (x : CoreSt) : (setCore d n x).modRst = d.modRst := by simp only [setCore]
@[simp] theorem setCore_pwr (d : Dev) (n : Nat) (x : CoreSt) : (setCore d n x).pwr = d.pwr := by simp only [setCore]
@[simp] theorem setCore_boot (d : Dev) (n : Nat) (x : CoreSt) : (setCore d n x).boot = d.boot := by simp only [setCore]
@[simp] theorem setCore_rst (d : Dev) (n : Nat) (x : CoreSt) : (setCore d n x).rst = d.rst := by simp only [setCore]
@[simp] theorem setCore_out (d : Dev) (n : Nat) (x : CoreSt) : (setCore d n x).out = d.out := by simp only [setCore]

/-! ### setOrb -/
@[simp] theorem setOrb_now (d : Dev) (o : Orb) : (setOrb d o).now = d.now := by simp only [setOrb]
@[simp] theorem setOrb_freeCtr (d : Dev) (o : Orb) : (setOrb d o).freeCtr = d.freeCtr := by simp only [setOrb]
@[simp] theorem setOrb_regs (d : Dev) (o : Orb) : (setOrb d o).regs = d.regs := by simp only [setOrb]
@[simp] theorem setOrb_latch (d : Dev) (o : Orb) : (setOrb d o).latch = d.latch := by simp only [setOrb]
@[simp] theorem setOrb_cores (d : Dev) (o : Orb) : (setOrb d o).cores = d.cores := by simp only [setOrb]
@[simp] theorem setOrb_sigs (d : Dev) (o : Orb) : (setOrb d o).sigs = d.sigs := by simp only [setOrb]
@[simp] theorem setOrb_flits (d : Dev) (o : Orb) : (setOrb d o).flits = d.flits := by simp only [setOrb]
@[simp] theorem setOrb_mem (d : Dev) (o : Orb) : (setOrb d o).mem = d.mem := by simp only [setOrb]
@[simp] theorem setOrb_qm (d : Dev) (o : Orb) : (setOrb d o).qm = d.qm := by simp only [setOrb]
@[simp] theorem setOrb_ext (d : Dev) (o : Orb) : (setOrb d o).ext = d.ext := by simp only [setOrb]
@[simp] theorem setOrb_fab (d : Dev) (o : Orb) : (setOrb d o).fab = d.fab := by simp only [setOrb]
@[simp] theorem setOrb_tim (d : Dev) (o : Orb) : (setOrb d o).tim = d.tim := by simp only [setOrb]
@[simp] theorem setOrb_pcieA (d : Dev) (o : Orb) : (setOrb d o).pcieA = d.pcieA := by simp only [setOrb]
@[simp] theorem setOrb_pcieB (d : Dev) (o : Orb) : (setOrb d o).pcieB = d.pcieB := by simp only [setOrb]
@[simp] theorem setOrb_mgmtPortB (d : Dev) (o : Orb) : (setOrb d o).mgmtPortB = d.mgmtPortB := by simp only [setOrb]
@[simp] theorem setOrb_sec (d : Dev) (o : Orb) : (setOrb d o).sec = d.sec := by simp only [setOrb]
@[simp] theorem setOrb_flt (d : Dev) (o : Orb) : (setOrb d o).flt = d.flt := by simp only [setOrb]
@[simp] theorem setOrb_state (d : Dev) (o : Orb) : (setOrb d o).state = d.state := by simp only [setOrb]
@[simp] theorem setOrb_factoryTest (d : Dev) (o : Orb) : (setOrb d o).factoryTest = d.factoryTest := by simp only [setOrb]
@[simp] theorem setOrb_powerLost (d : Dev) (o : Orb) : (setOrb d o).powerLost = d.powerLost := by simp only [setOrb]
@[simp] theorem setOrb_modRst (d : Dev) (o : Orb) : (setOrb d o).modRst = d.modRst := by simp only [setOrb]
@[simp] theorem setOrb_pwr (d : Dev) (o : Orb) : (setOrb d o).pwr = d.pwr := by simp only [setOrb]
@[simp] theorem setOrb_boot (d : Dev) (o : Orb) : (setOrb d o).boot = d.boot := by simp only [setOrb]
@[simp] theorem setOrb_rst (d : Dev) (o : Orb) : (setOrb d o).rst = d.rst := by simp only [setOrb]
@[simp] theorem setOrb_out (d : Dev) (o : Orb) : (setOrb d o).out = d.out := by simp only [setOrb]

/-! ### setTim -/
@[simp] theorem setTim_now (d : Dev) (t : Tim) : (setTim d t).now = d.now := by simp only [setTim]
@[simp] theorem setTim_freeCtr (d : Dev) (t : Tim) : (setTim d t).freeCtr = d.freeCtr := by simp only [setTim]
@[simp] theorem setTim_regs (d : Dev) (t : Tim) : (setTim d t).regs = d.regs := by simp only [setTim]
@[simp] theorem setTim_latch (d : Dev) (t : Tim) : (setTim d t).latch = d.latch := by simp only [setTim]
@[simp] theorem setTim_cores (d : Dev) (t : Tim) : (setTim d t).cores = d.cores := by simp only [setTim]
@[simp] theorem setTim_sigs (d : Dev) (t : Tim) : (setTim d t).sigs = d.sigs := by simp only [setTim]
@[simp] theorem setTim_flits (d : Dev) (t : Tim) : (setTim d t).flits = d.flits := by simp only [setTim]
@[simp] theorem setTim_mem (d : Dev) (t : Tim) : (setTim d t).mem = d.mem := by simp only [setTim]
@[simp] theorem setTim_qm (d : Dev) (t : Tim) : (setTim d t).qm = d.qm := by simp only [setTim]
@[simp] theorem setTim_ext (d : Dev) (t : Tim) : (setTim d t).ext = d.ext := by simp only [setTim]
@[simp] theorem setTim_fab (d : Dev) (t : Tim) : (setTim d t).fab = d.fab := by simp only [setTim]
@[simp] theorem setTim_orb (d : Dev) (t : Tim) : (setTim d t).orb = d.orb := by simp only [setTim]
@[simp] theorem setTim_pcieA (d : Dev) (t : Tim) : (setTim d t).pcieA = d.pcieA := by simp only [setTim]
@[simp] theorem setTim_pcieB (d : Dev) (t : Tim) : (setTim d t).pcieB = d.pcieB := by simp only [setTim]
@[simp] theorem setTim_mgmtPortB (d : Dev) (t : Tim) : (setTim d t).mgmtPortB = d.mgmtPortB := by simp only [setTim]
@[simp] theorem setTim_sec (d : Dev) (t : Tim) : (setTim d t).sec = d.sec := by simp only [setTim]
@[simp] theorem setTim_flt (d : Dev) (t : Tim) : (setTim d t).flt = d.flt := by simp only [setTim]
@[simp] theorem setTim_state (d : Dev) (t : Tim) : (setTim d t).state = d.state := by simp only [setTim]
@[simp] theorem setTim_factoryTest (d : Dev) (t : Tim) : (setTim d t).factoryTest = d.factoryTest := by simp only [setTim]
@[simp] theorem setTim_powerLost (d : Dev) (t : Tim) : (setTim d t).powerLost = d.powerLost := by simp only [setTim]
@[simp] theorem setTim_modRst (d : Dev) (t : Tim) : (setTim d t).modRst = d.modRst := by simp only [setTim]
@[simp] theorem setTim_pwr (d : Dev) (t : Tim) : (setTim d t).pwr = d.pwr := by simp only [setTim]
@[simp] theorem setTim_boot (d : Dev) (t : Tim) : (setTim d t).boot = d.boot := by simp only [setTim]
@[simp] theorem setTim_rst (d : Dev) (t : Tim) : (setTim d t).rst = d.rst := by simp only [setTim]
@[simp] theorem setTim_out (d : Dev) (t : Tim) : (setTim d t).out = d.out := by simp only [setTim]

/-! ### setPwr -/
@[simp] theorem setPwr_now (d : Dev) (p : Pwr) : (setPwr d p).now = d.now := by simp only [setPwr]
@[simp] theorem setPwr_freeCtr (d : Dev) (p : Pwr) : (setPwr d p).freeCtr = d.freeCtr := by simp only [setPwr]
@[simp] theorem setPwr_regs (d : Dev) (p : Pwr) : (setPwr d p).regs = d.regs := by simp only [setPwr]
@[simp] theorem setPwr_latch (d : Dev) (p : Pwr) : (setPwr d p).latch = d.latch := by simp only [setPwr]
@[simp] theorem setPwr_cores (d : Dev) (p : Pwr) : (setPwr d p).cores = d.cores := by simp only [setPwr]
@[simp] theorem setPwr_sigs (d : Dev) (p : Pwr) : (setPwr d p).sigs = d.sigs := by simp only [setPwr]
@[simp] theorem setPwr_flits (d : Dev) (p : Pwr) : (setPwr d p).flits = d.flits := by simp only [setPwr]
@[simp] theorem setPwr_mem (d : Dev) (p : Pwr) : (setPwr d p).mem = d.mem := by simp only [setPwr]
@[simp] theorem setPwr_qm (d : Dev) (p : Pwr) : (setPwr d p).qm = d.qm := by simp only [setPwr]
@[simp] theorem setPwr_ext (d : Dev) (p : Pwr) : (setPwr d p).ext = d.ext := by simp only [setPwr]
@[simp] theorem setPwr_fab (d : Dev) (p : Pwr) : (setPwr d p).fab = d.fab := by simp only [setPwr]
@[simp] theorem setPwr_orb (d : Dev) (p : Pwr) : (setPwr d p).orb = d.orb := by simp only [setPwr]
@[simp] theorem setPwr_tim (d : Dev) (p : Pwr) : (setPwr d p).tim = d.tim := by simp only [setPwr]
@[simp] theorem setPwr_pcieA (d : Dev) (p : Pwr) : (setPwr d p).pcieA = d.pcieA := by simp only [setPwr]
@[simp] theorem setPwr_pcieB (d : Dev) (p : Pwr) : (setPwr d p).pcieB = d.pcieB := by simp only [setPwr]
@[simp] theorem setPwr_mgmtPortB (d : Dev) (p : Pwr) : (setPwr d p).mgmtPortB = d.mgmtPortB := by simp only [setPwr]
@[simp] theorem setPwr_sec (d : Dev) (p : Pwr) : (setPwr d p).sec = d.sec := by simp only [setPwr]
@[simp] theorem setPwr_flt (d : Dev) (p : Pwr) : (setPwr d p).flt = d.flt := by simp only [setPwr]
@[simp] theorem setPwr_state (d : Dev) (p : Pwr) : (setPwr d p).state = d.state := by simp only [setPwr]
@[simp] theorem setPwr_factoryTest (d : Dev) (p : Pwr) : (setPwr d p).factoryTest = d.factoryTest := by simp only [setPwr]
@[simp] theorem setPwr_powerLost (d : Dev) (p : Pwr) : (setPwr d p).powerLost = d.powerLost := by simp only [setPwr]
@[simp] theorem setPwr_modRst (d : Dev) (p : Pwr) : (setPwr d p).modRst = d.modRst := by simp only [setPwr]
@[simp] theorem setPwr_boot (d : Dev) (p : Pwr) : (setPwr d p).boot = d.boot := by simp only [setPwr]
@[simp] theorem setPwr_rst (d : Dev) (p : Pwr) : (setPwr d p).rst = d.rst := by simp only [setPwr]
@[simp] theorem setPwr_out (d : Dev) (p : Pwr) : (setPwr d p).out = d.out := by simp only [setPwr]

/-! ### setBoot -/
@[simp] theorem setBoot_now (d : Dev) (b : Boot) : (setBoot d b).now = d.now := by simp only [setBoot]
@[simp] theorem setBoot_freeCtr (d : Dev) (b : Boot) : (setBoot d b).freeCtr = d.freeCtr := by simp only [setBoot]
@[simp] theorem setBoot_regs (d : Dev) (b : Boot) : (setBoot d b).regs = d.regs := by simp only [setBoot]
@[simp] theorem setBoot_latch (d : Dev) (b : Boot) : (setBoot d b).latch = d.latch := by simp only [setBoot]
@[simp] theorem setBoot_cores (d : Dev) (b : Boot) : (setBoot d b).cores = d.cores := by simp only [setBoot]
@[simp] theorem setBoot_sigs (d : Dev) (b : Boot) : (setBoot d b).sigs = d.sigs := by simp only [setBoot]
@[simp] theorem setBoot_flits (d : Dev) (b : Boot) : (setBoot d b).flits = d.flits := by simp only [setBoot]
@[simp] theorem setBoot_mem (d : Dev) (b : Boot) : (setBoot d b).mem = d.mem := by simp only [setBoot]
@[simp] theorem setBoot_qm (d : Dev) (b : Boot) : (setBoot d b).qm = d.qm := by simp only [setBoot]
@[simp] theorem setBoot_ext (d : Dev) (b : Boot) : (setBoot d b).ext = d.ext := by simp only [setBoot]
@[simp] theorem setBoot_fab (d : Dev) (b : Boot) : (setBoot d b).fab = d.fab := by simp only [setBoot]
@[simp] theorem setBoot_orb (d : Dev) (b : Boot) : (setBoot d b).orb = d.orb := by simp only [setBoot]
@[simp] theorem setBoot_tim (d : Dev) (b : Boot) : (setBoot d b).tim = d.tim := by simp only [setBoot]
@[simp] theorem setBoot_pcieA (d : Dev) (b : Boot) : (setBoot d b).pcieA = d.pcieA := by simp only [setBoot]
@[simp] theorem setBoot_pcieB (d : Dev) (b : Boot) : (setBoot d b).pcieB = d.pcieB := by simp only [setBoot]
@[simp] theorem setBoot_mgmtPortB (d : Dev) (b : Boot) : (setBoot d b).mgmtPortB = d.mgmtPortB := by simp only [setBoot]
@[simp] theorem setBoot_sec (d : Dev) (b : Boot) : (setBoot d b).sec = d.sec := by simp only [setBoot]
@[simp] theorem setBoot_flt (d : Dev) (b : Boot) : (setBoot d b).flt = d.flt := by simp only [setBoot]
@[simp] theorem setBoot_state (d : Dev) (b : Boot) : (setBoot d b).state = d.state := by simp only [setBoot]
@[simp] theorem setBoot_factoryTest (d : Dev) (b : Boot) : (setBoot d b).factoryTest = d.factoryTest := by simp only [setBoot]
@[simp] theorem setBoot_powerLost (d : Dev) (b : Boot) : (setBoot d b).powerLost = d.powerLost := by simp only [setBoot]
@[simp] theorem setBoot_modRst (d : Dev) (b : Boot) : (setBoot d b).modRst = d.modRst := by simp only [setBoot]
@[simp] theorem setBoot_pwr (d : Dev) (b : Boot) : (setBoot d b).pwr = d.pwr := by simp only [setBoot]
@[simp] theorem setBoot_rst (d : Dev) (b : Boot) : (setBoot d b).rst = d.rst := by simp only [setBoot]
@[simp] theorem setBoot_out (d : Dev) (b : Boot) : (setBoot d b).out = d.out := by simp only [setBoot]

/-! ### secSet -/
@[simp] theorem secSet_now (d : Dev) (x : Sec) : (secSet d x).now = d.now := by simp only [secSet]
@[simp] theorem secSet_freeCtr (d : Dev) (x : Sec) : (secSet d x).freeCtr = d.freeCtr := by simp only [secSet]
@[simp] theorem secSet_regs (d : Dev) (x : Sec) : (secSet d x).regs = d.regs := by simp only [secSet]
@[simp] theorem secSet_latch (d : Dev) (x : Sec) : (secSet d x).latch = d.latch := by simp only [secSet]
@[simp] theorem secSet_cores (d : Dev) (x : Sec) : (secSet d x).cores = d.cores := by simp only [secSet]
@[simp] theorem secSet_sigs (d : Dev) (x : Sec) : (secSet d x).sigs = d.sigs := by simp only [secSet]
@[simp] theorem secSet_flits (d : Dev) (x : Sec) : (secSet d x).flits = d.flits := by simp only [secSet]
@[simp] theorem secSet_mem (d : Dev) (x : Sec) : (secSet d x).mem = d.mem := by simp only [secSet]
@[simp] theorem secSet_qm (d : Dev) (x : Sec) : (secSet d x).qm = d.qm := by simp only [secSet]
@[simp] theorem secSet_ext (d : Dev) (x : Sec) : (secSet d x).ext = d.ext := by simp only [secSet]
@[simp] theorem secSet_fab (d : Dev) (x : Sec) : (secSet d x).fab = d.fab := by simp only [secSet]
@[simp] theorem secSet_orb (d : Dev) (x : Sec) : (secSet d x).orb = d.orb := by simp only [secSet]
@[simp] theorem secSet_tim (d : Dev) (x : Sec) : (secSet d x).tim = d.tim := by simp only [secSet]
@[simp] theorem secSet_pcieA (d : Dev) (x : Sec) : (secSet d x).pcieA = d.pcieA := by simp only [secSet]
@[simp] theorem secSet_pcieB (d : Dev) (x : Sec) : (secSet d x).pcieB = d.pcieB := by simp only [secSet]
@[simp] theorem secSet_mgmtPortB (d : Dev) (x : Sec) : (secSet d x).mgmtPortB = d.mgmtPortB := by simp only [secSet]
@[simp] theorem secSet_flt (d : Dev) (x : Sec) : (secSet d x).flt = d.flt := by simp only [secSet]
@[simp] theorem secSet_state (d : Dev) (x : Sec) : (secSet d x).state = d.state := by simp only [secSet]
@[simp] theorem secSet_factoryTest (d : Dev) (x : Sec) : (secSet d x).factoryTest = d.factoryTest := by simp only [secSet]
@[simp] theorem secSet_powerLost (d : Dev) (x : Sec) : (secSet d x).powerLost = d.powerLost := by simp only [secSet]
@[simp] theorem secSet_modRst (d : Dev) (x : Sec) : (secSet d x).modRst = d.modRst := by simp only [secSet]
@[simp] theorem secSet_pwr (d : Dev) (x : Sec) : (secSet d x).pwr = d.pwr := by simp only [secSet]
@[simp] theorem secSet_boot (d : Dev) (x : Sec) : (secSet d x).boot = d.boot := by simp only [secSet]
@[simp] theorem secSet_rst (d : Dev) (x : Sec) : (secSet d x).rst = d.rst := by simp only [secSet]
@[simp] theorem secSet_out (d : Dev) (x : Sec) : (secSet d x).out = d.out := by simp only [secSet]

/-! ### setFtl -/
@[simp] theorem setFtl_now (d : Dev) (sd : Nat) (x : Ftl) : (setFtl d sd x).now = d.now := by simp only [setFtl]
@[simp] theorem setFtl_freeCtr (d : Dev) (sd : Nat) (x : Ftl) : (setFtl d sd x).freeCtr = d.freeCtr := by simp only [setFtl]
@[simp] theorem setFtl_regs (d : Dev) (sd : Nat) (x : Ftl) : (setFtl d sd x).regs = d.regs := by simp only [setFtl]
@[simp] theorem setFtl_latch (d : Dev) (sd : Nat) (x : Ftl) : (setFtl d sd x).latch = d.latch := by simp only [setFtl]
@[simp] theorem setFtl_cores (d : Dev) (sd : Nat) (x : Ftl) : (setFtl d sd x).cores = d.cores := by simp only [setFtl]
@[simp] theorem setFtl_sigs (d : Dev) (sd : Nat) (x : Ftl) : (setFtl d sd x).sigs = d.sigs := by simp only [setFtl]
@[simp] theorem setFtl_flits (d : Dev) (sd : Nat) (x : Ftl) : (setFtl d sd x).flits = d.flits := by simp only [setFtl]
@[simp] theorem setFtl_mem (d : Dev) (sd : Nat) (x : Ftl) : (setFtl d sd x).mem = d.mem := by simp only [setFtl]
@[simp] theorem setFtl_qm (d : Dev) (sd : Nat) (x : Ftl) : (setFtl d sd x).qm = d.qm := by simp only [setFtl]
@[simp] theorem setFtl_fab (d : Dev) (sd : Nat) (x : Ftl) : (setFtl d sd x).fab = d.fab := by simp only [setFtl]
@[simp] theorem setFtl_orb (d : Dev) (sd : Nat) (x : Ftl) : (setFtl d sd x).orb = d.orb := by simp only [setFtl]
@[simp] theorem setFtl_tim (d : Dev) (sd : Nat) (x : Ftl) : (setFtl d sd x).tim = d.tim := by simp only [setFtl]
@[simp] theorem setFtl_pcieA (d : Dev) (sd : Nat) (x : Ftl) : (setFtl d sd x).pcieA = d.pcieA := by simp only [setFtl]
@[simp] theorem setFtl_pcieB (d : Dev) (sd : Nat) (x : Ftl) : (setFtl d sd x).pcieB = d.pcieB := by simp only [setFtl]
@[simp] theorem setFtl_mgmtPortB (d : Dev) (sd : Nat) (x : Ftl) : (setFtl d sd x).mgmtPortB = d.mgmtPortB := by simp only [setFtl]
@[simp] theorem setFtl_sec (d : Dev) (sd : Nat) (x : Ftl) : (setFtl d sd x).sec = d.sec := by simp only [setFtl]
@[simp] theorem setFtl_flt (d : Dev) (sd : Nat) (x : Ftl) : (setFtl d sd x).flt = d.flt := by simp only [setFtl]
@[simp] theorem setFtl_state (d : Dev) (sd : Nat) (x : Ftl) : (setFtl d sd x).state = d.state := by simp only [setFtl]
@[simp] theorem setFtl_factoryTest (d : Dev) (sd : Nat) (x : Ftl) : (setFtl d sd x).factoryTest = d.factoryTest := by simp only [setFtl]
@[simp] theorem setFtl_powerLost (d : Dev) (sd : Nat) (x : Ftl) : (setFtl d sd x).powerLost = d.powerLost := by simp only [setFtl]
@[simp] theorem setFtl_modRst (d : Dev) (sd : Nat) (x : Ftl) : (setFtl d sd x).modRst = d.modRst := by simp only [setFtl]
@[simp] theorem setFtl_pwr (d : Dev) (sd : Nat) (x : Ftl) : (setFtl d sd x).pwr = d.pwr := by simp only [setFtl]
@[simp] theorem setFtl_boot (d : Dev) (sd : Nat) (x : Ftl) : (setFtl d sd x).boot = d.boot := by simp only [setFtl]
@[simp] theorem setFtl_rst (d : Dev) (sd : Nat) (x : Ftl) : (setFtl d sd x).rst = d.rst := by simp only [setFtl]
@[simp] theorem setFtl_out (d : Dev) (sd : Nat) (x : Ftl) : (setFtl d sd x).out = d.out := by simp only [setFtl]

/-! ### setInk -/
@[simp] theorem setInk_now (d : Dev) (md : Nat) (x : Ink) : (setInk d md x).now = d.now := by simp only [setInk]
@[simp] theorem setInk_freeCtr (d : Dev) (md : Nat) (x : Ink) : (setInk d md x).freeCtr = d.freeCtr := by simp only [setInk]
@[simp] theorem setInk_regs (d : Dev) (md : Nat) (x : Ink) : (setInk d md x).regs = d.regs := by simp only [setInk]
@[simp] theorem setInk_latch (d : Dev) (md : Nat) (x : Ink) : (setInk d md x).latch = d.latch := by simp only [setInk]
@[simp] theorem setInk_cores (d : Dev) (md : Nat) (x : Ink) : (setInk d md x).cores = d.cores := by simp only [setInk]
@[simp] theorem setInk_sigs (d : Dev) (md : Nat) (x : Ink) : (setInk d md x).sigs = d.sigs := by simp only [setInk]
@[simp] theorem setInk_flits (d : Dev) (md : Nat) (x : Ink) : (setInk d md x).flits = d.flits := by simp only [setInk]
@[simp] theorem setInk_mem (d : Dev) (md : Nat) (x : Ink) : (setInk d md x).mem = d.mem := by simp only [setInk]
@[simp] theorem setInk_qm (d : Dev) (md : Nat) (x : Ink) : (setInk d md x).qm = d.qm := by simp only [setInk]
@[simp] theorem setInk_fab (d : Dev) (md : Nat) (x : Ink) : (setInk d md x).fab = d.fab := by simp only [setInk]
@[simp] theorem setInk_orb (d : Dev) (md : Nat) (x : Ink) : (setInk d md x).orb = d.orb := by simp only [setInk]
@[simp] theorem setInk_tim (d : Dev) (md : Nat) (x : Ink) : (setInk d md x).tim = d.tim := by simp only [setInk]
@[simp] theorem setInk_pcieA (d : Dev) (md : Nat) (x : Ink) : (setInk d md x).pcieA = d.pcieA := by simp only [setInk]
@[simp] theorem setInk_pcieB (d : Dev) (md : Nat) (x : Ink) : (setInk d md x).pcieB = d.pcieB := by simp only [setInk]
@[simp] theorem setInk_mgmtPortB (d : Dev) (md : Nat) (x : Ink) : (setInk d md x).mgmtPortB = d.mgmtPortB := by simp only [setInk]
@[simp] theorem setInk_sec (d : Dev) (md : Nat) (x : Ink) : (setInk d md x).sec = d.sec := by simp only [setInk]
@[simp] theorem setInk_flt (d : Dev) (md : Nat) (x : Ink) : (setInk d md x).flt = d.flt := by simp only [setInk]
@[simp] theorem setInk_state (d : Dev) (md : Nat) (x : Ink) : (setInk d md x).state = d.state := by simp only [setInk]
@[simp] theorem setInk_factoryTest (d : Dev) (md : Nat) (x : Ink) : (setInk d md x).factoryTest = d.factoryTest := by simp only [setInk]
@[simp] theorem setInk_powerLost (d : Dev) (md : Nat) (x : Ink) : (setInk d md x).powerLost = d.powerLost := by simp only [setInk]
@[simp] theorem setInk_modRst (d : Dev) (md : Nat) (x : Ink) : (setInk d md x).modRst = d.modRst := by simp only [setInk]
@[simp] theorem setInk_pwr (d : Dev) (md : Nat) (x : Ink) : (setInk d md x).pwr = d.pwr := by simp only [setInk]
@[simp] theorem setInk_boot (d : Dev) (md : Nat) (x : Ink) : (setInk d md x).boot = d.boot := by simp only [setInk]
@[simp] theorem setInk_rst (d : Dev) (md : Nat) (x : Ink) : (setInk d md x).rst = d.rst := by simp only [setInk]
@[simp] theorem setInk_out (d : Dev) (md : Nat) (x : Ink) : (setInk d md x).out = d.out := by simp only [setInk]

/-! ### setWcb -/
@[simp] theorem setWcb_now (d : Dev) (md : Nat) (l : List WcbEnt) : (setWcb d md l).now = d.now := by simp only [setWcb]
@[simp] theorem setWcb_freeCtr (d : Dev) (md : Nat) (l : List WcbEnt) : (setWcb d md l).freeCtr = d.freeCtr := by simp only [setWcb]
@[simp] theorem setWcb_regs (d : Dev) (md : Nat) (l : List WcbEnt) : (setWcb d md l).regs = d.regs := by simp only [setWcb]
@[simp] theorem setWcb_latch (d : Dev) (md : Nat) (l : List WcbEnt) : (setWcb d md l).latch = d.latch := by simp only [setWcb]
@[simp] theorem setWcb_cores (d : Dev) (md : Nat) (l : List WcbEnt) : (setWcb d md l).cores = d.cores := by simp only [setWcb]
@[simp] theorem setWcb_sigs (d : Dev) (md : Nat) (l : List WcbEnt) : (setWcb d md l).sigs = d.sigs := by simp only [setWcb]
@[simp] theorem setWcb_flits (d : Dev) (md : Nat) (l : List WcbEnt) : (setWcb d md l).flits = d.flits := by simp only [setWcb]
@[simp] theorem setWcb_mem (d : Dev) (md : Nat) (l : List WcbEnt) : (setWcb d md l).mem = d.mem := by simp only [setWcb]
@[simp] theorem setWcb_qm (d : Dev) (md : Nat) (l : List WcbEnt) : (setWcb d md l).qm = d.qm := by simp only [setWcb]
@[simp] theorem setWcb_fab (d : Dev) (md : Nat) (l : List WcbEnt) : (setWcb d md l).fab = d.fab := by simp only [setWcb]
@[simp] theorem setWcb_orb (d : Dev) (md : Nat) (l : List WcbEnt) : (setWcb d md l).orb = d.orb := by simp only [setWcb]
@[simp] theorem setWcb_tim (d : Dev) (md : Nat) (l : List WcbEnt) : (setWcb d md l).tim = d.tim := by simp only [setWcb]
@[simp] theorem setWcb_pcieA (d : Dev) (md : Nat) (l : List WcbEnt) : (setWcb d md l).pcieA = d.pcieA := by simp only [setWcb]
@[simp] theorem setWcb_pcieB (d : Dev) (md : Nat) (l : List WcbEnt) : (setWcb d md l).pcieB = d.pcieB := by simp only [setWcb]
@[simp] theorem setWcb_mgmtPortB (d : Dev) (md : Nat) (l : List WcbEnt) : (setWcb d md l).mgmtPortB = d.mgmtPortB := by simp only [setWcb]
@[simp] theorem setWcb_sec (d : Dev) (md : Nat) (l : List WcbEnt) : (setWcb d md l).sec = d.sec := by simp only [setWcb]
@[simp] theorem setWcb_flt (d : Dev) (md : Nat) (l : List WcbEnt) : (setWcb d md l).flt = d.flt := by simp only [setWcb]
@[simp] theorem setWcb_state (d : Dev) (md : Nat) (l : List WcbEnt) : (setWcb d md l).state = d.state := by simp only [setWcb]
@[simp] theorem setWcb_factoryTest (d : Dev) (md : Nat) (l : List WcbEnt) : (setWcb d md l).factoryTest = d.factoryTest := by simp only [setWcb]
@[simp] theorem setWcb_powerLost (d : Dev) (md : Nat) (l : List WcbEnt) : (setWcb d md l).powerLost = d.powerLost := by simp only [setWcb]
@[simp] theorem setWcb_modRst (d : Dev) (md : Nat) (l : List WcbEnt) : (setWcb d md l).modRst = d.modRst := by simp only [setWcb]
@[simp] theorem setWcb_pwr (d : Dev) (md : Nat) (l : List WcbEnt) : (setWcb d md l).pwr = d.pwr := by simp only [setWcb]
@[simp] theorem setWcb_boot (d : Dev) (md : Nat) (l : List WcbEnt) : (setWcb d md l).boot = d.boot := by simp only [setWcb]
@[simp] theorem setWcb_rst (d : Dev) (md : Nat) (l : List WcbEnt) : (setWcb d md l).rst = d.rst := by simp only [setWcb]
@[simp] theorem setWcb_out (d : Dev) (md : Nat) (l : List WcbEnt) : (setWcb d md l).out = d.out := by simp only [setWcb]

/-! ### setWcbHeld -/
@[simp] theorem setWcbHeld_now (d : Dev) (md : Nat) (l : List WcbHeld) : (setWcbHeld d md l).now = d.now := by simp only [setWcbHeld]
@[simp] theorem setWcbHeld_freeCtr (d : Dev) (md : Nat) (l : List WcbHeld) : (setWcbHeld d md l).freeCtr = d.freeCtr := by simp only [setWcbHeld]
@[simp] theorem setWcbHeld_regs (d : Dev) (md : Nat) (l : List WcbHeld) : (setWcbHeld d md l).regs = d.regs := by simp only [setWcbHeld]
@[simp] theorem setWcbHeld_latch (d : Dev) (md : Nat) (l : List WcbHeld) : (setWcbHeld d md l).latch = d.latch := by simp only [setWcbHeld]
@[simp] theorem setWcbHeld_cores (d : Dev) (md : Nat) (l : List WcbHeld) : (setWcbHeld d md l).cores = d.cores := by simp only [setWcbHeld]
@[simp] theorem setWcbHeld_sigs (d : Dev) (md : Nat) (l : List WcbHeld) : (setWcbHeld d md l).sigs = d.sigs := by simp only [setWcbHeld]
@[simp] theorem setWcbHeld_flits (d : Dev) (md : Nat) (l : List WcbHeld) : (setWcbHeld d md l).flits = d.flits := by simp only [setWcbHeld]
@[simp] theorem setWcbHeld_mem (d : Dev) (md : Nat) (l : List WcbHeld) : (setWcbHeld d md l).mem = d.mem := by simp only [setWcbHeld]
@[simp] theorem setWcbHeld_qm (d : Dev) (md : Nat) (l : List WcbHeld) : (setWcbHeld d md l).qm = d.qm := by simp only [setWcbHeld]
@[simp] theorem setWcbHeld_fab (d : Dev) (md : Nat) (l : List WcbHeld) : (setWcbHeld d md l).fab = d.fab := by simp only [setWcbHeld]
@[simp] theorem setWcbHeld_orb (d : Dev) (md : Nat) (l : List WcbHeld) : (setWcbHeld d md l).orb = d.orb := by simp only [setWcbHeld]
@[simp] theorem setWcbHeld_tim (d : Dev) (md : Nat) (l : List WcbHeld) : (setWcbHeld d md l).tim = d.tim := by simp only [setWcbHeld]
@[simp] theorem setWcbHeld_pcieA (d : Dev) (md : Nat) (l : List WcbHeld) : (setWcbHeld d md l).pcieA = d.pcieA := by simp only [setWcbHeld]
@[simp] theorem setWcbHeld_pcieB (d : Dev) (md : Nat) (l : List WcbHeld) : (setWcbHeld d md l).pcieB = d.pcieB := by simp only [setWcbHeld]
@[simp] theorem setWcbHeld_mgmtPortB (d : Dev) (md : Nat) (l : List WcbHeld) : (setWcbHeld d md l).mgmtPortB = d.mgmtPortB := by simp only [setWcbHeld]
@[simp] theorem setWcbHeld_sec (d : Dev) (md : Nat) (l : List WcbHeld) : (setWcbHeld d md l).sec = d.sec := by simp only [setWcbHeld]
@[simp] theorem setWcbHeld_flt (d : Dev) (md : Nat) (l : List WcbHeld) : (setWcbHeld d md l).flt = d.flt := by simp only [setWcbHeld]
@[simp] theorem setWcbHeld_state (d : Dev) (md : Nat) (l : List WcbHeld) : (setWcbHeld d md l).state = d.state := by simp only [setWcbHeld]
@[simp] theorem setWcbHeld_factoryTest (d : Dev) (md : Nat) (l : List WcbHeld) : (setWcbHeld d md l).factoryTest = d.factoryTest := by simp only [setWcbHeld]
@[simp] theorem setWcbHeld_powerLost (d : Dev) (md : Nat) (l : List WcbHeld) : (setWcbHeld d md l).powerLost = d.powerLost := by simp only [setWcbHeld]
@[simp] theorem setWcbHeld_modRst (d : Dev) (md : Nat) (l : List WcbHeld) : (setWcbHeld d md l).modRst = d.modRst := by simp only [setWcbHeld]
@[simp] theorem setWcbHeld_pwr (d : Dev) (md : Nat) (l : List WcbHeld) : (setWcbHeld d md l).pwr = d.pwr := by simp only [setWcbHeld]
@[simp] theorem setWcbHeld_boot (d : Dev) (md : Nat) (l : List WcbHeld) : (setWcbHeld d md l).boot = d.boot := by simp only [setWcbHeld]
@[simp] theorem setWcbHeld_rst (d : Dev) (md : Nat) (l : List WcbHeld) : (setWcbHeld d md l).rst = d.rst := by simp only [setWcbHeld]
@[simp] theorem setWcbHeld_out (d : Dev) (md : Nat) (l : List WcbHeld) : (setWcbHeld d md l).out = d.out := by simp only [setWcbHeld]

/-! ### setReq -/
@[simp] theorem setReq_now (d : Dev) (tag : Nat) (r : Req) : (setReq d tag r).now = d.now := by simp only [setReq]
@[simp] theorem setReq_freeCtr (d : Dev) (tag : Nat) (r : Req) : (setReq d tag r).freeCtr = d.freeCtr := by simp only [setReq]
@[simp] theorem setReq_regs (d : Dev) (tag : Nat) (r : Req) : (setReq d tag r).regs = d.regs := by simp only [setReq]
@[simp] theorem setReq_latch (d : Dev) (tag : Nat) (r : Req) : (setReq d tag r).latch = d.latch := by simp only [setReq]
@[simp] theorem setReq_cores (d : Dev) (tag : Nat) (r : Req) : (setReq d tag r).cores = d.cores := by simp only [setReq]
@[simp] theorem setReq_sigs (d : Dev) (tag : Nat) (r : Req) : (setReq d tag r).sigs = d.sigs := by simp only [setReq]
@[simp] theorem setReq_flits (d : Dev) (tag : Nat) (r : Req) : (setReq d tag r).flits = d.flits := by simp only [setReq]
@[simp] theorem setReq_mem (d : Dev) (tag : Nat) (r : Req) : (setReq d tag r).mem = d.mem := by simp only [setReq]
@[simp] theorem setReq_qm (d : Dev) (tag : Nat) (r : Req) : (setReq d tag r).qm = d.qm := by simp only [setReq]
@[simp] theorem setReq_ext (d : Dev) (tag : Nat) (r : Req) : (setReq d tag r).ext = d.ext := by simp only [setReq]
@[simp] theorem setReq_orb (d : Dev) (tag : Nat) (r : Req) : (setReq d tag r).orb = d.orb := by simp only [setReq]
@[simp] theorem setReq_tim (d : Dev) (tag : Nat) (r : Req) : (setReq d tag r).tim = d.tim := by simp only [setReq]
@[simp] theorem setReq_pcieA (d : Dev) (tag : Nat) (r : Req) : (setReq d tag r).pcieA = d.pcieA := by simp only [setReq]
@[simp] theorem setReq_pcieB (d : Dev) (tag : Nat) (r : Req) : (setReq d tag r).pcieB = d.pcieB := by simp only [setReq]
@[simp] theorem setReq_mgmtPortB (d : Dev) (tag : Nat) (r : Req) : (setReq d tag r).mgmtPortB = d.mgmtPortB := by simp only [setReq]
@[simp] theorem setReq_sec (d : Dev) (tag : Nat) (r : Req) : (setReq d tag r).sec = d.sec := by simp only [setReq]
@[simp] theorem setReq_flt (d : Dev) (tag : Nat) (r : Req) : (setReq d tag r).flt = d.flt := by simp only [setReq]
@[simp] theorem setReq_state (d : Dev) (tag : Nat) (r : Req) : (setReq d tag r).state = d.state := by simp only [setReq]
@[simp] theorem setReq_factoryTest (d : Dev) (tag : Nat) (r : Req) : (setReq d tag r).factoryTest = d.factoryTest := by simp only [setReq]
@[simp] theorem setReq_powerLost (d : Dev) (tag : Nat) (r : Req) : (setReq d tag r).powerLost = d.powerLost := by simp only [setReq]
@[simp] theorem setReq_modRst (d : Dev) (tag : Nat) (r : Req) : (setReq d tag r).modRst = d.modRst := by simp only [setReq]
@[simp] theorem setReq_pwr (d : Dev) (tag : Nat) (r : Req) : (setReq d tag r).pwr = d.pwr := by simp only [setReq]
@[simp] theorem setReq_boot (d : Dev) (tag : Nat) (r : Req) : (setReq d tag r).boot = d.boot := by simp only [setReq]
@[simp] theorem setReq_rst (d : Dev) (tag : Nat) (r : Req) : (setReq d tag r).rst = d.rst := by simp only [setReq]
@[simp] theorem setReq_out (d : Dev) (tag : Nat) (r : Req) : (setReq d tag r).out = d.out := by simp only [setReq]

/-! ### dropReq -/
@[simp] theorem dropReq_now (d : Dev) (tag : Nat) : (dropReq d tag).now = d.now := by simp only [dropReq]
@[simp] theorem dropReq_freeCtr (d : Dev) (tag : Nat) : (dropReq d tag).freeCtr = d.freeCtr := by simp only [dropReq]
@[simp] theorem dropReq_regs (d : Dev) (tag : Nat) : (dropReq d tag).regs = d.regs := by simp only [dropReq]
@[simp] theorem dropReq_latch (d : Dev) (tag : Nat) : (dropReq d tag).latch = d.latch := by simp only [dropReq]
@[simp] theorem dropReq_cores (d : Dev) (tag : Nat) : (dropReq d tag).cores = d.cores := by simp only [dropReq]
@[simp] theorem dropReq_sigs (d : Dev) (tag : Nat) : (dropReq d tag).sigs = d.sigs := by simp only [dropReq]
@[simp] theorem dropReq_flits (d : Dev) (tag : Nat) : (dropReq d tag).flits = d.flits := by simp only [dropReq]
@[simp] theorem dropReq_mem (d : Dev) (tag : Nat) : (dropReq d tag).mem = d.mem := by simp only [dropReq]
@[simp] theorem dropReq_qm (d : Dev) (tag : Nat) : (dropReq d tag).qm = d.qm := by simp only [dropReq]
@[simp] theorem dropReq_ext (d : Dev) (tag : Nat) : (dropReq d tag).ext = d.ext := by simp only [dropReq]
@[simp] theorem dropReq_orb (d : Dev) (tag : Nat) : (dropReq d tag).orb = d.orb := by simp only [dropReq]
@[simp] theorem dropReq_tim (d : Dev) (tag : Nat) : (dropReq d tag).tim = d.tim := by simp only [dropReq]
@[simp] theorem dropReq_pcieA (d : Dev) (tag : Nat) : (dropReq d tag).pcieA = d.pcieA := by simp only [dropReq]
@[simp] theorem dropReq_pcieB (d : Dev) (tag : Nat) : (dropReq d tag).pcieB = d.pcieB := by simp only [dropReq]
@[simp] theorem dropReq_mgmtPortB (d : Dev) (tag : Nat) : (dropReq d tag).mgmtPortB = d.mgmtPortB := by simp only [dropReq]
@[simp] theorem dropReq_sec (d : Dev) (tag : Nat) : (dropReq d tag).sec = d.sec := by simp only [dropReq]
@[simp] theorem dropReq_flt (d : Dev) (tag : Nat) : (dropReq d tag).flt = d.flt := by simp only [dropReq]
@[simp] theorem dropReq_state (d : Dev) (tag : Nat) : (dropReq d tag).state = d.state := by simp only [dropReq]
@[simp] theorem dropReq_factoryTest (d : Dev) (tag : Nat) : (dropReq d tag).factoryTest = d.factoryTest := by simp only [dropReq]
@[simp] theorem dropReq_powerLost (d : Dev) (tag : Nat) : (dropReq d tag).powerLost = d.powerLost := by simp only [dropReq]
@[simp] theorem dropReq_modRst (d : Dev) (tag : Nat) : (dropReq d tag).modRst = d.modRst := by simp only [dropReq]
@[simp] theorem dropReq_pwr (d : Dev) (tag : Nat) : (dropReq d tag).pwr = d.pwr := by simp only [dropReq]
@[simp] theorem dropReq_boot (d : Dev) (tag : Nat) : (dropReq d tag).boot = d.boot := by simp only [dropReq]
@[simp] theorem dropReq_rst (d : Dev) (tag : Nat) : (dropReq d tag).rst = d.rst := by simp only [dropReq]
@[simp] theorem dropReq_out (d : Dev) (tag : Nat) : (dropReq d tag).out = d.out := by simp only [dropReq]

/-! ### dropCmdReqs -/
@[simp] theorem dropCmdReqs_now (d : Dev) (uid : Nat) : (dropCmdReqs d uid).now = d.now := by simp only [dropCmdReqs]
@[simp] theorem dropCmdReqs_freeCtr (d : Dev) (uid : Nat) : (dropCmdReqs d uid).freeCtr = d.freeCtr := by simp only [dropCmdReqs]
@[simp] theorem dropCmdReqs_regs (d : Dev) (uid : Nat) : (dropCmdReqs d uid).regs = d.regs := by simp only [dropCmdReqs]
@[simp] theorem dropCmdReqs_latch (d : Dev) (uid : Nat) : (dropCmdReqs d uid).latch = d.latch := by simp only [dropCmdReqs]
@[simp] theorem dropCmdReqs_cores (d : Dev) (uid : Nat) : (dropCmdReqs d uid).cores = d.cores := by simp only [dropCmdReqs]
@[simp] theorem dropCmdReqs_sigs (d : Dev) (uid : Nat) : (dropCmdReqs d uid).sigs = d.sigs := by simp only [dropCmdReqs]
@[simp] theorem dropCmdReqs_flits (d : Dev) (uid : Nat) : (dropCmdReqs d uid).flits = d.flits := by simp only [dropCmdReqs]
@[simp] theorem dropCmdReqs_mem (d : Dev) (uid : Nat) : (dropCmdReqs d uid).mem = d.mem := by simp only [dropCmdReqs]
@[simp] theorem dropCmdReqs_qm (d : Dev) (uid : Nat) : (dropCmdReqs d uid).qm = d.qm := by simp only [dropCmdReqs]
@[simp] theorem dropCmdReqs_ext (d : Dev) (uid : Nat) : (dropCmdReqs d uid).ext = d.ext := by simp only [dropCmdReqs]
@[simp] theorem dropCmdReqs_orb (d : Dev) (uid : Nat) : (dropCmdReqs d uid).orb = d.orb := by simp only [dropCmdReqs]
@[simp] theorem dropCmdReqs_tim (d : Dev) (uid : Nat) : (dropCmdReqs d uid).tim = d.tim := by simp only [dropCmdReqs]
@[simp] theorem dropCmdReqs_pcieA (d : Dev) (uid : Nat) : (dropCmdReqs d uid).pcieA = d.pcieA := by simp only [dropCmdReqs]
@[simp] theorem dropCmdReqs_pcieB (d : Dev) (uid : Nat) : (dropCmdReqs d uid).pcieB = d.pcieB := by simp only [dropCmdReqs]
@[simp] theorem dropCmdReqs_mgmtPortB (d : Dev) (uid : Nat) : (dropCmdReqs d uid).mgmtPortB = d.mgmtPortB := by simp only [dropCmdReqs]
@[simp] theorem dropCmdReqs_sec (d : Dev) (uid : Nat) : (dropCmdReqs d uid).sec = d.sec := by simp only [dropCmdReqs]
@[simp] theorem dropCmdReqs_flt (d : Dev) (uid : Nat) : (dropCmdReqs d uid).flt = d.flt := by simp only [dropCmdReqs]
@[simp] theorem dropCmdReqs_state (d : Dev) (uid : Nat) : (dropCmdReqs d uid).state = d.state := by simp only [dropCmdReqs]
@[simp] theorem dropCmdReqs_factoryTest (d : Dev) (uid : Nat) : (dropCmdReqs d uid).factoryTest = d.factoryTest := by simp only [dropCmdReqs]
@[simp] theorem dropCmdReqs_powerLost (d : Dev) (uid : Nat) : (dropCmdReqs d uid).powerLost = d.powerLost := by simp only [dropCmdReqs]
@[simp] theorem dropCmdReqs_modRst (d : Dev) (uid : Nat) : (dropCmdReqs d uid).modRst = d.modRst := by simp only [dropCmdReqs]
@[simp] theorem dropCmdReqs_pwr (d : Dev) (uid : Nat) : (dropCmdReqs d uid).pwr = d.pwr := by simp only [dropCmdReqs]
@[simp] theorem dropCmdReqs_boot (d : Dev) (uid : Nat) : (dropCmdReqs d uid).boot = d.boot := by simp only [dropCmdReqs]
@[simp] theorem dropCmdReqs_rst (d : Dev) (uid : Nat) : (dropCmdReqs d uid).rst = d.rst := by simp only [dropCmdReqs]
@[simp] theorem dropCmdReqs_out (d : Dev) (uid : Nat) : (dropCmdReqs d uid).out = d.out := by simp only [dropCmdReqs]

/-! ### queueReport -/
@[simp] theorem queueReport_now (d : Dev) (die : Nat) (r : Rec) : (queueReport d die r).now = d.now := by simp only [queueReport]
@[simp] theorem queueReport_freeCtr (d : Dev) (die : Nat) (r : Rec) : (queueReport d die r).freeCtr = d.freeCtr := by simp only [queueReport]
@[simp] theorem queueReport_regs (d : Dev) (die : Nat) (r : Rec) : (queueReport d die r).regs = d.regs := by simp only [queueReport]
@[simp] theorem queueReport_latch (d : Dev) (die : Nat) (r : Rec) : (queueReport d die r).latch = d.latch := by simp only [queueReport]
@[simp] theorem queueReport_cores (d : Dev) (die : Nat) (r : Rec) : (queueReport d die r).cores = d.cores := by simp only [queueReport]
@[simp] theorem queueReport_sigs (d : Dev) (die : Nat) (r : Rec) : (queueReport d die r).sigs = d.sigs := by simp only [queueReport]
@[simp] theorem queueReport_flits (d : Dev) (die : Nat) (r : Rec) : (queueReport d die r).flits = d.flits := by simp only [queueReport]
@[simp] theorem queueReport_mem (d : Dev) (die : Nat) (r : Rec) : (queueReport d die r).mem = d.mem := by simp only [queueReport]
@[simp] theorem queueReport_qm (d : Dev) (die : Nat) (r : Rec) : (queueReport d die r).qm = d.qm := by simp only [queueReport]
@[simp] theorem queueReport_ext (d : Dev) (die : Nat) (r : Rec) : (queueReport d die r).ext = d.ext := by simp only [queueReport]
@[simp] theorem queueReport_fab (d : Dev) (die : Nat) (r : Rec) : (queueReport d die r).fab = d.fab := by simp only [queueReport]
@[simp] theorem queueReport_orb (d : Dev) (die : Nat) (r : Rec) : (queueReport d die r).orb = d.orb := by simp only [queueReport]
@[simp] theorem queueReport_tim (d : Dev) (die : Nat) (r : Rec) : (queueReport d die r).tim = d.tim := by simp only [queueReport]
@[simp] theorem queueReport_pcieA (d : Dev) (die : Nat) (r : Rec) : (queueReport d die r).pcieA = d.pcieA := by simp only [queueReport]
@[simp] theorem queueReport_pcieB (d : Dev) (die : Nat) (r : Rec) : (queueReport d die r).pcieB = d.pcieB := by simp only [queueReport]
@[simp] theorem queueReport_mgmtPortB (d : Dev) (die : Nat) (r : Rec) : (queueReport d die r).mgmtPortB = d.mgmtPortB := by simp only [queueReport]
@[simp] theorem queueReport_sec (d : Dev) (die : Nat) (r : Rec) : (queueReport d die r).sec = d.sec := by simp only [queueReport]
@[simp] theorem queueReport_state (d : Dev) (die : Nat) (r : Rec) : (queueReport d die r).state = d.state := by simp only [queueReport]
@[simp] theorem queueReport_factoryTest (d : Dev) (die : Nat) (r : Rec) : (queueReport d die r).factoryTest = d.factoryTest := by simp only [queueReport]
@[simp] theorem queueReport_powerLost (d : Dev) (die : Nat) (r : Rec) : (queueReport d die r).powerLost = d.powerLost := by simp only [queueReport]
@[simp] theorem queueReport_modRst (d : Dev) (die : Nat) (r : Rec) : (queueReport d die r).modRst = d.modRst := by simp only [queueReport]
@[simp] theorem queueReport_pwr (d : Dev) (die : Nat) (r : Rec) : (queueReport d die r).pwr = d.pwr := by simp only [queueReport]
@[simp] theorem queueReport_boot (d : Dev) (die : Nat) (r : Rec) : (queueReport d die r).boot = d.boot := by simp only [queueReport]
@[simp] theorem queueReport_rst (d : Dev) (die : Nat) (r : Rec) : (queueReport d die r).rst = d.rst := by simp only [queueReport]
@[simp] theorem queueReport_out (d : Dev) (die : Nat) (r : Rec) : (queueReport d die r).out = d.out := by simp only [queueReport]

@[simp] theorem setPcie_a_now (d : Dev) (x : Pcie) : (setPcie d .a x).now = d.now := by simp only [setPcie]
@[simp] theorem setPcie_a_freeCtr (d : Dev) (x : Pcie) : (setPcie d .a x).freeCtr = d.freeCtr := by simp only [setPcie]
@[simp] theorem setPcie_a_regs (d : Dev) (x : Pcie) : (setPcie d .a x).regs = d.regs := by simp only [setPcie]
@[simp] theorem setPcie_a_latch (d : Dev) (x : Pcie) : (setPcie d .a x).latch = d.latch := by simp only [setPcie]
@[simp] theorem setPcie_a_cores (d : Dev) (x : Pcie) : (setPcie d .a x).cores = d.cores := by simp only [setPcie]
@[simp] theorem setPcie_a_sigs (d : Dev) (x : Pcie) : (setPcie d .a x).sigs = d.sigs := by simp only [setPcie]
@[simp] theorem setPcie_a_flits (d : Dev) (x : Pcie) : (setPcie d .a x).flits = d.flits := by simp only [setPcie]
@[simp] theorem setPcie_a_mem (d : Dev) (x : Pcie) : (setPcie d .a x).mem = d.mem := by simp only [setPcie]
@[simp] theorem setPcie_a_qm (d : Dev) (x : Pcie) : (setPcie d .a x).qm = d.qm := by simp only [setPcie]
@[simp] theorem setPcie_a_ext (d : Dev) (x : Pcie) : (setPcie d .a x).ext = d.ext := by simp only [setPcie]
@[simp] theorem setPcie_a_fab (d : Dev) (x : Pcie) : (setPcie d .a x).fab = d.fab := by simp only [setPcie]
@[simp] theorem setPcie_a_orb (d : Dev) (x : Pcie) : (setPcie d .a x).orb = d.orb := by simp only [setPcie]
@[simp] theorem setPcie_a_tim (d : Dev) (x : Pcie) : (setPcie d .a x).tim = d.tim := by simp only [setPcie]
@[simp] theorem setPcie_a_pcieB (d : Dev) (x : Pcie) : (setPcie d .a x).pcieB = d.pcieB := by simp only [setPcie]
@[simp] theorem setPcie_a_mgmtPortB (d : Dev) (x : Pcie) : (setPcie d .a x).mgmtPortB = d.mgmtPortB := by simp only [setPcie]
@[simp] theorem setPcie_a_sec (d : Dev) (x : Pcie) : (setPcie d .a x).sec = d.sec := by simp only [setPcie]
@[simp] theorem setPcie_a_flt (d : Dev) (x : Pcie) : (setPcie d .a x).flt = d.flt := by simp only [setPcie]
@[simp] theorem setPcie_a_state (d : Dev) (x : Pcie) : (setPcie d .a x).state = d.state := by simp only [setPcie]
@[simp] theorem setPcie_a_factoryTest (d : Dev) (x : Pcie) : (setPcie d .a x).factoryTest = d.factoryTest := by simp only [setPcie]
@[simp] theorem setPcie_a_powerLost (d : Dev) (x : Pcie) : (setPcie d .a x).powerLost = d.powerLost := by simp only [setPcie]
@[simp] theorem setPcie_a_modRst (d : Dev) (x : Pcie) : (setPcie d .a x).modRst = d.modRst := by simp only [setPcie]
@[simp] theorem setPcie_a_pwr (d : Dev) (x : Pcie) : (setPcie d .a x).pwr = d.pwr := by simp only [setPcie]
@[simp] theorem setPcie_a_boot (d : Dev) (x : Pcie) : (setPcie d .a x).boot = d.boot := by simp only [setPcie]
@[simp] theorem setPcie_a_rst (d : Dev) (x : Pcie) : (setPcie d .a x).rst = d.rst := by simp only [setPcie]
@[simp] theorem setPcie_a_out (d : Dev) (x : Pcie) : (setPcie d .a x).out = d.out := by simp only [setPcie]
@[simp] theorem setPcie_b_now (d : Dev) (x : Pcie) : (setPcie d .b x).now = d.now := by simp only [setPcie]
@[simp] theorem setPcie_b_freeCtr (d : Dev) (x : Pcie) : (setPcie d .b x).freeCtr = d.freeCtr := by simp only [setPcie]
@[simp] theorem setPcie_b_regs (d : Dev) (x : Pcie) : (setPcie d .b x).regs = d.regs := by simp only [setPcie]
@[simp] theorem setPcie_b_latch (d : Dev) (x : Pcie) : (setPcie d .b x).latch = d.latch := by simp only [setPcie]
@[simp] theorem setPcie_b_cores (d : Dev) (x : Pcie) : (setPcie d .b x).cores = d.cores := by simp only [setPcie]
@[simp] theorem setPcie_b_sigs (d : Dev) (x : Pcie) : (setPcie d .b x).sigs = d.sigs := by simp only [setPcie]
@[simp] theorem setPcie_b_flits (d : Dev) (x : Pcie) : (setPcie d .b x).flits = d.flits := by simp only [setPcie]
@[simp] theorem setPcie_b_mem (d : Dev) (x : Pcie) : (setPcie d .b x).mem = d.mem := by simp only [setPcie]
@[simp] theorem setPcie_b_qm (d : Dev) (x : Pcie) : (setPcie d .b x).qm = d.qm := by simp only [setPcie]
@[simp] theorem setPcie_b_ext (d : Dev) (x : Pcie) : (setPcie d .b x).ext = d.ext := by simp only [setPcie]
@[simp] theorem setPcie_b_fab (d : Dev) (x : Pcie) : (setPcie d .b x).fab = d.fab := by simp only [setPcie]
@[simp] theorem setPcie_b_orb (d : Dev) (x : Pcie) : (setPcie d .b x).orb = d.orb := by simp only [setPcie]
@[simp] theorem setPcie_b_tim (d : Dev) (x : Pcie) : (setPcie d .b x).tim = d.tim := by simp only [setPcie]
@[simp] theorem setPcie_b_pcieA (d : Dev) (x : Pcie) : (setPcie d .b x).pcieA = d.pcieA := by simp only [setPcie]
@[simp] theorem setPcie_b_mgmtPortB (d : Dev) (x : Pcie) : (setPcie d .b x).mgmtPortB = d.mgmtPortB := by simp only [setPcie]
@[simp] theorem setPcie_b_sec (d : Dev) (x : Pcie) : (setPcie d .b x).sec = d.sec := by simp only [setPcie]
@[simp] theorem setPcie_b_flt (d : Dev) (x : Pcie) : (setPcie d .b x).flt = d.flt := by simp only [setPcie]
@[simp] theorem setPcie_b_state (d : Dev) (x : Pcie) : (setPcie d .b x).state = d.state := by simp only [setPcie]
@[simp] theorem setPcie_b_factoryTest (d : Dev) (x : Pcie) : (setPcie d .b x).factoryTest = d.factoryTest := by simp only [setPcie]
@[simp] theorem setPcie_b_powerLost (d : Dev) (x : Pcie) : (setPcie d .b x).powerLost = d.powerLost := by simp only [setPcie]
@[simp] theorem setPcie_b_modRst (d : Dev) (x : Pcie) : (setPcie d .b x).modRst = d.modRst := by simp only [setPcie]
@[simp] theorem setPcie_b_pwr (d : Dev) (x : Pcie) : (setPcie d .b x).pwr = d.pwr := by simp only [setPcie]
@[simp] theorem setPcie_b_boot (d : Dev) (x : Pcie) : (setPcie d .b x).boot = d.boot := by simp only [setPcie]
@[simp] theorem setPcie_b_rst (d : Dev) (x : Pcie) : (setPcie d .b x).rst = d.rst := by simp only [setPcie]
@[simp] theorem setPcie_b_out (d : Dev) (x : Pcie) : (setPcie d .b x).out = d.out := by simp only [setPcie]
@[simp] theorem setPcie_now (d : Dev) (p : HostPort) (x : Pcie) : (setPcie d p x).now = d.now := by cases p <;> simp only [setPcie]
@[simp] theorem setPcie_freeCtr (d : Dev) (p : HostPort) (x : Pcie) : (setPcie d p x).freeCtr = d.freeCtr := by cases p <;> simp only [setPcie]
@[simp] theorem setPcie_regs (d : Dev) (p : HostPort) (x : Pcie) : (setPcie d p x).regs = d.regs := by cases p <;> simp only [setPcie]
@[simp] theorem setPcie_latch (d : Dev) (p : HostPort) (x : Pcie) : (setPcie d p x).latch = d.latch := by cases p <;> simp only [setPcie]
@[simp] theorem setPcie_cores (d : Dev) (p : HostPort) (x : Pcie) : (setPcie d p x).cores = d.cores := by cases p <;> simp only [setPcie]
@[simp] theorem setPcie_sigs (d : Dev) (p : HostPort) (x : Pcie) : (setPcie d p x).sigs = d.sigs := by cases p <;> simp only [setPcie]
@[simp] theorem setPcie_flits (d : Dev) (p : HostPort) (x : Pcie) : (setPcie d p x).flits = d.flits := by cases p <;> simp only [setPcie]
@[simp] theorem setPcie_mem (d : Dev) (p : HostPort) (x : Pcie) : (setPcie d p x).mem = d.mem := by cases p <;> simp only [setPcie]
@[simp] theorem setPcie_qm (d : Dev) (p : HostPort) (x : Pcie) : (setPcie d p x).qm = d.qm := by cases p <;> simp only [setPcie]
@[simp] theorem setPcie_ext (d : Dev) (p : HostPort) (x : Pcie) : (setPcie d p x).ext = d.ext := by cases p <;> simp only [setPcie]
@[simp] theorem setPcie_fab (d : Dev) (p : HostPort) (x : Pcie) : (setPcie d p x).fab = d.fab := by cases p <;> simp only [setPcie]
@[simp] theorem setPcie_orb (d : Dev) (p : HostPort) (x : Pcie) : (setPcie d p x).orb = d.orb := by cases p <;> simp only [setPcie]
@[simp] theorem setPcie_tim (d : Dev) (p : HostPort) (x : Pcie) : (setPcie d p x).tim = d.tim := by cases p <;> simp only [setPcie]
@[simp] theorem setPcie_mgmtPortB (d : Dev) (p : HostPort) (x : Pcie) : (setPcie d p x).mgmtPortB = d.mgmtPortB := by cases p <;> simp only [setPcie]
@[simp] theorem setPcie_sec (d : Dev) (p : HostPort) (x : Pcie) : (setPcie d p x).sec = d.sec := by cases p <;> simp only [setPcie]
@[simp] theorem setPcie_flt (d : Dev) (p : HostPort) (x : Pcie) : (setPcie d p x).flt = d.flt := by cases p <;> simp only [setPcie]
@[simp] theorem setPcie_state (d : Dev) (p : HostPort) (x : Pcie) : (setPcie d p x).state = d.state := by cases p <;> simp only [setPcie]
@[simp] theorem setPcie_factoryTest (d : Dev) (p : HostPort) (x : Pcie) : (setPcie d p x).factoryTest = d.factoryTest := by cases p <;> simp only [setPcie]
@[simp] theorem setPcie_powerLost (d : Dev) (p : HostPort) (x : Pcie) : (setPcie d p x).powerLost = d.powerLost := by cases p <;> simp only [setPcie]
@[simp] theorem setPcie_modRst (d : Dev) (p : HostPort) (x : Pcie) : (setPcie d p x).modRst = d.modRst := by cases p <;> simp only [setPcie]
@[simp] theorem setPcie_pwr (d : Dev) (p : HostPort) (x : Pcie) : (setPcie d p x).pwr = d.pwr := by cases p <;> simp only [setPcie]
@[simp] theorem setPcie_boot (d : Dev) (p : HostPort) (x : Pcie) : (setPcie d p x).boot = d.boot := by cases p <;> simp only [setPcie]
@[simp] theorem setPcie_rst (d : Dev) (p : HostPort) (x : Pcie) : (setPcie d p x).rst = d.rst := by cases p <;> simp only [setPcie]
@[simp] theorem setPcie_out (d : Dev) (p : HostPort) (x : Pcie) : (setPcie d p x).out = d.out := by cases p <;> simp only [setPcie]

end Sys2Proof.Machine
end

