-- ==== Sys2Proof/Laws/Regs.lean ====
section
/-! SUPPORT. Laws of the register file: what a register reads after a write of it or of another, counters, and that the
register file keeps its canonical form. -/

namespace Sys2Proof.Machine
open Sys2Proof

theorem regsSorted_setRaw {d : Dev} (off v : Nat) (h : regsSorted d) : regsSorted (setRaw d off v) := by
  unfold regsSorted setRaw; exact SMap.sorted_put _ _ _ h
theorem regsSorted_setRg {d : Dev} (die page reg v : Nat) (h : regsSorted d) : regsSorted (setRg d die page reg v) :=
  regsSorted_setRaw _ _ h
theorem regsSorted_setRg64 {d : Dev} (die page reg v : Nat) (h : regsSorted d) : regsSorted (setRg64 d die page reg v) :=
  regsSorted_setRg _ _ _ _ (regsSorted_setRg _ _ _ _ h)
theorem regsSorted_bump {d : Dev} (die page reg n : Nat) (h : regsSorted d) : regsSorted (bump d die page reg n) :=
  regsSorted_setRg _ _ _ _ h
theorem regsSorted_bump64 {d : Dev} (die page reg n : Nat) (h : regsSorted d) : regsSorted (bump64 d die page reg n) :=
  regsSorted_setRg64 _ _ _ _ h
theorem regsSorted_pageEvent {d : Dev} (die page bit : Nat) (h : regsSorted d) : regsSorted (pageEvent d die page bit) :=
  regsSorted_setRg _ _ _ _ h
/-- The canonical form is the register words' alone. -/
theorem regsSorted_of_regs {d t : Dev} (hr : t.regs = d.regs) (h : regsSorted d) : regsSorted t := by
  unfold regsSorted; rw [hr]; exact h

theorem raw_of_regs {d t : Dev} (hr : t.regs = d.regs) (off : Nat) : raw t off = raw d off := by unfold raw; rw [hr]
theorem rg_of_regs {d t : Dev} (hr : t.regs = d.regs) (die page reg : Nat) : rg t die page reg = rg d die page reg :=
  raw_of_regs hr _

/-- A register word reads as it was written. -/
theorem raw_setRaw_same {d : Dev} (off v : Nat) (h : regsSorted d) : raw (setRaw d off v) off = v % 2 ^ 32 := by
  unfold raw setRaw
  simp only
  rw [SMap.getD_put_same _ _ _ h]
  exact BitVec.toNat_ofNat v 32
/-- Every other register word stays. -/
theorem raw_setRaw_other {d : Dev} {off o : Nat} (v : Nat) (h : regsSorted d) (ho : o ≠ off) :
    raw (setRaw d off v) o = raw d o := by
  unfold raw setRaw
  simp only
  rw [SMap.getD_put_other _ _ _ h ho]

theorem rg_setRg_same {d : Dev} (die page reg v : Nat) (h : regsSorted d) :
    rg (setRg d die page reg v) die page reg = v % 2 ^ 32 := raw_setRaw_same _ _ h
theorem rg_setRg_other {d : Dev} {die page reg die' page' reg' : Nat} (v : Nat) (h : regsSorted d)
    (ho : regOff die' page' reg' ≠ regOff die page reg) : rg (setRg d die page reg v) die' page' reg' = rg d die' page' reg' :=
  raw_setRaw_other _ h ho

theorem raw_lt (d : Dev) (off : Nat) : raw d off < 2 ^ 32 := by unfold raw; exact BitVec.isLt _
theorem rg_lt (d : Dev) (die page reg : Nat) : rg d die page reg < 2 ^ 32 := raw_lt _ _

/-- A counter counts and saturates (04 R131). -/
theorem rg_bump_same {d : Dev} (die page reg n : Nat) (h : regsSorted d) :
    rg (bump d die page reg n) die page reg = min (rg d die page reg + n) (2 ^ 32 - 1) := by
  unfold bump
  rw [rg_setRg_same _ _ _ _ h]
  exact Nat.mod_eq_of_lt (by omega)
theorem rg_bump_other {d : Dev} {die page reg die' page' reg' : Nat} (n : Nat) (h : regsSorted d)
    (ho : regOff die' page' reg' ≠ regOff die page reg) : rg (bump d die page reg n) die' page' reg' = rg d die' page' reg' :=
  rg_setRg_other _ h ho
theorem rg_pageEvent_same {d : Dev} (die page bit : Nat) (h : regsSorted d) :
    rg (pageEvent d die page bit) die page 0x080 = (rg d die page 0x080 ||| 2 ^ bit) % 2 ^ 32 := rg_setRg_same _ _ _ _ h
theorem rg_pageEvent_other {d : Dev} {die page bit die' page' reg' : Nat} (h : regsSorted d)
    (ho : regOff die' page' reg' ≠ regOff die page 0x080) : rg (pageEvent d die page bit) die' page' reg' = rg d die' page' reg' :=
  rg_setRg_other _ h ho

/-- A register pair reads as it was written. -/
theorem rg64_setRg64_same {d : Dev} (die page reg v : Nat) (h : regsSorted d) :
    rg64 (setRg64 d die page reg v) die page reg = v % 2 ^ 64 := by
  have hne : regOff die page reg ≠ regOff die page (reg + 4) := by unfold regOff; omega
  unfold rg64 setRg64
  rw [rg_setRg_same _ _ _ _ (regsSorted_setRg _ _ _ _ h), rg_setRg_other _ (regsSorted_setRg _ _ _ _ h) hne,
    rg_setRg_same _ _ _ _ h]
  omega

end Sys2Proof.Machine
end

