-- ==== Sys2Proof/Laws/Flags.lean ====
section
/-! SUPPORT. What sending a packet and latching a fault source can do: `LatchSide` says it once, and one lemma for each
shared operation of Flags proves it. -/

namespace Sys2Proof.Machine
open Sys2Proof

theorem FaultSide.refl (d : Dev) : FaultSide d d := by constructor <;> rfl
theorem FaultSide.trans {a b c : Dev} (h : FaultSide a b) (k : FaultSide b c) : FaultSide a c where
  now := k.now.trans h.now
  freeCtr := k.freeCtr.trans h.freeCtr
  latch := k.latch.trans h.latch
  cores := k.cores.trans h.cores
  sigs := k.sigs.trans h.sigs
  flits := k.flits.trans h.flits
  net := k.net.trans h.net
  mem := k.mem.trans h.mem
  qm := k.qm.trans h.qm
  ext := k.ext.trans h.ext
  orb := k.orb.trans h.orb
  tim := k.tim.trans h.tim
  pcieA := k.pcieA.trans h.pcieA
  pcieB := k.pcieB.trans h.pcieB
  mgmtPortB := k.mgmtPortB.trans h.mgmtPortB
  sec := k.sec.trans h.sec
  state := k.state.trans h.state
  factoryTest := k.factoryTest.trans h.factoryTest
  powerLost := k.powerLost.trans h.powerLost
  modRst := k.modRst.trans h.modRst
  pwr := k.pwr.trans h.pwr
  boot := k.boot.trans h.boot
  ports := by rw [k.ports, h.ports]
  log := k.log.trans h.log
  logWr := k.logWr.trans h.logWr
  logRd := k.logRd.trans h.logRd
  irqPend := k.irqPend.trans h.irqPend
  missed := k.missed.trans h.missed
  lost := k.lost.trans h.lost

/-- What latching and sending do: the frame, the register file stays canonical, and no FLT_STAT bit goes from 1 to 0. -/
structure LatchSide (d t : Dev) : Prop where
  side : FaultSide d t
  canon : regsSorted d → regsSorted t
  flags : regsSorted d → ∀ off i, off % 4096 = 0x020 → (raw d off).testBit i = true → (raw t off).testBit i = true

namespace LatchSide

theorem refl (d : Dev) : LatchSide d d := ⟨FaultSide.refl d, id, fun _ _ _ _ h => h⟩
theorem trans {a b c : Dev} (h : LatchSide a b) (k : LatchSide b c) : LatchSide a c :=
  ⟨h.side.trans k.side, fun s => k.canon (h.canon s),
    fun s off i ho hb => k.flags (h.canon s) off i ho (h.flags s off i ho hb)⟩

/-- A change that leaves the register words alone. -/
theorem of_regs {d t : Dev} (hf : FaultSide d t) (hr : t.regs = d.regs) : LatchSide d t :=
  ⟨hf, regsSorted_of_regs hr, fun _ off i _ hb => by rw [raw_of_regs hr]; exact hb⟩

theorem faultSide_regs (d : Dev) (r : SMap Word) : FaultSide d { d with regs := r } := by constructor <;> rfl

/-- A write of a register word other than FLT_STAT. -/
theorem setRaw {d : Dev} {off : Nat} (v : Nat) (ho : off % 4096 ≠ 0x020) : LatchSide d (setRaw d off v) where
  side := faultSide_regs d _
  canon := regsSorted_setRaw off v
  flags := fun s o i h hb => by
    rw [raw_setRaw_other v s (by rintro rfl; exact ho h)]; exact hb

theorem setRg {d : Dev} {die page reg : Nat} (v : Nat) (ho : (regOff die page reg) % 4096 ≠ 0x020) :
    LatchSide d (setRg d die page reg v) := LatchSide.setRaw v ho
theorem setRg64 {d : Dev} {die page reg : Nat} (v : Nat) (ho : (regOff die page reg) % 4096 ≠ 0x020)
    (ho' : (regOff die page (reg + 4)) % 4096 ≠ 0x020) : LatchSide d (setRg64 d die page reg v) :=
  (LatchSide.setRg _ ho).trans (LatchSide.setRg _ ho')
theorem bump {d : Dev} {die page reg : Nat} (n : Nat) (ho : (regOff die page reg) % 4096 ≠ 0x020) :
    LatchSide d (bump d die page reg n) := LatchSide.setRg _ ho

/-- FLT_STAT gains bits. -/
theorem orStat (d : Dev) (off m : Nat) : LatchSide d (Machine.setRaw d off (raw d off ||| m)) where
  side := faultSide_regs d _
  canon := regsSorted_setRaw off _
  flags := fun s o i _ hb => by
    by_cases h : o = off
    · subst h
      have hi : i < 32 := by
        by_contra hc
        have := Nat.testBit_lt_two_pow (lt_of_lt_of_le (raw_lt d o) (Nat.pow_le_pow_right (by decide) (Nat.le_of_not_lt hc)))
        simp [this] at hb
      rw [raw_setRaw_same _ _ s, Nat.testBit_mod_two_pow]
      simp [hi, hb]
    · rw [raw_setRaw_other _ s h]; exact hb

theorem emit (d : Dev) (o : Out) : LatchSide d (emit d o) := of_regs (by constructor <;> rfl) rfl
theorem setPort (d : Dev) (p : Nat) (q : Port) : LatchSide d (setPort d p q) := of_regs (by constructor <;> rfl) rfl

theorem foldl {α : Type} (f : Dev → α → Dev) (h : ∀ d x, LatchSide d (f d x)) (l : List α) (d : Dev) :
    LatchSide d (l.foldl f d) := by
  induction l generalizing d with
  | nil => exact refl d
  | cons x r ih => exact (h d x).trans (ih _)

end LatchSide

/-! ### Sending -/

theorem latchSide_txNow (d : Dev) (port : Nat) (p : Packet) : LatchSide d (txNow d port p) := by
  unfold txNow
  exact (LatchSide.setPort _ _ _).trans ((LatchSide.bump _ (by unfold regOff; omega)).trans (LatchSide.emit _ _))

theorem latchSide_drainOne {d t : Dev} {port : Nat} (h : drainOne d port = some t) : LatchSide d t := by
  unfold drainOne at h
  simp only at h
  split at h
  · cases h; exact (LatchSide.setPort _ _ _).trans (latchSide_txNow _ _ _)
  · cases h

theorem latchSide_drainPort (n : Nat) (d : Dev) (port : Nat) : LatchSide d (drainPort n d port) := by
  induction n generalizing d with
  | zero => exact LatchSide.refl d
  | succ n ih =>
    unfold drainPort
    split
    · rename_i d' h; exact (latchSide_drainOne h).trans (ih d')
    · exact LatchSide.refl d

theorem latchSide_sendPort (d : Dev) (port : Nat) (p : Packet) : LatchSide d (sendPort d port p) := by
  unfold sendPort
  exact (LatchSide.setPort _ _ _).trans (latchSide_drainPort _ _ _)

theorem latchSide_sendRouted {d t : Dev} {p : Packet} (h : sendRouted d p = some t) : LatchSide d t := by
  unfold sendRouted at h
  split at h
  · cases h; exact LatchSide.emit _ _
  · split at h
    · split at h
      · split at h
        · cases h
          refine LatchSide.trans (b := if _ then _ else _) ?_ (LatchSide.foldl _ (fun d x => ?_) _ _)
          · split
            · exact LatchSide.emit _ _
            · exact LatchSide.refl _
          · split
            · exact latchSide_sendPort _ _ _
            · exact LatchSide.refl _
        · cases h
      · cases h
    · split at h
      · rename_i port alt _
        cases h
        cases alt
        · exact latchSide_sendPort _ _ _
        · exact (LatchSide.bump _ (by unfold regOff; omega)).trans (latchSide_sendPort _ _ _)
      · cases h

/-! ### Latching -/

theorem latchSide_markPage (d : Dev) (die page src : Nat) (c : Cap) : LatchSide d (markPage d die page src c) := by
  have h0 : LatchSide d (Machine.setRg d die page 0x020 (fltStat d die page ||| 2 ^ src)) := LatchSide.orStat d _ _
  unfold markPage
  simp only
  split
  · exact h0.trans (LatchSide.bump _ (by unfold regOff; omega))
  · exact h0.trans ((LatchSide.setRg64 _ (by unfold regOff; omega) (by unfold regOff; omega)).trans
      ((LatchSide.setRg _ (by unfold regOff; omega)).trans ((LatchSide.setRg _ (by unfold regOff; omega)).trans
        ((LatchSide.setRg64 _ (by unfold regOff; omega) (by unfold regOff; omega)).trans
          (LatchSide.setRg _ (by unfold regOff; omega))))))

theorem latchSide_queueReport (d : Dev) (die : Nat) (r : Rec) : LatchSide d (queueReport d die r) :=
  LatchSide.of_regs (by constructor <;> rfl) rfl

theorem latchSide_requestResets (d : Dev) (die page code : Nat) : LatchSide d (requestResets d die page code) := by
  unfold requestResets
  split
  · exact LatchSide.of_regs (by constructor <;> rfl) rfl
  · split
    · exact LatchSide.of_regs (by constructor <;> rfl) rfl
    · exact LatchSide.refl d

theorem latchSide_latchCore (d : Dev) (die page src : Nat) (c : Cap) : LatchSide d (latchCore d die page src c).1 := by
  unfold latchCore
  simp only
  split
  · exact latchSide_markPage _ _ _ _ _
  · exact (latchSide_markPage _ _ _ _ _).trans ((latchSide_queueReport _ _ _).trans (latchSide_requestResets _ _ _ _))

theorem latchSide_sendReport (d : Dev) (origin kind port blk src addr : Nat) :
    LatchSide d (sendReport d origin kind port blk src addr).1 := by
  unfold sendReport
  split
  · exact LatchSide.refl d
  · split
    · exact LatchSide.bump _ (by unfold regOff; omega)
    · split
      · exact LatchSide.refl d
      · simp only
        split
        · rename_i d' h
          refine LatchSide.trans ?_ (LatchSide.bump _ (by unfold regOff; omega))
          exact (latchSide_sendRouted h).trans (LatchSide.of_regs (by constructor <;> rfl) rfl)
        · exact LatchSide.refl d

theorem latchSide_originTake (d : Dev) (origin kind reporter : Nat) : LatchSide d (originTake d origin kind reporter).1 := by
  unfold originTake
  simp only
  split
  · exact LatchSide.of_regs (by constructor <;> rfl) rfl
  · split
    · exact LatchSide.of_regs (by constructor <;> rfl) rfl
    · exact LatchSide.refl d

/-- What follows the latching itself is a `LatchSide` change too. -/
theorem latchSide_latchN_after (n : Nat) (d : Dev) (die page src : Nat) (c : Cap) :
    LatchSide (latchCore d die page src c).1 (latchN n d die page src c) := by
  induction n generalizing d die page src c with
  | zero => exact LatchSide.refl _
  | succ n ih0 =>
    have ih : ∀ d die page src c, LatchSide d (latchN n d die page src c) := fun d die page src c =>
      (latchSide_latchCore d die page src c).trans (ih0 d die page src c)
    unfold latchN
    split
    · rename_i d1 h; rw [h]; exact LatchSide.refl _
    · rename_i d1 code h
      rw [h]
      have one : ∀ (d : Dev) (kind origin port blk addr : Nat), LatchSide d
          (if rptValid origin kind then
            match originTake (match sendReport d origin kind port blk src addr with
              | (d', true) => latchN n d' 60 3 7 noCap
              | (d', false) => d') origin kind (ownDid d) with
            | (d3, some (s, cap)) => latchN n d3 60 3 s cap
            | (d3, none) => d3
           else match sendReport d origin kind port blk src addr with
              | (d', true) => latchN n d' 60 3 7 noCap
              | (d', false) => d') := by
        intro d kind origin port blk addr
        have h2 : LatchSide d (match sendReport d origin kind port blk src addr with
              | (d', true) => latchN n d' 60 3 7 noCap
              | (d', false) => d') := by
          have hs := latchSide_sendReport d origin kind port blk src addr
          split
          · rename_i d' e; rw [e] at hs; exact LatchSide.trans hs (ih _ _ _ _ _)
          · rename_i d' e; rw [e] at hs; exact hs
        split
        · have ho := latchSide_originTake (match sendReport d origin kind port blk src addr with
              | (d', true) => latchN n d' 60 3 7 noCap
              | (d', false) => d') origin kind (ownDid d)
          split
          · rename_i d3 s cap e; rw [e] at ho; exact (h2.trans ho).trans (ih _ _ _ _ _)
          · rename_i d3 e; rw [e] at ho; exact h2.trans ho
        · exact h2
      simp only
      have h2 : LatchSide d1 (match fabKind d1 die page src with
        | some (kind, origin, port) =>
          (if rptValid origin kind then
            match originTake (match sendReport d1 origin kind port (blkIdOf die page) src c.addr with
              | (d', true) => latchN n d' 60 3 7 noCap
              | (d', false) => d') origin kind (ownDid d1) with
            | (d3, some (s, cap)) => latchN n d3 60 3 s cap
            | (d3, none) => d3
           else match sendReport d1 origin kind port (blkIdOf die page) src c.addr with
              | (d', true) => latchN n d' 60 3 7 noCap
              | (d', false) => d')
        | none => d1) := by
        split
        · exact one _ _ _ _ _ _
        · exact LatchSide.refl d1
      split
      · exact LatchSide.trans h2 (one _ _ _ _ _ _)
      · exact h2

theorem latchSide_latchN (n : Nat) (d : Dev) (die page src : Nat) (c : Cap) : LatchSide d (latchN n d die page src c) :=
  (latchSide_latchCore d die page src c).trans (latchSide_latchN_after n d die page src c)

/-- Latching a source: what it can change. -/
theorem latchSide_latch (d : Dev) (die page src : Nat) (c : Cap) : LatchSide d (latch d die page src c) :=
  latchSide_latchN 4 d die page src c

/-- The bit of a latched source is set (14 R439). -/
theorem latchCore_flag {d : Dev} {die page src : Nat} (c : Cap) (h : regsSorted d) (hs : src < 32) :
    (rg (latchCore d die page src c).1 die page 0x020).testBit src = true := by
  have h0 : (rg (Machine.setRg d die page 0x020 (fltStat d die page ||| 2 ^ src)) die page 0x020).testBit src = true := by
    rw [rg_setRg_same _ _ _ _ h, Nat.testBit_mod_two_pow]; simp [hs, Nat.testBit_two_pow_self]
  have hm : (rg (markPage d die page src c) die page 0x020).testBit src = true := by
    have hs1 := regsSorted_setRg die page 0x020 (fltStat d die page ||| 2 ^ src) h
    have ho : regOff die page 0x020 % 4096 = 0x020 := by unfold regOff; omega
    unfold markPage
    simp only
    split
    · exact (LatchSide.bump _ (by unfold regOff; omega)).flags hs1 _ _ ho h0
    · exact ((LatchSide.setRg64 _ (by unfold regOff; omega) (by unfold regOff; omega)).trans
        ((LatchSide.setRg _ (by unfold regOff; omega)).trans ((LatchSide.setRg _ (by unfold regOff; omega)).trans
          ((LatchSide.setRg64 _ (by unfold regOff; omega) (by unfold regOff; omega)).trans
            (LatchSide.setRg _ (by unfold regOff; omega)))))).flags hs1 _ _ ho h0
  unfold latchCore
  simp only
  split
  · exact hm
  · have hc := (latchSide_markPage d die page src c).canon h
    exact ((latchSide_queueReport _ _ _).trans (latchSide_requestResets _ _ _ _)).flags hc _ _ (by unfold regOff; omega) hm

theorem latch_flag {d : Dev} {die page src : Nat} (c : Cap) (h : regsSorted d) (hs : src < 32) :
    (rg (latch d die page src c) die page 0x020).testBit src = true := by
  have hc := latchCore_flag c h hs (die := die) (page := page)
  have hk := (latchSide_latchCore d die page src c).canon h
  exact (latchSide_latchN_after 4 d die page src c).flags hk _ _ (by unfold regOff; omega) hc

end Sys2Proof.Machine
end

