-- ==== Sys2Proof/Laws/Memory.lean ====
section
/-! SUPPORT. Laws of the byte memory: what a read finds after a write, and that every memory operation keeps the canonical
form (log 5). -/

namespace Sys2Proof.Machine
open Sys2Proof

/-! ### The canonical form -/

/-- Strictly rising from a bound on: every key is at least the bound, and keys rise pairwise. -/
theorem memSortedFrom_iff (lo : Nat) (m : List Host.Cell) :
    memSortedFrom lo m = true ↔ (∀ c ∈ m, lo ≤ c.1) ∧ m.Pairwise (fun a b => a.1 < b.1) := by
  induction m generalizing lo with
  | nil => simp [memSortedFrom]
  | cons e r ih =>
    obtain ⟨k, v⟩ := e
    simp only [memSortedFrom, Bool.and_eq_true, decide_eq_true_eq, ih, List.mem_cons, List.pairwise_cons]
    constructor
    · rintro ⟨h1, h2, h3⟩
      refine ⟨?_, fun c hc => h2 c hc, h3⟩
      rintro c (rfl | hc)
      · exact h1
      · have := h2 c hc; omega
    · rintro ⟨h1, h2, h3⟩
      exact ⟨h1 _ (.inl rfl), fun c hc => h2 c hc, h3⟩

theorem Memory.wf_iff (m : List Host.Cell) :
    Memory.wf m = true ↔ m.Pairwise (fun a b => a.1 < b.1) ∧ ∀ c ∈ m, c.2 ≠ 0 := by
  unfold Memory.wf
  rw [Bool.and_eq_true, memSortedFrom_iff, List.all_eq_true]
  simp

/-- Dropping cells keeps the form. -/
theorem Memory.wf_filter {m : List Host.Cell} (p : Host.Cell → Bool) (h : Memory.wf m = true) :
    Memory.wf (m.filter p) = true := by
  rw [Memory.wf_iff] at h ⊢
  exact ⟨h.1.filter p, fun c hc => h.2 c (List.mem_of_mem_filter hc)⟩

theorem cellsAt_bounds {a : Nat} {bs : List Nat} {c : Host.Cell} (h : c ∈ cellsAt a bs) :
    a ≤ c.1 ∧ c.1 < a + bs.length ∧ c.2 ≠ 0 := by
  induction bs generalizing a with
  | nil => simp [cellsAt] at h
  | cons b r ih =>
    simp only [cellsAt] at h
    split at h
    · have := ih h; simp only [List.length_cons]; exact ⟨by omega, by omega, this.2.2⟩
    · rename_i hb
      rcases List.mem_cons.mp h with rfl | h
      · simp only [List.length_cons]; exact ⟨Nat.le_refl _, by omega, hb⟩
      · have := ih h; simp only [List.length_cons]; exact ⟨by omega, by omega, this.2.2⟩

theorem cellsAt_pairwise (a : Nat) (bs : List Nat) : (cellsAt a bs).Pairwise (fun x y => x.1 < y.1) := by
  induction bs generalizing a with
  | nil => simp [cellsAt]
  | cons b r ih =>
    simp only [cellsAt]
    split
    · exact ih _
    · rw [List.pairwise_cons]
      exact ⟨fun c hc => by have := cellsAt_bounds hc; omega, ih _⟩

/-- A write keeps the canonical form. -/
theorem Memory.wf_memWrite {m : List Host.Cell} (a : Nat) (bs : List Nat) (h : Memory.wf m = true) :
    Memory.wf (memWrite m a bs) = true := by
  rw [Memory.wf_iff] at h ⊢
  unfold memWrite
  constructor
  · rw [List.pairwise_append, List.pairwise_append]
    refine ⟨⟨h.1.filter _, cellsAt_pairwise a bs, ?_⟩, h.1.filter _, ?_⟩
    · intro x hx y hy
      have h1 : x.1 < a := by simpa using (List.mem_filter.mp hx).2
      have := cellsAt_bounds hy; omega
    · intro x hx y hy
      have h1 : a + bs.length ≤ y.1 := by simpa using (List.mem_filter.mp hy).2
      rcases List.mem_append.mp hx with hx | hx
      · have h2 : x.1 < a := by simpa using (List.mem_filter.mp hx).2
        omega
      · have := cellsAt_bounds hx; omega
  · intro c hc
    rcases List.mem_append.mp hc with hc | hc
    · rcases List.mem_append.mp hc with hc | hc
      · exact h.2 c (List.mem_of_mem_filter hc)
      · exact (cellsAt_bounds hc).2.2
    · exact h.2 c (List.mem_of_mem_filter hc)

/-! ### Every memory operation keeps it -/

theorem wf_wcbDrop (d : Dev) (sid off n : Nat) : (wcbDrop d sid off n).mem = d.mem := by
  unfold wcbDrop; simp only; split <;> rfl

theorem wf_stWrite {d : Dev} (sid off : Nat) (bs : List Nat) (h : Memory.wf d.mem.bytes = true) :
    Memory.wf (stWrite d sid off bs).mem.bytes = true := by
  unfold stWrite setBytes
  simp only [wf_wcbDrop]
  exact Memory.wf_memWrite _ _ h

/-- A fold of steps that keep the form keeps it. -/
theorem wf_foldl {α : Type} (f : Dev → α → Dev)
    (hf : ∀ d x, Memory.wf d.mem.bytes = true → Memory.wf (f d x).mem.bytes = true) (l : List α) {d : Dev}
    (h : Memory.wf d.mem.bytes = true) : Memory.wf (l.foldl f d).mem.bytes = true := by
  induction l generalizing d with
  | nil => exact h
  | cons x r ih => exact ih (hf d x h)

@[simp] theorem bytes_setSeal (d : Dev) (sid : Nat) (b : Bool) : (setSeal d sid b).mem.bytes = d.mem.bytes := rfl
@[simp] theorem bytes_setPoison (d : Dev) (sid : Nat) (b : Bool) : (setPoison d sid b).mem.bytes = d.mem.bytes := rfl
@[simp] theorem bytes_setRoot (d : Dev) (k sid : Nat) : (setRoot d k sid).mem.bytes = d.mem.bytes := rfl
@[simp] theorem bytes_newGran (d : Dev) : (newGran d).1.mem.bytes = d.mem.bytes := rfl
@[simp] theorem bytes_setCmd (d : Dev) (uid : Nat) (c : Cmd) : (setCmd d uid c).mem.bytes = d.mem.bytes := rfl
@[simp] theorem bytes_writeMarks (d : Dev) (sid off n : Nat) (b : Bool) : (writeMarks d sid off n b).mem.bytes = d.mem.bytes := by
  unfold writeMarks; split
  · rfl
  · split <;> rfl

theorem wf_copyGran {d : Dev} (src dst : Nat) (h : Memory.wf d.mem.bytes = true) :
    Memory.wf (copyGran d src dst).mem.bytes = true := by
  exact wf_stWrite dst 0 _ h
theorem wf_dropGran {d : Dev} (sid : Nat) (h : Memory.wf d.mem.bytes = true) :
    Memory.wf (dropGran d sid).mem.bytes = true := by
  exact wf_stWrite sid 0 _ h
theorem mem_ftlUnmap (d : Dev) (kind id : Nat) : (ftlUnmap d kind id).mem = d.mem := by
  unfold ftlUnmap
  simp only [List.foldl_cons, List.foldl_nil]
  split <;> split <;> rfl
theorem wf_freeGrans {d : Dev} (kind id : Nat) (h : Memory.wf d.mem.bytes = true) :
    Memory.wf (freeGrans d kind id).mem.bytes = true := by
  refine wf_foldl (fun d (e : Nat × Nat) => dropGran d e.2) (fun _ e hd => wf_dropGran e.2 hd)
    (d.mem.roots.filter (fun e => e.1 / 2 ^ 32 == kind * 2 ^ 32 + id)) ?_
  split
  · rw [mem_ftlUnmap]; exact h
  · exact h

theorem wf_writeT0 {d : Dev} (core off : Nat) (bs : List Nat) (b : Bool) (h : Memory.wf d.mem.bytes = true) :
    Memory.wf (writeT0 d core off bs b).mem.bytes = true := by
  unfold writeT0
  refine wf_foldl _ (fun d i hd => ?_) _ h
  dsimp only
  split
  · exact hd
  · rw [bytes_writeMarks]; exact wf_stWrite _ _ _ hd

theorem wf_foldl_memWrite {α : Type} (l : List α) (p : α → Bool) (at_ : α → Nat) (bs : α → List Nat) {m : List Host.Cell}
    (h : Memory.wf m = true) :
    Memory.wf (l.foldl (fun m i => if p i then memWrite m (at_ i) (bs i) else m) m) = true := by
  induction l generalizing m with
  | nil => exact h
  | cons x r ih =>
    simp only [List.foldl_cons]
    split
    · exact ih (Memory.wf_memWrite _ _ h)
    · exact ih h

@[simp] theorem bytes_setBytes (d : Dev) (m : List Host.Cell) : (setBytes d m).mem.bytes = m := rfl
@[simp] theorem bytes_setWcb (d : Dev) (md : Nat) (l : List WcbEnt) : (setWcb d md l).mem.bytes = d.mem.bytes := rfl
@[simp] theorem bytes_setWcbHeld (d : Dev) (md : Nat) (l : List WcbHeld) : (setWcbHeld d md l).mem.bytes = d.mem.bytes := rfl
@[simp] theorem bytes_bumpWcb (d : Dev) (md reg n : Nat) : (bumpWcb d md reg n).mem.bytes = d.mem.bytes := by
  simp only [bumpWcb, bump_mem]


/-! The write-combining buffers, the inkwell caches and GDDR7. -/

theorem mem_latch (d : Dev) (die page src : Nat) (c : Cap) : (latch d die page src c).mem = d.mem :=
  (latchSide_latch d die page src c).side.mem
theorem mem_lineRead (d : Dev) (ch : Nat) (c : Cap) (ev : Upset) : (lineRead d ch c ev).1.mem = d.mem := by
  unfold lineRead
  dsimp only
  split
  · exact bump_mem ..
  · simp only [mem_latch]; split
    · rfl
    · exact bump_mem ..
  · simp only [mem_latch]; split
    · rfl
    · exact bump_mem ..
  · split
    · simp only [mem_latch]; split
      · simp only [mem_latch, bump_mem]
      · simp only [mem_latch, bump_mem]
    · exact bump_mem ..
  · rfl

theorem mem_cacheTouch (d : Dev) (md line : Nat) (w : Bool) : (cacheTouch d md line w).mem = d.mem := by
  unfold cacheTouch
  dsimp only
  split
  · rfl
  · split
    · simp only [bump_mem, setInk_mem]
    · split <;> simp only [bump_mem, setInk_mem]
theorem mem_cacheLines (d : Dev) (sid l0 n : Nat) (w : Bool) : (cacheLines d sid l0 n w).mem = d.mem := by
  unfold cacheLines
  split
  · rfl
  · have key : ∀ (l : List Nat) (e : Dev),
        (l.foldl (fun d i => cacheTouch d (granDie sid) (dieLine sid (l0 + i)) w) e).mem = e.mem := by
      intro l
      induction l with
      | nil => exact fun _ => rfl
      | cons x r ih => exact fun e => (ih _).trans (mem_cacheTouch _ _ _ _)
    exact key _ _

theorem wf_wcbPut {d : Dev} (md : Nat) (e : WcbEnt) (h : Memory.wf d.mem.bytes = true) :
    Memory.wf (wcbPut d md e).mem.bytes = true := by
  unfold wcbPut
  rw [bytes_setWcb, bytes_setBytes]
  exact wf_foldl_memWrite (List.range 128) (fun i => e.mask.testBit i) (fun i => e.line * 128 + i) (fun i => [wcbByte e.data i]) h

/-- Flushing an entry of the WCB, whatever the flush meets. -/
theorem wf_wcbFlush {d : Dev} (md : Nat) (e : WcbEnt) (ev : Upset) (h : Memory.wf d.mem.bytes = true) :
    Memory.wf (wcbFlush d md e ev).mem.bytes = true := by
  unfold wcbFlush
  dsimp only
  split
  · rw [mem_latch, bytes_setPoison, bytes_setWcb]; exact h
  · have hm := mem_lineRead d (channelOf (e.line / 32)) (lineCap (e.line / 32) (e.line % 32 * 128)) ev
    split <;> rename_i d1 he <;> rw [he] at hm
    · rw [bytes_setPoison]; exact wf_wcbPut md e (by rw [hm]; exact h)
    · exact wf_wcbPut md e (by rw [hm]; exact h)

theorem wf_wcbFlushList {d : Dev} (md reg : Nat) (l : List WcbEnt) (ev : Upset) (h : Memory.wf d.mem.bytes = true) :
    Memory.wf (wcbFlushList md reg l ev d).mem.bytes = true := by
  induction l generalizing d ev with
  | nil => exact h
  | cons e r ih =>
    unfold wcbFlushList
    apply ih
    have hf := wf_wcbFlush md e (evHere ev) h
    split
    · exact hf
    · rw [bytes_bumpWcb]; exact hf
theorem wf_wcbFlushTo {d : Dev} (md n : Nat) (ev : Upset) (h : Memory.wf d.mem.bytes = true) :
    Memory.wf (wcbFlushTo d md n ev).mem.bytes = true := wf_wcbFlushList md _ _ ev h
theorem wf_wcbFlushAll {d : Dev} (md : Nat) (b : Bool) (ev : Upset) (h : Memory.wf d.mem.bytes = true) :
    Memory.wf (wcbFlushAll d md b ev).mem.bytes = true := wf_wcbFlushList md _ _ ev h

theorem wf_wcbEnter {d : Dev} (md line mask data : Nat) (ev : Upset) (h : Memory.wf d.mem.bytes = true) :
    Memory.wf (wcbEnter d md line mask data ev).mem.bytes = true := by
  unfold wcbEnter
  split
  · have h1 : ∀ l, Memory.wf (bumpWcb (setWcb d md l) md 0x130 1).mem.bytes = true := fun l => by
      rw [bytes_bumpWcb, bytes_setWcb]; exact h
    dsimp only
    split
    · rw [bytes_bumpWcb]; exact wf_wcbFlush _ _ _ (h1 _)
    · exact h1 _
  · split
    · exact h
    · extract_lets
      split
      · exact wf_wcbFlushTo _ _ _ h
      · exact h

theorem wf_t2Write {d : Dev} (sid off : Nat) (bs : List Nat) (h : Memory.wf d.mem.bytes = true) :
    Memory.wf (t2Write d sid off bs).mem.bytes = true := by
  unfold t2Write
  dsimp only
  split
  · exact wf_stWrite _ _ _ (by rw [mem_cacheLines]; exact h)
  · split
    · exact wf_stWrite _ _ _ h
    · refine wf_foldl _ (fun d i hd => ?_) _ h
      extract_lets
      split
      · exact wf_stWrite _ _ _ hd
      · split
        · exact hd
        · split
          · exact hd
          · exact wf_wcbEnter _ _ _ _ _ hd

/-- A write of a granule of any kind. -/
theorem wf_kWrite {d : Dev} (k sid off : Nat) (bs : List Nat) (h : Memory.wf d.mem.bytes = true) :
    Memory.wf (kWrite d k sid off bs).mem.bytes = true := by
  unfold kWrite
  split
  · exact wf_t2Write _ _ _ h
  · exact wf_stWrite _ _ _ h

theorem wf_writeRoot {d : Dev} (k off : Nat) (bs : List Nat) (b : Bool) (h : Memory.wf d.mem.bytes = true) :
    Memory.wf (writeRoot d k off bs b).mem.bytes = true := by
  unfold writeRoot
  split
  · rw [bytes_writeMarks]; exact wf_kWrite _ _ _ _ h
  · dsimp only
    rw [bytes_writeMarks]; exact wf_kWrite _ _ _ _ h

/-- A command's write of a granule in its view. -/
theorem wf_writeView {d t : Dev} {uid k off : Nat} {bs : List Nat} {b : Bool} (h : Memory.wf d.mem.bytes = true)
    (ht : writeView d uid k off bs b = .ok t) : Memory.wf t.mem.bytes = true := by
  have key : ∀ (e : Dev) (s : Nat), Memory.wf e.mem.bytes = true →
      Memory.wf (writeMarks (kWrite e k s off bs) s off bs.length b).mem.bytes = true := by
    intro e s he
    rw [bytes_writeMarks]; exact wf_kWrite _ _ _ _ he
  unfold writeView at ht
  split at ht
  · cases ht; rw [bytes_writeMarks]; exact wf_stWrite _ _ _ h
  · split at ht
    · cases ht; exact h
    · split at ht
      · cases ht; exact key _ _ h
      · cases hr : rootOf d k with
        | none =>
          simp only [hr] at ht
          cases ht; exact key _ _ h
        | some r =>
          simp only [hr] at ht
          generalize fits _ _ _ _ _ = bb at ht
          cases bb
          · rw [if_neg (by decide)] at ht; cases ht
          · rw [if_pos rfl] at ht
            cases ht
            apply key
            split
            · exact h
            · exact wf_copyGran _ _ h

/-- A die reset clears the scratchpads of its cores. -/
theorem wf_clearScratch {d : Dev} (die : Nat) (h : Memory.wf d.mem.bytes = true) :
    Memory.wf (clearScratch d die).mem.bytes = true := by
  unfold clearScratch
  exact Memory.wf_filter _ h

/-- A device reset keeps the content of T4. -/
theorem wf_keepT4 {m : Mem} (h : Memory.wf m.bytes = true) : Memory.wf (keepT4 m).bytes = true := by
  unfold keepT4
  exact Memory.wf_filter _ h

/-! ### Reads after writes -/

theorem find?_filter_key (m : List Host.Cell) (q : Nat → Bool) (x : Nat) :
    (m.filter (fun c => q c.1)).find? (fun c => c.1 == x) = if q x then m.find? (fun c => c.1 == x) else none := by
  induction m with
  | nil => simp
  | cons e r ih =>
    obtain ⟨k, v⟩ := e
    rw [List.filter_cons]
    by_cases hk : k = x
    · subst hk
      by_cases hq : q k <;> simp [hq, ih]
    · by_cases hq : q k <;> simp [hq, hk, ih]

theorem find?_cellsAt_out {a x : Nat} {bs : List Nat} (h : x < a ∨ a + bs.length ≤ x) :
    (cellsAt a bs).find? (fun c => c.1 == x) = none := by
  rw [List.find?_eq_none]
  intro c hc
  have := cellsAt_bounds hc
  simp only [beq_iff_eq]; omega

/-- Bytes outside a write read as before. -/
theorem memByte_memWrite_out (m : List Host.Cell) {a x : Nat} {bs : List Nat} (h : x < a ∨ a + bs.length ≤ x) :
    memByte (memWrite m a bs) x = memByte m x := by
  unfold memByte memWrite
  rw [List.find?_append, List.find?_append, find?_cellsAt_out h,
    find?_filter_key m (fun k => decide (k < a)) x, find?_filter_key m (fun k => decide (a + bs.length ≤ k)) x]
  rcases h with h | h
  · have : ¬ a + bs.length ≤ x := by omega
    simp [h, this]
  · have : ¬ x < a := by omega
    simp [h, this]

theorem memByte_cellsAt {a i : Nat} {bs : List Nat} (h : i < bs.length) : memByte (cellsAt a bs) (a + i) = bs[i] % 256 := by
  induction bs generalizing a i with
  | nil => simp at h
  | cons b r ih =>
    cases i with
    | zero =>
      unfold memByte cellsAt
      by_cases hb : BitVec.ofNat 8 b = 0
      · rw [if_pos hb, find?_cellsAt_out (.inl (by omega))]
        have : (BitVec.ofNat 8 b).toNat = 0 := by rw [hb]; rfl
        simpa using this.symm
      · rw [if_neg hb]; simp
    | succ j =>
      have hj : j < r.length := by simpa using h
      have h1 := ih (a := a + 1) hj
      rw [show a + (j + 1) = a + 1 + j by omega]
      unfold memByte cellsAt
      unfold memByte at h1
      by_cases hb : BitVec.ofNat 8 b = 0
      · rw [if_pos hb]; simpa using h1
      · rw [if_neg hb, List.find?_cons_of_neg (by simp; omega)]; simpa using h1

/-- A written byte reads as written. -/
theorem memByte_memWrite_in (m : List Host.Cell) {a i : Nat} {bs : List Nat} (h : i < bs.length) :
    memByte (memWrite m a bs) (a + i) = bs[i] % 256 := by
  rw [← memByte_cellsAt (a := a) h]
  unfold memByte memWrite
  rw [List.find?_append, List.find?_append,
    find?_filter_key m (fun k => decide (k < a)) (a + i), find?_filter_key m (fun k => decide (a + bs.length ≤ k)) (a + i)]
  have h2 : ¬ a + i < a := by omega
  have h3 : ¬ a + bs.length ≤ a + i := by omega
  simp [h2, h3]

/-- Memory lists nothing after reset. -/
theorem wf_reset : Memory.wf State.reset.dev.mem.bytes = true := rfl

end Sys2Proof.Machine
end

