-- ==== Sys2Proof/Laws/Ops.lean ====
section
/-! SUPPORT. Laws of the shared operations: outcomes, register writes, jobs and commands, the start of a command, the request
of the commit token. -/

namespace Sys2Proof.Machine
open Sys2Proof

/-! ### Outcomes -/

theorem okDev_live {s : State} (h : live s) (d : Dev) : okDev s d = .next { s with dev := d } := by
  unfold okDev; unfold live at h; simp [h]
/-- A module that is held in reset is not changed. -/
theorem okDev_held {s : State} (h : held s.dev = true) (d : Dev) : okDev s d = .next s := by
  unfold okDev; simp [h]

theorem completes_of_eq {c : Instr} {s : State} {P : Dev → Prop} (d : Dev) (he : exec c s = .next { s with dev := d })
    (hp : P d) : Completes c s P := ⟨_, he, rfl, hp⟩

theorem withReg_performed {d : Dev} {a : Acc} {off : Nat} (h : Performed d a off) (f : Dev → Dev) : withReg d a off f = f d := by
  obtain ⟨r, hr⟩ := h
  unfold withReg; rw [hr]

theorem live_of {s : State} (h : held s.dev = false) : live s := h
/-- A register write that passes the bus is performed where its page answers, its die is neither retained nor in reset, and no
counter or HOST_LOST bit stands in its way. -/
theorem performed_of {d : Dev} {a : Acc} {off : Nat}
    (h : (match accTarget d a off with
      | none => false
      | some t => match blkAt (offDie t) (offPage t) with
        | none => false
        | some b => pageResponds d a b && !dieRetained d (offDie t) && !dieResetting d (offDie t) &&
          (match a with
            | .pf .a => !(decide (b = .pcie ∧ offDie t = 60) && d.pcieA.linkUp)
            | .pf .b => !(mgmtPage b && !d.mgmtPortB) && !(decide (b = .pcie ∧ offDie t = 61) && d.pcieB.linkUp)
            | _ => true)) = true) :
    Performed d a off := by
  unfold Performed accWrite
  split at h
  · cases h
  · rename_i t ht
    simp only [ht]
    split at h
    · cases h
    · rename_i b hb
      simp only [Bool.and_eq_true, Bool.not_eq_true'] at h
      obtain ⟨⟨⟨h1, h2⟩, h3⟩, h4⟩ := h
      refine ⟨t, ?_⟩
      simp only [hb, h1, h2, h3, Bool.not_true, Bool.false_eq_true, if_false]
      split
      · simp only [Bool.and_eq_true, Bool.not_eq_true'] at h4
        rw [if_neg (by simp [h4.1]), if_neg (by simpa using h4.2)]
      · simp only [Bool.not_eq_true'] at h4
        rw [if_neg (by simpa using h4)]
      · rfl
/-- PWR_REQ of a retained die is still performed. -/
theorem performed_wake {d : Dev} {a : Acc} {off : Nat}
    (h : (match accTarget d a off with
      | none => false
      | some t => match blkAt (offDie t) (offPage t) with
        | none => false
        | some b => pageResponds d a b && dieRetained d (offDie t) && decide (b = .cdie ∧ offReg t = 0x00C)) = true) :
    Performed d a off := by
  unfold Performed accWrite
  split at h
  · cases h
  · rename_i t ht
    simp only [ht]
    split at h
    · cases h
    · rename_i b hb
      simp only [Bool.and_eq_true, decide_eq_true_eq] at h
      obtain ⟨⟨h1, h2⟩, h3, h4⟩ := h
      exact ⟨t, by subst h3; simp [hb, h1, h2, h4]⟩
/-- The register that a performed write reaches. -/
theorem accWrite_of {d : Dev} {a : Acc} {off t : Nat} (ha : a = .firmware ∨ a = .jtag)
    (h : (match accTarget d a off with
      | none => false
      | some u => match blkAt (offDie u) (offPage u) with
        | none => false
        | some b => pageResponds d a b && !dieRetained d (offDie u) && !dieResetting d (offDie u) && u == t) = true) :
    accWrite d a off = (d, some t) := by
  unfold accWrite
  split at h
  · cases h
  · rename_i t ht
    simp only [ht]
    split at h
    · cases h
    · rename_i b hb
      simp only [Bool.and_eq_true, Bool.not_eq_true', beq_iff_eq] at h
      obtain ⟨⟨⟨h1, h2⟩, h3⟩, rfl⟩ := h
      rcases ha with rfl | rfl <;> simp [hb, h1, h2, h3]

theorem guardWf_true {ok : Bool} {s : State} (h : ok = true) (o : Host.Outcome State Fault Refusal) : guardWf ok s o = o := by
  unfold guardWf; simp [h]

/-! ### Jobs, commands, cores -/

@[simp] theorem cmd_setCmd_same (d : Dev) (uid : Nat) (c : Cmd) : cmd (setCmd d uid c) uid = some c := by
  unfold cmd setCmd; simp
theorem cmd_setCmd_other (d : Dev) {uid u : Nat} (c : Cmd) (h : u ≠ uid) : cmd (setCmd d uid c) u = cmd d u := by
  unfold cmd setCmd; simp [SMap.get?_insert_other _ _ h]
theorem setCmd_setCmd (d : Dev) (uid : Nat) (a b : Cmd) : setCmd (setCmd d uid a) uid b = setCmd d uid b := by
  unfold setCmd; simp [SMap.insert_insert]
@[simp] theorem job_setCmd (d : Dev) (uid : Nat) (c : Cmd) (j : Nat) : job (setCmd d uid c) j = job d j := rfl
@[simp] theorem sess_setCmd (d : Dev) (uid : Nat) (c : Cmd) (n : Nat) : sess (setCmd d uid c) n = sess d n := rfl
@[simp] theorem slot_setCmd (d : Dev) (uid : Nat) (c : Cmd) (n : Nat) : slot (setCmd d uid c) n = slot d n := rfl
@[simp] theorem pst_setCmd (d : Dev) (uid : Nat) (c : Cmd) (n : Nat) : pst (setCmd d uid c) n = pst d n := rfl
@[simp] theorem obj_setCmd (d : Dev) (uid : Nat) (c : Cmd) (n : Nat) : obj (setCmd d uid c) n = obj d n := rfl
@[simp] theorem core_setCmd (d : Dev) (uid : Nat) (c : Cmd) (n : Nat) : core (setCmd d uid c) n = core d n := rfl

/-- An active job is listed whatever the order of the table. -/
theorem job_setJob_active (d : Dev) (j : Nat) {x : Job} (h : x.state ≠ 0) : job (setJob d j x) j = x := by
  unfold job setJob
  exact SMap.getD_put_listed _ _ (by rintro rfl; exact h rfl)

theorem core_setCore_same {d : Dev} (n : Nat) (x : CoreSt) (h : SMap.sorted d.cores = true) : core (setCore d n x) n = x := by
  unfold core setCore; exact SMap.getD_put_same _ _ _ h

/-! ### The start of a command and its request -/

/-- A command that may start runs what its opcode does, on the module in which it is running. -/
theorem startCmd_start {d : Dev} {uid op : Nat} {c : Cmd} {ready : Cmd → Bool} (f : Dev → Cmd → Dev)
    (h : MayStart d uid op c) (hr : ready c = true) :
    startCmd d uid op ready f = f (setCmd d uid { c with phase := .running }) { c with phase := .running } := by
  unfold startCmd
  rw [h.listed]
  simp [h.waiting, h.opcode, h.queue, h.saved, hr]

/-- A COPY_TILES operation that may start. -/
theorem startCopyOp_start {d : Dev} {uid k : Nat} {c : Cmd} {ready : Cmd → Bool} (f : Dev → Cmd → Dev)
    (h : MayStart d uid 0x02 c) (hk : dBits c.desc 8 3 0 = k) (hr : ready c = true) :
    startCopyOp d uid k ready f = f (setCmd d uid { c with phase := .running }) { c with phase := .running } := by
  unfold startCopyOp
  exact startCmd_start f h (by simp [hk, hr])

/-- A running command whose work is done requests the token. -/
theorem requestCommit_running {d : Dev} {uid : Nat} {c : Cmd} (h : cmd d uid = some c) (hp : c.phase = .running)
    (hc : c.coresLeft = []) (ht : c.t4left = 0) : requestCommit d uid = requested d uid c := by
  unfold requestCommit requested
  rw [h]
  simp [hp, hc, ht, setCmd]

theorem requested_setCmd (d : Dev) (uid : Nat) (a c : Cmd) : requested (setCmd d uid a) uid c = requested d uid c := by
  unfold requested setCmd; simp [SMap.insert_insert]

@[simp] theorem cmd_requested (d : Dev) (uid : Nat) (c : Cmd) :
    cmd (requested d uid c) uid = some { c with phase := .worked, reqAt := d.now } := by
  unfold cmd requested; simp

end Sys2Proof.Machine
end

