-- ==== Sys2Proof/Tests/Slice0.lean ====
section
/-! SUPPORT. Tests of the model: the well-formedness checks refuse ill-formed commands, the spec's worked examples, small
steps, and for every statement with hypotheses a state and operands that meet them (`wit_<statement>_<clause>`; a clause whose
hypotheses are among those of another clause has that one's witness). -/

namespace Sys2Proof.Tests
open Sys2Proof Sys2Proof.Machine
set_option linter.unusedVariables false
set_option linter.unusedTactic false
set_option linter.unreachableTactic false
set_option exponentiation.threshold 600
set_option maxRecDepth 100000
set_option Elab.async false

/-! ### Small states -/
/-- The module in READY. -/
def rdy : Dev := { State.reset.dev with state := .ready }
def stOf (d : Dev) : State := { pending := [], dev := d }
def aJob : Job := { freeJob with state := 1 }
/-- A module whose one job is job 3. -/
def d3 : Dev := setJob rdy 3 aJob
/-- A waiting command of job 3 on queue 0. -/
def cmd0 : Cmd :=
  { job := 3, queue := 0, ringIdx := 0, desc := 0, fetchedAt := 0, phase := .waiting, status := 0, detail := 0,
    retry := false, committed := false, cores := [], coresLeft := [], images := [], sess := [], objs := [], pinP := [],
    pinS := [], held := [], snap := [], gens := [], newCopies := [], newPages := [], newSlots := [], upds := [],
    t4left := 0, swaps := [], fenceUids := [], flushLeft := [], affected := false, orbit := false, tag := 7, slot := 0,
    reqAt := 0, doneAt := 0 }
/-- A descriptor: its opcode, and numbers at byte positions. -/
def desc (op : Nat) (fs : List (Nat × Nat)) : BitVec 512 :=
  BitVec.ofNat 512 (fs.foldl (fun a p => a + p.2 * 2 ^ (8 * p.1)) op)
/-- Puts command 1 in. -/
def put1 (d : Dev) (c : Cmd) : Dev := { d with qm := { d.qm with cmds := [(1, c)], uidCtr := 2 } }
def cmdOf (op : Nat) (fs : List (Nat × Nat)) : Cmd := { cmd0 with desc := desc op fs }
/-- A Toruf port that is up, with the credits of a fresh link. -/
def upP : Port := { downPort with up := true, wasUp := true, peerDid := 12, creditOrbit := 1024, creditBulk := 4096, creditMgmt := 256, creditTime := 64 }
/-- The device with DID 9, ports 0 and 23 up, and a route to DID 12 through port 23. -/
def fab9 : Dev :=
  { setRg rdy 56 16 0x104 9 with fab := { emptyFab with rt := [(12, 2 ^ 31 + 23 * 2 ^ 24)], ports := [(0, upP), (23, upP)] } }
/-- A packet from DID 12 to DID 9. -/
def pk (typ vc addr stamp : Nat) (payload : List Nat) : Packet :=
  ⟨typ, vc, false, 9, 12, 63, 5, addr, stamp, if vc = 0 then some ([0], 1) else none, payload⟩
def zeros (n : Nat) : List Nat := List.replicate n 0
/-- An object of job 3 with `n` granules in a tier. -/
def ob3 (t n : Nat) : Obj :=
  setCopy { size := n, shared := false, ro := false, mirror := false, t1die := 0, creator := 3, shareTag := 0, c1 := noCopy,
            c2 := noCopy, c4 := noCopy, newBy := 0 } t ⟨true, false, 3, 0, 8#256, 0⟩
/-- Job 3, resident on the whole of cores 0 and 287, with room in every tier. -/
def job3 : Job :=
  { aJob with resident := true, quota1 := 4096, quota2 := 4096, quota3 := 1, quota4 := 4096,
              place := ⟨[⟨0, 0xFFFFFFFF, 0, 1, 0, 0⟩, ⟨287, 0xFFFFFFFF, 0, 1, 0, 0⟩], [], []⟩ }
/-- A module with job 3, object 9 of four granules in T2 whose first granule holds the bytes, and object 10 in T1. -/
def d9 (bs : List Nat) : Dev :=
  { setJob rdy 3 job3 with
    mem := ⟨memWrite [] (2 ^ 32 * 4096) bs, [], [], [(gKey 2 9 0, 2 ^ 32)], [], [], [(9, ob3 2 4), (10, ob3 1 4)], 1⟩ }
/-- A prefetch list entry. -/
def pfEnt (src dst w4 step wait after : Nat) : List Nat :=
  leBytes 8 src ++ leBytes 8 dst ++ leBytes 4 w4 ++ leBytes 4 step ++ leBytes 4 wait ++ leBytes 4 after
/-- Device addresses: object 9 in T2, object 10 in T1. -/
def a9 : Nat := 2 * 2 ^ 60 + 9 * 2 ^ 40
def a10 : Nat := 2 ^ 60 + 10 * 2 ^ 40
/-- A program of one dimension of `p` elements in tiles of 2 (role 0), with one loop over it. -/
def imOf (acts : List (List Nat)) : Image :=
  ⟨false, 0, 0, 0, 0, 0, 0, 0, 0, 0, [⟨4, 255, 0, 2⟩], [⟨0, 0, false, false, 0, 0, 0, [0, 0, 0, 0]⟩], acts.map (fun w => ⟨w⟩)⟩
def it0 : Item := .act 0 [0] [2] [4] none
/-- A context of command 1 whose next action is action 0 of its program. -/
def ctxOf1 (acts : List (List Nat)) : Ctx :=
  { uid := 1, image := imOf acts, exts := [4], todo := [it0, .skip 3, .act 0 [1] [2] [4] none], readyAt := 0, curAct := 0,
    curIdx := [], waitFrom := none, heldFrom := none, nextId := 1, running := [], argmax := [], lastRegion := [],
    fenceBE := false, stepOk := false, gateFrom := none, slipFrom := 0, swapFrom := none }
/-- Job 3 runs a context on core 287 for command 1. -/
def run1 (x : Ctx) (c : CoreSt) : Dev :=
  { put1 (d9 [1, 2, 3]) { cmdOf 1 [] with phase := .running, cores := [287], coresLeft := [287], images := [a9] } with
    cores := [(287, { c with ctxs := [(3, x)] })] }
/-- A program of one action over some dimensions. -/
def imD (ds : List DimEnt) (w : List Nat) : Image :=
  { imOf [w] with dims := ds, slices := 4 }
/-- The item of its action. -/
def itD (v e : List Nat) : Item := .act 0 [0] v e none
/-- Its context. -/
def cxD (ds : List DimEnt) (v e : List Nat) (w : List Nat) : Ctx :=
  { ctxOf1 [w] with image := imD ds w, exts := e, todo := [itD v e, .skip 3] }
/-- Dimensions M, N, K and one of extent 1. -/
def mD : DimEnt := ⟨4, 255, 0, 2⟩
def nD : DimEnt := ⟨2, 255, 1, 2⟩
def oD : DimEnt := ⟨1, 255, 3, 1⟩
def kD : DimEnt := ⟨2, 255, 2, 2⟩
/-- Little-endian words. -/
def words (l : List Nat) : List Nat := (l.map (leBytes 4)).flatten
/-- A byte of core 287's scratchpad. -/
def t0At (o : Nat) : Nat := 287 * 12288 * 4096 + o
/-- A running RUN_SEGMENT with a session, two held copies and a page list of one position. -/
def cmM : Cmd := { cmdOf 1 [] with phase := .running, cores := [287], coresLeft := [287], images := [a9], sess := [5],
                                    held := [(1, 10), (2, 9)], snap := [(5 * 2^24 + 256, ⟨[⟨1, 0, 77⟩], 1, false, 0⟩)] }
/-- Job 3 with the quill core of its die and a comet layer. -/
def jobM : Job := { job3 with place := { job3.place with quill := [(47, 5)] }, comets := [(1, ⟨2^31 + 2^16 + 2^8, 287 * 2^16 + 2, 40 * 2^20⟩)] }
/-- A control block at 8192 and other bytes of the scratchpad. -/
def mem8 (w : List Nat) (l : List (Nat × List Nat)) : List Host.Cell :=
  l.foldl (fun m p => memWrite m (t0At p.1) p.2) (memWrite (d9 [1, 2, 3]).mem.bytes (t0At 8192) (words w))
/-- A module about to run a microprogram. -/
def wM (x : Ctx) (st : SlotState) (w : List Nat) (l : List (Nat × List Nat)) : State :=
  let d := setRg (setJob (run1 x idleCore) 3 jobM) 60 (jPage 3) 0x1A0 (2^31 + 32 + 6*2^20 + 6*2^24)
  stOf { d with now := 128, mem := { d.mem with bytes := mem8 w l },
                qm := { d.qm with cmds := [(1, cmM)], sess := [(5, { freeSess with job := some 3, tails := [(1, (78, 2))] })],
                                  pst := [(77, { freePst with refcnt := 1, pins := 1, res := 1, job := 3 })],
                                  slots := [(78, { freeSlot with state := st, job := 3, gen := 2, refcnt := 1, pins := 1, layer := 1 })] } }
/-- A convolution control block. -/
def cvW : List Nat := [6*2^28+6*2^24+6*2^20, 2*2^16+2, 2^24+2^16+2^8, 2^16+2^8+1, 2^16+1, 1, 0, 0, 0, 2*2^24+2*2^20+2*2^8+2*2^4, 0, 1, 2^16+4, 4]
def mi (id : Nat) (l : List Nat) : List Nat := [7*2^28 + id*2^8] ++ l
def xAtt (id : Nat) : Ctx := cxD [mD] [2] [4] (mi id [8192, 16384, 49152, 0, 65536, 2^20, 0])
def aw0 : List Nat := [8*2^28+6*2^12, 0, 0, 0, 12288, 1, 7, 0, 0, 0, 0, 0, 0, 0, 0, 1]
def xMg : Ctx := cxD [mD] [2] [4] (mi 3 [8192, 1, 0, 16384, 0, 20480, 32])
def xCo : Ctx := cxD [⟨64, 255, 0, 64⟩] [3] [3] (mi 0x10 [8192, 16384, 131072, 4096, 0, 2^22, 0])
def cw0 : List Nat := [8*2^28+6*2^24+1, 2^16, 2^16+1, 12288, 20480, 0]
def xSl : Ctx := cxD [mD, nD, kD] [2, 2, 2] [4, 2, 2] (mi 0x20 [8192, 131072*4, 20480*50, 0, 0, 0, 0])
def xRc : Ctx := cxD [mD, nD, kD] [2, 2, 2] [4, 2, 2] (mi 0x21 [8192, 131072*4*40, 20480*50, 0, 0, 0, 0])
def cvD : List DimEnt := [mD, nD, oD]
def xCv : Ctx := cxD cvD [2, 2, 1] [4, 2, 1] (mi 0x30 [8192, 16384, 0, 20480, 0, 24576, 0])
def xPl : Ctx := cxD cvD [2, 2, 1] [4, 2, 1] (mi 0x31 [8192, 16384, 24576, 0, 0, 0, 0])
def xQl : Ctx := cxD cvD [2, 2, 1] [4, 2, 1] (mi 0x32 [8192, a10 % 2^32, a10 / 2^32, (a9 + 4096) % 2^32, (a9 + 4096) / 2^32, 20480, 1])
/-! ### Helpers of the witnesses -/

/-- Where two jobs are listed, every other one is FREE. -/
theorem idleOf {d : Dev} {a b k : Nat} (h : d.qm.jobs = [(a, job d a), (b, job d b)]) (ha : k ≠ a) (hb : k ≠ b) :
    (job d k).resident = false ∧ (job d k).awaits = false := by
  have e : ∀ x y : Job, SMap.get? [(a, x), (b, y)] k = none := by intro x y; simp [SMap.get?, ha, hb]
  have : job d k = freeJob := by
    unfold job SMap.getD; rw [h, e]; rfl
  rw [this]; exact ⟨rfl, rfl⟩
/-- What a computation that succeeds answers. -/
def okOr {ε α : Type} (a : α) : Except ε α → α
  | .ok x => x
  | .error _ => a
def isOkay {ε α : Type} : Except ε α → Bool
  | .ok _ => true
  | .error _ => false
theorem okOf {ε α : Type} {a : α} {e : Except ε α} (h : isOkay e = true) : e = .ok (okOr a e) := by
  cases e
  · cases h
  · rfl
theorem okPair {ε α β : Type} {a : α} {e : β × Except ε α} (h : isOkay e.2 = true) : e = (e.1, .ok (okOr a e.2)) := by
  rw [← okOf h]

/-! ### Well-formedness -/

theorem test_wf_packet : Instr.wellFormed (.putAck 0 (pk 2 1 0 0 [])) = true := by decide
theorem test_wf_type : Instr.wellFormed (.putAck 0 (pk 16 1 0 0 [])) = false := by decide
theorem test_wf_length : Instr.wellFormed (.put 0 (pk 1 1 0 0 [1]) .none) = false := by decide
theorem test_wf_byte : Instr.wellFormed (.put 0 (pk 1 1 0 0 (256 :: zeros 15)) .none) = false := by decide
theorem test_wf_hops : Instr.wellFormed (.orbitData 0 { pk 8 0 0 0 [] with route := some ([], 0) }) = false := by decide
theorem test_wf_frame : Instr.wellFormed (.linkFrameRx 0 ⟨2 ^ 40, 0, false, true, 0, 0, 0, 0, 0, true, true⟩) = false := by decide
theorem test_wf_bar2 : Instr.wellFormed (.bar2Read .firmware 4095 2 .none) = false := by decide
theorem test_wf_temps : Instr.wellFormed (.dieTempRead [50]) = false := by decide
theorem test_wf_stops : exec (.dieTempRead [50]) State.reset = .next State.reset := rfl

/-! ### Worked examples of the spec -/

/-- 01, the example after R21: core 0 to MD7 takes 23 NOC cycles, between opposite corners 31. -/
theorem test_flit_time : flitTime 0 55 = 23 ∧ hops 0 55 = 10 := by decide
/-- 16, the example after R494: CORE_CMD_TAG of core 100, QMGR_J_STAT of job 200. -/
theorem test_offsets : regOff (100 / 6) (100 % 6) 0x10C = 0x0400410C ∧ regOff 60 (jPage 200) 0x104 = 0x0F2C8104 := by decide
/-- 02, the example of an MXFP4 block: block sum 25.25, scales 0x7E and 0x81, running sum 2 ^ 24: 16,777,266. -/
theorem test_block :
    rne32 (fAdd (.fin false 1 24) (blockValue 0x7E 0x81 [fMul (elemVal .e2m1 7) (elemVal .e2m1 6),
      fMul (elemVal .e2m1 0xB) (elemVal .e2m1 4), fMul (elemVal .e2m1 1) (elemVal .e2m1 9),
      fMul (elemVal .e2m1 5) (elemVal .e2m1 3)])) = rne32 (.fin false 16777266 0) := by decide +kernel
/-- 02, the example after R54: the digits of 0.5 + 2 ^ −11, −0.125 and 0.5 + 2 ^ −21 at S = 4. -/
theorem test_digits : sliceDigits 4 (.fin false 1025 (-11)) = [32, 2, 0, 0] ∧ sliceDigits 4 (.fin true 1 (-3)) = [-8, 0, 0, 0] ∧
    sliceDigits 4 (.fin false 1048577 (-21)) = [32, 0, 0, 8] := by decide +kernel
theorem test_row_exp : rowExp [.fin false 1025 (-10), .fin true 1 (-2)] = 1 := by decide +kernel
/-- 02, the example after R54: P11 = 896, P21 = 64, P14 = 256 give 0.875 + 2 ^ −10 + 2 ^ −20. -/
theorem test_recombine :
    recombine 4 1 (fun _ i j => if i = 1 ∧ j = 1 then 896 else if i = 2 ∧ j = 1 then 64 else if i = 1 ∧ j = 4 then 256 else 0) 2
      = rne64 (.fin false (7 * 2 ^ 17 + 2 ^ 10 + 1) (-20)) := by decide +kernel
/-- 04, the example after R114: extents 512, 256, 1,024 in tiles of 128, 128, 512; actual 300, 200, 900: 12 passes, one skip. -/
def planEx : Image :=
  ⟨false, 0, 0, 0, 0, 0, 0, 0, 0, 0, [⟨512, 255, 0, 128⟩, ⟨256, 255, 1, 128⟩, ⟨1024, 255, 2, 512⟩],
   [⟨0, 0, false, false, 0, 0, 0, [0, 0, 0, 0]⟩, ⟨1, 1, false, false, 0, 0, 0, [0, 0, 0, 0]⟩,
    ⟨2, 2, false, false, 0, 0, 0, [0, 0, 0, 0]⟩], [⟨[2 ^ 28 + 2 * 2 ^ 25, 0, 0, 0, 0, 0, 0, 0]⟩]⟩
theorem test_walk :
    ((walkImage planEx [] [300, 200, 900]).filter (fun i => match i with | .act .. => true | .skip _ => false)).length = 12 ∧
    ((walkImage planEx [] [300, 200, 900]).filter (fun i => match i with | .act .. => false | .skip _ => true)).length = 1 := by
  decide +kernel
theorem test_valid : tileValid planEx [300, 200, 900] 0 2 = 44 ∧ tileValid planEx [300, 200, 900] 1 1 = 72 ∧
    tileValid planEx [300, 200, 900] 2 1 = 388 := by decide +kernel
/-- CRC-32C with the parameters of 02 (reflected, all ones before and after) over the digits 1 to 9: the published check value. -/
theorem test_crc : crc32c [0x31, 0x32, 0x33, 0x34, 0x35, 0x36, 0x37, 0x38, 0x39] = 0xE3069283 := by decide +kernel

/-! ### Small steps -/

/-- What a command leaves in a register word. -/
def wordAfter (c : Instr) (d : Dev) (die page reg : Nat) : Option Nat :=
  match exec c (stOf d) with
  | .next t => some (rg t.dev die page reg)
  | _ => none

/-- 15 R477, 14 R456: right after reset the module is in BOOT and idles on an empty queue. -/
theorem test_idle : (match step State.reset with | .next t => t.dev.now | _ => 0) = 1 := by decide +kernel
theorem test_front : (match step { State.reset with pending := [.ppsEdge, .hbMiss] } with | .next t => t.pending | _ => []) = [.hbMiss] := by
  decide +kernel
/-- 14 R440: FLT_STAT is cleared where ones are written. -/
theorem test_w1c : wordAfter (.fltStatClear .firmware 47 5 6) (setRg rdy 47 5 0x020 7) 47 5 0x020 = some 1 := by decide +kernel
/-- 14 R464, R466: FLT_INJECT latches its source in factory test mode only. -/
theorem test_inject : wordAfter (.fltInject .firmware 47 5 3) { rdy with factoryTest := true } 47 5 0x020 = some 8 ∧
    wordAfter (.fltInject .firmware 47 5 3) rdy 47 5 0x020 = some 0 := by decide +kernel
/-- 10 R306: the TAIL of a doorbell. -/
theorem test_tail : (match exec (.sqDoorbell .firmware 3 2 1) (stOf (setRg d3 60 (jPage 3) 0x10C 0x00FFFFFF)) with
    | .next t => (sqOf (job t.dev 3) 2).tail | _ => 99) = 1 := by decide +kernel

/-! ### Witnesses of the statements about every command -/

theorem wit_QueueIsServedInOrder : ∃ c rest d t, step { pending := c :: rest, dev := d } = .next t :=
  ⟨.ppsEdge, [.hbMiss], rdy, _, rfl⟩
theorem wit_WellFormedCommandsComplete_0 : ∃ c : Instr, c.wellFormed = true := ⟨.dieTempRead (List.replicate 64 50), by decide +kernel⟩
theorem wit_WellFormedCommandsComplete_1 : ∃ c : Instr, c.wellFormed = false := ⟨.dieTempRead [], by decide +kernel⟩
theorem wit_HeldModuleIgnoresCommands : ∃ (c : Instr) (s : State), held s.dev = true ∧ c.wellFormed = true :=
  ⟨.hbMiss, stOf { rdy with modRst := true }, by decide +kernel, by decide +kernel⟩
theorem wit_RollbackFloorNeverFalls : ∃ (n : Nat) (s t : State), n ≤ s.dev.boot.fusedSvn ∧ step s = .next t :=
  ⟨0, stOf rdy, _, Nat.zero_le _, rfl⟩
theorem wit_PackageLogStaysBounded : ∃ s t : State, logBounded s ∧ step s = .next t :=
  ⟨stOf rdy, _, by unfold logBounded; decide +kernel, rfl⟩
theorem wit_MemoryStaysCanonical : ∃ s t : State, memCanonical s ∧ step s = .next t :=
  ⟨stOf (d9 [1, 0, 2]), _, by unfold memCanonical; decide +kernel, rfl⟩
theorem wit_LostOrbitStaysLost : ∃ s t : State, orbitLost s ∧ step s = .next t :=
  ⟨{ pending := [.hbMiss], dev := { rdy with orb := { noOrbit with state := .lost } } }, _, by unfold orbitLost; decide +kernel, rfl⟩
theorem wit_TablesStayCanonical : ∃ s t : State, TablesSorted s.dev ∧ step s = .next t :=
  ⟨stOf (d9 [1, 0, 2]), _, by constructor <;> decide +kernel, rfl⟩

/-! ### Witnesses of the other statements, clause by clause -/

namespace WIdleStepCountsACycle

def wA : State := stOf { rdy with now := 4, orb := { rdy.orb with occ := 2^64-1 }, tim := { rdy.tim with ns := 2^96-1 } }

theorem wit_IdleStepCountsACycle_0 :
    ∃ s : State, s.pending = [] :=
  ⟨wA, by decide +kernel⟩

end WIdleStepCountsACycle

namespace WRegisterWordsReadAsWritten



theorem wit_RegisterWordsReadAsWritten_1 :
    ∃ d : Dev, ∃ die : Nat, ∃ page : Nat, ∃ reg : Nat, regsSorted d ∧
    ∃ off : Nat, off ≠ regOff die page reg :=
  ⟨rdy, 5, 3, 0x108, by unfold regsSorted; decide +kernel, (regOff 5 3 0x20), by decide +kernel⟩

end WRegisterWordsReadAsWritten

namespace WLatchedFaultShows



theorem wit_LatchedFaultShows_2 :
    ∃ d : Dev, ∃ src : Nat, regsSorted d ∧
    src < 32 ∧
    ∃ off : Nat, ∃ i : Nat, off % 4096 = 0x020 ∧
    (raw d off).testBit i = true :=
  ⟨(setRg rdy 5 3 0x20 9), 0, by unfold regsSorted; decide +kernel, by decide +kernel, (regOff 5 3 0x20), 0, by decide +kernel⟩

end WLatchedFaultShows

namespace WDoorbellsMoveTheQueues

def wA : State := stOf d3
def wB : State := stOf (setJob rdy 3 { aJob with sq0 := ⟨0,0,true⟩, sq1 := ⟨2,3,false⟩, sq2 := ⟨5,5,true⟩ })
def wD : State := stOf (setJob rdy 3 { aJob with sqErr := true })
def wE : State := stOf (setJob rdy 3 { aJob with sqErr := true, sq1 := ⟨0, 15, true⟩, sq2 := ⟨0, 16, true⟩ })

theorem wit_DoorbellsMoveTheQueues_0 :
    ∃ s : State, ∃ acc : Acc, ∃ j : JobId, ∃ q : Fin 3, ∃ v : Word, live s ∧
    (job s.dev j.val).state = 1 ∧
    bellAllowed s.dev acc j.val = true ∧
    (sqOf (job s.dev j.val) q.val).stopped = false ∧
    v.toNat % 65536 < sqSize s.dev j.val q.val :=
  ⟨wA, .firmware, 3, 0, (0#32), live_of (by decide +kernel), by decide +kernel⟩
theorem wit_DoorbellsMoveTheQueues_1 :
    ∃ s : State, ∃ acc : Acc, ∃ j : JobId, ∃ q : Fin 3, live s ∧
    (job s.dev j.val).state = 1 ∧
    bellAllowed s.dev acc j.val = true ∧
    (sqOf (job s.dev j.val) q.val).stopped = true :=
  ⟨wB, .firmware, 3, 0, live_of (by decide +kernel), by decide +kernel⟩
theorem wit_DoorbellsMoveTheQueues_2 :
    ∃ s : State, ∃ acc : Acc, ∃ j : JobId, ∃ q : Fin 3, ∃ v : Word, live s ∧
    (job s.dev j.val).state = 1 ∧
    bellAllowed s.dev acc j.val = true ∧
    regsSorted s.dev ∧
    (sqOf (job s.dev j.val) q.val).stopped = false ∧
    sqSize s.dev j.val q.val ≤ v.toNat % 65536 :=
  ⟨wA, .firmware, 3, 0, (16#32), live_of (by decide +kernel), by decide +kernel, by decide +kernel, by unfold regsSorted; decide +kernel, by decide +kernel⟩
theorem wit_DoorbellsMoveTheQueues_3 :
    ∃ s : State, ∃ acc : Acc, ∃ j : JobId, ∃ v : Word, live s ∧
    (job s.dev j.val).state = 1 ∧
    bellAllowed s.dev acc j.val = true ∧
    v.toNat % 65536 < cqSize s.dev j.val :=
  ⟨wA, .firmware, 3, (0#32), live_of (by decide +kernel), by decide +kernel⟩
theorem wit_DoorbellsMoveTheQueues_4 :
    ∃ s : State, ∃ acc : Acc, ∃ j : JobId, ∃ v : Word, live s ∧
    (job s.dev j.val).state = 1 ∧
    bellAllowed s.dev acc j.val = true ∧
    regsSorted s.dev ∧
    cqSize s.dev j.val ≤ v.toNat % 65536 :=
  ⟨wA, .firmware, 3, (16#32), live_of (by decide +kernel), by decide +kernel, by decide +kernel, by unfold regsSorted; decide +kernel, by decide +kernel⟩
theorem wit_DoorbellsMoveTheQueues_5 :
    ∃ s : State, ∃ acc : Acc, ∃ j : JobId, live s ∧
    (job s.dev j.val).state = 1 ∧
    Performed s.dev acc (jobOff acc j.val 0x104) ∧
    (job s.dev j.val).sqErr = true ∧
    (∀ k : Fin 3, (sqOf (job s.dev j.val) k.val).stopped = false) :=
  ⟨wD, .firmware, 3, live_of (by decide +kernel), by decide +kernel, performed_of (by decide +kernel), by decide +kernel⟩
theorem wit_DoorbellsMoveTheQueues_6 :
    ∃ s : State, ∃ acc : Acc, ∃ j : JobId, live s ∧
    (job s.dev j.val).state = 1 ∧
    Performed s.dev acc (jobOff acc j.val 0x104) ∧
    (job s.dev j.val).sqErr = true ∧
    SMap.sorted s.dev.qm.jobs = true ∧
    ∃ k : Fin 3, (sqOf (job s.dev j.val) k.val).stopped = true ∧
    (sqOf (job s.dev j.val) k.val).tail < sqSize s.dev j.val k.val :=
  ⟨wE, .firmware, 3, live_of (by decide +kernel), by decide +kernel, performed_of (by decide +kernel), by decide +kernel, by decide +kernel, 1, by decide +kernel⟩
theorem wit_DoorbellsMoveTheQueues_7 :
    ∃ s : State, ∃ acc : Acc, ∃ j : JobId, live s ∧
    (job s.dev j.val).state = 1 ∧
    Performed s.dev acc (jobOff acc j.val 0x104) ∧
    (job s.dev j.val).sqErr = false :=
  ⟨wA, .firmware, 3, live_of (by decide +kernel), by decide +kernel, performed_of (by decide +kernel), by decide +kernel⟩

end WDoorbellsMoveTheQueues

namespace WFetchTakesTheNextDescriptor

def wA : State := stOf { setJob rdy 3 { aJob with cqNext := 15, cqHead := 3 } with qm := { (setJob rdy 3 { aJob with cqNext := 15, cqHead := 3, sq0 := ⟨65535, 2, false⟩ }).qm with bells := [(3, 0, 2)] } }

theorem wit_FetchTakesTheNextDescriptor_0 :
    ∃ s : State, ∃ j : JobId, ∃ q : Fin 3, ∃ bt : Nat, ∃ r : List (Nat × Nat × Nat), live s ∧
    s.dev.qm.bells = (j.val, q.val, bt) :: r ∧
    mayFetch s.dev j.val q.val = true ∧
    ∃ w : BitVec 512, descOk w = true ∧
    dOpcode w ≠ 0x01 :=
  ⟨wA, 3, 0, 2, [], live_of (by decide +kernel), by decide +kernel, by decide +kernel, (desc 6 [(8,7)]), by decide +kernel⟩
theorem wit_FetchTakesTheNextDescriptor_1 :
    ∃ s : State, ∃ j : JobId, ∃ q : Fin 3, ∃ bt : Nat, ∃ r : List (Nat × Nat × Nat), live s ∧
    s.dev.qm.bells = (j.val, q.val, bt) :: r ∧
    mayFetch s.dev j.val q.val = true ∧
    regsSorted s.dev :=
  ⟨wA, 3, 0, 2, [], live_of (by decide +kernel), by decide +kernel, by decide +kernel, by unfold regsSorted; decide +kernel⟩

end WFetchTakesTheNextDescriptor

namespace WCommitPublishesTheOldestRequest

def wc : Cmd := { cmdOf 6 [] with phase := .worked, reqAt := 5 }
def wc2 : Cmd := { wc with snap := [(2^24*5 + 256, ⟨[], 2, true, 0⟩)] }
def wc4 : Cmd := { cmdOf 3 [(8,5),(10,6)] with phase := .worked, reqAt := 5 }
def q (c : Cmd) : State := stOf (let d := put1 d3 c; { d with qm := { d.qm with commitQ := [1], sess := [(5, {freeSess with job := some 3}), (6, {freeSess with job := some 3})] } })
def qf : State := stOf (let d := put1 d3 wc4; { d with qm := { d.qm with commitQ := [1], sess := [(5, {freeSess with job := some 3}), (6, {freeSess with job := some 3, lists := [(0, ⟨[⟨1,0,77⟩], 1⟩)]})] } })

theorem wit_CommitPublishesTheOldestRequest_0 :
    ∃ s : State, ∃ uid : Nat, ∃ c : Cmd, live s ∧
    TablesSorted s.dev ∧
    nextCommit s.dev = some uid ∧
    cmd s.dev uid = some c ∧
    versionsOk s.dev c = true ∧
    forkBarred s.dev c = false :=
  ⟨(q wc), 1, wc, live_of (by decide +kernel), by constructor <;> decide +kernel, by decide +kernel⟩
theorem wit_CommitPublishesTheOldestRequest_1 :
    ∃ s : State, ∃ uid : Nat, ∃ c : Cmd, live s ∧
    TablesSorted s.dev ∧
    nextCommit s.dev = some uid ∧
    cmd s.dev uid = some c ∧
    versionsOk s.dev c = false ∧
    c.phase ≠ .ended :=
  ⟨(q wc2), 1, wc2, live_of (by decide +kernel), by constructor <;> decide +kernel, by decide +kernel⟩
theorem wit_CommitPublishesTheOldestRequest_2 :
    ∃ s : State, ∃ uid : Nat, ∃ c : Cmd, live s ∧
    TablesSorted s.dev ∧
    nextCommit s.dev = some uid ∧
    cmd s.dev uid = some c ∧
    versionsOk s.dev c = true ∧
    forkBarred s.dev c = true ∧
    c.phase ≠ .ended :=
  ⟨qf, 1, wc4, live_of (by decide +kernel), by constructor <;> decide +kernel, by decide +kernel⟩

end WCommitPublishesTheOldestRequest

namespace WCompletionEntryIsWritten

def wc : Cmd := { cmdOf 6 [] with phase := .ended, status := 0x11, slot := 15 }
def wA : State := stOf (let d := put1 d3 wc; { d with qm := { d.qm with doneQ := [1] }, pcieA := { resetPcie with perst := false, linkUp := true } })
def wB : State := stOf { put1 (setJob rdy 3 { aJob with state := 2, destroyAt := some 5 }) wc with now := 10500005 }

theorem wit_CompletionEntryIsWritten_0 :
    ∃ s : State, ∃ uid : Nat, ∃ c : Cmd, live s ∧
    TablesSorted s.dev ∧
    cmd s.dev uid = some c ∧
    c.phase = .ended ∧
    nextEntry s.dev c.job = some uid ∧
    entryRoom s.dev c = true :=
  ⟨wA, 1, wc, live_of (by decide +kernel), by constructor <;> decide +kernel, by decide +kernel⟩
theorem wit_CompletionEntryIsWritten_1 :
    ∃ s : State, ∃ uid : Nat, ∃ c : Cmd, live s ∧
    TablesSorted s.dev ∧
    cmd s.dev uid = some c ∧
    c.phase = .ended ∧
    ∃ t0 : Nat, entryRoom s.dev c = false ∧
    (job s.dev c.job).destroyAt = some t0 ∧
    t0 + 10500000 ≤ s.dev.now :=
  ⟨wB, 1, wc, live_of (by decide +kernel), by constructor <;> decide +kernel, by decide +kernel, by decide +kernel, 5, by decide +kernel⟩

end WCompletionEntryIsWritten

namespace WCommandsOnTablesRequestTheToken

def wc (k : Nat) : Cmd := [cmdOf 3 [(8,5),(10,6)], cmdOf 4 [(8,5),(10,3)], cmdOf 7 [(8,3),(9,2),(12,1000)], cmdOf 2 [(8,8),(32,0)], cmdOf 2 [(8,8),(16,0),(32,1)]].getD k cmd0
def q (c : Cmd) : State := stOf (let d := put1 (setRg d3 (qmDie d3 3) (jPage 3) 0x100 4) c
  { d with qm := { d.qm with sess := [(5, {freeSess with job := some 3, lists := [(0, ⟨[⟨1,0,77⟩], 1⟩)]}), (6, {freeSess with job := some 3})] } })
def qe : State := let s := q (wc 4); stOf { setJob s.dev 3 { aJob with resident := true, place := ⟨[⟨0, 0xFFFFFFFF, 0, 1, 0, 0⟩],[],[]⟩ } with mem := { s.dev.mem with bytes := [(0, 5#8)] } }

theorem wit_CommandsOnTablesRequestTheToken_0 :
    ∃ s : State, ∃ uid : Nat, ∃ c : Cmd, live s ∧
    MayStart s.dev uid 0x03 c ∧
    boundTo s.dev (dBytes c.desc 8 2) c.job = true ∧
    boundTo s.dev (dBytes c.desc 10 2) c.job = true ∧
    dBytes c.desc 8 2 ≠ dBytes c.desc 10 2 ∧
    sessEmpty (sess s.dev (dBytes c.desc 10 2)) = true :=
  ⟨(q (wc 0)), 1, (wc 0), live_of (by decide +kernel), by constructor <;> first | decide +kernel | constructor <;> decide +kernel, by decide +kernel⟩
theorem wit_CommandsOnTablesRequestTheToken_1 :
    ∃ s : State, ∃ uid : Nat, ∃ c : Cmd, live s ∧
    MayStart s.dev uid 0x04 c ∧
    boundTo s.dev (dBytes c.desc 8 2) c.job = true :=
  ⟨(q (wc 1)), 1, (wc 1), live_of (by decide +kernel), by constructor <;> first | decide +kernel | constructor <;> decide +kernel, by decide +kernel⟩
theorem wit_CommandsOnTablesRequestTheToken_2 :
    ∃ s : State, ∃ uid : Nat, ∃ c : Cmd, live s ∧
    MayStart s.dev uid 0x07 c ∧
    isPriv s.dev c.job = true :=
  ⟨(q (wc 2)), 1, (wc 2), live_of (by decide +kernel), by constructor <;> first | decide +kernel | constructor <;> decide +kernel, by decide +kernel⟩
theorem wit_CommandsOnTablesRequestTheToken_3 :
    ∃ s : State, ∃ uid : Nat, ∃ c : Cmd, live s ∧
    ∃ n : Nat, ∃ o : Nat, ∃ es : List Nat, ∃ ps : List PEnt, MayStart s.dev uid 0x02 c ∧
    dBits c.desc 8 3 0 = 8 ∧
    ListReady s.dev c n o es ∧
    listPages s.dev c.job es = some ps :=
  ⟨qe, 1, (wc 4), live_of (by decide +kernel), 0, 0, [5], [⟨1,0,77⟩], by constructor <;> first | decide +kernel | constructor <;> decide +kernel, by decide +kernel, by constructor <;> decide +kernel, by decide +kernel⟩

end WCommandsOnTablesRequestTheToken

namespace WCommandsWithoutTheirRightsFail

def wc (k : Nat) : Cmd := [cmdOf 3 [(8,5),(10,6)], cmdOf 4 [(8,5),(10,3)], cmdOf 7 [(8,3),(9,2),(12,1000)], cmdOf 8 [(8,3),(9,4)], cmdOf 2 [(8,0x102),(12,9)], cmdOf 2 [(8,0x203),(12,9)]].getD k cmd0
def q (c : Cmd) : State := stOf (put1 d3 c)

theorem wit_CommandsWithoutTheirRightsFail_0 :
    ∃ s : State, ∃ uid : Nat, ∃ c : Cmd, live s ∧
    MayStart s.dev uid 0x07 c ∧
    isPriv s.dev c.job = false :=
  ⟨(q (wc 2)), 1, (wc 2), live_of (by decide +kernel), by constructor <;> first | decide +kernel | constructor <;> decide +kernel, by decide +kernel⟩
theorem wit_CommandsWithoutTheirRightsFail_1 :
    ∃ s : State, ∃ uid : Nat, ∃ c : Cmd, live s ∧
    MayStart s.dev uid 0x08 c ∧
    isPriv s.dev c.job = false :=
  ⟨(q (wc 3)), 1, (wc 3), live_of (by decide +kernel), by constructor <;> first | decide +kernel | constructor <;> decide +kernel, by decide +kernel⟩
theorem wit_CommandsWithoutTheirRightsFail_2 :
    ∃ s : State, ∃ uid : Nat, ∃ c : Cmd, live s ∧
    MayStart s.dev uid 0x04 c ∧
    boundTo s.dev (dBytes c.desc 8 2) c.job = false :=
  ⟨(q (wc 1)), 1, (wc 1), live_of (by decide +kernel), by constructor <;> first | decide +kernel | constructor <;> decide +kernel, by decide +kernel⟩
theorem wit_CommandsWithoutTheirRightsFail_3 :
    ∃ s : State, ∃ uid : Nat, ∃ c : Cmd, live s ∧
    MayStart s.dev uid 0x03 c ∧
    boundTo s.dev (dBytes c.desc 8 2) c.job = false :=
  ⟨(q (wc 0)), 1, (wc 0), live_of (by decide +kernel), by constructor <;> first | decide +kernel | constructor <;> decide +kernel, by decide +kernel⟩
theorem wit_CommandsWithoutTheirRightsFail_4 :
    ∃ s : State, ∃ uid : Nat, ∃ c : Cmd, live s ∧
    MayStart s.dev uid 0x02 c ∧
    dBits c.desc 8 3 0 = 2 ∧
    copyFor s.dev uid (cOid c) (cTier c) = none :=
  ⟨(q (wc 4)), 1, (wc 4), live_of (by decide +kernel), by constructor <;> first | decide +kernel | constructor <;> decide +kernel, by decide +kernel⟩
theorem wit_CommandsWithoutTheirRightsFail_5 :
    ∃ s : State, ∃ uid : Nat, ∃ c : Cmd, live s ∧
    MayStart s.dev uid 0x02 c ∧
    dBits c.desc 8 3 0 = 3 ∧
    copyFor s.dev uid (cOid c) (cTier c) = none :=
  ⟨(q (wc 5)), 1, (wc 5), live_of (by decide +kernel), by constructor <;> first | decide +kernel | constructor <;> decide +kernel, by decide +kernel⟩

end WCommandsWithoutTheirRightsFail

namespace WObjectsAreAllocatedClaimedAndEvicted

def wc (k : Nat) : Cmd := [cmdOf 2 [(8,0x101+2^16*4),(12,9),(32,1)], cmdOf 2 [(8,0x201),(12,9),(32,7)], cmdOf 2 [(8,0x401+2^22),(12,0xFFFFF),(32,7)], cmdOf 2 [(8,0x202),(12,9)], cmdOf 2 [(8,0x203),(12,9)]].getD k cmd0
def wo : Obj := { size := 4, shared := true, ro := false, mirror := false, t1die := 0, creator := 4, shareTag := 0, c1 := noCopy, c2 := ⟨true,false,4,1,16#256,0⟩, c4 := noCopy, newBy := 0 }
def q (c : Cmd) (o : List (Nat × Obj)) : State := stOf (let d := put1 (setJob rdy 3 { aJob with quota1 := 1, quota2 := 7, quota4 := 14 }) c; { d with mem := { d.mem with objs := o } })

theorem wit_ObjectsAreAllocatedClaimedAndEvicted_0 :
    ∃ s : State, ∃ uid : Nat, ∃ c : Cmd, live s ∧
    MayStart s.dev uid 0x02 c ∧
    okTier (cTier c) = true ∧
    c.held.contains (cTier c, cOid c) = false ∧
    dBits c.desc 8 3 0 = 1 ∧
    obj s.dev (cOid c) = none ∧
    (∀ e ∈ s.dev.mem.roots, e.1 / 2 ^ 32 ≠ cTier c * 2 ^ 32 + cOid c) ∧
    1 ≤ dBytes c.desc 32 4 ∧
    dBytes c.desc 32 4 ≤ 0x10000000 ∧
    fits (setCmd s.dev uid { c with phase := .running }) c.job (cTier c) (if cTier c = 4 && (dBits c.desc 8 31 0).testBit 22 then 2 * dBytes c.desc 32 4 else dBytes c.desc 32 4) (dBits c.desc 8 18 16) = true :=
  ⟨(q (wc 0) []), 1, (wc 0), live_of (by decide +kernel), by constructor <;> first | decide +kernel | constructor <;> decide +kernel, by decide +kernel⟩
theorem wit_ObjectsAreAllocatedClaimedAndEvicted_1 :
    ∃ s : State, ∃ uid : Nat, ∃ c : Cmd, live s ∧
    MayStart s.dev uid 0x02 c ∧
    okTier (cTier c) = true ∧
    c.held.contains (cTier c, cOid c) = false ∧
    ∃ o : Obj, ∃ cp : CopySt, copyFor s.dev uid (cOid c) (cTier c) = some (o, cp) ∧
    ∃ i, i ∈ [Instr.claim uid, Instr.evict uid] ∧ (((i = .claim uid ∧ dBits c.desc 8 3 0 = 2 ∧ mayClaim s.dev o c.job = true) ∨ (i = .evict uid ∧ dBits c.desc 8 3 0 = 3))) :=
  ⟨(q (wc 3) [(9,wo)]), 1, (wc 3), live_of (by decide +kernel), by constructor <;> first | decide +kernel | constructor <;> decide +kernel, by decide +kernel, by decide +kernel, wo, wo.c2, by decide +kernel, _, List.mem_of_getElem? (i := 0) rfl, by decide +kernel⟩

end WObjectsAreAllocatedClaimedAndEvicted

namespace WDoorbellsCountForOwnJobsOnly

def wA : State := stOf d3

theorem wit_DoorbellsCountForOwnJobsOnly_0 :
    ∃ s : State, ∃ acc : Acc, ∃ j : JobId, live s ∧
    ∃ p : HostPort, acc = .pf p ∧
    ((ownJob s.dev p 0 j.val = false ∨ s.dev.state ≠ .ready)) :=
  ⟨wA, (.pf .b), 3, live_of (by decide +kernel), .b, by decide +kernel⟩
theorem wit_DoorbellsCountForOwnJobsOnly_2 :
    ∃ s : State, ∃ acc : Acc, ∃ j : JobId, live s ∧
    ∃ p : HostPort, ∃ n : Fin 64, acc = .vf p n ∧
    ((ownJob s.dev p n.val j.val = false ∨ s.dev.state ≠ .ready)) :=
  ⟨wA, (.vf .a 5), 3, live_of (by decide +kernel), .a, 5, by decide +kernel⟩

end WDoorbellsCountForOwnJobsOnly

namespace WFirmwareIsStagedActivatedConfirmed

def wA : State := stOf (setRg rdy 60 2 0x110 8192)
def bt (b : Boot) : State := stOf { rdy with boot := b }
def wB : State := bt { resetBoot with trial := true, unconfirmed := true, fusedSvn := 3, slotA := ⟨true,1,9⟩ }
def wC : State := bt { resetBoot with staged := true }
def wF : State := bt { resetBoot with staging := some 0, fusedSvn := 3 }
def wG : State := bt { resetBoot with window := true, staged := true, runSlot := true }

theorem wit_FirmwareIsStagedActivatedConfirmed_0 :
    ∃ s : State, ∃ acc : Acc, live s ∧
    regsSorted s.dev ∧
    let d := s.dev
    let b := s.dev.boot
    bootBusy d = false ∧
    Performed d acc offBootCtrl ∧
    b.trial = false ∧
    8192 ≤ rg d 60 2 0x110 :=
  ⟨wA, .firmware, live_of (by decide +kernel), by unfold regsSorted; decide +kernel, by decide +kernel, performed_of (by decide +kernel), by decide +kernel⟩
theorem wit_FirmwareIsStagedActivatedConfirmed_1 :
    ∃ s : State, ∃ acc : Acc, live s ∧
    regsSorted s.dev ∧
    let d := s.dev
    let b := s.dev.boot
    bootBusy d = false ∧
    Performed d acc offBootCtrl ∧
    b.trial = true :=
  ⟨wB, .firmware, live_of (by decide +kernel), by unfold regsSorted; decide +kernel, by decide +kernel, performed_of (by decide +kernel), by decide +kernel⟩
theorem wit_FirmwareIsStagedActivatedConfirmed_2 :
    ∃ s : State, ∃ acc : Acc, live s ∧
    regsSorted s.dev ∧
    let d := s.dev
    let b := s.dev.boot
    bootBusy d = false ∧
    Performed d acc offBootCtrl ∧
    b.staged = true :=
  ⟨wC, .firmware, live_of (by decide +kernel), by unfold regsSorted; decide +kernel, by decide +kernel, performed_of (by decide +kernel), by decide +kernel⟩
theorem wit_FirmwareIsStagedActivatedConfirmed_3 :
    ∃ s : State, ∃ acc : Acc, live s ∧
    regsSorted s.dev ∧
    let d := s.dev
    let b := s.dev.boot
    bootBusy d = false ∧
    Performed d acc offBootCtrl ∧
    (d.state = .ready ∧ b.staged = true ∧ d.qm.cmds = [] ∧ d.orb.state = .none) :=
  ⟨wC, .firmware, live_of (by decide +kernel), by unfold regsSorted; decide +kernel, by decide +kernel, performed_of (by decide +kernel), by decide +kernel⟩
theorem wit_FirmwareIsStagedActivatedConfirmed_4 :
    ∃ s : State, ∃ acc : Acc, live s ∧
    regsSorted s.dev ∧
    let d := s.dev
    let b := s.dev.boot
    bootBusy d = false ∧
    Performed d acc offBootCtrl ∧
    ((d.state ≠ .ready ∨ b.staged = false ∨ d.qm.cmds ≠ [] ∨ d.orb.state ≠ .none)) :=
  ⟨wA, .firmware, live_of (by decide +kernel), by unfold regsSorted; decide +kernel, by decide +kernel, performed_of (by decide +kernel), by decide +kernel⟩
theorem wit_FirmwareIsStagedActivatedConfirmed_6 :
    ∃ s : State, live s ∧
    regsSorted s.dev ∧
    let b := s.dev.boot
    b.staging.isSome = true ∧
    ∃ n : BitVec 6, b.fusedSvn ≤ n.toNat :=
  ⟨wF, live_of (by decide +kernel), by unfold regsSorted; decide +kernel, by decide +kernel, (3#6), by decide +kernel⟩
theorem wit_FirmwareIsStagedActivatedConfirmed_7 :
    ∃ s : State, live s ∧
    regsSorted s.dev ∧
    let b := s.dev.boot
    b.staging.isSome = true ∧
    ∃ n : BitVec 6, n.toNat < b.fusedSvn :=
  ⟨wF, live_of (by decide +kernel), by unfold regsSorted; decide +kernel, by decide +kernel, (2#6), by decide +kernel⟩
theorem wit_FirmwareIsStagedActivatedConfirmed_9 :
    ∃ s : State, live s ∧
    regsSorted s.dev ∧
    let d := s.dev
    let b := s.dev.boot
    b.window = true ∧
    d.rst = none :=
  ⟨wG, live_of (by decide +kernel), by unfold regsSorted; decide +kernel, by decide +kernel⟩

end WFirmwareIsStagedActivatedConfirmed

namespace WDeviceStatesChangeAsCommanded

def wA : State := stOf rdy
def wB : State := stOf d3
def wC : State := stOf { rdy with state := .test }
def wD : State := stOf { rdy with rst := some ⟨4, 9, 0⟩ }
def wE : State := stOf { put1 d3 { cmdOf 6 [] with phase := .worked, committed := true } with rst := some ⟨4, 9, 0⟩ }
def wF : State := State.reset

theorem wit_DeviceStatesChangeAsCommanded_0 :
    ∃ s : State, ∃ acc : Acc, live s ∧
    let d := s.dev
    Performed d acc offDevCtrl ∧
    d.state = .ready ∧
    noJobs d = true :=
  ⟨wA, .firmware, live_of (by decide +kernel), performed_of (by decide +kernel), by decide +kernel⟩
theorem wit_DeviceStatesChangeAsCommanded_2 :
    ∃ s : State, ∃ acc : Acc, live s ∧
    let d := s.dev
    Performed d acc offDevCtrl ∧
    (d.state ≠ .ready ∨ noJobs d = false) :=
  ⟨wB, .firmware, live_of (by decide +kernel), performed_of (by decide +kernel), by decide +kernel⟩
theorem wit_DeviceStatesChangeAsCommanded_4 :
    ∃ s : State, ∃ acc : Acc, live s ∧
    let d := s.dev
    Performed d acc offDevCtrl ∧
    d.state = .test :=
  ⟨wC, .firmware, live_of (by decide +kernel), performed_of (by decide +kernel), by decide +kernel⟩
theorem wit_DeviceStatesChangeAsCommanded_5 :
    ∃ s : State, ∃ acc : Acc, live s ∧
    let d := s.dev
    Performed d acc offDevCtrl ∧
    d.state ≠ .test :=
  ⟨wA, .firmware, live_of (by decide +kernel), performed_of (by decide +kernel), by decide +kernel⟩
theorem wit_DeviceStatesChangeAsCommanded_6 :
    ∃ s : State, ∃ acc : Acc, live s ∧
    let d := s.dev
    Performed d acc offDevCtrl ∧
    d.rst = none :=
  ⟨wA, .firmware, live_of (by decide +kernel), performed_of (by decide +kernel), by decide +kernel⟩
theorem wit_DeviceStatesChangeAsCommanded_7 :
    ∃ s : State, ∃ acc : Acc, live s ∧
    let d := s.dev
    Performed d acc offDevCtrl ∧
    d.rst ≠ none :=
  ⟨wD, .firmware, live_of (by decide +kernel), performed_of (by decide +kernel), by decide +kernel⟩
theorem wit_DeviceStatesChangeAsCommanded_8 :
    ∃ s : State, live s ∧
    let d := s.dev
    ∃ r : RstReq, ∃ uid : Nat, ∃ c : Cmd, d.rst = some r ∧
    d.qm.cmds = [(uid, c)] ∧
    c.phase ≠ .ended :=
  ⟨wE, live_of (by decide +kernel), ⟨4, 9, 0⟩, 1, { cmdOf 6 [] with phase := .worked, committed := true }, by decide +kernel⟩
theorem wit_DeviceStatesChangeAsCommanded_9 :
    ∃ s : State, live s ∧
    let d := s.dev
    ∃ r : RstReq, d.rst = some r ∧
    d.qm.cmds = [] :=
  ⟨wD, live_of (by decide +kernel), ⟨4, 9, 0⟩, by decide +kernel⟩
theorem wit_DeviceStatesChangeAsCommanded_10 :
    ∃ s : State, live s ∧
    let d := s.dev
    d.state = .boot ∧
    d.boot.runs = true ∧
    pwrFree d = true ∧
    d.powerLost = false :=
  ⟨wF, live_of (by decide +kernel), by decide +kernel⟩
theorem wit_DeviceStatesChangeAsCommanded_11 :
    ∃ s : State, live s ∧
    let d := s.dev
    regsSorted d ∧
    d.state = .boot ∧
    d.boot.runs = true ∧
    pwrFree d = true :=
  ⟨wF, live_of (by decide +kernel), by unfold regsSorted; decide +kernel, by decide +kernel⟩

end WDeviceStatesChangeAsCommanded

namespace WModuleLosesAndRegainsPower

def wA : State := stOf rdy
def wB : State := stOf { rdy with powerLost := true, ext := { rdy.ext with ftl := [(0, { idleFtl with seqRunning := true }), (1, { idleFtl with seqRunning := true })] } }
def wC : State := stOf { rdy with powerLost := true, pwr := { resetPwr with heldInReset := true } }
def wD : State := stOf { rdy with modRst := true }

theorem wit_ModuleLosesAndRegainsPower_0 :
    ∃ s : State, let d := s.dev
    d.powerLost = false ∧
    d.modRst = false ∧
    regsSorted d :=
  ⟨wA, by decide +kernel, by decide +kernel, by unfold regsSorted; decide +kernel⟩
theorem wit_ModuleLosesAndRegainsPower_3 :
    ∃ s : State, let d := s.dev
    (ftl d 0).seqRunning = true ∧
    SMap.sorted d.ext.ftl = true ∧
    d.powerLost = true :=
  ⟨wB, by decide +kernel⟩
theorem wit_ModuleLosesAndRegainsPower_4 :
    ∃ s : State, let d := s.dev
    (ftl d 0).seqRunning = true ∧
    d.powerLost = true ∧
    d.modRst = false :=
  ⟨wB, by decide +kernel⟩
theorem wit_ModuleLosesAndRegainsPower_5 :
    ∃ s : State, let d := s.dev
    (ftl d 0).seqRunning = false ∧
    d.powerLost = true ∧
    d.modRst = false :=
  ⟨wC, by decide +kernel⟩
theorem wit_ModuleLosesAndRegainsPower_6 :
    ∃ s : State, let d := s.dev
    (ftl d 0).seqRunning = false ∧
    d.modRst = true ∧
    d.powerLost = false :=
  ⟨wD, by decide +kernel⟩

end WModuleLosesAndRegainsPower

namespace WResetsOfDiesAndBlocks

def fl (l : List Nat) : Dev := { rdy with flt := { rdy.flt with blkRst := l.map (fun x => (x, ())) } }
def wA : State := stOf { fl [5*1024+16] with cores := [(29, idleCore), (30, { idleCore with slipWin := 3 }), (35, { idleCore with slipWin := 3 }), (36, { idleCore with slipWin := 3 })], mem := { rdy.mem with bytes := [(4, 1#8), (gT0 30 0 * 4096, 5#8), (gT0 36 0 * 4096 - 1, 5#8), (gT0 36 0 * 4096, 5#8)], sealMk := [(gT0 30 0, ()), (gT0 36 0, ())] } }
def wB : State := stOf { fl [5*1024+16] with pwr := { resetPwr with resetting := [(5, 100)] } }
def wC : State := stOf { fl [] with pwr := { resetPwr with resetting := [(5, 100)], retained := [(5, 0)] }, now := 21000100 }
def wD : State := stOf { fl [5*1024+3] with cores := [(29, idleCore), (33, { idleCore with slipWin := 3 }), (36, { idleCore with slipWin := 3 })], regs := [(regOff 5 3 0x20, 7#32), (regOff 5 4 0x20, 7#32)] }
abbrev Gr := Nat

theorem wit_ResetsOfDiesAndBlocks_0 :
    ∃ s : State, ∃ die : Fin 64, ∃ cd : Fin 48, live s ∧
    cd.val = die.val ∧
    let d := s.dev
    NSet.mem d.flt.blkRst (die.val * 1024 + 16) = true ∧
    dieResetting d die.val = false ∧
    d.qm.cmds = [] ∧
    SMap.sorted d.cores = true :=
  ⟨wA, 5, 5, live_of (by decide +kernel), by decide +kernel, by decide +kernel⟩
theorem wit_ResetsOfDiesAndBlocks_1 :
    ∃ s : State, ∃ die : Fin 64, ∃ cd : Fin 48, live s ∧
    cd.val = die.val ∧
    let d := s.dev
    dieResetting d die.val = true ∧
    NSet.mem d.flt.blkRst (die.val * 1024 + 16) = true :=
  ⟨wB, 5, 5, live_of (by decide +kernel), by decide +kernel, by decide +kernel⟩
theorem wit_ResetsOfDiesAndBlocks_2 :
    ∃ s : State, ∃ die : Fin 64, ∃ cd : Fin 48, live s ∧
    cd.val = die.val ∧
    let d := s.dev
    dieResetting d die.val = true ∧
    SMap.get? d.pwr.retained die.val ≠ some 2 ∧
    SMap.sorted d.pwr.resetting = true :=
  ⟨wB, 5, 5, live_of (by decide +kernel), by decide +kernel, by decide +kernel⟩
theorem wit_ResetsOfDiesAndBlocks_3 :
    ∃ s : State, ∃ die : Fin 64, ∃ cd : Fin 48, live s ∧
    cd.val = die.val ∧
    let d := s.dev
    ∃ t0 : Nat, SMap.get? d.pwr.resetting die.val = some t0 ∧
    SMap.get? d.pwr.retained die.val ≠ some 2 ∧
    regsSorted d ∧
    t0 + 21000000 ≤ d.now :=
  ⟨wC, 5, 5, live_of (by decide +kernel), by decide +kernel, 100, by decide +kernel, by decide +kernel, by unfold regsSorted; decide +kernel, by decide +kernel⟩
theorem wit_ResetsOfDiesAndBlocks_4 :
    ∃ s : State, ∃ die : Fin 64, ∃ cd : Fin 48, live s ∧
    cd.val = die.val ∧
    let d := s.dev
    ∃ p : Fin 1024, p.val < 6 ∧
    NSet.mem d.flt.blkRst (die.val * 1024 + p.val) = true ∧
    dieResetting d die.val = false ∧
    d.qm.cmds = [] ∧
    SMap.sorted d.cores = true :=
  ⟨wD, 5, 5, live_of (by decide +kernel), by decide +kernel, 3, by decide +kernel⟩

end WResetsOfDiesAndBlocks

namespace WPowerManagerActs

def pw (p : Pwr) : Dev := { rdy with pwr := p }
def wA : State := stOf (pw { resetPwr with retained := [(5, 0), (47, 0)] })
def wB : State := stOf (pw { resetPwr with waking := [(5, ()), (47, ())] })

theorem wit_PowerManagerActs_0 :
    ∃ s : State, ∃ acc : Acc, ∃ die : Fin 48, live s ∧
    regsSorted s.dev ∧
    let d := s.dev
    Performed d acc (regOff die.val 16 0x00C) ∧
    SMap.get? d.pwr.retained die.val = some 0 ∧
    SMap.sorted d.pwr.retained = true :=
  ⟨wA, .firmware, 5, live_of (by decide +kernel), by unfold regsSorted; decide +kernel, performed_wake (by decide +kernel), by decide +kernel⟩
theorem wit_PowerManagerActs_1 :
    ∃ s : State, ∃ die : Fin 48, live s ∧
    regsSorted s.dev ∧
    let d := s.dev
    NSet.mem d.pwr.waking die.val = true ∧
    SMap.sorted d.pwr.waking = true :=
  ⟨wB, 5, live_of (by decide +kernel), by unfold regsSorted; decide +kernel, by decide +kernel⟩
theorem wit_PowerManagerActs_3 :
    ∃ s : State, live s ∧
    regsSorted s.dev ∧
    let d := s.dev
    ∃ rails : BitVec 24, rails.toNat = d.pwr.vrFault :=
  ⟨wA, live_of (by decide +kernel), by unfold regsSorted; decide +kernel, (0#24), by decide +kernel⟩
theorem wit_PowerManagerActs_4 :
    ∃ s : State, live s ∧
    regsSorted s.dev ∧
    let d := s.dev
    ∃ rails : BitVec 24, d.rst = none ∧
    (∃ r, r < 24 ∧ rails.toNat.testBit r = true ∧ d.pwr.vrFault.testBit r = false) :=
  ⟨wA, live_of (by decide +kernel), by unfold regsSorted; decide +kernel, (2#24), by decide +kernel⟩
theorem wit_PowerManagerActs_5 :
    ∃ s : State, live s ∧
    regsSorted s.dev ∧
    let d := s.dev
    ∃ w : BitVec 16, d.pwr.hard = false ∧
    w.toNat ≤ 3800 :=
  ⟨wA, live_of (by decide +kernel), by unfold regsSorted; decide +kernel, (0#16), by decide +kernel⟩
theorem wit_PowerManagerActs_7 :
    ∃ s : State, live s ∧
    regsSorted s.dev ∧
    let d := s.dev
    ∃ ts : List (BitVec 8), ts.length = 64 ∧
    d.rst = none ∧
    (∃ i, 48 ≤ i ∧ i < 64 ∧ (∃ x, ts[i]? = some x ∧ 115 ≤ x.toInt) ∧ NSet.mem d.pwr.crit i = false) :=
  ⟨wA, live_of (by decide +kernel), by unfold regsSorted; decide +kernel, (List.replicate 64 (40#8)).set 48 (115#8), by decide +kernel, by decide +kernel, ⟨48, by decide, by decide, ⟨115#8, by decide +kernel, by decide⟩, by decide +kernel⟩⟩

end WPowerManagerActs

namespace WOrbitStatesChangeAsCommanded

def up03 : Dev := { rdy with fab := { rdy.fab with ports := [(0, { downPort with up := true }), (3, { downPort with up := true, peerDid := 9 })] } }
def ob (f : Orb → Orb) : State := stOf { setRg (setRg up03 56 16 0x1CC 131072) 3 3 0x100 0x11 with orb := f rdy.orb }
def mas (s : State) : State := stOf (setRg s.dev 56 16 0x1C0 0x8300)
def mem (s : State) : State := stOf (setRg s.dev 56 16 0x1C0 0x12340300)
def loc : State := ob (fun o => { o with state := .locking })
def lkd : State := ob (fun o => { o with state := .locked, occ := 7 })
def ali : State := ob (fun o => { o with state := .aligned, armed := true, occ := 0 })
def run : State := ob (fun o => { o with state := .running, occ := 100 })
def run2 : State := ob (fun o => { o with state := .running, occ := 65536 + 131072 * 3, lastHb := 3 })
def hpk (l : List Nat) : Packet := ⟨10, 0, false, 0xFFFF, 9, 63, 0, 0, 0, some ([3], 1), l ++ List.replicate (16 - l.length) 0⟩

theorem wit_OrbitStatesChangeAsCommanded_0 :
    ∃ s : State, ∃ acc : Acc, live s ∧
    regsSorted s.dev ∧
    SMap.sorted s.dev.fab.ports = true ∧
    let d := s.dev
    let o := s.dev.orb
    Performed d acc offOrbCtrl ∧
    o.state = .none :=
  ⟨State.reset, .firmware, live_of (by decide +kernel), by unfold regsSorted; decide +kernel, by decide +kernel, performed_of (by decide +kernel), by decide +kernel⟩
theorem wit_OrbitStatesChangeAsCommanded_1 :
    ∃ s : State, ∃ acc : Acc, live s ∧
    regsSorted s.dev ∧
    SMap.sorted s.dev.fab.ports = true ∧
    let d := s.dev
    let o := s.dev.orb
    Performed d acc offOrbCtrl ∧
    o.state ≠ .none :=
  ⟨(mas loc), .firmware, live_of (by decide +kernel), by unfold regsSorted; decide +kernel, by decide +kernel, performed_of (by decide +kernel), by decide +kernel⟩
theorem wit_OrbitStatesChangeAsCommanded_2 :
    ∃ s : State, ∃ acc : Acc, live s ∧
    regsSorted s.dev ∧
    SMap.sorted s.dev.fab.ports = true ∧
    let d := s.dev
    let o := s.dev.orb
    Performed d acc offOrbCtrl ∧
    isMaster d = true ∧
    o.state = .locked :=
  ⟨(mas lkd), .firmware, live_of (by decide +kernel), by unfold regsSorted; decide +kernel, by decide +kernel, performed_of (by decide +kernel), by decide +kernel⟩
theorem wit_OrbitStatesChangeAsCommanded_3 :
    ∃ s : State, ∃ acc : Acc, live s ∧
    regsSorted s.dev ∧
    SMap.sorted s.dev.fab.ports = true ∧
    let d := s.dev
    Performed d acc offOrbCtrl ∧
    isMaster d = false :=
  ⟨State.reset, .firmware, live_of (by decide +kernel), by unfold regsSorted; decide +kernel, by decide +kernel, performed_of (by decide +kernel), by decide +kernel⟩
theorem wit_OrbitStatesChangeAsCommanded_4 :
    ∃ s : State, ∃ acc : Acc, live s ∧
    regsSorted s.dev ∧
    SMap.sorted s.dev.fab.ports = true ∧
    let d := s.dev
    let o := s.dev.orb
    Performed d acc offOrbCtrl ∧
    o.state = .aligned :=
  ⟨(mas ali), .firmware, live_of (by decide +kernel), by unfold regsSorted; decide +kernel, by decide +kernel, performed_of (by decide +kernel), by decide +kernel⟩
theorem wit_OrbitStatesChangeAsCommanded_5 :
    ∃ s : State, ∃ acc : Acc, live s ∧
    regsSorted s.dev ∧
    SMap.sorted s.dev.fab.ports = true ∧
    let d := s.dev
    let o := s.dev.orb
    Performed d acc offOrbCtrl ∧
    o.state ≠ .aligned :=
  ⟨State.reset, .firmware, live_of (by decide +kernel), by unfold regsSorted; decide +kernel, by decide +kernel, performed_of (by decide +kernel), by decide +kernel⟩
theorem wit_OrbitStatesChangeAsCommanded_7 :
    ∃ s : State, live s ∧
    regsSorted s.dev ∧
    SMap.sorted s.dev.fab.ports = true ∧
    let o := s.dev.orb
    o.state = .locking :=
  ⟨(mas loc), live_of (by decide +kernel), by unfold regsSorted; decide +kernel, by decide +kernel, by decide +kernel⟩
theorem wit_OrbitStatesChangeAsCommanded_8 :
    ∃ s : State, live s ∧
    regsSorted s.dev ∧
    SMap.sorted s.dev.fab.ports = true ∧
    let o := s.dev.orb
    o.state ≠ .locking :=
  ⟨State.reset, live_of (by decide +kernel), by unfold regsSorted; decide +kernel, by decide +kernel, by decide +kernel⟩
theorem wit_OrbitStatesChangeAsCommanded_9 :
    ∃ s : State, live s ∧
    regsSorted s.dev ∧
    SMap.sorted s.dev.fab.ports = true ∧
    let d := s.dev
    let o := s.dev.orb
    ∃ port : PortId, ∃ pkt : Packet, Packet.ok pkt = true ∧
    headerOk pkt = true ∧
    pkt.typ = 10 ∧
    port.val = upstreamPort d ∧
    (fabPort d port.val).up = true ∧
    isMaster d = false ∧
    pkt.payload.head? = some 3 ∧
    o.state = .locked :=
  ⟨(mem lkd), live_of (by decide +kernel), by unfold regsSorted; decide +kernel, by decide +kernel, 3, (hpk [3,0,0,0,0,0,0,0,9,0,0,0,0,0,0,1]), by decide +kernel⟩
theorem wit_OrbitStatesChangeAsCommanded_10 :
    ∃ s : State, live s ∧
    regsSorted s.dev ∧
    SMap.sorted s.dev.fab.ports = true ∧
    let d := s.dev
    let o := s.dev.orb
    ∃ port : PortId, ∃ pkt : Packet, Packet.ok pkt = true ∧
    headerOk pkt = true ∧
    pkt.typ = 10 ∧
    port.val = upstreamPort d ∧
    (fabPort d port.val).up = true ∧
    isMaster d = false ∧
    pkt.payload.head? = some 4 ∧
    orbitMode d = true ∧
    orbBase d ≤ o.occ ∧
    (o.occ - orbBase d) % orbLen d ≤ 65536 ∧
    slotOf d port.val pkt.stamp ≤ cycNow d :=
  ⟨(mem run), live_of (by decide +kernel), by unfold regsSorted; decide +kernel, by decide +kernel, 3, (hpk [4]), by decide +kernel⟩
theorem wit_OrbitStatesChangeAsCommanded_11 :
    ∃ s : State, live s ∧
    regsSorted s.dev ∧
    SMap.sorted s.dev.fab.ports = true ∧
    let d := s.dev
    ∃ port : PortId, ∃ pkt : Packet, Packet.ok pkt = true ∧
    headerOk pkt = true ∧
    pkt.typ = 10 ∧
    port.val = upstreamPort d ∧
    (fabPort d port.val).up = true ∧
    isMaster d = false ∧
    pkt.payload.head? = some 4 ∧
    orbitMode d = true ∧
    cycNow d < slotOf d port.val pkt.stamp :=
  ⟨(mem loc), live_of (by decide +kernel), by unfold regsSorted; decide +kernel, by decide +kernel, 3, (hpk [4]), by decide +kernel⟩
theorem wit_OrbitStatesChangeAsCommanded_12 :
    ∃ s : State, live s ∧
    regsSorted s.dev ∧
    SMap.sorted s.dev.fab.ports = true ∧
    let d := s.dev
    ∃ port : PortId, ∃ pkt : Packet, Packet.ok pkt = true ∧
    headerOk pkt = true ∧
    pkt.typ = 10 ∧
    pkt.payload.head? = some 5 ∧
    (fabPort d port.val).up = true ∧
    pkt.vc = 0 :=
  ⟨(mas loc), live_of (by decide +kernel), by unfold regsSorted; decide +kernel, by decide +kernel, 0, (hpk [5]), by decide +kernel⟩
theorem wit_OrbitStatesChangeAsCommanded_13 :
    ∃ s : State, live s ∧
    regsSorted s.dev ∧
    SMap.sorted s.dev.fab.ports = true ∧
    let d := s.dev
    ∃ port : PortId, ∃ pkt : Packet, Packet.ok pkt = true ∧
    headerOk pkt = true ∧
    pkt.typ = 10 ∧
    pkt.payload.head? = some 5 ∧
    (fabPort d port.val).up = true ∧
    pkt.vc ≠ 0 ∧
    orbitMode d = true :=
  ⟨(mas loc), live_of (by decide +kernel), by unfold regsSorted; decide +kernel, by decide +kernel, 0, { hpk [5] with vc := 2, route := none }, by decide +kernel⟩
theorem wit_OrbitStatesChangeAsCommanded_14 :
    ∃ s : State, live s ∧
    regsSorted s.dev ∧
    SMap.sorted s.dev.fab.ports = true ∧
    let d := s.dev
    let o := s.dev.orb
    o.state = .aligned ∧
    o.armed = true ∧
    o.occ = orbBase d ∧
    o.haltDue = false :=
  ⟨(mas ali), live_of (by decide +kernel), by unfold regsSorted; decide +kernel, by decide +kernel, by decide +kernel⟩
theorem wit_OrbitStatesChangeAsCommanded_15 :
    ∃ s : State, live s ∧
    regsSorted s.dev ∧
    SMap.sorted s.dev.fab.ports = true ∧
    let d := s.dev
    let o := s.dev.orb
    o.state = .running ∧
    isMaster d = false ∧
    hbMissed d = true :=
  ⟨(mem run2), live_of (by decide +kernel), by unfold regsSorted; decide +kernel, by decide +kernel, by decide +kernel⟩
theorem wit_OrbitStatesChangeAsCommanded_16 :
    ∃ s : State, live s ∧
    regsSorted s.dev ∧
    SMap.sorted s.dev.fab.ports = true ∧
    let d := s.dev
    let o := s.dev.orb
    o.state = .running ∧
    hbMissed d = false :=
  ⟨(mas run), live_of (by decide +kernel), by unfold regsSorted; decide +kernel, by decide +kernel, by decide +kernel⟩
theorem wit_OrbitStatesChangeAsCommanded_17 :
    ∃ s : State, live s ∧
    regsSorted s.dev ∧
    SMap.sorted s.dev.fab.ports = true ∧
    let d := s.dev
    ∃ c : Fin 6, lossHolds d c.val = true ∧
    orbitMode d = true :=
  ⟨(mas loc), live_of (by decide +kernel), by unfold regsSorted; decide +kernel, by decide +kernel, 2, by decide +kernel⟩
theorem wit_OrbitStatesChangeAsCommanded_18 :
    ∃ s : State, live s ∧
    regsSorted s.dev ∧
    SMap.sorted s.dev.fab.ports = true ∧
    let d := s.dev
    ∃ c : Fin 6, lossHolds d c.val = false :=
  ⟨State.reset, live_of (by decide +kernel), by unfold regsSorted; decide +kernel, by decide +kernel, 0, by decide +kernel⟩

end WOrbitStatesChangeAsCommanded

namespace WLinksComeUpAndGoDown

def prt (p : Nat) (x : Port) : State := stOf { fab9 with fab := { fab9.fab with ports := [(p, x)] }, now := 525000001 }
def wA : State := prt 0 downPort
def wB : State := prt 0 { upP with rxSeq := 2^40, creditBulk := 3 }
def wC : State := prt 23 { upP with unacked := [⟨4, 525000001 - 1050, 8⟩, ⟨5, 525000000, 0⟩] }
def wD : State := prt 0 { downPort with wasUp := true, downAt := 1 }
def wE : State := prt 0 { upP with txSeq := 2^40 }
def fr : LinkFrame := ⟨0, 7, false, true, 1, 255, 3, 4, 2, true, true⟩

theorem wit_LinksComeUpAndGoDown_0 :
    ∃ s : State, ∃ port : PortId, live s ∧
    regsSorted s.dev ∧
    SMap.sorted s.dev.fab.ports = true ∧
    let d := s.dev
    let p := port.val
    let q := fabPort s.dev port.val
    q.up = false ∧
    q.supplyOff = false ∧
    (rp d p 0x100).testBit 0 = true ∧
    ∃ kg : BitVec 16, ∃ pp : Fin 32, ∃ serial : BitVec 64, ∃ nonce : BitVec 256, ∃ confirm : BitVec 128, let own : LinkEnd := ⟨Config.serial.toNat, p, (drbgDraw d.sec.drbg 32).2⟩
    let peer : LinkEnd := ⟨serial.toNat, pp.val, nonce.toNat⟩
    let good := d.sec.fuseErr = false ∧ kg.toNat = Config.keyGroup.toNat ∧ confirm = confirmTag own peer peer
    good :=
  ⟨wA, 0, live_of (by decide +kernel), by unfold regsSorted; decide +kernel, by decide +kernel, by decide +kernel, by decide +kernel, (by decide +kernel), Config.keyGroup, 31, 7, 9, (confirmTag ⟨Config.serial.toNat, 0, (drbgDraw rdy.sec.drbg 32).2⟩ ⟨7, 31, 9⟩ ⟨7, 31, 9⟩), ⟨by decide +kernel, rfl, rfl⟩⟩
theorem wit_LinksComeUpAndGoDown_1 :
    ∃ s : State, ∃ port : PortId, live s ∧
    regsSorted s.dev ∧
    SMap.sorted s.dev.fab.ports = true ∧
    let d := s.dev
    let p := port.val
    let q := fabPort s.dev port.val
    q.up = false ∧
    q.supplyOff = false ∧
    (rp d p 0x100).testBit 0 = true ∧
    ∃ kg : BitVec 16, ∃ pp : Fin 32, ∃ serial : BitVec 64, ∃ nonce : BitVec 256, ∃ confirm : BitVec 128, let own : LinkEnd := ⟨Config.serial.toNat, p, (drbgDraw d.sec.drbg 32).2⟩
    let peer : LinkEnd := ⟨serial.toNat, pp.val, nonce.toNat⟩
    let good := d.sec.fuseErr = false ∧ kg.toNat = Config.keyGroup.toNat ∧ confirm = confirmTag own peer peer
    (¬good) :=
  ⟨wA, 0, live_of (by decide +kernel), by unfold regsSorted; decide +kernel, by decide +kernel, by decide +kernel, by decide +kernel, (by decide +kernel), (~~~Config.keyGroup), 31, 7, 9, 3, fun h => absurd h.2.1 (by have := Config.keyGroup.isLt; simp only [BitVec.toNat_not]; omega)⟩
theorem wit_LinksComeUpAndGoDown_2 :
    ∃ s : State, ∃ port : PortId, live s ∧
    regsSorted s.dev ∧
    SMap.sorted s.dev.fab.ports = true ∧
    let q := fabPort s.dev port.val
    q.up = true ∧
    ∃ f : LinkFrame, LinkFrame.ok f = true ∧
    (f.fecOk = false ∨ f.tagOk = false ∨ f.seq ≠ q.rxSeq % 2 ^ 40) :=
  ⟨wB, 0, live_of (by decide +kernel), by unfold regsSorted; decide +kernel, by decide +kernel, by decide +kernel, { fr with fecOk := false }, by decide +kernel⟩
theorem wit_LinksComeUpAndGoDown_3 :
    ∃ s : State, ∃ port : PortId, live s ∧
    regsSorted s.dev ∧
    SMap.sorted s.dev.fab.ports = true ∧
    let q := fabPort s.dev port.val
    q.up = true ∧
    ∃ f : LinkFrame, LinkFrame.ok f = true ∧
    f.fecOk = true ∧
    f.tagOk = true ∧
    f.seq = q.rxSeq % 2 ^ 40 ∧
    f.nak = false ∧
    q.queued = [] :=
  ⟨wB, 0, live_of (by decide +kernel), by unfold regsSorted; decide +kernel, by decide +kernel, by decide +kernel, fr, by decide +kernel⟩
theorem wit_LinksComeUpAndGoDown_4 :
    ∃ s : State, ∃ port : PortId, live s ∧
    regsSorted s.dev ∧
    SMap.sorted s.dev.fab.ports = true ∧
    let d := s.dev
    let q := fabPort s.dev port.val
    ∃ f : TxFrame, ∃ r : List TxFrame, q.up = true ∧
    q.unacked = f :: r ∧
    f.sentAt + 1050 ≤ d.now :=
  ⟨wC, 23, live_of (by decide +kernel), by unfold regsSorted; decide +kernel, by decide +kernel, ⟨4, 525000001 - 1050, 8⟩, [⟨5, 525000000, 0⟩], by decide +kernel⟩
theorem wit_LinksComeUpAndGoDown_5 :
    ∃ s : State, ∃ acc : Acc, ∃ port : PortId, live s ∧
    regsSorted s.dev ∧
    SMap.sorted s.dev.fab.ports = true ∧
    let d := s.dev
    let p := port.val
    let q := fabPort s.dev port.val
    let page := p % 6
    ∃ i, i ∈ [Instr.linkRetrain port, Instr.retrain acc port] ∧ ((i = .linkRetrain port ∧ (∃ f ∈ q.unacked, 8 ≤ f.resends)) ∨ (i = .retrain acc port ∧ Performed d acc (regOff (fpDie p) page 0x100))) ∧
    q.up = true :=
  ⟨wB, .firmware, 0, live_of (by decide +kernel), by unfold regsSorted; decide +kernel, by decide +kernel, _, List.mem_of_getElem? (i := 1) rfl, .inr ⟨rfl, performed_of (by decide +kernel)⟩, by decide +kernel⟩
theorem wit_LinksComeUpAndGoDown_6 :
    ∃ s : State, ∃ port : PortId, live s ∧
    regsSorted s.dev ∧
    SMap.sorted s.dev.fab.ports = true ∧
    let d := s.dev
    let p := port.val
    let q := fabPort s.dev port.val
    q.up = false ∧
    q.wasUp = true ∧
    (rp d p 0x100).testBit 0 = true ∧
    q.downAt + 525000000 ≤ d.now :=
  ⟨wD, 0, live_of (by decide +kernel), by unfold regsSorted; decide +kernel, by decide +kernel, by decide +kernel⟩
theorem wit_LinksComeUpAndGoDown_8 :
    ∃ s : State, ∃ port : PortId, live s ∧
    regsSorted s.dev ∧
    SMap.sorted s.dev.fab.ports = true ∧
    let q := fabPort s.dev port.val
    q.up = true ∧
    2 ^ 40 ≤ q.txSeq :=
  ⟨wE, 0, live_of (by decide +kernel), by unfold regsSorted; decide +kernel, by decide +kernel, by decide +kernel⟩
theorem wit_LinksComeUpAndGoDown_9 :
    ∃ s : State, ∃ port : PortId, live s ∧
    regsSorted s.dev ∧
    SMap.sorted s.dev.fab.ports = true ∧
    let q := fabPort s.dev port.val
    q.txSeq < 2 ^ 40 :=
  ⟨wA, 0, live_of (by decide +kernel), by unfold regsSorted; decide +kernel, by decide +kernel, by decide +kernel⟩

end WLinksComeUpAndGoDown

namespace WPacketsOnAWrongVcAreDiscarded



theorem wit_PacketsOnAWrongVcAreDiscarded_0 :
    ∃ s : State, ∃ port : PortId, ∃ p : Packet, ∃ ev : Upset, live s ∧
    regsSorted s.dev ∧
    Packet.ok p = true ∧
    typeVcOk p = false ∧
    (fabPort s.dev port.val).up = true ∧
    ev ≠ .bufUE ∧
    p.dst = ownDid s.dev ∧
    ∃ x, x ∈ [(1, Instr.put port p ev), (2, .putAck port p), (3, .getReq port p ev), (4, .getResp port p), (5, .atomic port p ev), (6, .atomicResp port p), (8, .orbitData port p), (9, .orbitSignal port p), (15, .faultReport port p)] ∧ p.typ = x.1 :=
  ⟨(stOf fab9), 0, { pk 1 1 0 0 (zeros 16) with vc := 3 }, .none, live_of (by decide +kernel), by unfold regsSorted; decide +kernel, by decide +kernel, by decide +kernel, by decide +kernel, (by decide +kernel), by decide +kernel, _, List.mem_of_getElem? (i := 0) rfl, by decide +kernel⟩
theorem wit_PacketsOnAWrongVcAreDiscarded_1 :
    ∃ s : State, ∃ port : PortId, ∃ p : Packet, ∃ ev : Upset, live s ∧
    regsSorted s.dev ∧
    Packet.ok p = true ∧
    typeVcOk p = false ∧
    (fabPort s.dev port.val).up = true ∧
    ev ≠ .bufUE ∧
    (p.dst = ownDid s.dev ∨ p.dst = 0xFFFF) ∧
    ∃ x, x ∈ [(7, Instr.nack port p), (11, .mgmtRd port p), (12, .mgmtWr port p), (13, .mgmtResp port p)] ∧ p.typ = x.1 :=
  ⟨(stOf fab9), 0, { pk 7 1 0 0 [] with vc := 3 }, .none, live_of (by decide +kernel), by unfold regsSorted; decide +kernel, by decide +kernel, by decide +kernel, by decide +kernel, (by decide +kernel), by decide +kernel, _, List.mem_of_getElem? (i := 0) rfl, by decide +kernel⟩
theorem wit_PacketsOnAWrongVcAreDiscarded_2 :
    ∃ s : State, ∃ port : PortId, ∃ p : Packet, ∃ ev : Upset, live s ∧
    regsSorted s.dev ∧
    Packet.ok p = true ∧
    typeVcOk p = false ∧
    (fabPort s.dev port.val).up = true ∧
    ev ≠ .bufUE ∧
    p.dst ≠ 0xFFFF :=
  ⟨(stOf fab9), 0, { pk 1 1 0 0 (zeros 16) with vc := 3 }, .none, live_of (by decide +kernel), by unfold regsSorted; decide +kernel, by decide +kernel⟩

end WPacketsOnAWrongVcAreDiscarded

namespace WPacketsAreForwarded



theorem wit_PacketsAreForwarded_0 :
    ∃ s : State, ∃ port : PortId, ∃ p : Packet, live s ∧
    regsSorted s.dev ∧
    Packet.ok p = true ∧
    let d := s.dev
    (fabPort d port.val).up = false :=
  ⟨(stOf { fab9 with fab := { fab9.fab with ports := [(23, { upP with creditBulk := 1 })] }}), 0, (pk 1 1 0 0 (zeros 16)), live_of (by decide +kernel), by unfold regsSorted; decide +kernel, by decide +kernel, by decide +kernel⟩
theorem wit_PacketsAreForwarded_2 :
    ∃ s : State, ∃ port : PortId, ∃ p : Packet, ∃ ev : Upset, live s ∧
    regsSorted s.dev ∧
    Packet.ok p = true ∧
    let d := s.dev
    (fabPort d port.val).up = true ∧
    headerOk p = true ∧
    p.dst ≠ 0xFFFF ∧
    ev ≠ .bufUE ∧
    ev ≠ .tableUE ∧
    p.vc ≠ 0 ∧
    p.dst = ownDid d :=
  ⟨(stOf fab9), 0, (pk 1 1 0 0 (zeros 16)), .none, live_of (by decide +kernel), by unfold regsSorted; decide +kernel, by decide +kernel, by decide +kernel⟩
theorem wit_PacketsAreForwarded_3 :
    ∃ s : State, ∃ port : PortId, ∃ p : Packet, ∃ ev : Upset, live s ∧
    regsSorted s.dev ∧
    Packet.ok p = true ∧
    let d := s.dev
    (fabPort d port.val).up = true ∧
    headerOk p = true ∧
    p.dst ≠ 0xFFFF ∧
    ev ≠ .bufUE ∧
    ev ≠ .tableUE ∧
    p.vc ≠ 0 ∧
    p.dst ≠ ownDid d ∧
    ownDid d ≠ 0 ∧
    p.dst < 0x8000 ∧
    p.ttl ≤ 1 :=
  ⟨(stOf fab9), 0, { pk 1 1 0 0 (zeros 16) with dst := 12, ttl := 1 }, .none, live_of (by decide +kernel), by unfold regsSorted; decide +kernel, by decide +kernel, by decide +kernel⟩
theorem wit_PacketsAreForwarded_4 :
    ∃ s : State, ∃ port : PortId, ∃ p : Packet, ∃ ev : Upset, live s ∧
    regsSorted s.dev ∧
    Packet.ok p = true ∧
    let d := s.dev
    (fabPort d port.val).up = true ∧
    headerOk p = true ∧
    p.dst ≠ 0xFFFF ∧
    ev ≠ .bufUE ∧
    ev ≠ .tableUE ∧
    ∃ out : Nat, (p.vc = 1 ∨ p.vc = 2) ∧
    p.dst ≠ ownDid d ∧
    ownDid d ≠ 0 ∧
    p.dst < 0x8000 ∧
    1 < p.ttl ∧
    routePort d p.vc p.dst = some (out, false) ∧
    MaySend d out p :=
  ⟨(stOf fab9), 0, { pk 1 1 0 0 (zeros 16) with dst := 12 }, .none, live_of (by decide +kernel), by unfold regsSorted; decide +kernel, by decide +kernel, by decide +kernel, by decide +kernel, (by decide +kernel), by decide +kernel, by decide +kernel, 23, by decide +kernel, by decide +kernel, by decide +kernel, (by decide +kernel), by decide +kernel, by decide +kernel, by constructor <;> decide +kernel⟩
theorem wit_PacketsAreForwarded_5 :
    ∃ s : State, ∃ port : PortId, ∃ p : Packet, ∃ ev : Upset, live s ∧
    regsSorted s.dev ∧
    Packet.ok p = true ∧
    let d := s.dev
    (fabPort d port.val).up = true ∧
    headerOk p = true ∧
    p.dst ≠ 0xFFFF ∧
    ev ≠ .bufUE ∧
    ev ≠ .tableUE ∧
    p.vc = 0 ∧
    SMap.sorted d.fab.ports = true :=
  ⟨(stOf fab9), 0, (pk 8 0 0 0 (zeros 512)), .none, live_of (by decide +kernel), by unfold regsSorted; decide +kernel, by decide +kernel, by decide +kernel⟩

end WPacketsAreForwarded

namespace WWindowsServeRemoteAccesses

def wv (w0 w1 w2 w3 : Nat) : BitVec 128 := BitVec.ofNat 128 (w0 + 2^32*w1 + 2^64*w2 + 2^96*w3)
def withWin (d : Dev) (v : BitVec 128) : Dev := { d with fab := { d.fab with win := [(2, v)] } }
def wA : State := stOf (withWin (setJob fab9 3 { aJob with resident := true }) (wv (0xF0000000 + 3*2^16 + 287) 4096 1 0xFFFF000C))
def wC : State := stOf (withWin fab9 (wv (0xF0000000 + 3*2^16 + 287) 4096 1 0xFFFF000C))

theorem wit_WindowsServeRemoteAccesses_0 :
    ∃ s : State, ∃ port : PortId, ∃ p : Packet, ∃ ev : Upset, live s ∧
    regsSorted s.dev ∧
    Packet.ok p = true ∧
    headerOk p = true ∧
    (fabPort s.dev port.val).up = true ∧
    p.dst = ownDid s.dev ∧
    ev ≠ .bufUE ∧
    ev ≠ .tableUE ∧
    let d := s.dev
    let w := p.stamp / 16
    p.typ = 1 ∧
    winRefuses d w p.src 29 p.addr p.payload.length = none ∧
    winPending d w p.addr p.payload.length = false :=
  ⟨wA, 0, (pk 1 1 4080 32 (zeros 15 ++ [7])), .none, live_of (by decide +kernel), by unfold regsSorted; decide +kernel, by decide +kernel, by decide +kernel, by decide +kernel, (by decide +kernel), by decide +kernel, by decide +kernel, by decide +kernel⟩
theorem wit_WindowsServeRemoteAccesses_2 :
    ∃ s : State, ∃ port : PortId, ∃ p : Packet, ∃ ev : Upset, live s ∧
    regsSorted s.dev ∧
    Packet.ok p = true ∧
    headerOk p = true ∧
    (fabPort s.dev port.val).up = true ∧
    p.dst = ownDid s.dev ∧
    ev ≠ .bufUE ∧
    ev ≠ .tableUE ∧
    let d := s.dev
    let w := p.stamp / 16
    let n := ofLeBytes (p.payload.take 4)
    p.typ = 3 ∧
    winRefuses d w p.src 30 p.addr n = none ∧
    winPending d w p.addr n = false ∧
    ev = .none ∧
    ∃ out : Nat, n ≤ 512 ∧
    (∀ k ∈ winGrans d w p.addr n, ∀ sid, rootOf d k = some sid → poisoned d sid = false) ∧
    p.src ≠ ownDid d ∧
    ownDid d ≠ 0 ∧
    p.src < 0x8000 ∧
    routePort d 1 p.src = some (out, false) ∧
    (fabPort d out).queued = [] ∧
    ceilDiv (16 + n) 64 ≤ (fabPort d out).creditBulk :=
  ⟨wA, 0, (pk 3 1 0 32 ([0, 2] ++ zeros 14)), .none, live_of (by decide +kernel), by unfold regsSorted; decide +kernel, by decide +kernel, by decide +kernel, by decide +kernel, (by decide +kernel), by decide +kernel, by decide +kernel, by decide +kernel, (by decide +kernel), by decide +kernel, by decide +kernel, 23, by decide +kernel⟩
theorem wit_WindowsServeRemoteAccesses_3 :
    ∃ s : State, ∃ port : PortId, ∃ p : Packet, ∃ ev : Upset, live s ∧
    regsSorted s.dev ∧
    Packet.ok p = true ∧
    headerOk p = true ∧
    (fabPort s.dev port.val).up = true ∧
    p.dst = ownDid s.dev ∧
    ev ≠ .bufUE ∧
    ev ≠ .tableUE ∧
    ∃ x, x ∈ [(1, Instr.put port p .bufUE), (3, .getReq port p .bufUE), (5, .atomic port p .bufUE)] ∧ p.typ = x.1 :=
  ⟨wA, 0, (pk 1 1 4080 32 (zeros 15 ++ [7])), .none, live_of (by decide +kernel), by unfold regsSorted; decide +kernel, by decide +kernel, by decide +kernel, by decide +kernel, (by decide +kernel), by decide +kernel, by decide +kernel, _, List.mem_of_getElem? (i := 0) rfl, by decide +kernel⟩
theorem wit_WindowsServeRemoteAccesses_4 :
    ∃ s : State, ∃ port : PortId, ∃ p : Packet, ∃ ev : Upset, live s ∧
    regsSorted s.dev ∧
    Packet.ok p = true ∧
    headerOk p = true ∧
    (fabPort s.dev port.val).up = true ∧
    p.dst = ownDid s.dev ∧
    ev ≠ .bufUE ∧
    ev ≠ .tableUE ∧
    let d := s.dev
    let w := p.stamp / 16
    let at_ := winBase d w + p.addr
    p.typ = 5 ∧
    winRefuses d w p.src 28 p.addr 8 = none ∧
    at_ % 8 = 0 ∧
    (p.payload[0]?).getD 0 ≤ 7 ∧
    isPending d (winGran d w p.addr).1 = false ∧
    ev = .none ∧
    poisoned d (winGran d w p.addr).1 = false :=
  ⟨wA, 0, (pk 5 1 8 32 ([2] ++ zeros 7 ++ [5] ++ zeros 7 ++ [9] ++ zeros 15)), .none, live_of (by decide +kernel), by unfold regsSorted; decide +kernel, by decide +kernel, by decide +kernel, by decide +kernel, (by decide +kernel), by decide +kernel, by decide +kernel, by decide +kernel⟩
theorem wit_WindowsServeRemoteAccesses_5 :
    ∃ s : State, ∃ port : PortId, ∃ p : Packet, ∃ ev : Upset, live s ∧
    regsSorted s.dev ∧
    Packet.ok p = true ∧
    headerOk p = true ∧
    (fabPort s.dev port.val).up = true ∧
    p.dst = ownDid s.dev ∧
    ev ≠ .bufUE ∧
    ev ≠ .tableUE ∧
    let d := s.dev
    let w := p.stamp / 16
    let n := ofLeBytes (p.payload.take 4)
    ∃ x, x ∈ [(1, 29, p.payload.length, Instr.put port p ev), (3, 30, n, .getReq port p ev), (5, 28, 8, .atomic port p ev)] ∧ p.typ = x.1 ∧
    ∃ r : Nat, winRefuses d w p.src x.2.1 p.addr x.2.2.1 = some r :=
  ⟨wA, 0, (pk 1 1 4096 32 (zeros 16)), .none, live_of (by decide +kernel), by unfold regsSorted; decide +kernel, by decide +kernel, by decide +kernel, by decide +kernel, (by decide +kernel), by decide +kernel, by decide +kernel, _, List.mem_of_getElem? (i := 0) rfl, by decide +kernel, 5, by decide +kernel⟩
theorem wit_WindowsServeRemoteAccesses_6 :
    ∃ s : State, ∃ port : PortId, ∃ p : Packet, ∃ ev : Upset, live s ∧
    regsSorted s.dev ∧
    Packet.ok p = true ∧
    headerOk p = true ∧
    (fabPort s.dev port.val).up = true ∧
    p.dst = ownDid s.dev ∧
    ev ≠ .bufUE ∧
    ev ≠ .tableUE ∧
    let d := s.dev
    let w := p.stamp / 16
    let at_ := winBase d w + p.addr
    winValid d w = true ∧
    winSrcOk d w p.src = true ∧
    (winWord d w 0).testBit 29 = true ∧
    winTier d w = 0 ∧
    p.addr + p.payload.length ≤ winSize d w ∧
    at_ + p.payload.length ≤ scratchBytes ∧
    (job d (winJob d w)).resident = false :=
  ⟨wC, 0, (pk 1 1 4080 32 (zeros 15 ++ [7])), .none, live_of (by decide +kernel), by unfold regsSorted; decide +kernel, by decide +kernel, by decide +kernel, by decide +kernel, (by decide +kernel), by decide +kernel, by decide +kernel, by decide +kernel⟩

end WWindowsServeRemoteAccesses

namespace WResponsesEndRequests

def rq (typ addr left loc : Nat) (o : ReqOwner) : Req := ⟨typ, 12, addr, left, loc, 77, 1000, o⟩
def wq (r : Req) : State := stOf { put1 (setJob fab9 3 aJob) { cmdOf 2 [] with phase := .running } with fab := { fab9.fab with reqs := [(5, r)], ropBusy := true, mbBusy := true }, now := 5000000 }
def r1 := rq 1 0 0 0 (.pf 3 1)
def r2 := rq 3 16 16 (2^48*287+4080) (.pf 3 1)
def r3 := rq 5 16 8 0 .rop
def r4 := rq 11 16 0 0 .mailbox
def r6 := rq 3 16 4096 0 (.cmd 1 0)

theorem wit_ResponsesEndRequests_0 :
    ∃ s : State, ∃ port : PortId, ∃ p : Packet, ∃ r : Req, live s ∧
    regsSorted s.dev ∧
    Packet.ok p = true ∧
    headerOk p = true ∧
    (fabPort s.dev port.val).up = true ∧
    p.dst = ownDid s.dev ∧
    SMap.get? s.dev.fab.reqs p.tag = some r ∧
    SMap.sorted s.dev.fab.reqs = true ∧
    s.dev.fab.reqWait = [] ∧
    ∃ j : Nat, ∃ i : Nat, p.typ = 2 ∧
    r.typ = 1 ∧
    r.did = p.src ∧
    r.owner = .pf j i :=
  ⟨(wq r1), 0, (pk 2 1 0 0 []), r1, live_of (by decide +kernel), by unfold regsSorted; decide +kernel, by decide +kernel, by decide +kernel, by decide +kernel, (by decide +kernel), by decide +kernel, by decide +kernel, by decide +kernel, 3, 1, by decide +kernel⟩
theorem wit_ResponsesEndRequests_1 :
    ∃ s : State, ∃ port : PortId, ∃ p : Packet, ∃ r : Req, live s ∧
    regsSorted s.dev ∧
    Packet.ok p = true ∧
    headerOk p = true ∧
    (fabPort s.dev port.val).up = true ∧
    p.dst = ownDid s.dev ∧
    SMap.get? s.dev.fab.reqs p.tag = some r ∧
    SMap.sorted s.dev.fab.reqs = true ∧
    s.dev.fab.reqWait = [] ∧
    ∃ j : Nat, ∃ i : Nat, ∃ c : Nat, ∃ o : Nat, p.typ = 4 ∧
    r.typ = 3 ∧
    r.did = p.src ∧
    r.owner = .pf j i ∧
    p.addr = r.addr ∧
    r.left ≤ p.payload.length ∧
    decodeAddr r.local_ = .t0 c o :=
  ⟨(wq r2), 0, (pk 4 1 16 0 (zeros 15 ++ [9])), r2, live_of (by decide +kernel), by unfold regsSorted; decide +kernel, by decide +kernel, by decide +kernel, by decide +kernel, (by decide +kernel), by decide +kernel, by decide +kernel, by decide +kernel, 3, 1, 287, 4080, by decide +kernel⟩
theorem wit_ResponsesEndRequests_2 :
    ∃ s : State, ∃ port : PortId, ∃ p : Packet, ∃ r : Req, live s ∧
    regsSorted s.dev ∧
    Packet.ok p = true ∧
    headerOk p = true ∧
    (fabPort s.dev port.val).up = true ∧
    p.dst = ownDid s.dev ∧
    SMap.get? s.dev.fab.reqs p.tag = some r ∧
    SMap.sorted s.dev.fab.reqs = true ∧
    s.dev.fab.reqWait = [] ∧
    p.typ = 6 ∧
    r.typ = 5 ∧
    r.did = p.src :=
  ⟨(wq r3), 0, (pk 6 1 0 0 ([1,2,3,4,5,6,7,8] ++ zeros 8)), r3, live_of (by decide +kernel), by unfold regsSorted; decide +kernel, by decide +kernel⟩
theorem wit_ResponsesEndRequests_3 :
    ∃ s : State, ∃ port : PortId, ∃ p : Packet, ∃ r : Req, live s ∧
    regsSorted s.dev ∧
    Packet.ok p = true ∧
    headerOk p = true ∧
    (fabPort s.dev port.val).up = true ∧
    p.dst = ownDid s.dev ∧
    SMap.get? s.dev.fab.reqs p.tag = some r ∧
    SMap.sorted s.dev.fab.reqs = true ∧
    s.dev.fab.reqWait = [] ∧
    p.typ = 13 ∧
    r.owner = .mailbox :=
  ⟨(wq r4), 0, (pk 13 2 0 0 ([3,0,0,0,1,2,3,255] ++ zeros 8)), r4, live_of (by decide +kernel), by unfold regsSorted; decide +kernel, by decide +kernel⟩
theorem wit_ResponsesEndRequests_4 :
    ∃ s : State, ∃ port : PortId, ∃ p : Packet, ∃ r : Req, live s ∧
    regsSorted s.dev ∧
    Packet.ok p = true ∧
    headerOk p = true ∧
    (fabPort s.dev port.val).up = true ∧
    p.dst = ownDid s.dev ∧
    SMap.get? s.dev.fab.reqs p.tag = some r ∧
    SMap.sorted s.dev.fab.reqs = true ∧
    s.dev.fab.reqWait = [] ∧
    p.typ = 7 ∧
    p.addr % 256 = 4 ∧
    r.owner = .rop :=
  ⟨(wq r3), 0, (pk 7 1 4 0 []), r3, live_of (by decide +kernel), by unfold regsSorted; decide +kernel, by decide +kernel⟩
theorem wit_ResponsesEndRequests_5 :
    ∃ s : State, ∃ port : PortId, ∃ p : Packet, ∃ r : Req, live s ∧
    regsSorted s.dev ∧
    Packet.ok p = true ∧
    headerOk p = true ∧
    (fabPort s.dev port.val).up = true ∧
    p.dst = ownDid s.dev ∧
    SMap.get? s.dev.fab.reqs p.tag = some r ∧
    SMap.sorted s.dev.fab.reqs = true ∧
    s.dev.fab.reqWait = [] ∧
    let d := s.dev
    ∃ uid : Nat, ∃ act : Nat, ∃ c : Cmd, p.typ = 7 ∧
    p.addr % 256 = 3 ∧
    r.owner = .cmd uid act ∧
    cmd d uid = some c ∧
    c.phase ≠ .ended :=
  ⟨(wq r6), 0, (pk 7 1 3 0 []), r6, live_of (by decide +kernel), by unfold regsSorted; decide +kernel, by decide +kernel, by decide +kernel, by decide +kernel, (by decide +kernel), by decide +kernel, by decide +kernel, by decide +kernel, 1, 0, { cmdOf 2 [] with phase := .running }, by decide +kernel⟩
theorem wit_ResponsesEndRequests_6 :
    ∃ s : State, ∃ port : PortId, ∃ p : Packet, ∃ r : Req, live s ∧
    regsSorted s.dev ∧
    Packet.ok p = true ∧
    headerOk p = true ∧
    (fabPort s.dev port.val).up = true ∧
    p.dst = ownDid s.dev ∧
    SMap.get? s.dev.fab.reqs p.tag = some r ∧
    SMap.sorted s.dev.fab.reqs = true ∧
    s.dev.fab.reqWait = [] ∧
    let d := s.dev
    ∃ tag : Fin 1024, tag.val = p.tag ∧
    d.now < r.sentAt + rf d 0x11C * 1050 :=
  ⟨(stOf { (wq r3).dev with now := 1000 + 1050 * rf (wq r3).dev 0x11C - 1 }), 0, (pk 2 1 0 0 []), r3, live_of (by decide +kernel), by unfold regsSorted; decide +kernel, by decide +kernel, by decide +kernel, by decide +kernel, (by decide +kernel), by decide +kernel, by decide +kernel, by decide +kernel, 5, by decide +kernel⟩
theorem wit_ResponsesEndRequests_7 :
    ∃ s : State, ∃ port : PortId, ∃ p : Packet, ∃ r : Req, live s ∧
    regsSorted s.dev ∧
    Packet.ok p = true ∧
    headerOk p = true ∧
    (fabPort s.dev port.val).up = true ∧
    p.dst = ownDid s.dev ∧
    SMap.get? s.dev.fab.reqs p.tag = some r ∧
    SMap.sorted s.dev.fab.reqs = true ∧
    s.dev.fab.reqWait = [] ∧
    let d := s.dev
    ∃ tag : Fin 1024, tag.val = p.tag ∧
    r.sentAt + rf d 0x11C * 1050 ≤ d.now ∧
    r.owner = .rop :=
  ⟨(wq r3), 0, (pk 2 1 0 0 []), r3, live_of (by decide +kernel), by unfold regsSorted; decide +kernel, by decide +kernel, by decide +kernel, by decide +kernel, (by decide +kernel), by decide +kernel, by decide +kernel, by decide +kernel, 5, by decide +kernel⟩

end WResponsesEndRequests

namespace WRemoteOperationsAreStarted

def wA : State := stOf (setRg (setRg (setJob fab9 3 { aJob with quota3 := 1 }) 56 16 0x15C 4095) 56 16 0x160 (3*2^16+12))
def wB : State := stOf { wA.dev with fab := { wA.dev.fab with hdl := [(6, (3, 9, 7)), (7, (3, 13, 7)), (4095, (3, 12, 7))] } }
def wC : State := stOf (setRg wB.dev 56 16 0x104 0)
def wD : State := stOf { fab9 with fab := { fab9.fab with ports := [(23, { upP with calLeft := 1, calSeen := true, calMin := 5, calMax := 9 })] } }

theorem wit_RemoteOperationsAreStarted_0 :
    ∃ s : State, ∃ acc : Acc, live s ∧
    regsSorted s.dev ∧
    SMap.sorted s.dev.fab.ports = true ∧
    let d := s.dev
    let h := rf d 0x15C
    let j := bitsOf (rf d 0x160) 23 16
    Performed d acc (regOff 56 16 0x168) ∧
    SMap.get? d.fab.hdl h = none ∧
    usage d j 3 < quotaOf (job d j) 3 :=
  ⟨wA, .firmware, live_of (by decide +kernel), by unfold regsSorted; decide +kernel, by decide +kernel, performed_of (by decide +kernel), by decide +kernel⟩
theorem wit_RemoteOperationsAreStarted_2 :
    ∃ s : State, ∃ acc : Acc, live s ∧
    regsSorted s.dev ∧
    SMap.sorted s.dev.fab.ports = true ∧
    let d := s.dev
    let h := rf d 0x15C
    Performed d acc (regOff 56 16 0x168) ∧
    ∃ v : Nat × Nat × Nat, SMap.get? d.fab.hdl h = some v ∧
    SMap.sorted d.fab.hdl = true :=
  ⟨wB, .firmware, live_of (by decide +kernel), by unfold regsSorted; decide +kernel, by decide +kernel, performed_of (by decide +kernel), (3,12,7), by decide +kernel⟩
theorem wit_RemoteOperationsAreStarted_4 :
    ∃ s : State, ∃ acc : Acc, live s ∧
    regsSorted s.dev ∧
    SMap.sorted s.dev.fab.ports = true ∧
    let d := s.dev
    Performed d acc (regOff 56 16 0x180) ∧
    ∃ v : Word, v.toNat.testBit 31 = false :=
  ⟨wA, .firmware, live_of (by decide +kernel), by unfold regsSorted; decide +kernel, by decide +kernel, performed_of (by decide +kernel), (0#32), by decide +kernel⟩
theorem wit_RemoteOperationsAreStarted_5 :
    ∃ s : State, ∃ acc : Acc, live s ∧
    regsSorted s.dev ∧
    SMap.sorted s.dev.fab.ports = true ∧
    let d := s.dev
    Performed d acc (regOff 56 16 0x180) ∧
    ∃ v : Word, v.toNat.testBit 31 = true ∧
    d.fab.ropBusy = false ∧
    SMap.get? d.fab.hdl (bitsOf v.toNat 11 0) = none :=
  ⟨wA, .firmware, live_of (by decide +kernel), by unfold regsSorted; decide +kernel, by decide +kernel, performed_of (by decide +kernel), (0x80000000#32), by decide +kernel⟩
theorem wit_RemoteOperationsAreStarted_6 :
    ∃ s : State, ∃ acc : Acc, live s ∧
    regsSorted s.dev ∧
    SMap.sorted s.dev.fab.ports = true ∧
    let d := s.dev
    Performed d acc (regOff 56 16 0x180) ∧
    ∃ v : Word, ∃ did : Nat, ∃ win : Nat, v.toNat.testBit 31 = true ∧
    d.fab.ropBusy = false ∧
    d.fab.reqWait = [] ∧
    d.fab.reqs = [] ∧
    SMap.get? d.fab.hdl (bitsOf v.toNat 11 0) = some (bitsOf v.toNat 23 16, did, win) ∧
    ownDid d ≠ 0 ∧
    ((did = ownDid d ∨ (did < 0x8000 ∧ (routePort d 1 did).isSome = true))) :=
  ⟨wB, .firmware, live_of (by decide +kernel), by unfold regsSorted; decide +kernel, by decide +kernel, performed_of (by decide +kernel), (0x80030FFF#32), 12, 7, by decide +kernel⟩
theorem wit_RemoteOperationsAreStarted_7 :
    ∃ s : State, ∃ acc : Acc, live s ∧
    regsSorted s.dev ∧
    SMap.sorted s.dev.fab.ports = true ∧
    let d := s.dev
    Performed d acc (regOff 56 16 0x170) ∧
    ∃ v : Word, v.toNat.testBit 31 = true ∧
    d.fab.mbBusy = false ∧
    ownDid d = 0 ∧
    bitsOf v.toNat 28 24 ≤ 23 :=
  ⟨wC, .firmware, live_of (by decide +kernel), by unfold regsSorted; decide +kernel, by decide +kernel, performed_of (by decide +kernel), (0x80000000#32), by decide +kernel⟩
theorem wit_RemoteOperationsAreStarted_8 :
    ∃ s : State, ∃ acc : Acc, live s ∧
    regsSorted s.dev ∧
    SMap.sorted s.dev.fab.ports = true ∧
    let d := s.dev
    Performed d acc (regOff 56 16 0x170) ∧
    ∃ v : Word, ∃ out : Nat, v.toNat.testBit 31 = true ∧
    d.fab.mbBusy = false ∧
    d.fab.reqs = [] ∧
    d.fab.reqWait = [] ∧
    ownDid d ≠ 0 ∧
    bitsOf v.toNat 28 24 ≤ 23 ∧
    bitsOf v.toNat 15 0 ≠ ownDid d ∧
    bitsOf v.toNat 15 0 < 0x8000 ∧
    routePort d 2 (bitsOf v.toNat 15 0) = some (out, false) ∧
    (fabPort d out).queued = [] ∧
    1 ≤ (fabPort d out).creditMgmt :=
  ⟨wA, .firmware, live_of (by decide +kernel), by unfold regsSorted; decide +kernel, by decide +kernel, performed_of (by decide +kernel), (0xC003000C#32), 23, by decide +kernel⟩
theorem wit_RemoteOperationsAreStarted_9 :
    ∃ s : State, ∃ acc : Acc, ∃ port : PortId, live s ∧
    regsSorted s.dev ∧
    SMap.sorted s.dev.fab.ports = true ∧
    let d := s.dev
    Performed d acc (regOff (fpDie port.val) (port.val % 6) 0x100) ∧
    (fabPort d port.val).up = true ∧
    (fabPort d port.val).queued = [] ∧
    1 ≤ (fabPort d port.val).creditOrbit :=
  ⟨wA, .firmware, 0, live_of (by decide +kernel), by unfold regsSorted; decide +kernel, by decide +kernel, performed_of (by decide +kernel), by decide +kernel⟩
theorem wit_RemoteOperationsAreStarted_10 :
    ∃ s : State, ∃ port : PortId, live s ∧
    regsSorted s.dev ∧
    SMap.sorted s.dev.fab.ports = true ∧
    let d := s.dev
    ∃ p : Packet, Packet.ok p = true ∧
    headerOk p = true ∧
    p.typ = 10 ∧
    (fabPort d port.val).up = true ∧
    p.payload.head? = some 1 ∧
    (fabPort d port.val).queued = [] ∧
    1 ≤ (fabPort d port.val).creditOrbit :=
  ⟨wA, 0, live_of (by decide +kernel), by unfold regsSorted; decide +kernel, by decide +kernel, (pk 10 0 0 0 ([1]++zeros 15)), by decide +kernel⟩
theorem wit_RemoteOperationsAreStarted_11 :
    ∃ s : State, ∃ port : PortId, live s ∧
    regsSorted s.dev ∧
    SMap.sorted s.dev.fab.ports = true ∧
    let d := s.dev
    ∃ p : Packet, Packet.ok p = true ∧
    headerOk p = true ∧
    p.typ = 10 ∧
    (fabPort d port.val).up = true ∧
    p.payload.head? = some 2 ∧
    (fabPort d port.val).calLeft = 1 :=
  ⟨wD, 23, live_of (by decide +kernel), by unfold regsSorted; decide +kernel, by decide +kernel, (pk 10 0 0 0 ([2]++zeros 15)), by decide +kernel⟩

end WRemoteOperationsAreStarted

namespace WOrbitWordsAreReleasedInTheirSlots

def wp (d : Dev) (q : Port) : State := stOf { d with fab := { d.fab with ports := [(0, upP), (23, q)] } }
def dat : Packet := { pk 8 0 (2^26*287+4096) 65535 (zeros 511 ++ [9]) with sealed := true }
def sig : Packet := pk 9 0 0 7 [5,0, 3,0, 31,1, 255, 0, 0,0,0,0,0,0,0,0]
def wA : State := wp fab9 upP
def wC : State := wp fab9 { upP with release := [⟨.pkt dat, 0, 0⟩, ⟨.pkt sig, 1, 0⟩] }

theorem wit_OrbitWordsAreReleasedInTheirSlots_0 :
    ∃ s : State, ∃ port : PortId, ∃ p : Packet, live s ∧
    regsSorted s.dev ∧
    SMap.sorted s.dev.fab.ports = true ∧
    let q := fabPort s.dev port.val
    ∃ x, x ∈ [(8, Instr.orbitData port p), (9, Instr.orbitSignal port p)] ∧ p.typ = x.1 ∧
    Packet.ok p = true ∧
    headerOk p = true ∧
    q.up = true :=
  ⟨wA, 0, dat, live_of (by decide +kernel), by unfold regsSorted; decide +kernel, by decide +kernel, _, List.mem_of_getElem? (i := 0) rfl, by decide +kernel⟩
theorem wit_OrbitWordsAreReleasedInTheirSlots_1 :
    ∃ s : State, ∃ port : PortId, live s ∧
    regsSorted s.dev ∧
    SMap.sorted s.dev.fab.ports = true ∧
    let d := s.dev
    let q := fabPort s.dev port.val
    (∀ w ∈ q.release, cycNow d < w.slot) :=
  ⟨wA, 0, live_of (by decide +kernel), by unfold regsSorted; decide +kernel, by decide +kernel, by decide +kernel⟩
theorem wit_OrbitWordsAreReleasedInTheirSlots_2 :
    ∃ s : State, ∃ port : PortId, ∃ p : Packet, live s ∧
    regsSorted s.dev ∧
    SMap.sorted s.dev.fab.ports = true ∧
    let d := s.dev
    ∃ lateAt : Nat, ∃ w : RelWord, ∃ r : List RelWord, ∃ hops : List Nat, ∃ core : Nat, Releases d port.val lateAt w r ∧
    w.load = .pkt p ∧
    p.route = some (hops, hops.length) ∧
    p.dst = ownDid d ∧
    core < 288 ∧
    ((p.typ = 8 ∧ core = bitsOf p.addr 34 26) ∨ (p.typ = 9 ∧ core = sBytes p.payload 4 2)) :=
  ⟨wC, 23, dat, live_of (by decide +kernel), by unfold regsSorted; decide +kernel, by decide +kernel, 0, ⟨.pkt dat, 0, 0⟩, [⟨.pkt sig, 1, 0⟩], [0], 287, by constructor <;> decide +kernel, by decide +kernel⟩

end WOrbitWordsAreReleasedInTheirSlots

namespace WManagementPacketsReachRegisters



theorem wit_ManagementPacketsReachRegisters_1 :
    ∃ s : State, ∃ port : PortId, ∃ p : Packet, live s ∧
    regsSorted s.dev ∧
    Packet.ok p = true ∧
    headerOk p = true ∧
    (fabPort s.dev port.val).up = true ∧
    p.dst = ownDid s.dev ∧
    let d := s.dev
    ∃ out : Nat, ∃ a : Nat, p.typ = 11 ∧
    mgmtTarget p = some a ∧
    (mgmtSrcOk d p = true ∨ anyoneReads a = true) ∧
    p.src ≠ ownDid d ∧
    ownDid d ≠ 0 ∧
    p.src < 0x8000 ∧
    routePort d 2 p.src = some (out, false) ∧
    (fabPort d out).queued = [] ∧
    1 ≤ (fabPort d out).creditMgmt :=
  ⟨(stOf fab9), 0, (pk 11 2 (regOff 56 16 0x114) 0 []), live_of (by decide +kernel), by unfold regsSorted; decide +kernel, by decide +kernel, by decide +kernel, by decide +kernel, (by decide +kernel), 23, (regOff 56 16 0x114), by decide +kernel⟩
theorem wit_ManagementPacketsReachRegisters_2 :
    ∃ s : State, ∃ port : PortId, ∃ p : Packet, live s ∧
    regsSorted s.dev ∧
    Packet.ok p = true ∧
    headerOk p = true ∧
    (fabPort s.dev port.val).up = true ∧
    p.dst = ownDid s.dev ∧
    let d := s.dev
    p.typ = 12 ∧
    p.addr = regOff 56 17 0x11C ∧
    mgmtSrcOk d p = true :=
  ⟨(stOf (setRg fab9 56 16 0x108 12)), 0, (pk 12 2 (regOff 56 17 0x11C) 0 ([255,255,255,255] ++ zeros 12)), live_of (by decide +kernel), by unfold regsSorted; decide +kernel, by decide +kernel, by decide +kernel, by decide +kernel, (by decide +kernel), by decide +kernel⟩
theorem wit_ManagementPacketsReachRegisters_3 :
    ∃ s : State, ∃ port : PortId, ∃ p : Packet, live s ∧
    regsSorted s.dev ∧
    Packet.ok p = true ∧
    headerOk p = true ∧
    (fabPort s.dev port.val).up = true ∧
    p.dst = ownDid s.dev ∧
    let d := s.dev
    p.typ = 12 ∧
    mgmtSrcOk d p = false :=
  ⟨(stOf fab9), 0, (pk 12 2 (regOff 56 17 0x11C) 0 ([255,255,255,255] ++ zeros 12)), live_of (by decide +kernel), by unfold regsSorted; decide +kernel, by decide +kernel, by decide +kernel, by decide +kernel, (by decide +kernel), by decide +kernel⟩

end WManagementPacketsReachRegisters

namespace WTimeIsSetAndMeasured

def tc (c : Nat) (d : Dev) : State := stOf (setRg (setRg (setRg { d with tim := { d.tim with ns := 7*2^40 } } 56 17 0x100 c) 56 17 0x108 1) 56 17 0x124 5)
def wA : State := tc (0x10 + 0x2000 + 23*256 + 7*65536) { fab9 with tim := { zeroTime with peerDelay := 3, synced := true }, now := 10^10 }
def wB : State := tc 0xE { fab9 with tim := { zeroTime with ppsOk := true, refOk := true }, now := 10^10 }
def wC : State := tc 0xA { fab9 with tim := { zeroTime with refOk := true }, now := 10^10 }
def rel (m : PtpMsg) (late : Bool) : State := stOf { wA.dev with fab := { fab9.fab with ports := [(0, upP), (23, { upP with release := [⟨.ptp m, 10^10 - (if late then 1 else 0), 5⟩, ⟨.ptp m, 10^11, 5⟩] })] } }
def ppsBad : State := stOf { wB.dev with tim := { wB.dev.tim with ppsEdge := some 7, lastPps := 7 } }

theorem wit_TimeIsSetAndMeasured_0 :
    ∃ s : State, ∃ acc : Acc, live s ∧
    regsSorted s.dev ∧
    SMap.sorted s.dev.fab.ports = true ∧
    let d := s.dev
    Performed d acc (regOff 56 17 0x11C) :=
  ⟨wA, .firmware, live_of (by decide +kernel), by unfold regsSorted; decide +kernel, by decide +kernel, performed_of (by decide +kernel)⟩
theorem wit_TimeIsSetAndMeasured_1 :
    ∃ s : State, ∃ port : PortId, ∃ dom : Fin 256, live s ∧
    regsSorted s.dev ∧
    SMap.sorted s.dev.fab.ports = true ∧
    let d := s.dev
    (fabPort d port.val).up = true ∧
    ∃ stamp : BitVec 16, ∃ off : Int, ∃ m : Fin 16, ∃ req : List Byte, ∃ x, x ∈ [(Instr.ptpSync port stamp dom off, PtpMsg.sync dom.val off), (.ptpPdelayReq port stamp dom req, .delayReq dom.val), (.ptpPdelayResp port stamp dom off, .delayResp dom.val off), (.ptpAnnounce port stamp dom, .announce dom.val), (.ptpDiscard port stamp dom m, .other m.val)] :=
  ⟨wA, 0, 7, live_of (by decide +kernel), by unfold regsSorted; decide +kernel, by decide +kernel, by decide +kernel, 7, 5, 0, [], _, List.mem_of_getElem? (i := 0) rfl⟩
theorem wit_TimeIsSetAndMeasured_2 :
    ∃ s : State, ∃ port : PortId, ∃ dom : Fin 256, live s ∧
    regsSorted s.dev ∧
    SMap.sorted s.dev.fab.ports = true ∧
    let d := s.dev
    let here := ptpHere d dom.val = true ∧ isSlavePort d port.val = true ∧ (fabPort d port.val).up = true
    ∃ lateAt : Nat, ∃ w : RelWord, ∃ r : List RelWord, Releases d port.val lateAt w r ∧
    here ∧
    ∃ off : Int, w.load = .ptp (.sync dom.val off) :=
  ⟨(rel (.sync 7 1283) false), 23, 7, live_of (by decide +kernel), by unfold regsSorted; decide +kernel, by decide +kernel, 0, ⟨.ptp (.sync 7 1283), 10^10 - 0, 5⟩, [⟨.ptp (.sync 7 1283), 10^11, 5⟩], by constructor <;> decide +kernel, by decide +kernel, 1283, by decide +kernel⟩
theorem wit_TimeIsSetAndMeasured_3 :
    ∃ s : State, ∃ port : PortId, ∃ dom : Fin 256, live s ∧
    regsSorted s.dev ∧
    SMap.sorted s.dev.fab.ports = true ∧
    let d := s.dev
    let here := ptpHere d dom.val = true ∧ isSlavePort d port.val = true ∧ (fabPort d port.val).up = true
    ∃ lateAt : Nat, ∃ w : RelWord, ∃ r : List RelWord, Releases d port.val lateAt w r ∧
    here ∧
    ∃ delay : Int, w.load = .ptp (.delayResp dom.val delay) :=
  ⟨(rel (.delayResp 7 (-4)) false), 23, 7, live_of (by decide +kernel), by unfold regsSorted; decide +kernel, by decide +kernel, 0, ⟨.ptp (.delayResp 7 (-4)), 10^10 - 0, 5⟩, [⟨.ptp (.delayResp 7 (-4)), 10^11, 5⟩], by constructor <;> decide +kernel, by decide +kernel, (-4), by decide +kernel⟩
theorem wit_TimeIsSetAndMeasured_4 :
    ∃ s : State, ∃ port : PortId, ∃ dom : Fin 256, live s ∧
    regsSorted s.dev ∧
    SMap.sorted s.dev.fab.ports = true ∧
    let d := s.dev
    let here := ptpHere d dom.val = true ∧ isSlavePort d port.val = true ∧ (fabPort d port.val).up = true
    ∃ lateAt : Nat, ∃ w : RelWord, ∃ r : List RelWord, Releases d port.val lateAt w r ∧
    here ∧
    w.load = .ptp (.announce dom.val) :=
  ⟨(rel (.announce 7) false), 23, 7, live_of (by decide +kernel), by unfold regsSorted; decide +kernel, by decide +kernel, 0, ⟨.ptp (.announce 7), 10^10 - 0, 5⟩, [⟨.ptp (.announce 7), 10^11, 5⟩], by constructor <;> decide +kernel, by decide +kernel⟩
theorem wit_TimeIsSetAndMeasured_5 :
    ∃ s : State, ∃ port : PortId, ∃ dom : Fin 256, live s ∧
    regsSorted s.dev ∧
    SMap.sorted s.dev.fab.ports = true ∧
    let d := s.dev
    let here := ptpHere d dom.val = true ∧ isSlavePort d port.val = true ∧ (fabPort d port.val).up = true
    ∃ lateAt : Nat, ∃ w : RelWord, ∃ r : List RelWord, Releases d port.val lateAt w r ∧
    here ∧
    w.load = .ptp (.delayReq dom.val) ∧
    (fabPort d port.val).queued = [] ∧
    2 ≤ (fabPort d port.val).creditTime :=
  ⟨(rel (.delayReq 7) false), 23, 7, live_of (by decide +kernel), by unfold regsSorted; decide +kernel, by decide +kernel, 0, ⟨.ptp (.delayReq 7), 10^10 - 0, 5⟩, [⟨.ptp (.delayReq 7), 10^11, 5⟩], by constructor <;> decide +kernel, by decide +kernel⟩
theorem wit_TimeIsSetAndMeasured_6 :
    ∃ s : State, ∃ port : PortId, ∃ dom : Fin 256, live s ∧
    regsSorted s.dev ∧
    SMap.sorted s.dev.fab.ports = true ∧
    let d := s.dev
    ∃ lateAt : Nat, ∃ w : RelWord, ∃ r : List RelWord, Releases d port.val lateAt w r ∧
    ∃ off : Int, ptpHere d dom.val = false ∧
    w.load = .ptp (.sync dom.val off) :=
  ⟨(rel (.sync 8 5) false), 23, 8, live_of (by decide +kernel), by unfold regsSorted; decide +kernel, by decide +kernel, 0, ⟨.ptp (.sync 8 5), 10^10 - 0, 5⟩, [⟨.ptp (.sync 8 5), 10^11, 5⟩], by constructor <;> decide +kernel, 5, by decide +kernel⟩
theorem wit_TimeIsSetAndMeasured_7 :
    ∃ s : State, ∃ port : PortId, live s ∧
    regsSorted s.dev ∧
    SMap.sorted s.dev.fab.ports = true ∧
    let d := s.dev
    ∃ lateAt : Nat, ∃ w : RelWord, ∃ r : List RelWord, Releases d port.val lateAt w r ∧
    ∃ m : Fin 16, (timeCtrl d).testBit 4 = true ∧
    (fabPort d port.val).up = true ∧
    ptpDiscards m.val = true ∧
    w.load = .ptp (.other m.val) :=
  ⟨(rel (.other 1) false), 23, live_of (by decide +kernel), by unfold regsSorted; decide +kernel, by decide +kernel, 0, ⟨.ptp (.other 1), 10^10 - 0, 5⟩, [⟨.ptp (.other 1), 10^11, 5⟩], by constructor <;> decide +kernel, 1, by decide +kernel⟩
theorem wit_TimeIsSetAndMeasured_8 :
    ∃ s : State, ∃ port : PortId, live s ∧
    regsSorted s.dev ∧
    SMap.sorted s.dev.fab.ports = true ∧
    let d := s.dev
    (timeCtrl d).testBit 4 = true ∧
    (fabPort d port.val).up = true ∧
    isMasterPort d port.val = true ∧
    (fabPort d port.val).queued = [] ∧
    2 ≤ (fabPort d port.val).creditTime :=
  ⟨wA, 0, live_of (by decide +kernel), by unfold regsSorted; decide +kernel, by decide +kernel, by decide +kernel⟩
theorem wit_TimeIsSetAndMeasured_9 :
    ∃ s : State, live s ∧
    regsSorted s.dev ∧
    SMap.sorted s.dev.fab.ports = true ∧
    let d := s.dev
    isGm d = false ∧
    (timeCtrl d).testBit 4 = true ∧
    d.tim.lastSync + syncLossCycles ≤ d.now ∧
    (rg d 56 17 0x020).testBit 0 = false :=
  ⟨wA, live_of (by decide +kernel), by unfold regsSorted; decide +kernel, by decide +kernel, by decide +kernel⟩
theorem wit_TimeIsSetAndMeasured_10 :
    ∃ s : State, live s ∧
    regsSorted s.dev ∧
    SMap.sorted s.dev.fab.ports = true ∧
    let d := s.dev
    isGm d = true ∧
    (timeCtrl d).testBit 2 = true ∧
    ppsGood d = false :=
  ⟨ppsBad, live_of (by decide +kernel), by unfold regsSorted; decide +kernel, by decide +kernel, by decide +kernel⟩
theorem wit_TimeIsSetAndMeasured_11 :
    ∃ s : State, live s ∧
    regsSorted s.dev ∧
    SMap.sorted s.dev.fab.ports = true ∧
    let d := s.dev
    isGm d = true ∧
    (timeCtrl d).testBit 2 = true ∧
    ppsGood d = true :=
  ⟨wB, live_of (by decide +kernel), by unfold regsSorted; decide +kernel, by decide +kernel, by decide +kernel⟩
theorem wit_TimeIsSetAndMeasured_12 :
    ∃ s : State, live s ∧
    regsSorted s.dev ∧
    SMap.sorted s.dev.fab.ports = true ∧
    let d := s.dev
    isGm d = true ∧
    (timeCtrl d).testBit 2 = true ∧
    d.tim.ppsOk = true ∧
    d.tim.lastPps + 2100000000 ≤ d.now :=
  ⟨wB, live_of (by decide +kernel), by unfold regsSorted; decide +kernel, by decide +kernel, by decide +kernel⟩
theorem wit_TimeIsSetAndMeasured_13 :
    ∃ s : State, live s ∧
    regsSorted s.dev ∧
    SMap.sorted s.dev.fab.ports = true ∧
    let d := s.dev
    isGm d = true ∧
    (timeCtrl d).testBit 3 = true ∧
    d.tim.refOk = true :=
  ⟨wB, live_of (by decide +kernel), by unfold regsSorted; decide +kernel, by decide +kernel, by decide +kernel⟩
theorem wit_TimeIsSetAndMeasured_14 :
    ∃ s : State, live s ∧
    regsSorted s.dev ∧
    SMap.sorted s.dev.fab.ports = true ∧
    let d := s.dev
    isGm d = true ∧
    (timeCtrl d).testBit 3 = true ∧
    (timeCtrl d).testBit 2 = false :=
  ⟨wC, live_of (by decide +kernel), by unfold regsSorted; decide +kernel, by decide +kernel, by decide +kernel⟩

end WTimeIsSetAndMeasured

namespace WFaultsAreInjectedAndCleared



theorem wit_FaultsAreInjectedAndCleared_0 :
    ∃ s : State, ∃ acc : Acc, ∃ die : Fin 64, ∃ page : Fin 1024, ∃ b : Blk, live s ∧
    blkAt die.val page.val = some b ∧
    Performed s.dev acc (hdrOff acc die.val page.val 0x04C) ∧
    s.dev.factoryTest = false :=
  ⟨(stOf rdy), .firmware, 0, 0, .core, live_of (by decide +kernel), by decide +kernel, performed_of (by decide +kernel), by decide +kernel⟩
theorem wit_FaultsAreInjectedAndCleared_2 :
    ∃ s : State, ∃ acc : Acc, ∃ die : Fin 64, ∃ page : Fin 1024, ∃ src : Fin 32, ∃ b : Blk, live s ∧
    blkAt die.val page.val = some b ∧
    Performed s.dev acc (hdrOff acc die.val page.val 0x04C) ∧
    blkNsrc b ≤ src.val :=
  ⟨(stOf rdy), .firmware, 0, 0, 8, .core, live_of (by decide +kernel), by decide +kernel, performed_of (by decide +kernel), by decide +kernel⟩

end WFaultsAreInjectedAndCleared

namespace WFaultRecordsAreCollected

def rec : Rec := ⟨blkIdOf 60 3, 1, 2, false, false, false, 5, 6, 7, 8⟩
def rr : Rec := { rec with reaction := 1, masked := true }
def fl (f : Flt) : State := stOf { setRg rdy 5 3 0x20 0xFF with flt := f, tim := { zeroTime with ns := 10^9 * 2^32 } }
def wA : State := stOf { rdy with factoryTest := true }
def wB : State := fl { emptyFlt with reports := [(5, [rec, rr])], log := [rr], logWr := 65535, logRd := 65534, irqPend := true, missed := [(0,2),(63,2)], org := [(3, ⟨12, 1, 2, 10^9 - 5, 10^9, 9⟩), (4, ⟨13, 1, 2, 1, 2, 9⟩)] }
def wC : State := fl { emptyFlt with reports := [(5, [rr])], log := List.replicate 256 rec, logRd := 65535, irqPend := true }

theorem wit_FaultRecordsAreCollected_0 :
    ∃ s : State, ∃ acc : Acc, live s ∧
    regsSorted s.dev ∧
    let d := s.dev
    ∃ die : Fin 64, ∃ page : Fin 1024, ∃ b : Blk, blkAt die.val page.val = some b ∧
    homeDie die.val page.val = die.val ∧
    ∃ src : Fin 32, d.factoryTest = true ∧
    src.val < blkNsrc b ∧
    Performed d acc (hdrOff acc die.val page.val 0x04C) :=
  ⟨wA, .firmware, live_of (by decide +kernel), by unfold regsSorted; decide +kernel, 0, 0, .core, by decide +kernel, by decide +kernel, 0, by decide +kernel, by decide +kernel, performed_of (by decide +kernel)⟩
theorem wit_FaultRecordsAreCollected_1 :
    ∃ s : State, ∃ acc : Acc, live s ∧
    regsSorted s.dev ∧
    let d := s.dev
    ∃ die : Fin 64, ∃ page : Fin 1024, ∃ b : Blk, blkAt die.val page.val = some b ∧
    homeDie die.val page.val = die.val ∧
    Performed d acc (hdrOff acc die.val page.val 0x020) :=
  ⟨wA, .firmware, live_of (by decide +kernel), by unfold regsSorted; decide +kernel, 0, 0, .core, by decide +kernel, by decide +kernel, performed_of (by decide +kernel)⟩
theorem wit_FaultRecordsAreCollected_2 :
    ∃ s : State, live s ∧
    regsSorted s.dev ∧
    let d := s.dev
    ∃ die : Fin 64, ∃ r : Rec, ∃ rest : List Rec, SMap.get? d.flt.reports die.val = some (r :: rest) ∧
    NSet.mem d.flt.lost die.val = false ∧
    d.flt.log.length < 256 :=
  ⟨wB, live_of (by decide +kernel), by unfold regsSorted; decide +kernel, 5, rec, [rr], by decide +kernel⟩
theorem wit_FaultRecordsAreCollected_3 :
    ∃ s : State, live s ∧
    regsSorted s.dev ∧
    let d := s.dev
    ∃ die : Fin 64, ∃ r : Rec, ∃ rest : List Rec, SMap.get? d.flt.reports die.val = some (r :: rest) ∧
    NSet.mem d.flt.lost die.val = false ∧
    256 ≤ d.flt.log.length :=
  ⟨wC, live_of (by decide +kernel), by unfold regsSorted; decide +kernel, 5, rr, [], by decide +kernel⟩
theorem wit_FaultRecordsAreCollected_5 :
    ∃ s : State, ∃ acc : Acc, live s ∧
    regsSorted s.dev ∧
    let d := s.dev
    Performed d acc (regOff 60 3 0x104) ∧
    d.flt.irqPend = true :=
  ⟨wB, .firmware, live_of (by decide +kernel), by unfold regsSorted; decide +kernel, performed_of (by decide +kernel), by decide +kernel⟩
theorem wit_FaultRecordsAreCollected_6 :
    ∃ s : State, ∃ acc : Acc, live s ∧
    regsSorted s.dev ∧
    let d := s.dev
    ∃ v : Word, Performed d acc (regOff 60 3 0x114) ∧
    let n := (v.toNat % 65536 + 65536 - d.flt.logRd) % 65536
    n ≤ d.flt.log.length :=
  ⟨wA, .firmware, live_of (by decide +kernel), by unfold regsSorted; decide +kernel, (0#32), performed_of (by decide +kernel), by decide +kernel⟩
theorem wit_FaultRecordsAreCollected_7 :
    ∃ s : State, ∃ acc : Acc, live s ∧
    regsSorted s.dev ∧
    let d := s.dev
    ∃ v : Word, Performed d acc (regOff 60 3 0x114) ∧
    let n := (v.toNat % 65536 + 65536 - d.flt.logRd) % 65536
    d.flt.log.length < n :=
  ⟨wA, .firmware, live_of (by decide +kernel), by unfold regsSorted; decide +kernel, (0xFF#32), performed_of (by decide +kernel), by decide +kernel⟩
theorem wit_FaultRecordsAreCollected_8 :
    ∃ s : State, live s ∧
    regsSorted s.dev ∧
    let d := s.dev
    SMap.sorted d.flt.missed = true :=
  ⟨wA, live_of (by decide +kernel), by unfold regsSorted; decide +kernel, by decide +kernel⟩
theorem wit_FaultRecordsAreCollected_9 :
    ∃ s : State, live s ∧
    regsSorted s.dev ∧
    let d := s.dev
    ∃ die : Nat, die < 64 ∧
    dieResetting d die = false ∧
    dieRetained d die = false ∧
    NSet.mem d.flt.lost die = false ∧
    SMap.getD d.flt.missed die 0 = 2 :=
  ⟨wB, live_of (by decide +kernel), by unfold regsSorted; decide +kernel, 0, by decide +kernel⟩
theorem wit_FaultRecordsAreCollected_10 :
    ∃ s : State, live s ∧
    regsSorted s.dev ∧
    let d := s.dev
    ∃ k : Fin 64, ∃ e : OrgEnt, SMap.get? d.flt.org k.val = some e ∧
    SMap.sorted d.flt.org = true ∧
    timeNs d < e.last + holdNs d :=
  ⟨wB, live_of (by decide +kernel), by unfold regsSorted; decide +kernel, 3, ⟨12, 1, 2, 10^9 - 5, 10^9, 9⟩, by decide +kernel⟩
theorem wit_FaultRecordsAreCollected_11 :
    ∃ s : State, live s ∧
    regsSorted s.dev ∧
    let d := s.dev
    ∃ k : Fin 64, ∃ e : OrgEnt, SMap.get? d.flt.org k.val = some e ∧
    SMap.sorted d.flt.org = true ∧
    e.last + holdNs d ≤ timeNs d ∧
    d.flt.log.length < 256 :=
  ⟨wB, live_of (by decide +kernel), by unfold regsSorted; decide +kernel, 4, ⟨13, 1, 2, 1, 2, 9⟩, by decide +kernel⟩

end WFaultRecordsAreCollected

namespace WFabricReportsEnterTheOriginTable

def ent : OrgEnt := ⟨12, 1, 4294967295, 5, 6, 9⟩
def wA : State := stOf { fab9 with flt := { emptyFlt with org := [(2, ent)] } }
def wB : State := stOf { fab9 with fab := { fab9.fab with ports := [(0, { upP with rptTokens := 0, rptAt := 0 })] }, now := 1049 }
def pf : Packet := pk 15 2 0 0 ([12,0,6] ++ zeros 13)

theorem wit_FabricReportsEnterTheOriginTable_0 :
    ∃ s : State, ∃ port : PortId, ∃ p : Packet, live s ∧
    regsSorted s.dev ∧
    SMap.sorted s.dev.fab.ports = true ∧
    Packet.ok p = true ∧
    headerOk p = true ∧
    p.typ = 15 ∧
    p.dst = ownDid s.dev ∧
    (fabPort s.dev port.val).up = true ∧
    let d := s.dev
    let origin := sBytes p.payload 0 2
    let kind := sBytes p.payload 2 1
    0 < (refill d (fabPort d port.val)).rptTokens ∧
    rptValid origin kind = true ∧
    ∃ k : Nat, ∃ e : OrgEnt, d.flt.org.find? (fun x => x.2.origin == origin) = some (k, e) :=
  ⟨wA, 0, pf, live_of (by decide +kernel), by unfold regsSorted; decide +kernel, by decide +kernel, by decide +kernel, by decide +kernel, (by decide +kernel), by decide +kernel, by decide +kernel, by decide +kernel, (by decide +kernel), 2, ent, by decide +kernel⟩
theorem wit_FabricReportsEnterTheOriginTable_1 :
    ∃ s : State, ∃ port : PortId, ∃ p : Packet, live s ∧
    regsSorted s.dev ∧
    SMap.sorted s.dev.fab.ports = true ∧
    Packet.ok p = true ∧
    headerOk p = true ∧
    p.typ = 15 ∧
    p.dst = ownDid s.dev ∧
    (fabPort s.dev port.val).up = true ∧
    let d := s.dev
    (refill d (fabPort d port.val)).rptTokens = 0 :=
  ⟨wB, 0, pf, live_of (by decide +kernel), by unfold regsSorted; decide +kernel, by decide +kernel, by decide +kernel, by decide +kernel, (by decide +kernel), by decide +kernel, by decide +kernel, by decide +kernel⟩

end WFabricReportsEnterTheOriginTable

namespace WPartialLinesAreCombined

def we : WcbEnt := ⟨2^32*32+3, 6, 0x050400, 100⟩
def wh : WcbHeld := ⟨2^32*32+4, 9, 0x0A000003, 200⟩
def base (es : List WcbEnt) (hs : List WcbHeld) : State := stOf { rdy with ext := { emptyExt with wcb := [(0, es)], wcbHeld := if hs = [] then [] else [(0, hs)] }, now := 5000, mem := { emptyMem with granCtr := 2, roots := [(gKey 2 9 0, 2^32)], bytes := [(2^32*4096+3*128, 9#8), (2^32*4096+3*128+1, 9#8)] } }
def wA : State := base [we] []
def wB : State := base ((List.range 1024).map (fun i => ⟨2^32*32+64+i, 1, 1, 0⟩)) [wh]
def wC : State := base [we] [wh]
def wD : State := stOf { wA.dev with now := 101 }

theorem wit_PartialLinesAreCombined_0 (h : granDie ((2 ^ 32 * 32 + 4) / 32) = 0) :
    ∃ s : State, ∃ md : MemDie, ∃ line : Nat, live s ∧
    regsSorted s.dev ∧
    SMap.sorted s.dev.ext.wcb = true ∧
    SMap.sorted s.dev.ext.wcbHeld = true ∧
    let d := s.dev
    let room := (wcbOf d md.val).length + 1 < rg d (48 + md.val) 17 0x108 % 2048 ∧ (wcbOf d md.val).length < 1024
    let absent (l : Nat) := (wcbOf d md.val).find? (fun e => e.line == l) = none
    ∃ mask : BitVec 128, granDie (line / 32) = md.val ∧
    mask ≠ 0 ∧
    mask.toNat ≠ 2 ^ 128 - 1 ∧
    isT2Gran d (line / 32) = true ∧
    absent line ∧
    room :=
  ⟨wA, 0, (2^32*32+4), live_of (by decide +kernel), by unfold regsSorted; decide +kernel, by decide +kernel, by decide +kernel, (1#128), h, by decide +kernel⟩
theorem wit_PartialLinesAreCombined_1 (h : granDie ((2 ^ 32 * 32 + 3) / 32) = 0) :
    ∃ s : State, ∃ md : MemDie, ∃ line : Nat, live s ∧
    regsSorted s.dev ∧
    SMap.sorted s.dev.ext.wcb = true ∧
    SMap.sorted s.dev.ext.wcbHeld = true ∧
    let d := s.dev
    let absent (l : Nat) := (wcbOf d md.val).find? (fun e => e.line == l) = none
    ∃ mask : BitVec 128, granDie (line / 32) = md.val ∧
    mask ≠ 0 ∧
    mask.toNat ≠ 2 ^ 128 - 1 ∧
    isT2Gran d (line / 32) = true ∧
    absent line ∧
    1024 ≤ (wcbOf d md.val).length :=
  ⟨wB, 0, (2^32*32+3), live_of (by decide +kernel), by unfold regsSorted; decide +kernel, by decide +kernel, by decide +kernel, (1#128), h, by decide +kernel⟩
theorem wit_PartialLinesAreCombined_2 :
    ∃ s : State, ∃ md : MemDie, ∃ line : Nat, live s ∧
    regsSorted s.dev ∧
    SMap.sorted s.dev.ext.wcb = true ∧
    SMap.sorted s.dev.ext.wcbHeld = true ∧
    let d := s.dev
    ∃ e : WcbEnt, (wcbOf d md.val).find? (fun x => x.line == line) = some e ∧
    (d.now - e.at_) * 1000 < rg d (48 + md.val) 17 0x104 % 4096 * 1050 :=
  ⟨wD, 0, (2^32*32+3), live_of (by decide +kernel), by unfold regsSorted; decide +kernel, by decide +kernel, by decide +kernel, we, by decide +kernel⟩
theorem wit_PartialLinesAreCombined_3 :
    ∃ s : State, ∃ md : MemDie, ∃ line : Nat, live s ∧
    regsSorted s.dev ∧
    SMap.sorted s.dev.ext.wcb = true ∧
    SMap.sorted s.dev.ext.wcbHeld = true ∧
    let d := s.dev
    ∃ e : WcbEnt, ∃ ev : Upset, (wcbOf d md.val).find? (fun x => x.line == line) = some e ∧
    rg d (48 + md.val) 17 0x104 % 4096 * 1050 ≤ (d.now - e.at_) * 1000 ∧
    (ev = .none ∨ ev = .ue 0) :=
  ⟨wA, 0, (2^32*32+3), live_of (by decide +kernel), by unfold regsSorted; decide +kernel, by decide +kernel, by decide +kernel, we, .none, by decide +kernel⟩
theorem wit_PartialLinesAreCombined_5 :
    ∃ s : State, ∃ md : MemDie, live s ∧
    regsSorted s.dev ∧
    SMap.sorted s.dev.ext.wcb = true ∧
    SMap.sorted s.dev.ext.wcbHeld = true ∧
    let d := s.dev
    ∃ h : WcbHeld, ∃ r : List WcbHeld, wcbHeldOf d md.val = h :: r ∧
    1024 ≤ (wcbOf d md.val).length :=
  ⟨wB, 0, live_of (by decide +kernel), by unfold regsSorted; decide +kernel, by decide +kernel, by decide +kernel, wh, [], by decide +kernel⟩
theorem wit_PartialLinesAreCombined_6 :
    ∃ s : State, ∃ md : MemDie, live s ∧
    regsSorted s.dev ∧
    SMap.sorted s.dev.ext.wcb = true ∧
    SMap.sorted s.dev.ext.wcbHeld = true ∧
    let d := s.dev
    let room := (wcbOf d md.val).length + 1 < rg d (48 + md.val) 17 0x108 % 2048 ∧ (wcbOf d md.val).length < 1024
    let absent (l : Nat) := (wcbOf d md.val).find? (fun e => e.line == l) = none
    ∃ h : WcbHeld, ∃ r : List WcbHeld, wcbHeldOf d md.val = h :: r ∧
    room ∧
    absent h.line :=
  ⟨wC, 0, live_of (by decide +kernel), by unfold regsSorted; decide +kernel, by decide +kernel, by decide +kernel, wh, [], by decide +kernel⟩

end WPartialLinesAreCombined

namespace WMemoryChannelsAreWatched

def wA : State := stOf rdy
def wB : State := stOf { setRg (setRg (setRg rdy (chDie 0) (chPage 0) 0x104 0x80000000) (chDie 63) (chPage 63) 0x104 0x80000000) (chDie 63) (chPage 63) 0x100 (2*2^17) with ext := { emptyExt with sensorFails := [(0,2),(63,2)], inks := [(0, ⟨[], some true⟩), (7, ⟨[(3,[⟨1,true⟩])], some false⟩)] } }
def wC : State := stOf { rdy with state := .test }
def wE : State := stOf (setRg rdy (chDie 0) (chPage 0) 0x104 0x7FFFFFFF)

theorem wit_MemoryChannelsAreWatched_1 :
    ∃ s : State, ∃ ch : ChanId, live s ∧
    regsSorted s.dev ∧
    SMap.sorted s.dev.ext.wcb = true ∧
    SMap.sorted s.dev.ext.inks = true ∧
    let d := s.dev
    SMap.getD d.ext.sensorFails ch.val 0 = 2 :=
  ⟨wB, 0, live_of (by decide +kernel), by unfold regsSorted; decide +kernel, by decide +kernel, by decide +kernel, by decide +kernel⟩
theorem wit_MemoryChannelsAreWatched_2 :
    ∃ s : State, ∃ ch : ChanId, live s ∧
    regsSorted s.dev ∧
    SMap.sorted s.dev.ext.wcb = true ∧
    SMap.sorted s.dev.ext.inks = true ∧
    let d := s.dev
    let die := chDie ch.val
    let page := chPage ch.val
    (rg d die page 0x104).testBit 31 = true ∧
    rg d die page 0x108 + 1 < chLines :=
  ⟨wA, 0, live_of (by decide +kernel), by unfold regsSorted; decide +kernel, by decide +kernel, by decide +kernel, by decide +kernel⟩
theorem wit_MemoryChannelsAreWatched_5 :
    ∃ s : State, ∃ ch : ChanId, live s ∧
    regsSorted s.dev ∧
    SMap.sorted s.dev.ext.wcb = true ∧
    SMap.sorted s.dev.ext.inks = true ∧
    let d := s.dev
    let die := chDie ch.val
    let page := chPage ch.val
    (rg d die page 0x104).testBit 31 = false :=
  ⟨wE, 0, live_of (by decide +kernel), by unfold regsSorted; decide +kernel, by decide +kernel, by decide +kernel, by decide +kernel⟩
theorem wit_MemoryChannelsAreWatched_6 :
    ∃ s : State, ∃ acc : Acc, ∃ md : MemDie, live s ∧
    regsSorted s.dev ∧
    SMap.sorted s.dev.ext.wcb = true ∧
    SMap.sorted s.dev.ext.inks = true ∧
    let d := s.dev
    ∃ cache : Bool, Performed d acc (regOff (48 + md.val) 18 0x100) ∧
    (ink d md.val).changeTo = none ∧
    inkCache d md.val ≠ cache ∧
    d.state = .ready :=
  ⟨wA, .firmware, 0, live_of (by decide +kernel), by unfold regsSorted; decide +kernel, by decide +kernel, by decide +kernel, false, performed_of (by decide +kernel), by decide +kernel⟩
theorem wit_MemoryChannelsAreWatched_7 :
    ∃ s : State, ∃ acc : Acc, ∃ md : MemDie, live s ∧
    regsSorted s.dev ∧
    SMap.sorted s.dev.ext.wcb = true ∧
    SMap.sorted s.dev.ext.inks = true ∧
    let d := s.dev
    ∃ cache : Bool, Performed d acc (regOff (48 + md.val) 18 0x100) ∧
    (ink d md.val).changeTo = none ∧
    inkCache d md.val ≠ cache ∧
    (d.state = .test ∨ d.state = .recovery) ∧
    (cache = true → inkHasCopy d md.val = false) :=
  ⟨wC, .firmware, 0, live_of (by decide +kernel), by unfold regsSorted; decide +kernel, by decide +kernel, by decide +kernel, false, performed_of (by decide +kernel), by decide +kernel⟩
theorem wit_MemoryChannelsAreWatched_8 :
    ∃ s : State, ∃ md : MemDie, live s ∧
    regsSorted s.dev ∧
    SMap.sorted s.dev.ext.wcb = true ∧
    SMap.sorted s.dev.ext.inks = true ∧
    let d := s.dev
    ∃ cache : Bool, (ink d md.val).changeTo = some cache :=
  ⟨wB, 0, live_of (by decide +kernel), by unfold regsSorted; decide +kernel, by decide +kernel, by decide +kernel, true, by decide +kernel⟩

end WMemoryChannelsAreWatched

namespace WFlashIsKeptInOrder

def wf (f : Ftl) (cs : SMap Cmd) : State := stOf { rdy with ext := { emptyExt with ftl := [(0, f),(1, f)] }, qm := { emptyQm with cmds := cs, jobs := [(3, aJob)] } }
def uo : Nat := 4 * 2 ^ 62 + 9 * 2 ^ 30
def pr : Prog := ⟨1, uo, 4 * 4096 * 16 + 77, false, none⟩
def rc1 : Cmd := { cmdOf 2 [] with phase := .running, t4left := 1 }
def f0 : Ftl := { idleFtl with blks := [(5, ⟨9, 3, false, 2, false⟩), (6, ⟨2 ^ 32, 3, false, 2, false⟩), (21, ⟨0, 600, false, 0, false⟩)], pages := [(5 * 4096, ⟨uo + 1, 3, true, false⟩), (5 * 4096 + 1, ⟨uo + 2, 4, true, true⟩), (6 * 4096 + 1, ⟨uo + 2, 4, false, true⟩)], map := [(uo + 1, 5 * 4096)], mir := [(uo + 2, 5 * 4096 + 1)], progs := [(2, pr)], erases := [(1, 22)], nextProg := 3 }
def wA : State := wf f0 [(1, rc1)]

theorem wit_FlashIsKeptInOrder_0 :
    ∃ s : State, ∃ sd : Fin 2, live s ∧
    regsSorted s.dev ∧
    SMap.sorted s.dev.ext.ftl = true ∧
    SMap.sorted (ftl s.dev sd.val).progs = true ∧
    SMap.sorted (ftl s.dev sd.val).erases = true ∧
    SMap.sorted (ftl s.dev sd.val).blks = true ∧
    let d := s.dev
    let x := ftl s.dev sd.val
    ∃ b : Nat, (nandBlk x b).reads < max 1 (rg d (sdDie sd.val) 16 0x10C) :=
  ⟨wA, 0, live_of (by decide +kernel), by unfold regsSorted; decide +kernel, by decide +kernel, by decide +kernel, by decide +kernel, (by decide +kernel), 5, by decide +kernel⟩
theorem wit_FlashIsKeptInOrder_1 :
    ∃ s : State, ∃ sd : Fin 2, live s ∧
    regsSorted s.dev ∧
    SMap.sorted s.dev.ext.ftl = true ∧
    SMap.sorted (ftl s.dev sd.val).progs = true ∧
    SMap.sorted (ftl s.dev sd.val).erases = true ∧
    SMap.sorted (ftl s.dev sd.val).blks = true ∧
    let d := s.dev
    let x := ftl s.dev sd.val
    ∃ b : Nat, max 1 (rg d (sdDie sd.val) 16 0x10C) ≤ (nandBlk x b).reads ∧
    (nandBlk x b).moving = false ∧
    (nandBlk x b).retired = false :=
  ⟨wA, 0, live_of (by decide +kernel), by unfold regsSorted; decide +kernel, by decide +kernel, by decide +kernel, by decide +kernel, (by decide +kernel), 6, by decide +kernel⟩
theorem wit_FlashIsKeptInOrder_2 :
    ∃ s : State, ∃ sd : Fin 2, live s ∧
    regsSorted s.dev ∧
    SMap.sorted s.dev.ext.ftl = true ∧
    SMap.sorted (ftl s.dev sd.val).progs = true ∧
    SMap.sorted (ftl s.dev sd.val).erases = true ∧
    SMap.sorted (ftl s.dev sd.val).blks = true ∧
    let x := ftl s.dev sd.val
    ∃ a : Nat, ∃ b : Nat, (nandBlk x b).erases ≤ (nandBlk x a).erases + 512 :=
  ⟨wA, 0, live_of (by decide +kernel), by unfold regsSorted; decide +kernel, by decide +kernel, by decide +kernel, by decide +kernel, (by decide +kernel), 5, 5, by decide +kernel⟩
theorem wit_FlashIsKeptInOrder_3 :
    ∃ s : State, ∃ sd : Fin 2, live s ∧
    regsSorted s.dev ∧
    SMap.sorted s.dev.ext.ftl = true ∧
    SMap.sorted (ftl s.dev sd.val).progs = true ∧
    SMap.sorted (ftl s.dev sd.val).erases = true ∧
    SMap.sorted (ftl s.dev sd.val).blks = true ∧
    let x := ftl s.dev sd.val
    ∃ a : Nat, ∃ b : Nat, (nandBlk x a).erases + 512 < (nandBlk x b).erases ∧
    (nandBlk x a).retired = false ∧
    (nandBlk x a).moving = false ∧
    (nandBlk x a).fill ≠ 0 ∧
    (nandBlk x b).retired = false ∧
    (nandBlk x b).fill = 0 ∧
    (∀ e ∈ x.blks, e.2.retired = false → if e.2.fill = 0 then e.2.erases ≤ (nandBlk x b).erases else (nandBlk x a).erases ≤ e.2.erases) :=
  ⟨wA, 0, live_of (by decide +kernel), by unfold regsSorted; decide +kernel, by decide +kernel, by decide +kernel, by decide +kernel, (by decide +kernel), 5, 21, by decide +kernel⟩
theorem wit_FlashIsKeptInOrder_4 :
    ∃ s : State, ∃ sd : Fin 2, live s ∧
    regsSorted s.dev ∧
    SMap.sorted s.dev.ext.ftl = true ∧
    SMap.sorted (ftl s.dev sd.val).progs = true ∧
    SMap.sorted (ftl s.dev sd.val).erases = true ∧
    SMap.sorted (ftl s.dev sd.val).blks = true ∧
    let d := s.dev
    let x := ftl s.dev sd.val
    ∃ op : Nat, ∃ p : Prog, SMap.get? x.progs op = some p ∧
    SMap.has x.erases op = false ∧
    ∃ c : Cmd, p.move = none ∧
    cmd d p.uid = some c ∧
    c.phase = .running ∧
    c.coresLeft = [] ∧
    c.t4left = 1 :=
  ⟨wA, 0, live_of (by decide +kernel), by unfold regsSorted; decide +kernel, by decide +kernel, by decide +kernel, by decide +kernel, (by decide +kernel), 2, pr, by decide +kernel, by decide +kernel, rc1, by decide +kernel⟩
theorem wit_FlashIsKeptInOrder_5 :
    ∃ s : State, ∃ sd : Fin 2, live s ∧
    regsSorted s.dev ∧
    SMap.sorted s.dev.ext.ftl = true ∧
    SMap.sorted (ftl s.dev sd.val).progs = true ∧
    SMap.sorted (ftl s.dev sd.val).erases = true ∧
    SMap.sorted (ftl s.dev sd.val).blks = true ∧
    let x := ftl s.dev sd.val
    ∃ op : Nat, ∃ p : Prog, SMap.get? x.progs op = some p ∧
    SMap.has x.erases op = false ∧
    op < x.nextProg ∧
    ∃ i, i ∈ [Instr.nandOperationEnd sd op false, .onfiTimeout ⟨16 * sd.val, by omega⟩ 1 op] :=
  ⟨wA, 0, live_of (by decide +kernel), by unfold regsSorted; decide +kernel, by decide +kernel, by decide +kernel, by decide +kernel, (by decide +kernel), 2, pr, by decide +kernel, by decide +kernel, by decide +kernel, _, List.mem_of_getElem? (i := 0) rfl⟩
theorem wit_FlashIsKeptInOrder_7 :
    ∃ s : State, ∃ sd : Fin 2, live s ∧
    regsSorted s.dev ∧
    SMap.sorted s.dev.ext.ftl = true ∧
    SMap.sorted (ftl s.dev sd.val).progs = true ∧
    SMap.sorted (ftl s.dev sd.val).erases = true ∧
    SMap.sorted (ftl s.dev sd.val).blks = true ∧
    let x := ftl s.dev sd.val
    ∃ op : Nat, ∃ b : Nat, SMap.get? x.erases op = some b ∧
    ∃ i, i ∈ [Instr.nandOperationEnd sd op false, .onfiTimeout ⟨16 * sd.val, by omega⟩ 2 op] :=
  ⟨wA, 0, live_of (by decide +kernel), by unfold regsSorted; decide +kernel, by decide +kernel, by decide +kernel, by decide +kernel, (by decide +kernel), 1, 22, by decide +kernel, _, List.mem_of_getElem? (i := 0) rfl⟩
theorem wit_FlashIsKeptInOrder_8 :
    ∃ s : State, ∃ sd : Fin 2, live s ∧
    regsSorted s.dev ∧
    SMap.sorted s.dev.ext.ftl = true ∧
    SMap.sorted (ftl s.dev sd.val).progs = true ∧
    SMap.sorted (ftl s.dev sd.val).erases = true ∧
    SMap.sorted (ftl s.dev sd.val).blks = true ∧
    ∃ ch : Fin 32, ch.val / 16 = sd.val :=
  ⟨wA, 0, live_of (by decide +kernel), by unfold regsSorted; decide +kernel, by decide +kernel, by decide +kernel, by decide +kernel, (by decide +kernel), 0, by decide +kernel⟩

end WFlashIsKeptInOrder

namespace WHostPortsComeAndGo

def px (f : Pcie → Pcie) : State := stOf { setJob d3 4 { aJob with port := 1 } with pcieA := f { resetPcie with perst := false }, pcieB := f { resetPcie with perst := false }, now := 105000005 }
def wA : State := px id
def wB : State := px (fun x => { x with linkUp := true, aps := [(0, ⟨true, true, 3, 0, 0, 0⟩), (1, ⟨true, true, 3, 5, 0, 0⟩)], vfJobs := [(5, 8#256)], unmasked := [(3,()), (5*2048+1,())], pendingVec := [(7,()), (5*2048+15,())] })
def wC : State := px (fun x => { x with perst := true })
def wD : State := px (fun x => { x with downAt := 6 })

theorem wit_HostPortsComeAndGo_0 :
    ∃ s : State, ∃ p : HostPort, live s ∧
    regsSorted s.dev ∧
    SMap.sorted s.dev.qm.jobs = true ∧
    let x := pcie s.dev p
    x.perst = false ∧
    x.linkUp = false :=
  ⟨wA, .a, live_of (by decide +kernel), by unfold regsSorted; decide +kernel, by decide +kernel, by decide +kernel⟩
theorem wit_HostPortsComeAndGo_1 :
    ∃ s : State, ∃ p : HostPort, live s ∧
    regsSorted s.dev ∧
    SMap.sorted s.dev.qm.jobs = true ∧
    let x := pcie s.dev p
    x.linkUp = true :=
  ⟨wB, .a, live_of (by decide +kernel), by unfold regsSorted; decide +kernel, by decide +kernel, by decide +kernel⟩
theorem wit_HostPortsComeAndGo_3 :
    ∃ s : State, ∃ p : HostPort, live s ∧
    regsSorted s.dev ∧
    SMap.sorted s.dev.qm.jobs = true ∧
    let d := s.dev
    let x := pcie s.dev p
    x.perst = false ∧
    d.powerLost = false :=
  ⟨wA, .a, live_of (by decide +kernel), by unfold regsSorted; decide +kernel, by decide +kernel, by decide +kernel⟩
theorem wit_HostPortsComeAndGo_4 :
    ∃ s : State, ∃ p : HostPort, live s ∧
    regsSorted s.dev ∧
    SMap.sorted s.dev.qm.jobs = true ∧
    let x := pcie s.dev p
    x.perst = true :=
  ⟨wC, .a, live_of (by decide +kernel), by unfold regsSorted; decide +kernel, by decide +kernel, by decide +kernel⟩
theorem wit_HostPortsComeAndGo_5 :
    ∃ s : State, ∃ p : HostPort, live s ∧
    regsSorted s.dev ∧
    SMap.sorted s.dev.qm.jobs = true ∧
    let d := s.dev
    let x := pcie s.dev p
    x.hostLost = false ∧
    x.linkUp = false ∧
    x.downAt ≠ 0 ∧
    x.downAt + 105000000 ≤ d.now + 1 :=
  ⟨wD, .a, live_of (by decide +kernel), by unfold regsSorted; decide +kernel, by decide +kernel, by decide +kernel⟩
theorem wit_HostPortsComeAndGo_6 :
    ∃ s : State, ∃ p : HostPort, live s ∧
    regsSorted s.dev ∧
    SMap.sorted s.dev.qm.jobs = true ∧
    let d := s.dev
    let x := pcie s.dev p
    x.hostLost = false ∧
    Performed d (.pf p) (pcieOff p 0x100) :=
  ⟨wA, .a, live_of (by decide +kernel), by unfold regsSorted; decide +kernel, by decide +kernel, by decide +kernel, performed_of (by decide +kernel)⟩
theorem wit_HostPortsComeAndGo_8 :
    ∃ s : State, live s ∧
    regsSorted s.dev ∧
    SMap.sorted s.dev.qm.jobs = true ∧
    let d := s.dev
    d.pcieA.hostLost = false ∧
    Performed d (.pf .a) (pcieOff .a 0x100) :=
  ⟨wA, live_of (by decide +kernel), by unfold regsSorted; decide +kernel, by decide +kernel, by decide +kernel, performed_of (by decide +kernel)⟩
theorem wit_HostPortsComeAndGo_10 :
    ∃ s : State, ∃ p : HostPort, live s ∧
    regsSorted s.dev ∧
    SMap.sorted s.dev.qm.jobs = true ∧
    let x := pcie s.dev p
    ∃ acc : Acc, ∃ fn : Nat, ∃ v : Fin 2048, accFn acc = some (p, fn) ∧
    v.val < vecCount fn ∧
    SMap.sorted x.pendingVec = true :=
  ⟨wA, .a, live_of (by decide +kernel), by unfold regsSorted; decide +kernel, by decide +kernel, (.pf .a), 0, 0, by decide +kernel⟩
theorem wit_HostPortsComeAndGo_11 :
    ∃ s : State, live s ∧
    regsSorted s.dev ∧
    SMap.sorted s.dev.qm.jobs = true ∧
    ∃ n : Fin 64, n.val ≠ 0 :=
  ⟨wA, live_of (by decide +kernel), by unfold regsSorted; decide +kernel, by decide +kernel, 5, by decide +kernel⟩

end WHostPortsComeAndGo

namespace WJobsAreAdoptedAndAssigned

def wA : State := stOf { setRg (setRg (setRg d3 4 0 0 0) (pgPcie .a) 0 0x160 5) 60 (jPage 3) 0x148 4096 with pcieA := { resetPcie with vfJobs := [(5, 0x108#256), (6, 1#256)] } }
def wB : State := stOf { setJob rdy 3 { aJob with orphan := true, cqHead := 3, cqNext := 5, cqWr := 4, port := 1 } with pcieB := { resetPcie with vfJobs := [(5, 8#256), (6, 1#256)] } }

theorem wit_JobsAreAdoptedAndAssigned_0 :
    ∃ s : State, ∃ acc : Acc, ∃ j : JobId, live s ∧
    regsSorted s.dev ∧
    let d := s.dev
    let p := accHost acc
    Performed d acc (pcieOff p 0x1A0) ∧
    (job d j.val).state ≠ 1 :=
  ⟨wA, (.pf .a), 4, live_of (by decide +kernel), by unfold regsSorted; decide +kernel, performed_of (by decide +kernel), by decide +kernel⟩
theorem wit_JobsAreAdoptedAndAssigned_1 :
    ∃ s : State, ∃ acc : Acc, ∃ j : JobId, live s ∧
    regsSorted s.dev ∧
    let d := s.dev
    let p := accHost acc
    Performed d acc (pcieOff p 0x1A0) ∧
    (job d j.val).state = 1 ∧
    (job d j.val).orphan = false :=
  ⟨wA, (.pf .a), 3, live_of (by decide +kernel), by unfold regsSorted; decide +kernel, performed_of (by decide +kernel), by decide +kernel⟩
theorem wit_JobsAreAdoptedAndAssigned_2 :
    ∃ s : State, ∃ acc : Acc, ∃ j : JobId, live s ∧
    regsSorted s.dev ∧
    let d := s.dev
    let p := accHost acc
    Performed d acc (pcieOff p 0x1A0) ∧
    (job d j.val).state = 1 ∧
    (job d j.val).orphan = true :=
  ⟨wB, (.pf .a), 3, live_of (by decide +kernel), by unfold regsSorted; decide +kernel, performed_of (by decide +kernel), by decide +kernel⟩
theorem wit_JobsAreAdoptedAndAssigned_3 :
    ∃ s : State, ∃ acc : Acc, live s ∧
    regsSorted s.dev ∧
    let d := s.dev
    let p := accHost acc
    ∃ w : Fin 8, Performed d acc (pcieOff p (0x164 + 4 * w.val)) ∧
    let n := rg d (pgPcie p) 0 0x160
    n = 0 :=
  ⟨wA, (.pf .b), live_of (by decide +kernel), by unfold regsSorted; decide +kernel, 0, performed_of (by decide +kernel), by decide +kernel⟩
theorem wit_JobsAreAdoptedAndAssigned_4 :
    ∃ s : State, ∃ acc : Acc, live s ∧
    regsSorted s.dev ∧
    let d := s.dev
    let p := accHost acc
    let x := pcie s.dev (accHost acc)
    ∃ w : Fin 8, ∃ v : Word, Performed d acc (pcieOff p (0x164 + 4 * w.val)) ∧
    let n := rg d (pgPcie p) 0 0x160
    n ≠ 0 ∧
    SMap.sorted x.vfJobs = true ∧
    (∀ b, b < 32 → v.toNat.testBit b = true → heldElsewhere d p n (32 * w.val + b) = false) :=
  ⟨wA, (.pf .a), live_of (by decide +kernel), by unfold regsSorted; decide +kernel, 0, (0#32), performed_of (by decide +kernel), by decide +kernel⟩

end WJobsAreAdoptedAndAssigned

namespace WAperturesReachOnlyTheirCopies

def ob (ro : Bool) (t : Nat) : Obj := setCopy { size := 2, shared := false, ro := ro, mirror := false, t1die := 0, creator := 3, shareTag := 0, c1 := noCopy, c2 := noCopy, c4 := noCopy, newBy := 0 } t ⟨true, false, 3, 0, 8#256, 0⟩
def wm (t : Nat) (ro : Bool) (se po : Bool) : State := stOf { d3 with pcieA := { resetPcie with perst := false, linkUp := true, aps := [(0, ⟨true, true, 3, 0, 1, t*2^60+9*2^40⟩)] }, mem := { emptyMem with objs := [(9, ob ro t)], roots := [(gKey t 9 1, 2^32)], bytes := [(2^32*4096+128, 7#8), (2^32*4096+255, 9#8)], sealMk := if se then [(2^32, ())] else [], poison := if po then [(2^32, ())] else [], granCtr := 1 } }

theorem wit_AperturesReachOnlyTheirCopies_0 :
    ∃ s : State, ∃ acc : Acc, ∃ p : HostPort, ∃ fn : Nat, ∃ off : BitVec 36, live s ∧
    regsSorted s.dev ∧
    accFn acc = some (p, fn) ∧
    let d := s.dev
    ∃ n : Nat, bar2Ok off n = true ∧
    apTarget d p fn off.toNat n false = none :=
  ⟨(wm 1 false false false), (.pf .a), .a, 0, (0#36), live_of (by decide +kernel), by unfold regsSorted; decide +kernel, by decide +kernel, 1, by decide +kernel⟩
theorem wit_AperturesReachOnlyTheirCopies_1 :
    ∃ s : State, ∃ acc : Acc, ∃ p : HostPort, ∃ fn : Nat, ∃ off : BitVec 36, live s ∧
    regsSorted s.dev ∧
    accFn acc = some (p, fn) ∧
    let d := s.dev
    ∃ n : Nat, bar2Ok off n = true ∧
    ∃ k : Nat, ∃ a : Nat, ∃ o : Nat, ∃ sid : Nat, apTarget d p fn off.toNat n false = some (k, a, o) ∧
    rootOf d k = some sid ∧
    poisoned d sid = true ∧
    sealed d sid = false :=
  ⟨(wm 1 false false true), (.pf .a), .a, 0, (BitVec.ofNat 36 (2^30+4096+128)), live_of (by decide +kernel), by unfold regsSorted; decide +kernel, by decide +kernel, 1, by decide +kernel, (gKey 1 9 1), (2^60+9*2^40+4096+128), 128, (2^32), by decide +kernel⟩
theorem wit_AperturesReachOnlyTheirCopies_2 :
    ∃ s : State, ∃ acc : Acc, ∃ p : HostPort, ∃ fn : Nat, ∃ off : BitVec 36, live s ∧
    regsSorted s.dev ∧
    accFn acc = some (p, fn) ∧
    let d := s.dev
    ∃ n : Nat, bar2Ok off n = true ∧
    ∃ k : Nat, ∃ a : Nat, ∃ o : Nat, ∃ sid : Nat, apTarget d p fn off.toNat n false = some (k, a, o) ∧
    rootOf d k = some sid ∧
    poisoned d sid = false :=
  ⟨(wm 1 false false false), (.pf .a), .a, 0, (BitVec.ofNat 36 (2^30+4096+128)), live_of (by decide +kernel), by unfold regsSorted; decide +kernel, by decide +kernel, 1, by decide +kernel, (gKey 1 9 1), (2^60+9*2^40+4096+128), 128, (2^32), by decide +kernel⟩
theorem wit_AperturesReachOnlyTheirCopies_3 :
    ∃ s : State, ∃ acc : Acc, ∃ p : HostPort, ∃ fn : Nat, ∃ off : BitVec 36, live s ∧
    regsSorted s.dev ∧
    accFn acc = some (p, fn) ∧
    let d := s.dev
    ∃ n : Nat, bar2Ok off n = true ∧
    ∃ k : Nat, ∃ a : Nat, ∃ o : Nat, apTarget d p fn off.toNat n false = some (k, a, o) ∧
    rootOf d k = none :=
  ⟨(wm 1 false false false), (.pf .a), .a, 0, (BitVec.ofNat 36 (2^30)), live_of (by decide +kernel), by unfold regsSorted; decide +kernel, by decide +kernel, 1, by decide +kernel, (gKey 1 9 0), (2^60+9*2^40), 0, by decide +kernel⟩
theorem wit_AperturesReachOnlyTheirCopies_4 :
    ∃ s : State, ∃ acc : Acc, ∃ p : HostPort, ∃ fn : Nat, ∃ off : BitVec 36, live s ∧
    regsSorted s.dev ∧
    accFn acc = some (p, fn) ∧
    let d := s.dev
    ∃ bs : List Byte, bar2Ok off bs.length = true ∧
    apTarget d p fn off.toNat bs.length true = none :=
  ⟨(wm 1 false false false), (.pf .a), .a, 0, (0#36), live_of (by decide +kernel), by unfold regsSorted; decide +kernel, by decide +kernel, (List.replicate 128 3#8), by decide +kernel⟩
theorem wit_AperturesReachOnlyTheirCopies_5 :
    ∃ s : State, ∃ acc : Acc, ∃ p : HostPort, ∃ fn : Nat, ∃ off : BitVec 36, live s ∧
    regsSorted s.dev ∧
    accFn acc = some (p, fn) ∧
    let d := s.dev
    ∃ bs : List Byte, bar2Ok off bs.length = true ∧
    ∃ k : Nat, ∃ a : Nat, ∃ o : Nat, apTarget d p fn off.toNat bs.length true = some (k, a, o) ∧
    isPending d k = true :=
  ⟨(stOf (let d := (wm 2 false false false).dev; { d with mem := { d.mem with marks := [(gKey 2 9 1, [(3,0)])] } })), (.pf .a), .a, 0, (BitVec.ofNat 36 (2^30+4096+128)), live_of (by decide +kernel), by unfold regsSorted; decide +kernel, by decide +kernel, (List.replicate 128 3#8), by decide +kernel, (gKey 2 9 1), (2*2^60+9*2^40+4096+128), 128, by decide +kernel⟩
theorem wit_AperturesReachOnlyTheirCopies_6 :
    ∃ s : State, ∃ acc : Acc, ∃ p : HostPort, ∃ fn : Nat, ∃ off : BitVec 36, live s ∧
    regsSorted s.dev ∧
    accFn acc = some (p, fn) ∧
    let d := s.dev
    ∃ bs : List Byte, bar2Ok off bs.length = true ∧
    ∃ k : Nat, ∃ a : Nat, ∃ o : Nat, apTarget d p fn off.toNat bs.length true = some (k, a, o) ∧
    isPending d k = false ∧
    o + bs.length ≤ 4096 ∧
    ((gKind k = 1 ∨ (o % 128 = 0 ∧ bs.length % 128 = 0))) ∧
    (∀ md e, e ∈ wcbOf d md → some (e.line / 32) ≠ rootOf d k ∧ e.line / 32 < 2 ^ 32 + d.mem.granCtr) :=
  ⟨(wm 1 false false false), (.pf .a), .a, 0, (BitVec.ofNat 36 (2^30)), live_of (by decide +kernel), by unfold regsSorted; decide +kernel, by decide +kernel, (List.replicate 128 3#8), by decide +kernel, (gKey 1 9 0), (2^60+9*2^40), 0, by decide +kernel, by decide +kernel, by decide +kernel, (by decide +kernel), by intro md e h; cases h⟩

end WAperturesReachOnlyTheirCopies

namespace WSecurityEngineKeepsKeys

def ob : Obj := setCopy { size := 2, shared := false, ro := false, mirror := false, t1die := 0, creator := 3, shareTag := 0, c1 := noCopy, c2 := noCopy, c4 := noCopy, newBy := 0 } 2 ⟨true, false, 3, 0, 8#256, 0⟩
def ks : KeySlot := ⟨5, 6⟩
def base (bs : List Host.Cell) (keys : SMap KeySlot) : State := stOf (setRg (setRg64 { d3 with sec := { resetSec with keys := keys }, mem := { emptyMem with objs := [(9, ob)], roots := [(gKey 2 9 1, 2^32)], bytes := bs, granCtr := 1 } } 60 1 0x124 (2*2^60+9*2^40+4096)) 60 1 0x120 (3 + 15*256))
def wA : State := base [(2^32*4096, 1#8)] [(3*16+14, ks)]
def wC : State := base [] [(3*16+14, ks),(3*16+15, ks)]
def wD : State := stOf { wA.dev with factoryTest := true }
def wE : State := stOf { setJob wA.dev 3 { aJob with port := 1 } with pcieA := { resetPcie with perst := false, linkUp := true }, pcieB := { resetPcie with perst := false, linkUp := true, doe := some ⟨1, [3]⟩ } }
def wF : State := stOf { wE.dev with sec := { resetSec with windowOpen := true } }

theorem wit_SecurityEngineKeepsKeys_0 :
    ∃ s : State, ∃ acc : Acc, live s ∧
    regsSorted s.dev ∧
    SMap.sorted s.dev.sec.keys = true ∧
    let d := s.dev
    let j := bitsOf (rg d 60 1 0x120) 7 0
    Performed d acc (regOff 60 1 0x12C) ∧
    secOwned d acc j = false :=
  ⟨wA, (.pf .b), live_of (by decide +kernel), by unfold regsSorted; decide +kernel, by decide +kernel, performed_of (by decide +kernel), by decide +kernel⟩
theorem wit_SecurityEngineKeepsKeys_2 :
    ∃ s : State, ∃ acc : Acc, live s ∧
    regsSorted s.dev ∧
    SMap.sorted s.dev.sec.keys = true ∧
    let d := s.dev
    let j := bitsOf (rg d 60 1 0x120) 7 0
    Performed d acc (regOff 60 1 0x12C) ∧
    secOwned d acc j = true ∧
    d.factoryTest = true :=
  ⟨wD, .firmware, live_of (by decide +kernel), by unfold regsSorted; decide +kernel, by decide +kernel, performed_of (by decide +kernel), by decide +kernel⟩
theorem wit_SecurityEngineKeepsKeys_3 :
    ∃ s : State, ∃ acc : Acc, live s ∧
    regsSorted s.dev ∧
    SMap.sorted s.dev.sec.keys = true ∧
    let d := s.dev
    let j := bitsOf (rg d 60 1 0x120) 7 0
    let k := bitsOf (rg d 60 1 0x120) 11 8
    let key := j * 16 + k
    Performed d acc (regOff 60 1 0x12C) ∧
    secOwned d acc j = true ∧
    ∃ v : KeySlot, d.factoryTest = false ∧
    SMap.get? d.sec.keys key = some v :=
  ⟨wC, .firmware, live_of (by decide +kernel), by unfold regsSorted; decide +kernel, by decide +kernel, performed_of (by decide +kernel), by decide +kernel, ks, by decide +kernel⟩
theorem wit_SecurityEngineKeepsKeys_4 (kk : BitVec 256) (pkg : BitVec 128) (h : unwrapBlob wA.dev.sec.krel (stRead wA.dev (2 ^ 32) 0 4096) = some (kk, pkg)) :
    ∃ s : State, ∃ acc : Acc, live s ∧
    regsSorted s.dev ∧
    SMap.sorted s.dev.sec.keys = true ∧
    let d := s.dev
    let j := bitsOf (rg d 60 1 0x120) 7 0
    let k := bitsOf (rg d 60 1 0x120) 11 8
    let key := j * 16 + k
    Performed d acc (regOff 60 1 0x12C) ∧
    secOwned d acc j = true ∧
    ∃ bs : List Nat, d.factoryTest = false ∧
    SMap.get? d.sec.keys key = none ∧
    d.sec.fuseErr = false ∧
    readBlob d j (rg64 d 60 1 0x124) .none = (d, some bs) ∧
    ofLeBytes (bs.take 4) = 1 ∧
    ∃ kk : BitVec 256, ∃ pkg : BitVec 128, unwrapBlob d.sec.krel bs = some (kk, pkg) :=
  ⟨wA, .firmware, live_of (by decide +kernel), by unfold regsSorted; decide +kernel, by decide +kernel, performed_of (by decide +kernel), by decide +kernel, (stRead wA.dev (2^32) 0 4096), by decide +kernel, by decide +kernel, by decide +kernel, rfl, by decide +kernel, kk, pkg, h⟩
theorem wit_SecurityEngineKeepsKeys_5 (h : unwrapBlob wA.dev.sec.krel (stRead wA.dev (2 ^ 32) 0 4096) = none) :
    ∃ s : State, ∃ acc : Acc, live s ∧
    regsSorted s.dev ∧
    SMap.sorted s.dev.sec.keys = true ∧
    let d := s.dev
    let j := bitsOf (rg d 60 1 0x120) 7 0
    let k := bitsOf (rg d 60 1 0x120) 11 8
    let key := j * 16 + k
    Performed d acc (regOff 60 1 0x12C) ∧
    secOwned d acc j = true ∧
    ∃ bs : List Nat, d.factoryTest = false ∧
    SMap.get? d.sec.keys key = none ∧
    d.sec.fuseErr = false ∧
    readBlob d j (rg64 d 60 1 0x124) .none = (d, some bs) ∧
    ofLeBytes (bs.take 4) = 1 ∧
    unwrapBlob d.sec.krel bs = none :=
  ⟨wA, .firmware, live_of (by decide +kernel), by unfold regsSorted; decide +kernel, by decide +kernel, performed_of (by decide +kernel), by decide +kernel, (stRead wA.dev (2^32) 0 4096), by decide +kernel, by decide +kernel, by decide +kernel, rfl, by decide +kernel, h⟩
theorem wit_SecurityEngineKeepsKeys_7 :
    ∃ s : State, ∃ p : HostPort, live s ∧
    regsSorted s.dev ∧
    SMap.sorted s.dev.sec.keys = true ∧
    let d := s.dev
    cfgReach d p = true ∧
    ∃ pr : Fin 256, ∃ len : Nat, ∃ req : List Byte, len ≤ 65536 ∧
    pr.val ≤ 2 ∧
    (pcie d p).doe = none ∧
    req.length < len :=
  ⟨wE, .a, live_of (by decide +kernel), by unfold regsSorted; decide +kernel, by decide +kernel, by decide +kernel, 0, 2, [], by decide +kernel⟩
theorem wit_SecurityEngineKeepsKeys_8 :
    ∃ s : State, ∃ p : HostPort, live s ∧
    regsSorted s.dev ∧
    SMap.sorted s.dev.sec.keys = true ∧
    let d := s.dev
    cfgReach d p = true ∧
    ∃ pr : Fin 256, ∃ len : Nat, ∃ req : List Byte, len ≤ 65536 ∧
    pr.val ≤ 2 ∧
    (pcie d p).doe = none ∧
    len ≤ req.length ∧
    pr.val ≠ 0 ∧
    d.sec.windowOpen = true :=
  ⟨wF, .a, live_of (by decide +kernel), by unfold regsSorted; decide +kernel, by decide +kernel, by decide +kernel, 1, 0, [], by decide +kernel⟩
theorem wit_SecurityEngineKeepsKeys_9 :
    ∃ s : State, ∃ p : HostPort, live s ∧
    regsSorted s.dev ∧
    SMap.sorted s.dev.sec.keys = true ∧
    let d := s.dev
    cfgReach d p = true ∧
    ∃ pr : Fin 256, ∃ len : Nat, ∃ req : List Byte, len ≤ 65536 ∧
    pr.val ≤ 2 ∧
    (pcie d p).doe = none ∧
    len ≤ req.length ∧
    pr.val ≠ 0 ∧
    d.sec.windowOpen = false :=
  ⟨wE, .a, live_of (by decide +kernel), by unfold regsSorted; decide +kernel, by decide +kernel, by decide +kernel, 1, 0, [], by decide +kernel⟩
theorem wit_SecurityEngineKeepsKeys_11 :
    ∃ s : State, ∃ p : HostPort, live s ∧
    regsSorted s.dev ∧
    SMap.sorted s.dev.sec.keys = true ∧
    let d := s.dev
    cfgReach d p = false :=
  ⟨wA, .a, live_of (by decide +kernel), by unfold regsSorted; decide +kernel, by decide +kernel, by decide +kernel⟩

end WSecurityEngineKeepsKeys

namespace WRegistersAreReadAndWritten

def wA : State := stOf { rdy with orb := { noOrbit with occ := 2^40 + 5 }, flt := { emptyFlt with org := [(0, ⟨12, 1, 4, 5, 6, 9⟩)] } }
def wB : State := stOf { rdy with powerLost := true }
def wC : State := stOf { rdy with cores := [(287, { idleCore with vregs := [(31, 7)], vsealed := [(30, ())] })] }

theorem wit_RegistersAreReadAndWritten_0 :
    ∃ s : State, ∃ acc : Acc, ∃ off : BitVec 28, live s ∧
    regsSorted s.dev ∧
    let d := s.dev
    ∃ t0 : Nat, accTarget d acc off.toNat = some t0 ∧
    isListed t0 = false :=
  ⟨wA, .firmware, (BitVec.ofNat 28 (regOff 60 (jPage 3) 0xF00)), live_of (by decide +kernel), by unfold regsSorted; decide +kernel, (regOff 60 (jPage 3) 0xF00), by decide +kernel⟩
theorem wit_RegistersAreReadAndWritten_1 :
    ∃ s : State, ∃ acc : Acc, ∃ off : BitVec 28, live s ∧
    regsSorted s.dev ∧
    let d := s.dev
    ∃ be : BitVec 4, ∃ t0 : Nat, accTarget d acc off.toNat = some t0 ∧
    isListed t0 = true ∧
    accWrite d acc off.toNat = (d, some t0) ∧
    be ≠ 15#4 :=
  ⟨wA, .firmware, (BitVec.ofNat 28 (regOff 56 16 0x1D8)), live_of (by decide +kernel), by unfold regsSorted; decide +kernel, (3#4), (regOff 56 16 0x1D8), by decide +kernel, by decide +kernel, accWrite_of (.inl rfl) (by decide +kernel), by decide +kernel⟩
theorem wit_RegistersAreReadAndWritten_2 :
    ∃ s : State, ∃ acc : Acc, ∃ off : BitVec 28, live s ∧
    regsSorted s.dev ∧
    let d := s.dev
    ∃ j : JobId, ∃ reg : Nat, ∃ r : RegRow, accTarget d acc off.toNat = some (regOff 60 (jPage j.val) reg) ∧
    accWrite d acc off.toNat = (d, some (regOff 60 (jPage j.val) reg)) ∧
    findRow .qmgrJ reg = some r ∧
    r.w1c = 0 ∧
    reg ∈ [0x108, 0x10C, 0x110, 0x114, 0x118, 0x11C, 0x120, 0x130, 0x134, 0x138, 0x13C, 0x140, 0x144, 0x148, 0x14C] :=
  ⟨wA, .firmware, (BitVec.ofNat 28 (regOff 60 (jPage 3) 0x108)), live_of (by decide +kernel), by unfold regsSorted; decide +kernel, 3, 0x108, ((((findRow .qmgrJ 0x108).toList ++ (findRow .qmgrJ 0x130).toList))[0]'(by decide +kernel)), by decide +kernel, accWrite_of (.inl rfl) (by decide +kernel), by decide +kernel⟩
theorem wit_RegistersAreReadAndWritten_3 :
    ∃ s : State, ∃ acc : Acc, ∃ off : BitVec 28, live s ∧
    regsSorted s.dev ∧
    let d := s.dev
    off.toNat = regOff 56 16 0x1D8 ∧
    accTarget d acc off.toNat = some off.toNat ∧
    pageResponds d acc .fabr = true ∧
    dieRetained d 56 = false ∧
    dieResetting d 56 = false ∧
    SMap.get? d.latch off.toNat = none :=
  ⟨wA, .firmware, (BitVec.ofNat 28 (regOff 56 16 0x1D8)), live_of (by decide +kernel), by unfold regsSorted; decide +kernel, by decide +kernel⟩
theorem wit_RegistersAreReadAndWritten_4 :
    ∃ s : State, ∃ acc : Acc, live s ∧
    regsSorted s.dev ∧
    let d := s.dev
    accTarget d acc (regOff 60 3 0x144) = some (regOff 60 3 0x144) ∧
    pageResponds d acc .fltag = true ∧
    dieRetained d 60 = false ∧
    dieResetting d 60 = false :=
  ⟨wA, .firmware, live_of (by decide +kernel), by unfold regsSorted; decide +kernel, by decide +kernel⟩
theorem wit_RegistersAreReadAndWritten_5 :
    ∃ s : State, live s ∧
    regsSorted s.dev ∧
    let d := s.dev
    d.powerLost = true :=
  ⟨wB, live_of (by decide +kernel), by unfold regsSorted; decide +kernel, by decide +kernel⟩
theorem wit_RegistersAreReadAndWritten_7 :
    ∃ s : State, live s ∧
    regsSorted s.dev ∧
    let d := s.dev
    d.powerLost = false ∧
    ∃ n : CoreId, ∃ i : Fin 32, NSet.mem (Machine.core d n.val).vsealed i.val = false :=
  ⟨wA, live_of (by decide +kernel), by unfold regsSorted; decide +kernel, by decide +kernel, 287, 30, by decide +kernel⟩
theorem wit_RegistersAreReadAndWritten_8 :
    ∃ s : State, live s ∧
    regsSorted s.dev ∧
    let d := s.dev
    d.powerLost = false ∧
    ∃ n : CoreId, ∃ i : Fin 32, NSet.mem (Machine.core d n.val).vsealed i.val = true :=
  ⟨wC, live_of (by decide +kernel), by unfold regsSorted; decide +kernel, by decide +kernel, 287, 30, by decide +kernel⟩

end WRegistersAreReadAndWritten

namespace WJobsAreActivatedAndDestroyed

def pb : List Byte := (List.range 640).map (fun i => if i = 0 || i = 35 then 0x81#8 else if 608 ≤ i && i < 612 then 0xF0#8 else 0#8)
def pbad : List Byte := [0#8] ++ List.replicate 47 (0#8) ++ [0x86#8]
def wA : State := stOf rdy
def wC : State := stOf { rdy with pwr := { resetPwr with retained := [(0, 0), (47, 0)] } }
def wD : State := stOf { put1 d3 { cmdOf 6 [] with phase := .running, committed := true } with qm := { (put1 d3 { cmdOf 6 [] with phase := .running, committed := true }).qm with bells := [(3,0,1),(4,0,1)] } }
def wE : State := stOf { d3 with sec := { resetSec with keys := [(47,⟨1,1⟩),(48,⟨1,1⟩),(63,⟨1,1⟩),(64,⟨1,1⟩)] }, qm := { d3.qm with sess := [(5, {freeSess with job := some 3, lists := [(0, ⟨[⟨1,0,77⟩], 1⟩)]})], pst := [(77, ⟨0, 1, 0, 1, false, 0, 0, false, 3⟩)] } }

theorem wit_JobsAreActivatedAndDestroyed_1 :
    ∃ s : State, ∃ acc : Acc, ∃ j : JobId, live s ∧
    Performed s.dev acc (jobOff acc j.val 0x100) ∧
    TablesSorted s.dev ∧
    let x := job s.dev j.val
    x.state = 0 ∧
    ∃ bs : List Byte, decodePlacement (bs.map BitVec.toNat) = none :=
  ⟨wA, .firmware, 3, live_of (by decide +kernel), performed_of (by decide +kernel), by constructor <;> decide +kernel, by decide +kernel, pbad, by decide +kernel⟩
theorem wit_JobsAreActivatedAndDestroyed_2 :
    ∃ s : State, ∃ acc : Acc, ∃ j : JobId, live s ∧
    Performed s.dev acc (jobOff acc j.val 0x100) ∧
    TablesSorted s.dev ∧
    let d := s.dev
    let x := job s.dev j.val
    x.state = 0 ∧
    ∃ bs : List Byte, ∃ p : Placement, decodePlacement (bs.map BitVec.toNat) = some p ∧
    noConflict d j.val p = true ∧
    sleepingDies d p = [] :=
  ⟨wA, .firmware, 3, live_of (by decide +kernel), performed_of (by decide +kernel), by constructor <;> decide +kernel, by decide +kernel, pb, ((((decodePlacement ((pb : List Byte).map BitVec.toNat)).toList))[0]'(by decide +kernel)), by decide +kernel⟩
theorem wit_JobsAreActivatedAndDestroyed_3 :
    ∃ s : State, ∃ acc : Acc, ∃ j : JobId, live s ∧
    Performed s.dev acc (jobOff acc j.val 0x100) ∧
    TablesSorted s.dev ∧
    let d := s.dev
    let x := job s.dev j.val
    x.state = 0 ∧
    ∃ bs : List Byte, ∃ p : Placement, decodePlacement (bs.map BitVec.toNat) = some p ∧
    noConflict d j.val p = true ∧
    sleepingDies d p ≠ [] :=
  ⟨wC, .firmware, 3, live_of (by decide +kernel), performed_of (by decide +kernel), by constructor <;> decide +kernel, by decide +kernel, pb, ((((decodePlacement ((pb : List Byte).map BitVec.toNat)).toList))[0]'(by decide +kernel)), by decide +kernel⟩
theorem wit_JobsAreActivatedAndDestroyed_4 :
    ∃ s : State, ∃ acc : Acc, ∃ j : JobId, live s ∧
    Performed s.dev acc (jobOff acc j.val 0x100) ∧
    TablesSorted s.dev ∧
    let x := job s.dev j.val
    x.state ≠ 0 :=
  ⟨wD, .firmware, 3, live_of (by decide +kernel), performed_of (by decide +kernel), by constructor <;> decide +kernel, by decide +kernel⟩
theorem wit_JobsAreActivatedAndDestroyed_5 :
    ∃ s : State, ∃ acc : Acc, ∃ j : JobId, live s ∧
    Performed s.dev acc (jobOff acc j.val 0x100) ∧
    TablesSorted s.dev ∧
    let d := s.dev
    let x := job s.dev j.val
    x.state = 1 ∧
    jobCmds d j.val = [] :=
  ⟨wE, .firmware, 3, live_of (by decide +kernel), performed_of (by decide +kernel), by constructor <;> decide +kernel, by decide +kernel⟩
theorem wit_JobsAreActivatedAndDestroyed_6 :
    ∃ s : State, ∃ acc : Acc, ∃ j : JobId, live s ∧
    Performed s.dev acc (jobOff acc j.val 0x100) ∧
    TablesSorted s.dev ∧
    let d := s.dev
    let x := job s.dev j.val
    x.state = 1 ∧
    ∃ uid : Nat, ∃ c : Cmd, cmd d uid = some c ∧
    c.job = j.val ∧
    c.phase ≠ .ended :=
  ⟨wD, .firmware, 3, live_of (by decide +kernel), performed_of (by decide +kernel), by constructor <;> decide +kernel, by decide +kernel, 1, { cmdOf 6 [] with phase := .running, committed := true }, by decide +kernel⟩
theorem wit_JobsAreActivatedAndDestroyed_7 :
    ∃ s : State, ∃ acc : Acc, ∃ j : JobId, live s ∧
    Performed s.dev acc (jobOff acc j.val 0x100) ∧
    TablesSorted s.dev ∧
    let x := job s.dev j.val
    x.state ≠ 1 :=
  ⟨wA, .firmware, 3, live_of (by decide +kernel), performed_of (by decide +kernel), by constructor <;> decide +kernel, by decide +kernel⟩

end WJobsAreActivatedAndDestroyed

namespace WSessionsAreBoundAndPoolsDeclared

def ws (l : SMap Sess) : State := stOf { d3 with qm := { d3.qm with sess := l } }
def wA : State := ws []
def wB : State := ws [(5, {freeSess with job := some 3}),(16383, {freeSess with job := some 4})]
def wC : State := ws [(5, {freeSess with job := some 3, lists := [(0, ⟨[⟨1,0,77⟩], 1⟩)]})]
def wD : State := stOf (put1 d3 (cmdOf 6 []))

theorem wit_SessionsAreBoundAndPoolsDeclared_0 :
    ∃ s : State, ∃ acc : Acc, ∃ j : JobId, live s ∧
    TablesSorted s.dev ∧
    let d := s.dev
    Performed s.dev acc (jobOff acc j.val 0x1D0) ∧
    ∃ n : SessId, (job d j.val).state = 1 ∧
    (sess d n.val).job = none :=
  ⟨wA, .firmware, 3, live_of (by decide +kernel), by constructor <;> decide +kernel, performed_of (by decide +kernel), 5, by decide +kernel⟩
theorem wit_SessionsAreBoundAndPoolsDeclared_1 :
    ∃ s : State, ∃ acc : Acc, ∃ j : JobId, live s ∧
    TablesSorted s.dev ∧
    let d := s.dev
    Performed s.dev acc (jobOff acc j.val 0x1D0) ∧
    ∃ n : SessId, (job d j.val).state = 1 ∧
    (sess d n.val).job ≠ none :=
  ⟨wB, .firmware, 3, live_of (by decide +kernel), by constructor <;> decide +kernel, performed_of (by decide +kernel), 5, by decide +kernel⟩
theorem wit_SessionsAreBoundAndPoolsDeclared_2 :
    ∃ s : State, ∃ acc : Acc, ∃ j : JobId, live s ∧
    TablesSorted s.dev ∧
    let d := s.dev
    Performed s.dev acc (jobOff acc j.val 0x1D0) ∧
    ∃ n : SessId, (job d j.val).state = 1 ∧
    (sess d n.val).job = some j.val ∧
    sessEmpty (sess d n.val) = true ∧
    (jobCmds d j.val).any (fun e => namesSess e.2 n.val) = false :=
  ⟨wB, .firmware, 3, live_of (by decide +kernel), by constructor <;> decide +kernel, performed_of (by decide +kernel), 5, by decide +kernel⟩
theorem wit_SessionsAreBoundAndPoolsDeclared_3 :
    ∃ s : State, ∃ acc : Acc, ∃ j : JobId, live s ∧
    TablesSorted s.dev ∧
    let d := s.dev
    Performed s.dev acc (jobOff acc j.val 0x1D0) ∧
    ∃ n : SessId, (job d j.val).state = 1 ∧
    (sess d n.val).job = some j.val ∧
    ((sessEmpty (sess d n.val) = false ∨ (jobCmds d j.val).any (fun e => namesSess e.2 n.val) = true)) :=
  ⟨wC, .firmware, 3, live_of (by decide +kernel), by constructor <;> decide +kernel, performed_of (by decide +kernel), 5, by decide +kernel⟩
theorem wit_SessionsAreBoundAndPoolsDeclared_4 :
    ∃ s : State, ∃ acc : Acc, ∃ j : JobId, live s ∧
    TablesSorted s.dev ∧
    let d := s.dev
    Performed s.dev acc (jobOff acc j.val 0x1D0) ∧
    ∃ n : SessId, (job d j.val).state = 1 ∧
    (sess d n.val).job ≠ some j.val :=
  ⟨wA, .firmware, 3, live_of (by decide +kernel), by constructor <;> decide +kernel, performed_of (by decide +kernel), 5, by decide +kernel⟩
theorem wit_SessionsAreBoundAndPoolsDeclared_5 :
    ∃ s : State, ∃ acc : Acc, ∃ j : JobId, live s ∧
    TablesSorted s.dev ∧
    let d := s.dev
    Performed s.dev acc (jobOff acc j.val 0x1D0) ∧
    (job d j.val).state ≠ 1 :=
  ⟨wA, .firmware, 4, live_of (by decide +kernel), by constructor <;> decide +kernel, performed_of (by decide +kernel), by decide +kernel⟩
theorem wit_SessionsAreBoundAndPoolsDeclared_7 :
    ∃ s : State, ∃ acc : Acc, ∃ j : JobId, live s ∧
    TablesSorted s.dev ∧
    let d := s.dev
    ∃ reg : Fin 11, Performed s.dev acc (jobOff acc j.val (declReg reg.val)) ∧
    ((jobCmds d j.val ≠ [] ∨ declFree d j.val (declReg reg.val) = false)) :=
  ⟨wD, .firmware, 3, live_of (by decide +kernel), by constructor <;> decide +kernel, 0, performed_of (by decide +kernel), by decide +kernel⟩
theorem wit_SessionsAreBoundAndPoolsDeclared_8 :
    ∃ s : State, ∃ acc : Acc, ∃ j : JobId, live s ∧
    TablesSorted s.dev ∧
    let d := s.dev
    ∃ reg : Fin 11, ∃ v : Word, Performed s.dev acc (jobOff acc j.val (declReg reg.val)) ∧
    jobCmds d j.val = [] ∧
    declFree d j.val (declReg reg.val) = true ∧
    ((reg.val = 0 ∨ reg.val = 2 ∨ reg.val = 4 ∨ reg.val = 6)) ∧
    (∃ k, 1 ≤ k ∧ k ≤ 8 ∧ Wbits v 8 0 = 32 * k) ∧
    Wbits v 23 20 ∈ [3, 4, 6, 7] ∧
    Wbits v 27 24 ∈ [6, 7] :=
  ⟨wA, .firmware, 3, live_of (by decide +kernel), by constructor <;> decide +kernel, 0, (BitVec.ofNat 32 (256 + 7*2^16 + 7*2^20 + 7*2^24)), performed_of (by decide +kernel), by decide +kernel, by decide +kernel, by decide +kernel, ⟨8, by decide, by decide, by decide +kernel⟩, by decide +kernel⟩

end WSessionsAreBoundAndPoolsDeclared

namespace WSlicesEndAndJobsArePreempted

def rj3 : Job := { aJob with resident := true, place := ⟨[⟨0, 0xF, 0, 1, 0, 0⟩],[],[]⟩ }
def d34 : Dev := setRg (setRg (setJob (setJob rdy 3 rj3) 4 { rj3 with resident := false }) 60 (jPage 3) 0x100 4) 60 (jPage 3) 0x108 2
def wA : State := stOf { d34 with now := 2*1050*3+5 }
def wB : State := stOf (let d := { put1 wA.dev { cmdOf 6 [] with phase := .running, coresLeft := [0], cores := [0] } with cores := [(0, { idleCore with ctxs := [] })] }
  { d with qm := { d.qm with pres := [⟨9, 3, 4, true, none, []⟩] } })
def ca : Cmd := { cmdOf 1 [(0, 256)] with phase := .running, coresLeft := [0], cores := [0], affected := true }
def wC : State := stOf (let d := put1 { d34 with now := 10^7 } ca
  { d with qm := { d.qm with pres := [⟨9, 3, 4, true, some 5, []⟩] } })
def cp : Cmd := { cmdOf 8 [(8,3),(9,4),(10,1)] with job := 3 }
def wD : State := stOf (put1 (setRg (setRg d34 60 (jPage 3) 0x108 0) 60 (jPage 3) 0x120 0) cp)
def cq : Cmd := { cp with phase := .running }
def wE : State := stOf (let d := put1 { d34 with now := 77 } cq
  { d with qm := { d.qm with pres := [⟨1, 3, 4, true, some 5, []⟩] } })

theorem wit_SlicesEndAndJobsArePreempted_0 :
    ∃ s : State, live s ∧
    TablesSorted s.dev ∧
    let d := s.dev
    ∃ j : JobId, (job d j.val).state = 1 ∧
    (job d j.val).resident = true ∧
    rj d j.val 0x108 ≠ 0 ∧
    (job d j.val).sliceStart + rj d j.val 0x108 * 1050 ≤ d.now ∧
    d.qm.pres = [] :=
  ⟨wA, live_of (by decide +kernel), by constructor <;> decide +kernel, 3, by decide +kernel⟩
theorem wit_SlicesEndAndJobsArePreempted_1 :
    ∃ s : State, live s ∧
    TablesSorted s.dev ∧
    let d := s.dev
    ∃ j : JobId, (job d j.val).state = 1 ∧
    (job d j.val).resident = true ∧
    rj d j.val 0x108 ≠ 0 ∧
    (job d j.val).sliceStart + rj d j.val 0x108 * 1050 ≤ d.now ∧
    ∃ p : Pre, d.qm.pres = [p] ∧
    p.victim = j.val ∧
    p.endedAt = none ∧
    (∀ c, cmd d p.uid = some c → affectedBy d p c = false) :=
  ⟨wB, live_of (by decide +kernel), by constructor <;> decide +kernel, 3, by decide +kernel, by decide +kernel, by decide +kernel, (by decide +kernel), ⟨9, 3, 4, true, none, []⟩, by decide +kernel⟩
theorem wit_SlicesEndAndJobsArePreempted_2 :
    ∃ s : State, live s ∧
    TablesSorted s.dev ∧
    let d := s.dev
    ∃ uid : Nat, ∃ c : Cmd, cmd d uid = some c ∧
    c.affected = false :=
  ⟨wB, live_of (by decide +kernel), by constructor <;> decide +kernel, 1, { cmdOf 6 [] with phase := .running, coresLeft := [0], cores := [0] }, by decide +kernel⟩
theorem wit_SlicesEndAndJobsArePreempted_3 :
    ∃ s : State, live s ∧
    TablesSorted s.dev ∧
    let d := s.dev
    ∃ uid : Nat, ∃ c : Cmd, cmd d uid = some c ∧
    ∃ p : Pre, ∃ t0 : Nat, c.affected = true ∧
    ((c.phase = .running ∨ c.phase = .worked)) ∧
    p ∈ d.qm.pres ∧
    p.victim = c.job ∧
    p.endedAt = some t0 ∧
    t0 + max 1 (rg d (qmDie d c.job) 0x100 0x108) * 1050 ≤ d.now :=
  ⟨wC, live_of (by decide +kernel), by constructor <;> decide +kernel, 1, ca, by decide +kernel, ⟨9, 3, 4, true, some 5, []⟩, 5, by decide +kernel⟩
theorem wit_SlicesEndAndJobsArePreempted_4 :
    ∃ s : State, live s ∧
    TablesSorted s.dev ∧
    let d := s.dev
    ∃ uid : Nat, ∃ c : Cmd, MayStart d uid 0x08 c ∧
    isPriv d c.job = true ∧
    dBits c.desc 10 1 1 = 0 ∧
    let v := dBytes c.desc 8 1
    let i := dBytes c.desc 9 1
    isActive d v = true ∧
    isActive d i = true ∧
    (job d v).resident = true ∧
    (job d i).resident = false ∧
    (job d i).awaits = false ∧
    (job d i).save = none ∧
    bitsOf (rj d v 0x120) 15 0 = 0 ∧
    rj d v 0x108 = 0 :=
  ⟨wD, live_of (by decide +kernel), by constructor <;> decide +kernel, 1, cp, by constructor <;> first | decide +kernel | constructor <;> decide +kernel, by decide +kernel, by decide +kernel, by decide +kernel⟩
theorem wit_SlicesEndAndJobsArePreempted_5 :
    ∃ s : State, live s ∧
    TablesSorted s.dev ∧
    let d := s.dev
    ∃ uid : Nat, ∃ c : Cmd, ∃ p : Pre, d.qm.pres = [p] ∧
    p.uid = uid ∧
    p.endedAt ≠ none ∧
    (∀ e ∈ d.qm.cmds, affectedBy d p e.2 = false) ∧
    pfMoving d p.victim = false ∧
    p.victim ≠ p.incoming ∧
    (∀ k, k ≠ p.victim → k ≠ p.incoming → (job d k).resident = false ∧ (job d k).awaits = false) ∧
    sleepingDies d (job d p.incoming).place = [] ∧
    isActive d p.incoming = true ∧
    (job d p.victim).resident = true ∧
    cmd d uid = some c ∧
    c.phase = .running ∧
    c.coresLeft = [] ∧
    c.t4left = 0 :=
  ⟨wE, live_of (by decide +kernel), by constructor <;> decide +kernel, 1, cq, ⟨1, 3, 4, true, some 5, []⟩, by decide +kernel, by decide +kernel, by decide +kernel, (by decide +kernel), by decide +kernel, by decide +kernel, fun k h3 h4 => idleOf (by decide +kernel) h3 h4, by decide +kernel⟩

end WSlicesEndAndJobsArePreempted

namespace WPrefetchListsRun

def el : List Nat := pfEnt a9 8192 1 0 0 0 ++ pfEnt a9 (a10 + 4096) 0 0 0 0 ++ pfEnt (a9+4096) (a10 + 4096) 2 5 5 0 ++ pfEnt 4096 a10 (1+2^28+2^25) 3 0 0
def pd (f : SMap PfState) : Dev := let d := setRg64 (d9 el) 60 (jPage 3) 0x180 a9; setRg (setJob d 3 { job3 with pf := f }) 60 (jPage 3) 0x188 (4 + 4*2^24)
def wA : State := stOf (pd [])
def wB : State := stOf (let d := pd [(0, .eligible), (1, .finished), (3, .eligible)]; { d with mem := { d.mem with marks := [(gT0 0 2, [(3,0)])] } })
def wC : State := stOf (let d := pd [(0, .transfer 0 none), (1, .eligible)]; { d with mem := { d.mem with marks := [(gT0 0 2, [(3,0),(3,7)]), (gT0 0 3, [(3,9)])] } })
def im0 : Image := ⟨false, 0, 0, 0, 0, 0, 0, 0, 0, 0, [⟨4, 255, 0, 2⟩], [⟨0, 0, false, false, 0, 0, 0, [0,0,0,0]⟩], [⟨[0,0,0,0,0,0,0,0]⟩]⟩
def cx : Ctx := { uid := 1, image := im0, exts := [], todo := [.act 0 [0] [2] [4] none], readyAt := 0, curAct := 0, curIdx := [], waitFrom := none, heldFrom := some 7, nextId := 1, running := [], argmax := [], lastRegion := [], fenceBE := false, stepOk := false, gateFrom := none, slipFrom := 0, swapFrom := none }
def wD : State := stOf { pd [] with cores := [(0, { idleCore with ctxs := [(3, cx)] })], now := 50 }

theorem wit_PrefetchListsRun_0 :
    ∃ s : State, ∃ j : JobId, live s ∧
    TablesSorted s.dev ∧
    let d := s.dev
    ∃ acc : Acc, ∃ v : Word, Performed s.dev acc (jobOff acc j.val 0x188) ∧
    (job d j.val).state = 1 ∧
    (job d j.val).pf = [] ∧
    Wbits v 20 0 ≤ 1048576 :=
  ⟨wA, 3, live_of (by decide +kernel), by constructor <;> decide +kernel, .firmware, (BitVec.ofNat 32 4), performed_of (by decide +kernel), by decide +kernel⟩
theorem wit_PrefetchListsRun_1 :
    ∃ s : State, ∃ j : JobId, live s ∧
    TablesSorted s.dev ∧
    let d := s.dev
    ∃ md : MemDie, ∃ i : Nat, pfReady d md.val j.val i (pfBytes d j.val i) = true ∧
    pfBad d j.val i (pfBytes d j.val i) = false ∧
    addrTier (pfSrc (pfBytes d j.val i)) ≠ 3 ∧
    addrTier (pfDst (pfBytes d j.val i)) ≠ 3 :=
  ⟨wB, 3, live_of (by decide +kernel), by constructor <;> decide +kernel, 0, 0, by decide +kernel⟩
theorem wit_PrefetchListsRun_2 :
    ∃ s : State, ∃ j : JobId, live s ∧
    TablesSorted s.dev ∧
    let d := s.dev
    ∃ md : MemDie, ∃ i : Nat, pfReady d md.val j.val i (pfBytes d j.val i) = true ∧
    pfBad d j.val i (pfBytes d j.val i) = true :=
  ⟨wC, 3, live_of (by decide +kernel), by constructor <;> decide +kernel, 0, 1, by decide +kernel⟩
theorem wit_PrefetchListsRun_3 :
    ∃ s : State, ∃ j : JobId, live s ∧
    TablesSorted s.dev ∧
    let d := s.dev
    ∃ md : MemDie, ∃ i : Nat, SMap.get? (job d j.val).pf i = some (.transfer md.val none) ∧
    pfWaits d j.val i = false :=
  ⟨wC, 3, live_of (by decide +kernel), by constructor <;> decide +kernel, 0, 0, by decide +kernel⟩
theorem wit_PrefetchListsRun_4 :
    ∃ s : State, ∃ j : JobId, live s ∧
    TablesSorted s.dev ∧
    let d := s.dev
    ∃ n : CoreId, ∃ x : Ctx, ∃ it : Item, ∃ h : Nat, ∃ r : List Item, ctxOf d n.val j.val = some x ∧
    x.todo = it :: r ∧
    x.heldFrom = some h ∧
    aType (actOf x.image it) ≠ 7 ∧
    (readGrans d n.val j.val x it).any (isPending d) = false :=
  ⟨wD, 3, live_of (by decide +kernel), by constructor <;> decide +kernel, 0, cx, (.act 0 [0] [2] [4] none), 7, [], by decide +kernel⟩

end WPrefetchListsRun

namespace WStateSlotsAreSwapped

def sl (st : SlotState) : Slot := { freeSlot with state := st, job := 3, gen := 2, refcnt := 1, layer := 1 }
def sd (x : Slot) (c : Cmd) : Dev :=
  let d := setJob { d9 [] with mem := { (d9 []).mem with bytes := memWrite [] ((287*12288+2)*4096) (leBytes 8 (5 + 2^16*1)) } } 3 { job3 with comets := [(1, ⟨8 * 2^16 + 0, 287*2^16+2, 4096⟩)] }
  let d := setRg64 d 60 (jPage 3) 0x1D8 0
  { d with qm := { d.qm with cmds := [(1, c)], uidCtr := 2, slots := [(77, x)], sess := [(5, { freeSess with job := some 3, tails := [(1, (77, 2))] })] } }
def so : Cmd := cmdOf 2 [(8, 5), (16, 287*2^48+8192), (32, 1)]
def si : Cmd := cmdOf 2 [(8, 6), (16, 287*2^48+8192), (32, 1)]
def q (x : Slot) (c : Cmd) : State := stOf (sd x c)

theorem wit_StateSlotsAreSwapped_0 :
    ∃ s : State, live s ∧
    TablesSorted s.dev ∧
    let d := s.dev
    ∃ uid : Nat, ∃ c : Cmd, ∃ n : Nat, ∃ o : Nat, ∃ es : List Nat, ∃ sid : Nat, MayStart d uid 0x02 c ∧
    (job d c.job).resident = true ∧
    ListReady d c n o es ∧
    listSlots d c.job es = some [sid] ∧
    sid < 2 ^ 24 ∧
    dBits c.desc 8 3 0 = 5 ∧
    (slot d sid).state = .resident ∧
    (slot d sid).pins = 0 :=
  ⟨(q (sl .resident) so), live_of (by decide +kernel), by constructor <;> decide +kernel, 1, so, 287, 8192, [5 + 2^16], 77, by constructor <;> first | decide +kernel | constructor <;> decide +kernel, by decide +kernel, by constructor <;> decide +kernel, by decide +kernel⟩
theorem wit_StateSlotsAreSwapped_1 :
    ∃ s : State, live s ∧
    TablesSorted s.dev ∧
    let d := s.dev
    ∃ uid : Nat, ∃ c : Cmd, ∃ n : Nat, ∃ o : Nat, ∃ es : List Nat, ∃ sid : Nat, MayStart d uid 0x02 c ∧
    (job d c.job).resident = true ∧
    ListReady d c n o es ∧
    listSlots d c.job es = some [sid] ∧
    sid < 2 ^ 24 ∧
    dBits c.desc 8 3 0 = 5 ∧
    (slot d sid).state = .resident ∧
    (slot d sid).pins ≠ 0 :=
  ⟨(q { sl .resident with pins := 1 } so), live_of (by decide +kernel), by constructor <;> decide +kernel, 1, so, 287, 8192, [5 + 2^16], 77, by constructor <;> first | decide +kernel | constructor <;> decide +kernel, by decide +kernel, by constructor <;> decide +kernel, by decide +kernel⟩
theorem wit_StateSlotsAreSwapped_2 :
    ∃ s : State, live s ∧
    TablesSorted s.dev ∧
    let d := s.dev
    ∃ uid : Nat, ∃ c : Cmd, ∃ n : Nat, ∃ o : Nat, ∃ es : List Nat, ∃ sid : Nat, MayStart d uid 0x02 c ∧
    (job d c.job).resident = true ∧
    ListReady d c n o es ∧
    listSlots d c.job es = some [sid] ∧
    sid < 2 ^ 24 ∧
    dBits c.desc 8 3 0 = 5 ∧
    (slot d sid).state = .swapped :=
  ⟨(q (sl .swapped) so), live_of (by decide +kernel), by constructor <;> decide +kernel, 1, so, 287, 8192, [5 + 2^16], 77, by constructor <;> first | decide +kernel | constructor <;> decide +kernel, by decide +kernel, by constructor <;> decide +kernel, by decide +kernel⟩
theorem wit_StateSlotsAreSwapped_3 :
    ∃ s : State, live s ∧
    TablesSorted s.dev ∧
    let d := s.dev
    ∃ uid : Nat, ∃ c : Cmd, ∃ n : Nat, ∃ o : Nat, ∃ es : List Nat, ∃ sid : Nat, MayStart d uid 0x02 c ∧
    (job d c.job).resident = true ∧
    ListReady d c n o es ∧
    listSlots d c.job es = some [sid] ∧
    sid < 2 ^ 24 ∧
    dBits c.desc 8 3 0 = 6 ∧
    ∃ i : Nat, (slot d sid).state = .swapped ∧
    freeArena d (slot d sid).job (slot d sid).layer = some i :=
  ⟨(q (sl .swapped) si), live_of (by decide +kernel), by constructor <;> decide +kernel, 1, si, 287, 8192, [5 + 2^16], 77, by constructor <;> first | decide +kernel | constructor <;> decide +kernel, by decide +kernel, by constructor <;> decide +kernel, by decide +kernel, by decide +kernel, by decide +kernel, ((((freeArena ((q (sl .swapped) si) : State).dev 3 1).toList))[0]'(by decide +kernel)), by decide +kernel⟩
theorem wit_StateSlotsAreSwapped_4 :
    ∃ s : State, live s ∧
    TablesSorted s.dev ∧
    let d := s.dev
    ∃ uid : Nat, ∃ c : Cmd, ∃ n : Nat, ∃ o : Nat, ∃ es : List Nat, ∃ sid : Nat, MayStart d uid 0x02 c ∧
    (job d c.job).resident = true ∧
    ListReady d c n o es ∧
    listSlots d c.job es = some [sid] ∧
    sid < 2 ^ 24 ∧
    dBits c.desc 8 3 0 = 6 ∧
    (slot d sid).state = .swapped ∧
    freeArena d (slot d sid).job (slot d sid).layer = none :=
  ⟨(stOf (let d := sd (sl .swapped) si; setJob d 3 { job3 with comets := [(1, ⟨8 * 2^16 + 0, 287*2^16, 4096⟩)] })), live_of (by decide +kernel), by constructor <;> decide +kernel, 1, si, 287, 8192, [5 + 2^16], 77, by constructor <;> first | decide +kernel | constructor <;> decide +kernel, by decide +kernel, by constructor <;> decide +kernel, by decide +kernel⟩
theorem wit_StateSlotsAreSwapped_5 :
    ∃ s : State, live s ∧
    TablesSorted s.dev ∧
    let d := s.dev
    ∃ uid : Nat, ∃ c : Cmd, ∃ n : Nat, ∃ o : Nat, ∃ es : List Nat, ∃ sid : Nat, MayStart d uid 0x02 c ∧
    (job d c.job).resident = true ∧
    ListReady d c n o es ∧
    listSlots d c.job es = some [sid] ∧
    sid < 2 ^ 24 ∧
    dBits c.desc 8 3 0 = 6 ∧
    (slot d sid).state = .resident ∧
    (slot d sid).swapPend = false :=
  ⟨(q (sl .resident) si), live_of (by decide +kernel), by constructor <;> decide +kernel, 1, si, 287, 8192, [5 + 2^16], 77, by constructor <;> first | decide +kernel | constructor <;> decide +kernel, by decide +kernel, by constructor <;> decide +kernel, by decide +kernel⟩
theorem wit_StateSlotsAreSwapped_6 :
    ∃ s : State, live s ∧
    TablesSorted s.dev ∧
    let d := s.dev
    ∃ sid : Nat, (slot d sid).state = .resident ∧
    (slot d sid).swapPend = true ∧
    (slot d sid).pins = 0 :=
  ⟨(q { sl .resident with swapPend := true } so), live_of (by decide +kernel), by constructor <;> decide +kernel, 77, by decide +kernel⟩
theorem wit_StateSlotsAreSwapped_7 :
    ∃ s : State, live s ∧
    TablesSorted s.dev ∧
    let d := s.dev
    ∃ sid : Nat, ((slot d sid).swapPend = false ∨ (slot d sid).pins ≠ 0) :=
  ⟨(stOf (let d := sd (sl .swappingIn) si; { d with mem := { d.mem with roots := d.mem.roots ++ [(gKey 10 77 0, 2^32+1)], granCtr := 2, poison := [(2^32+1, ())] } })), live_of (by decide +kernel), by constructor <;> decide +kernel, 77, by decide +kernel⟩
theorem wit_StateSlotsAreSwapped_8 :
    ∃ s : State, live s ∧
    TablesSorted s.dev ∧
    let d := s.dev
    ∃ sid : Nat, homeCore d (slot d sid).job (slot d sid).layer < 288 ∧
    (slot d sid).queuedOpp = false ∧
    (slot d sid).state = .swappingOut :=
  ⟨(q (sl .swappingOut) so), live_of (by decide +kernel), by constructor <;> decide +kernel, 77, by decide +kernel⟩
theorem wit_StateSlotsAreSwapped_9 :
    ∃ s : State, live s ∧
    TablesSorted s.dev ∧
    let d := s.dev
    ∃ sid : Nat, homeCore d (slot d sid).job (slot d sid).layer < 288 ∧
    (slot d sid).queuedOpp = false ∧
    let gs := List.range (halfGrans (cometOf d (slot d sid).job (slot d sid).layer))
    (slot d sid).state = .swappingIn ∧
    ((slot d sid).zero = true ∨ (∀ g ∈ gs, ∀ r, rootOf d (gKey 10 sid g) = some r → poisoned d r = false)) :=
  ⟨(q (sl .swappingIn) so), live_of (by decide +kernel), by constructor <;> decide +kernel, 77, by decide +kernel, by decide +kernel, by decide +kernel⟩
theorem wit_StateSlotsAreSwapped_10 :
    ∃ s : State, live s ∧
    TablesSorted s.dev ∧
    let d := s.dev
    ∃ sid : Nat, homeCore d (slot d sid).job (slot d sid).layer < 288 ∧
    (slot d sid).queuedOpp = false ∧
    let gs := List.range (halfGrans (cometOf d (slot d sid).job (slot d sid).layer))
    (slot d sid).state = .swappingIn ∧
    ∃ ev : Upset, (slot d sid).zero = false ∧
    (((ev = .ue 0 ∧ ∃ g ∈ gs, (rootOf d (gKey 10 sid g)).isSome = true) ∨ (∃ g ∈ gs, ∃ r, rootOf d (gKey 10 sid g) = some r ∧ poisoned d r = true))) :=
  ⟨(stOf (let d := sd (sl .swappingIn) si; { d with mem := { d.mem with roots := d.mem.roots ++ [(gKey 10 77 0, 2^32+1)], granCtr := 2, poison := [(2^32+1, ())] } })), live_of (by decide +kernel), by constructor <;> decide +kernel, 77, by decide +kernel, by decide +kernel, by decide +kernel, (.ue 0), by decide +kernel⟩

end WStateSlotsAreSwapped

namespace WDataIsCopiedStagedPublishedLoaded

def cc (op src dst n : Nat) : Cmd := cmdOf 2 [(8, op), (12, 9), (16, src), (24, dst), (32, n)]
def c0 : Cmd := cc 0 4096 (287*2^48+8192) 2
def c1' : Cmd := cc (4 + 2*2^12 + 1*2^8) 0 0 0
def c7 : Cmd := cc 7 a9 0 1
def c7p : Cmd := { c7 with desc := desc 2 [(8,7),(16,287*2^48+8192),(32,1)] }
def c5 : Cmd := cmdOf 5 [(8, a9 + 4096 - 4), (16, 0x1000), (24, 8)]
def c6 : Cmd := cmdOf 6 [(8, 7)]
def c9 : Cmd := cmdOf 9 [(8, 287*2^48+8192), (16, a10), (24, 1), (28, 15)]
def base (c : Cmd) : Dev := put1 (d9 (leBytes 8 5 ++ List.replicate 4087 0 ++ [77])) c
def wA : State := stOf (let d := base c0; { d with mem := { d.mem with bytes := [(4096, 5#8), (12287, 6#8), (287*12288*4096+8192, 3#8), (287*12288*4096+8193, 3#8)] ++ d.mem.bytes } })
def wB : State := stOf (base c1')
def wC : State := stOf (let d := base c7p; let d := { d with mem := { d.mem with bytes := memWrite d.mem.bytes ((287*12288+2)*4096) (leBytes 8 5) } }; { d with qm := { d.qm with sess := [(5, {freeSess with job := some 3, lists := [(0, ⟨[⟨1,0,77⟩], 1⟩)]})], pst := [(77, { freePst with refcnt := 1, res := 2, closed := true, job := 3 })] } })
def wD : State := stOf (base c5)
def wE : State := stOf (let d := base c6; { d with ext := { emptyExt with wcb := [(0, [⟨2^32*32+3, 6, 0x050400, 100⟩]),(1, [⟨2^32*32+33, 6, 0x050400, 100⟩])] } })
def hd : List Nat := leBytes 4 0x4B534750 ++ leBytes 4 1 ++ leBytes 16 6 ++ leBytes 8 1 ++ List.replicate 224 0 ++ leBytes 8 0 ++ List.replicate (4096-264) 0
def wF : State := stOf (let d := put1 (d9 []) c9; { d with sec := { resetSec with keys := [(3*16+15, ⟨5, 6⟩)] }, mem := { d.mem with bytes := memWrite [] ((287*12288+2)*4096) hd } })
def wGather : Dev × Gathered :=
  let d0 := holdAddr (holdAddr (setCmd wF.dev 1 { c9 with phase := .running }) 1 (lsSrc c9)) 1 (lsDst c9)
  gather 1 (qmCap d0 3 (encodeAddr (lsSrc c9)) 1 (min (3 * 4096) 0xFFFF)) ((granAddrs (lsSrc c9) 3).zip (rangeKeys (lsSrc c9) 3))
    (touchReads d0 (rangeKeys (lsSrc c9) 3)) .none
def wData : List (List Nat) := (okOr [] wGather.2).map (·.1)

theorem wit_DataIsCopiedStagedPublishedLoaded_0 :
    ∃ s : State, ∃ uid : Nat, ∃ c : Cmd, live s ∧
    TablesSorted s.dev ∧
    let d := s.dev
    ∃ a : CoreId, ∃ b : CoreId, ∃ o : Nat, ∃ p : Nat, MayStart d uid 0x02 c ∧
    dBits c.desc 8 3 0 = 0 ∧
    copySrc c = .t0 a.val o ∧
    copyDst c = .t0 b.val p ∧
    0 < dBytes c.desc 32 4 ∧
    (tileGrans (dBits c.desc 8 7 4)).isSome = true ∧
    t0Ready d c.job (copySrc c) = true ∧
    t0Ready d c.job (copyDst c) = true ∧
    movePending d (copySrc c) (copyDst c) (copyN c) = false ∧
    rangeOk d uid c.job (copySrc c) (copyN c) false = true ∧
    rangeOk d uid c.job (copyDst c) (copyN c) true = true ∧
    (∀ k ∈ rangeKeys (copySrc c) (copyN c), poisoned d k = false) :=
  ⟨wA, 1, c0, live_of (by decide +kernel), by constructor <;> decide +kernel, 0, 287, 4096, 8192, by constructor <;> first | decide +kernel | constructor <;> decide +kernel, by decide +kernel⟩
theorem wit_DataIsCopiedStagedPublishedLoaded_1 :
    ∃ s : State, ∃ uid : Nat, ∃ c : Cmd, live s ∧
    TablesSorted s.dev ∧
    let d := s.dev
    let c1 : Cmd := { c with phase := .running }
    let d1 := setCmd s.dev uid c1
    ∃ o : Obj, ∃ cp : CopySt, MayStart d uid 0x02 c ∧
    dBits c.desc 8 3 0 = 4 ∧
    let st := dBits c.desc 8 15 12
    let dt := cTier c
    okTier st = true ∧
    ((dt = 1 ∨ dt = 2)) ∧
    st ≠ dt ∧
    copyFor d uid (cOid c) st = some (o, cp) ∧
    movePending d (.obj st (cOid c) 0) (.obj dt (cOid c) 0) o.size = false ∧
    t0Ready d c.job (.obj st (cOid c) 0) = true ∧
    mayRead o c.job = true ∧
    underCreation o uid dt = false ∧
    (copyOf o dt).present = false ∧
    o.size ≤ 0x10000000 ∧
    fits d1 c.job dt (chargeOf o dt) o.t1die = true ∧
    (∀ g < o.size, ∀ k, rootOf d (gKey st (cOid c) g) = some k → poisoned d k = false) :=
  ⟨wB, 1, c1', live_of (by decide +kernel), by constructor <;> decide +kernel, (ob3 2 4), (ob3 2 4).c2, by constructor <;> first | decide +kernel | constructor <;> decide +kernel, by decide +kernel, by decide +kernel⟩
theorem wit_DataIsCopiedStagedPublishedLoaded_2 :
    ∃ s : State, ∃ uid : Nat, ∃ c : Cmd, live s ∧
    TablesSorted s.dev ∧
    let d := s.dev
    ∃ n : Nat, ∃ o : Nat, ∃ es : List Nat, ∃ ps : List PEnt, MayStart d uid 0x02 c ∧
    dBits c.desc 8 3 0 = 7 ∧
    ListReady d c n o es ∧
    listPages d c.job es = some ps ∧
    ((∀ e ∈ ps, (pst d e.pid).closed = true ∧ ((pst d e.pid).res = 1 ∨ (pst d e.pid).res = 2))) ∧
    stageFits (setCmd d uid { withList c es with phase := .running }) c.job (((ps.map (·.pid)).dedup).filter (fun p => (pst d p).res == 1)) = true ∧
    (∀ r ∈ d.mem.roots, gKind r.1 = 8 → gId r.1 ∈ ps.map (·.pid) → poisoned d r.2 = false) :=
  ⟨wC, 1, c7p, live_of (by decide +kernel), by constructor <;> decide +kernel, 287, 8192, [5], ((((listPages (wC : State).dev 3 ([5] : List Nat)).toList))[0]'(by decide +kernel)), by constructor <;> first | decide +kernel | constructor <;> decide +kernel, by decide +kernel, by constructor <;> decide +kernel, by decide +kernel⟩
theorem wit_DataIsCopiedStagedPublishedLoaded_3 :
    ∃ s : State, ∃ uid : Nat, ∃ c : Cmd, live s ∧
    TablesSorted s.dev ∧
    let d := s.dev
    ∃ t : Nat, ∃ oid : Nat, ∃ o : Nat, ∃ ob : Obj, ∃ cp : CopySt, MayStart d uid 0x05 c ∧
    pubSrc c = .obj t oid o ∧
    let len := dBytes c.desc 24 4
    0 < len ∧
    len ≤ 2 ^ 20 ∧
    t0Ready d c.job (pubSrc c) = true ∧
    copyFor d uid oid t = some (ob, cp) ∧
    mayRead ob c.job = true ∧
    o + len ≤ ob.size * 4096 ∧
    cmd d 0 = none ∧
    uid ≠ 0 ∧
    (∀ g < ob.size, isPending d (gKey t oid g) = false) ∧
    (∀ g < ob.size, ∀ k, rootOf d (gKey t oid g) = some k → sealed d k = false ∧ poisoned d k = false) :=
  ⟨wD, 1, c5, live_of (by decide +kernel), by constructor <;> decide +kernel, 2, 9, 4092, (ob3 2 4), (ob3 2 4).c2, by constructor <;> first | decide +kernel | constructor <;> decide +kernel, by decide +kernel, by decide +kernel, by decide +kernel, (by decide +kernel), by decide +kernel, by decide +kernel, by decide +kernel, (by decide +kernel), by decide +kernel, by decide +kernel, fun _ _ _ _ => ⟨rfl, rfl⟩⟩
theorem wit_DataIsCopiedStagedPublishedLoaded_4 :
    ∃ s : State, ∃ uid : Nat, ∃ c : Cmd, live s ∧
    TablesSorted s.dev ∧
    let d := s.dev
    MayStart d uid 0x06 c ∧
    (∀ e ∈ d.qm.cmds, e.2.job = c.job → e.1 < uid → (dBits c.desc 8 2 0).testBit e.2.queue = true → e.2.phase = .ended) :=
  ⟨wE, 1, c6, live_of (by decide +kernel), by constructor <;> decide +kernel, by constructor <;> first | decide +kernel | constructor <;> decide +kernel, by decide +kernel⟩
theorem wit_DataIsCopiedStagedPublishedLoaded_5
    (h : openAll (⟨5, 6⟩ : KeySlot).key (((wData.head?).getD []).take 256) (chunkSizes (lsGrans c9))
      (ofLeBytes ((((wData.head?).getD []).drop 256).take 8)) (wData.drop 1) = some [zeros 4096]) :
    ∃ s : State, ∃ uid : Nat, ∃ c : Cmd, live s ∧
    TablesSorted s.dev ∧
    let d := s.dev
    let c1 : Cmd := { c with phase := .running }
    let d1 := setCmd s.dev uid c1
    ∃ slot : KeySlot, ∃ d2 : Dev, ∃ data : List (List Nat × Bool), ∃ gs : List (List Nat), ∃ d3 : Dev, MayStart d uid 0x09 c ∧
    t0Ready d c.job (lsSrc c) = true ∧
    movePending d (lsSrc c) (lsDst c) (lsGrans c) = false ∧
    lsGrans c ≠ 0 ∧
    lsAddrOk d1 uid c1 (lsGrans c) = true ∧
    d.factoryTest = false ∧
    d.sec.fuseErr = false ∧
    SMap.get? d.sec.keys (c.job * 16 + lsSlot c) = some slot ∧
    let d0 := holdAddr (holdAddr d1 uid (lsSrc c)) uid (lsDst c)
    let m := 1 + segGrans (lsGrans c)
    let hd := ((data.map (·.1)).head?).getD []
    let dk := rangeKeys (lsDst c) gs.length
    gather uid (qmCap d0 c.job (encodeAddr (lsSrc c)) 1 (min (m * 4096) 0xFFFF)) ((granAddrs (lsSrc c) m).zip (rangeKeys (lsSrc c) m)) (touchReads d0 (rangeKeys (lsSrc c) m)) .none = (d2, .ok data) ∧
    (∀ x ∈ data, x.2 = false) ∧
    ofLeBytes (hd.take 4) = 0x4B534750 ∧
    ofLeBytes ((hd.drop 4).take 4) = 1 ∧
    ofLeBytes ((hd.drop 8).take 16) = slot.pkgId.toNat ∧
    256 * ofLeBytes ((hd.drop 256).take 8) + lsGrans c ≤ ofLeBytes ((hd.drop 24).take 8) ∧
    ((lsGrans c % 256 = 0 ∨ 256 * ofLeBytes ((hd.drop 256).take 8) + lsGrans c = ofLeBytes ((hd.drop 24).take 8))) ∧
    openAll slot.key (hd.take 256) (chunkSizes (lsGrans c)) (ofLeBytes ((hd.drop 256).take 8)) ((data.map (·.1)).drop 1) = some gs ∧
    dk.any (fun k => gKind k == 4 && !gIsT0 k) = false ∧
    scatter uid (dk.zip (gs.map (fun g => (g, true)))) d2 = .ok d3 :=
  ⟨wF, 1, c9, live_of (by decide +kernel), by constructor <;> decide +kernel, ⟨5,6⟩, wGather.1, (okOr [] wGather.2), [zeros 4096], (okOr wF.dev (scatter 1 ((rangeKeys (lsDst c9) 1).zip [(zeros 4096, true)]) wGather.1)), by constructor <;> first | decide +kernel | constructor <;> decide +kernel, by decide +kernel, by decide +kernel, by decide +kernel, (by decide +kernel), by decide +kernel, by decide +kernel, by decide +kernel, okPair (by decide +kernel), by decide +kernel, by decide +kernel, by decide +kernel, (by decide +kernel), by decide +kernel, by decide +kernel, h, by decide +kernel, okOf (by decide +kernel)⟩

end WDataIsCopiedStagedPublishedLoaded

namespace WSegmentsStartOnTheirCores

def le (l : List Nat) : List Nat := (l.map (leBytes 4)).flatten
def img (flags start p : Nat) : List Nat := le ([2^24 + 2^16 + 2^8, 1, flags] ++ zeros 13 ++ [p, 255*2^24 + 2, 0, 0] ++ [0, start, 1, 3] ++ zeros 4 ++ zeros 8)
def imgA (flags start a0 : Nat) : List Nat := le ([2^24 + 2^16 + 2^8, 1, flags] ++ zeros 13 ++ [4, 0*2^24 + 2, 0, 0] ++ [0, start, 1, 3] ++ zeros 4 ++ zeros 8)
def c1' : Cmd := { cmdOf 1 [(48, 9)] with cores := [0, 287], images := [a9, a9], objs := [(2, 9)] }
def c2' : Cmd := { cmdOf 1 [(16,4),(48, 9)] with cores := [287], images := [a9], objs := [(2, 9)] }
def c3' : Cmd := { cmdOf 1 [(16,5),(48, 9)] with cores := [287], images := [a9], objs := [(2, 9)] }
def c4' : Cmd := { cmdOf 1 [(48, 9)] with cores := [287], images := [a9], objs := [(2, 9)] }
def base (bs : List Nat) (c : Cmd) : State := stOf { put1 (d9 bs) c with now := 40, cores := [(0, { idleCore with slipWin := 4 }), (5, { idleCore with slipWin := 4 })] }
def wA : State := base (img 0 0 4) c1'
def wO : State := base (img 8 0 4) c4'
def wQ (b : Bool) : State := let d := (base (imgA 0 0 4) { c2' with sess := [5] }).dev
  stOf { d with qm := { d.qm with sess := [(5, { freeSess with job := some 3, keyValid := b, keySlot := 2, lists := [(0, ⟨[⟨1,0,77⟩], 1⟩)], tails := [(1, (78, 2))] })], pst := [(77, { freePst with refcnt := 1, res := 2, closed := true, job := 3 })], slots := [(78, { freeSlot with state := .resident, job := 3, gen := 2, refcnt := 1, layer := 1 })] } }
def c6' : Cmd := { c2' with sess := [5] }

theorem wit_SegmentsStartOnTheirCores_0 :
    ∃ s : State, ∃ uid : Nat, ∃ c : Cmd, ∃ ims : List (Nat × Image), ∃ ps : List (Nat × Image × List PtrEnt), live s ∧
    TablesSorted s.dev ∧
    MayStart s.dev uid 0x01 c ∧
    coresReady s.dev uid c = true ∧
    imagesPending s.dev uid c = false ∧
    (∀ o ∈ c.objs, (copyFor s.dev uid o.2 o.1).isSome = true) ∧
    (∀ x ∈ c.sess, x < 16384 ∧ boundTo s.dev x c.job = true) ∧
    c.cores.Nodup ∧
    let c1 : Cmd := { c with phase := .running }
    let r1 := loadImages uid c1 (c.cores.zip c.images) (setCmd s.dev uid c1) .none
    let r2 := loadPtrs uid c1 ims r1.1 r1.2.1
    let ext (im : Image) : List Nat := runExts im (aExts c.desc)
    r1.2.2 = .ok ims ∧
    r2.2.2 = .ok ps ∧
    ps.any (fun p => overPlan p.2.1 (ext p.2.1) p.2.2) = true :=
  ⟨(base (imgA 0 0 4) c3'), 1, c3', (okOr [] (loadImages 1 { (c3' : Cmd) with phase := .running } ((c3' : Cmd).cores.zip (c3' : Cmd).images) (setCmd ((base (imgA 0 0 4) c3') : State).dev 1 { (c3' : Cmd) with phase := .running }) .none).2.2), (okOr [] (loadPtrs 1 { (c3' : Cmd) with phase := .running } (okOr [] (loadImages 1 { (c3' : Cmd) with phase := .running } ((c3' : Cmd).cores.zip (c3' : Cmd).images) (setCmd ((base (imgA 0 0 4) c3') : State).dev 1 { (c3' : Cmd) with phase := .running }) .none).2.2) (loadImages 1 { (c3' : Cmd) with phase := .running } ((c3' : Cmd).cores.zip (c3' : Cmd).images) (setCmd ((base (imgA 0 0 4) c3') : State).dev 1 { (c3' : Cmd) with phase := .running }) .none).1 (loadImages 1 { (c3' : Cmd) with phase := .running } ((c3' : Cmd).cores.zip (c3' : Cmd).images) (setCmd ((base (imgA 0 0 4) c3') : State).dev 1 { (c3' : Cmd) with phase := .running }) .none).2.1).2.2), live_of (by decide +kernel), by constructor <;> decide +kernel, by constructor <;> first | decide +kernel | constructor <;> decide +kernel, by decide +kernel, by decide +kernel, by decide +kernel, (by decide +kernel), by decide +kernel, by decide +kernel⟩
theorem wit_SegmentsStartOnTheirCores_1 :
    ∃ s : State, ∃ uid : Nat, ∃ c : Cmd, ∃ ims : List (Nat × Image), ∃ ps : List (Nat × Image × List PtrEnt), live s ∧
    TablesSorted s.dev ∧
    MayStart s.dev uid 0x01 c ∧
    coresReady s.dev uid c = true ∧
    imagesPending s.dev uid c = false ∧
    (∀ o ∈ c.objs, (copyFor s.dev uid o.2 o.1).isSome = true) ∧
    (∀ x ∈ c.sess, x < 16384 ∧ boundTo s.dev x c.job = true) ∧
    c.cores.Nodup ∧
    let c1 : Cmd := { c with phase := .running }
    let r1 := loadImages uid c1 (c.cores.zip c.images) (setCmd s.dev uid c1) .none
    let r2 := loadPtrs uid c1 ims r1.1 r1.2.1
    let ext (im : Image) : List Nat := runExts im (aExts c.desc)
    r1.2.2 = .ok ims ∧
    r2.2.2 = .ok ps ∧
    ps.any (fun p => overPlan p.2.1 (ext p.2.1) p.2.2) = false ∧
    ps.any (fun p => isEmptyRun p.2.1 (ext p.2.1) p.2.2) = true :=
  ⟨(base (imgA 0 0 4) c4'), 1, c4', (okOr [] (loadImages 1 { (c4' : Cmd) with phase := .running } ((c4' : Cmd).cores.zip (c4' : Cmd).images) (setCmd ((base (imgA 0 0 4) c4') : State).dev 1 { (c4' : Cmd) with phase := .running }) .none).2.2), (okOr [] (loadPtrs 1 { (c4' : Cmd) with phase := .running } (okOr [] (loadImages 1 { (c4' : Cmd) with phase := .running } ((c4' : Cmd).cores.zip (c4' : Cmd).images) (setCmd ((base (imgA 0 0 4) c4') : State).dev 1 { (c4' : Cmd) with phase := .running }) .none).2.2) (loadImages 1 { (c4' : Cmd) with phase := .running } ((c4' : Cmd).cores.zip (c4' : Cmd).images) (setCmd ((base (imgA 0 0 4) c4') : State).dev 1 { (c4' : Cmd) with phase := .running }) .none).1 (loadImages 1 { (c4' : Cmd) with phase := .running } ((c4' : Cmd).cores.zip (c4' : Cmd).images) (setCmd ((base (imgA 0 0 4) c4') : State).dev 1 { (c4' : Cmd) with phase := .running }) .none).2.1).2.2), live_of (by decide +kernel), by constructor <;> decide +kernel, by constructor <;> first | decide +kernel | constructor <;> decide +kernel, by decide +kernel, by decide +kernel, by decide +kernel, (by decide +kernel), by decide +kernel, by decide +kernel⟩
theorem wit_SegmentsStartOnTheirCores_2 :
    ∃ s : State, ∃ uid : Nat, ∃ c : Cmd, ∃ ims : List (Nat × Image), ∃ ps : List (Nat × Image × List PtrEnt), live s ∧
    TablesSorted s.dev ∧
    MayStart s.dev uid 0x01 c ∧
    coresReady s.dev uid c = true ∧
    imagesPending s.dev uid c = false ∧
    (∀ o ∈ c.objs, (copyFor s.dev uid o.2 o.1).isSome = true) ∧
    (∀ x ∈ c.sess, x < 16384 ∧ boundTo s.dev x c.job = true) ∧
    c.cores.Nodup ∧
    let d := s.dev
    let c1 : Cmd := { c with phase := .running }
    let r1 := loadImages uid c1 (c.cores.zip c.images) (setCmd s.dev uid c1) .none
    let r2 := loadPtrs uid c1 ims r1.1 r1.2.1
    let ext (im : Image) : List Nat := runExts im (aExts c.desc)
    r1.2.2 = .ok ims ∧
    r2.2.2 = .ok ps ∧
    ps.any (fun p => overPlan p.2.1 (ext p.2.1) p.2.2) = false ∧
    ps.any (fun p => isEmptyRun p.2.1 (ext p.2.1) p.2.2) = false ∧
    keyErased d c = true :=
  ⟨(wQ true), 1, c6', (okOr [] (loadImages 1 { (c6' : Cmd) with phase := .running } ((c6' : Cmd).cores.zip (c6' : Cmd).images) (setCmd ((wQ true) : State).dev 1 { (c6' : Cmd) with phase := .running }) .none).2.2), (okOr [] (loadPtrs 1 { (c6' : Cmd) with phase := .running } (okOr [] (loadImages 1 { (c6' : Cmd) with phase := .running } ((c6' : Cmd).cores.zip (c6' : Cmd).images) (setCmd ((wQ true) : State).dev 1 { (c6' : Cmd) with phase := .running }) .none).2.2) (loadImages 1 { (c6' : Cmd) with phase := .running } ((c6' : Cmd).cores.zip (c6' : Cmd).images) (setCmd ((wQ true) : State).dev 1 { (c6' : Cmd) with phase := .running }) .none).1 (loadImages 1 { (c6' : Cmd) with phase := .running } ((c6' : Cmd).cores.zip (c6' : Cmd).images) (setCmd ((wQ true) : State).dev 1 { (c6' : Cmd) with phase := .running }) .none).2.1).2.2), live_of (by decide +kernel), by constructor <;> decide +kernel, by constructor <;> first | decide +kernel | constructor <;> decide +kernel, by decide +kernel, by decide +kernel, by decide +kernel, (by decide +kernel), by decide +kernel, by decide +kernel⟩
theorem wit_SegmentsStartOnTheirCores_3 :
    ∃ s : State, ∃ uid : Nat, ∃ c : Cmd, ∃ ims : List (Nat × Image), ∃ ps : List (Nat × Image × List PtrEnt), live s ∧
    TablesSorted s.dev ∧
    MayStart s.dev uid 0x01 c ∧
    coresReady s.dev uid c = true ∧
    imagesPending s.dev uid c = false ∧
    (∀ o ∈ c.objs, (copyFor s.dev uid o.2 o.1).isSome = true) ∧
    (∀ x ∈ c.sess, x < 16384 ∧ boundTo s.dev x c.job = true) ∧
    c.cores.Nodup ∧
    let d := s.dev
    let c1 : Cmd := { c with phase := .running }
    let r1 := loadImages uid c1 (c.cores.zip c.images) (setCmd s.dev uid c1) .none
    let r2 := loadPtrs uid c1 ims r1.1 r1.2.1
    let ext (im : Image) : List Nat := runExts im (aExts c.desc)
    let orbit := ims.any (fun p => p.2.orbit)
    r1.2.2 = .ok ims ∧
    r2.2.2 = .ok ps ∧
    ps.any (fun p => overPlan p.2.1 (ext p.2.1) p.2.2) = false ∧
    ps.any (fun p => isEmptyRun p.2.1 (ext p.2.1) p.2.2) = false ∧
    keyErased d c = false ∧
    orbit = true ∧
    d.orb.state ≠ .running :=
  ⟨wO, 1, c4', (okOr [] (loadImages 1 { (c4' : Cmd) with phase := .running } ((c4' : Cmd).cores.zip (c4' : Cmd).images) (setCmd (wO : State).dev 1 { (c4' : Cmd) with phase := .running }) .none).2.2), (okOr [] (loadPtrs 1 { (c4' : Cmd) with phase := .running } (okOr [] (loadImages 1 { (c4' : Cmd) with phase := .running } ((c4' : Cmd).cores.zip (c4' : Cmd).images) (setCmd (wO : State).dev 1 { (c4' : Cmd) with phase := .running }) .none).2.2) (loadImages 1 { (c4' : Cmd) with phase := .running } ((c4' : Cmd).cores.zip (c4' : Cmd).images) (setCmd (wO : State).dev 1 { (c4' : Cmd) with phase := .running }) .none).1 (loadImages 1 { (c4' : Cmd) with phase := .running } ((c4' : Cmd).cores.zip (c4' : Cmd).images) (setCmd (wO : State).dev 1 { (c4' : Cmd) with phase := .running }) .none).2.1).2.2), live_of (by decide +kernel), by constructor <;> decide +kernel, by constructor <;> first | decide +kernel | constructor <;> decide +kernel, by decide +kernel, by decide +kernel, by decide +kernel, (by decide +kernel), by decide +kernel, by decide +kernel⟩
theorem wit_SegmentsStartOnTheirCores_4 :
    ∃ s : State, ∃ uid : Nat, ∃ c : Cmd, ∃ ims : List (Nat × Image), ∃ ps : List (Nat × Image × List PtrEnt), live s ∧
    TablesSorted s.dev ∧
    MayStart s.dev uid 0x01 c ∧
    coresReady s.dev uid c = true ∧
    imagesPending s.dev uid c = false ∧
    (∀ o ∈ c.objs, (copyFor s.dev uid o.2 o.1).isSome = true) ∧
    (∀ x ∈ c.sess, x < 16384 ∧ boundTo s.dev x c.job = true) ∧
    c.cores.Nodup ∧
    let d := s.dev
    let c1 : Cmd := { c with phase := .running }
    let r1 := loadImages uid c1 (c.cores.zip c.images) (setCmd s.dev uid c1) .none
    let r2 := loadPtrs uid c1 ims r1.1 r1.2.1
    let ext (im : Image) : List Nat := runExts im (aExts c.desc)
    let orbit := ims.any (fun p => p.2.orbit)
    r1.2.2 = .ok ims ∧
    r2.2.2 = .ok ps ∧
    ps.any (fun p => overPlan p.2.1 (ext p.2.1) p.2.2) = false ∧
    ps.any (fun p => isEmptyRun p.2.1 (ext p.2.1) p.2.2) = false ∧
    keyErased d c = false ∧
    orbit = false ∧
    (∀ x ∈ c.sess, (∀ e ∈ (sess d x).lists, ∀ p ∈ e.2.ents, (pst d p.pid).res ≠ 0 ∧ (pst d p.pid).gen = p.gen) ∧ (∀ e ∈ (sess d x).tails, (slot d e.2.1).state ≠ .free ∧ (slot d e.2.1).gen = e.2.2)) :=
  ⟨wA, 1, c1', (okOr [] (loadImages 1 { (c1' : Cmd) with phase := .running } ((c1' : Cmd).cores.zip (c1' : Cmd).images) (setCmd (wA : State).dev 1 { (c1' : Cmd) with phase := .running }) .none).2.2), (okOr [] (loadPtrs 1 { (c1' : Cmd) with phase := .running } (okOr [] (loadImages 1 { (c1' : Cmd) with phase := .running } ((c1' : Cmd).cores.zip (c1' : Cmd).images) (setCmd (wA : State).dev 1 { (c1' : Cmd) with phase := .running }) .none).2.2) (loadImages 1 { (c1' : Cmd) with phase := .running } ((c1' : Cmd).cores.zip (c1' : Cmd).images) (setCmd (wA : State).dev 1 { (c1' : Cmd) with phase := .running }) .none).1 (loadImages 1 { (c1' : Cmd) with phase := .running } ((c1' : Cmd).cores.zip (c1' : Cmd).images) (setCmd (wA : State).dev 1 { (c1' : Cmd) with phase := .running }) .none).2.1).2.2), live_of (by decide +kernel), by constructor <;> decide +kernel, by constructor <;> first | decide +kernel | constructor <;> decide +kernel, by decide +kernel, by decide +kernel, by decide +kernel, (by decide +kernel), by decide +kernel, by decide +kernel⟩

end WSegmentsStartOnTheirCores

namespace WSequencerActionsIssue

def nop := ctxOf1 [zeros 8]
def wt (v k : Nat) := ctxOf1 [[6*2^28 + v, k, 0,0,0,0,0,0]]
def cr : CoreSt := { idleCore with sems := [(7, 5)] }
def wA (x : Ctx) : State := stOf { run1 x cr with now := 100 }
def held (x : Ctx) : Ctx := { x with waitFrom := some 60 }
def arr (s : Sig) (v : Nat) : State := stOf { run1 nop { idleCore with sems := [(7, v)] } with sigs := [⟨0, 1, 1, 1, 0, none⟩, s], now := 100 }
def wT (x : Ctx) : State := stOf (setRg { run1 x cr with now := 100 } 47 5 0x168 40)
def cm : Cmd := { cmdOf 1 [] with phase := .running, cores := [287], coresLeft := [287], images := [a9] }
def wR : State := stOf (let d := (wA (ctxOf1 [[5*2^28 + 3, 2^17+9, 12,0,0,0,0,0]])).dev; { d with fab := { d.fab with orr := [(12, BitVec.ofNat 128 (2^127 + 12*2^96 + 1 + 23*2^16))] } })
def wF : State := stOf (setJob (arr ⟨287, 7, 9, 7, 100, none⟩ 5).dev 4 { aJob with resident := true, place := ⟨[⟨287, 0, 0, 1, 0, 64⟩], [], []⟩ })

theorem wit_SequencerActionsIssue_0 :
    ∃ s : State, ∃ core : CoreId, ∃ j : JobId, live s ∧
    TablesSorted s.dev ∧
    let d := s.dev
    let n := core.val
    ∃ x : Ctx, ∃ it : Item, MayIssue d n j.val 0 x it :=
  ⟨wF, 287, 3, live_of (by decide +kernel), by constructor <;> decide +kernel, (((((Machine.core (wF : State).dev 287).ctxs).map (·.2)))[0]'(by decide +kernel)), it0, by constructor <;> decide +kernel⟩
theorem wit_SequencerActionsIssue_1 :
    ∃ s : State, ∃ core : CoreId, ∃ j : JobId, live s ∧
    TablesSorted s.dev ∧
    let d := s.dev
    let n := core.val
    ∃ x : Ctx, ∃ it : Item, ∃ c : Cmd, MayIssue d n j.val 5 x it ∧
    cmd d x.uid = some c ∧
    let a := actOf x.image it
    (aFence a = true → copyLeft x false = false) ∧
    (aSigRemote a = false → semForeign d (aSigCore a) j.val (aSem a) = false) ∧
    (aSigRemote a = true → (orbitRoute d (bitsOf (aw a 2) 15 0)).isSome = true) :=
  ⟨wR, 287, 3, live_of (by decide +kernel), by constructor <;> decide +kernel, (((((Machine.core (wR : State).dev 287).ctxs).map (·.2)))[0]'(by decide +kernel)), it0, cm, by constructor <;> decide +kernel, by decide +kernel, by decide +kernel⟩
theorem wit_SequencerActionsIssue_2 :
    ∃ s : State, ∃ core : CoreId, ∃ j : JobId, live s ∧
    TablesSorted s.dev ∧
    let d := s.dev
    let n := core.val
    ∃ x : Ctx, ∃ it : Item, MayIssue d n j.val 6 x it ∧
    let a := actOf x.image it
    let k := bitsOf (aw a 1) 7 0
    aValue a ≤ semOf d n k :=
  ⟨(wA (wt 5 7)), 287, 3, live_of (by decide +kernel), by constructor <;> decide +kernel, (((((Machine.core ((wA (wt 5 7)) : State).dev 287).ctxs).map (·.2)))[0]'(by decide +kernel)), it0, by constructor <;> decide +kernel, by decide +kernel⟩
theorem wit_SequencerActionsIssue_3 :
    ∃ s : State, ∃ core : CoreId, ∃ j : JobId, live s ∧
    TablesSorted s.dev ∧
    let d := s.dev
    let n := core.val
    ∃ x : Ctx, ∃ it : Item, MayIssue d n j.val 6 x it ∧
    let a := actOf x.image it
    let k := bitsOf (aw a 1) 7 0
    semOf d n k < aValue a :=
  ⟨(wA (wt 6 7)), 287, 3, live_of (by decide +kernel), by constructor <;> decide +kernel, (((((Machine.core ((wA (wt 6 7)) : State).dev 287).ctxs).map (·.2)))[0]'(by decide +kernel)), it0, by constructor <;> decide +kernel, by decide +kernel⟩
theorem wit_SequencerActionsIssue_4 :
    ∃ s : State, ∃ core : CoreId, ∃ j : JobId, live s ∧
    TablesSorted s.dev ∧
    let d := s.dev
    let n := core.val
    ∃ x : Ctx, ∃ it : Item, ∃ r : List Item, ∃ w : Nat, ctxOf d n j.val = some x ∧
    x.todo = it :: r ∧
    x.waitFrom = some w ∧
    let a := actOf x.image it
    let k := bitsOf (aw a 1) 7 0
    aValue a ≤ semOf d n k ∧
    ((rc d n 0x168 = 0 ∨ d.now ≤ w + rc d n 0x168)) :=
  ⟨(wA (held (wt 5 7))), 287, 3, live_of (by decide +kernel), by constructor <;> decide +kernel, (((((Machine.core ((wA (held (wt 5 7))) : State).dev 287).ctxs).map (·.2)))[0]'(by decide +kernel)), it0, [.skip 3, .act 0 [1] [2] [4] none], 60, by decide +kernel, by decide +kernel, by decide +kernel, (by decide +kernel)⟩
theorem wit_SequencerActionsIssue_6 :
    ∃ s : State, ∃ core : CoreId, ∃ j : JobId, live s ∧
    TablesSorted s.dev ∧
    let d := s.dev
    let n := core.val
    ∃ x : Ctx, ∃ it : Item, ∃ r : List Item, ∃ w : Nat, ctxOf d n j.val = some x ∧
    x.todo = it :: r ∧
    x.waitFrom = some w ∧
    let a := actOf x.image it
    let k := bitsOf (aw a 1) 7 0
    ∃ c : Cmd, rc d n 0x168 ≠ 0 ∧
    w + rc d n 0x168 ≤ d.now ∧
    semOf d n k < aValue a ∧
    cmd d x.uid = some c ∧
    c.phase ≠ .ended :=
  ⟨(wT (held (wt 6 7))), 287, 3, live_of (by decide +kernel), by constructor <;> decide +kernel, (((((Machine.core ((wT (held (wt 6 7))) : State).dev 287).ctxs).map (·.2)))[0]'(by decide +kernel)), it0, [.skip 3, .act 0 [1] [2] [4] none], 60, by decide +kernel, by decide +kernel, by decide +kernel, cm, by decide +kernel⟩
theorem wit_SequencerActionsIssue_7 :
    ∃ s : State, ∃ core : CoreId, ∃ j : JobId, live s ∧
    TablesSorted s.dev ∧
    let d := s.dev
    let n := core.val
    ∃ x : Ctx, ∃ it : Item, ∃ r : List Item, ∃ w : Nat, ctxOf d n j.val = some x ∧
    x.todo = it :: r ∧
    x.waitFrom = some w ∧
    d.now < w + rc d n 0x168 :=
  ⟨(wA (held (wt 5 7))), 287, 3, live_of (by decide +kernel), by constructor <;> decide +kernel, (((((Machine.core ((wA (held (wt 5 7))) : State).dev 287).ctxs).map (·.2)))[0]'(by decide +kernel)), it0, [.skip 3, .act 0 [1] [2] [4] none], 60, by decide +kernel⟩
theorem wit_SequencerActionsIssue_8 :
    ∃ s : State, live s ∧
    TablesSorted s.dev ∧
    let d := s.dev
    ∃ i : Nat, ∃ g : Sig, d.sigs[i]? = some g ∧
    d.now < g.visibleAt :=
  ⟨(arr ⟨287, 7, 9, 7, 101, none⟩ 5), live_of (by decide +kernel), by constructor <;> decide +kernel, 1, ⟨287, 7, 9, 7, 101, none⟩, by decide +kernel⟩
theorem wit_SequencerActionsIssue_9 :
    ∃ s : State, live s ∧
    TablesSorted s.dev ∧
    let d := s.dev
    ∃ i : Nat, ∃ g : Sig, d.sigs[i]? = some g ∧
    g.visibleAt ≤ d.now ∧
    (Machine.core d g.core).ctxs = [] :=
  ⟨wF, live_of (by decide +kernel), by constructor <;> decide +kernel, 0, ⟨0, 1, 1, 1, 0, none⟩, by decide +kernel⟩
theorem wit_SequencerActionsIssue_10 :
    ∃ s : State, live s ∧
    TablesSorted s.dev ∧
    let d := s.dev
    ∃ i : Nat, ∃ g : Sig, d.sigs[i]? = some g ∧
    g.visibleAt ≤ d.now ∧
    ∃ q : Nat, ∃ x : Ctx, ∃ c : Cmd, (Machine.core d g.core).ctxs = [(q, x)] ∧
    cmd d x.uid = some c ∧
    c.tag = g.tag ∧
    semForeign d g.core q g.sem = false ∧
    semOf d g.core g.sem + g.value ≤ 65535 :=
  ⟨(arr ⟨287, 7, 9, 7, 100, none⟩ 5), live_of (by decide +kernel), by constructor <;> decide +kernel, 1, ⟨287, 7, 9, 7, 100, none⟩, by decide +kernel, by decide +kernel, 3, (((((Machine.core ((arr ⟨287, 7, 9, 7, 100, none⟩ 5) : State).dev (⟨287, 7, 9, 7, 100, none⟩ : Sig).core).ctxs).map (·.2)))[0]'(by decide +kernel)), cm, by decide +kernel⟩
theorem wit_SequencerActionsIssue_11 :
    ∃ s : State, live s ∧
    TablesSorted s.dev ∧
    let d := s.dev
    ∃ i : Nat, ∃ g : Sig, d.sigs[i]? = some g ∧
    g.visibleAt ≤ d.now ∧
    ∃ q : Nat, ∃ x : Ctx, ∃ c : Cmd, (Machine.core d g.core).ctxs = [(q, x)] ∧
    cmd d x.uid = some c ∧
    c.tag = g.tag ∧
    c.phase ≠ .ended ∧
    semForeign d g.core q g.sem = false ∧
    65535 < semOf d g.core g.sem + g.value :=
  ⟨(arr ⟨287, 7, 65535, 7, 100, none⟩ 1), live_of (by decide +kernel), by constructor <;> decide +kernel, 1, ⟨287, 7, 65535, 7, 100, none⟩, by decide +kernel, by decide +kernel, 3, (((((Machine.core ((arr ⟨287, 7, 65535, 7, 100, none⟩ 1) : State).dev (⟨287, 7, 65535, 7, 100, none⟩ : Sig).core).ctxs).map (·.2)))[0]'(by decide +kernel)), cm, by decide +kernel⟩
theorem wit_SequencerActionsIssue_12 :
    ∃ s : State, live s ∧
    TablesSorted s.dev ∧
    let d := s.dev
    ∃ i : Nat, ∃ g : Sig, d.sigs[i]? = some g ∧
    g.visibleAt ≤ d.now ∧
    ∃ q : Nat, ∃ x : Ctx, ∃ c : Cmd, (Machine.core d g.core).ctxs = [(q, x)] ∧
    cmd d x.uid = some c ∧
    c.tag = g.tag ∧
    c.phase ≠ .ended ∧
    semForeign d g.core q g.sem = true :=
  ⟨wF, live_of (by decide +kernel), by constructor <;> decide +kernel, 1, ⟨287, 7, 9, 7, 100, none⟩, by decide +kernel, by decide +kernel, 3, (((((Machine.core (wF : State).dev 287).ctxs).map (·.2)))[0]'(by decide +kernel)), cm, by decide +kernel⟩

end WSequencerActionsIssue

namespace WSlipsCountAndCoresHalt

def th (n : Nat) (d : Dev) : Dev := setRg (setRg (setRg d (n/6) (n%6) 0x160 4) (n/6) (n%6) 0x164 1000) (n/6) (n%6) 0x130 9
def wA : State := stOf { th 282 (th 287 rdy) with now := 1500, cores := [(0, { idleCore with slipWin := 3 }), (282, { idleCore with slipWin := 501, slipBase := 6, nocBase := 6 }), (287, { idleCore with ctxs := [(3, ctxOf1 [zeros 8])], slipWin := 501, slipBase := 5 })] }
def wB : State := stOf (setRg (setRg wA.dev 47 16 0x130 5) 47 16 0x120 11)
def wC : State := stOf (setRg (setRg wA.dev 47 16 0x130 5) 47 16 0x120 10)
def wD : State := stOf (setRg (setRg wA.dev 47 5 0x100 1) 47 5 0x130 77)

theorem wit_SlipsCountAndCoresHalt_0 :
    ∃ s : State, live s ∧
    TablesSorted s.dev ∧
    let d := s.dev
    ∃ n : CoreId, rc d n.val 0x160 ≠ 0 ∧
    rc d n.val 0x164 ≠ 0 ∧
    d.now < (Machine.core d n.val).slipWin + rc d n.val 0x164 ∧
    (Machine.core d n.val).slipBase + rc d n.val 0x160 ≤ rc d n.val 0x130 :=
  ⟨wA, live_of (by decide +kernel), by constructor <;> decide +kernel, 287, by decide +kernel⟩
theorem wit_SlipsCountAndCoresHalt_1 :
    ∃ s : State, live s ∧
    TablesSorted s.dev ∧
    let d := s.dev
    ∃ n : CoreId, rc d n.val 0x160 ≠ 0 ∧
    rc d n.val 0x164 ≠ 0 ∧
    d.now < (Machine.core d n.val).slipWin + rc d n.val 0x164 ∧
    rc d n.val 0x130 < (Machine.core d n.val).slipBase + rc d n.val 0x160 :=
  ⟨wA, live_of (by decide +kernel), by constructor <;> decide +kernel, 282, by decide +kernel⟩
theorem wit_SlipsCountAndCoresHalt_2 :
    ∃ s : State, live s ∧
    TablesSorted s.dev ∧
    let d := s.dev
    ∃ die : Fin 48, rg d die.val 16 0x130 ≠ 0 ∧
    rc d (die.val * 6) 0x164 ≠ 0 ∧
    d.now < (Machine.core d (die.val * 6)).slipWin + rc d (die.val * 6) 0x164 ∧
    (Machine.core d (die.val * 6)).nocBase + rg d die.val 16 0x130 ≤ rg d die.val 16 0x120 :=
  ⟨wB, live_of (by decide +kernel), by constructor <;> decide +kernel, 47, by decide +kernel⟩
theorem wit_SlipsCountAndCoresHalt_3 :
    ∃ s : State, live s ∧
    TablesSorted s.dev ∧
    let d := s.dev
    ∃ die : Fin 48, rg d die.val 16 0x130 ≠ 0 ∧
    rc d (die.val * 6) 0x164 ≠ 0 ∧
    d.now < (Machine.core d (die.val * 6)).slipWin + rc d (die.val * 6) 0x164 ∧
    rg d die.val 16 0x120 < (Machine.core d (die.val * 6)).nocBase + rg d die.val 16 0x130 :=
  ⟨wC, live_of (by decide +kernel), by constructor <;> decide +kernel, 47, by decide +kernel⟩
theorem wit_SlipsCountAndCoresHalt_5 :
    ∃ s : State, ∃ acc : Acc, live s ∧
    TablesSorted s.dev ∧
    let d := s.dev
    ∃ n : CoreId, Performed d acc (regOff (n.val / 6) (n.val % 6) 0x100) ∧
    (rc d n.val 0x100).testBit 0 = true :=
  ⟨wD, .firmware, live_of (by decide +kernel), by constructor <;> decide +kernel, 287, performed_of (by decide +kernel), by decide +kernel⟩
theorem wit_SlipsCountAndCoresHalt_6 :
    ∃ s : State, ∃ acc : Acc, live s ∧
    TablesSorted s.dev ∧
    let d := s.dev
    ∃ n : CoreId, Performed d acc (regOff (n.val / 6) (n.val % 6) 0x100) ∧
    (rc d n.val 0x100).testBit 0 = false :=
  ⟨wA, .firmware, live_of (by decide +kernel), by constructor <;> decide +kernel, 287, performed_of (by decide +kernel), by decide +kernel⟩
theorem wit_SlipsCountAndCoresHalt_7 :
    ∃ s : State, ∃ acc : Acc, live s ∧
    TablesSorted s.dev ∧
    let d := s.dev
    ∃ die : Fin 64, ∃ page : Fin 1024, ∃ b : Blk, blkAt die.val page.val = some b ∧
    Performed d acc (match b with | .qmgrJ => jobOff acc (page.val - 0x200) 0x100 | _ => regOff die.val page.val (cntClrReg b)) :=
  ⟨wA, .firmware, live_of (by decide +kernel), by constructor <;> decide +kernel, 47, 5, .core, by decide +kernel, performed_of (by decide +kernel)⟩

end WSlipsCountAndCoresHalt

namespace WEngineActionsRun

def cm : Cmd := { cmdOf 1 [] with phase := .running, cores := [287], coresLeft := [287], images := [a9] }
def cp : Ctx := ctxOf1 [[4*2^28 + 2^9 + 31, 4096, 287*2^16, 8192, 0*2^16, 0, 2, 0]]
def ce : Ctx := ctxOf1 [[4*2^28 + 2^16 + 2^9 + 31, 4096, 287*2^16, 8192, 0*2^16, 0, 2, 0]]
def wb : Ctx := ctxOf1 [[2*2^28 + 8*2^8 + 1, 16384, 0, 0, 0, 0, 0, 0]]
def vc : Ctx := ctxOf1 [[3*2^28 + 1*2^8, 8192, 16384, 32768, 300, 0, 0, 0]]
def ps : Ctx := ctxOf1 [[1*2^28 + 6*2^8+6*2^4 + 2^19, 127, 8192, 16384, 0, 0, 0, 0]]
def wA (x : Ctx) : State := stOf (let d := run1 x { idleCore with accMode := (List.range 32).map (fun i => (i, 1)) }; { d with now := 128, mem := { d.mem with bytes := memWrite d.mem.bytes (287*12288*4096+4096) (zeros 30 ++ [7, 9]) } })
def cpl (x : Ctx) (r : RunAct) (td : List Item) : State := stOf (let d := run1 { x with running := [r], todo := td } { idleCore with sems := [(31, 5)] }; { d with now := 128 })
def rA : RunAct := { id := 77, kind := .copy, blocks := [], item := it0, doneSem := some 31, bestEffort := false, started := true, since := 0, doneAt := 128, endAt := 128, region := (0, 0), modes := [], pos := 0, len := 0, held := [], sealedIn := false, flying := false, vreg := 0, ev := .none }

theorem wit_EngineActionsRun_0 :
    ∃ s : State, ∃ core : CoreId, ∃ j : JobId, ∃ x : Ctx, ∃ it : Item, live s ∧
    TablesSorted s.dev ∧
    let d := s.dev
    let n := core.val
    let a := actOf x.image it
    ∃ c : Cmd, ∃ sa : CoreId, ∃ da : CoreId, ∃ so : Nat, ∃ dO : Nat, MayIssue d n j.val 4 x it ∧
    cmd d x.uid = some c ∧
    let src := copySrcA x.image it a
    let dst := copyDstA x.image it a
    aCopyRemote a = false ∧
    src = .t0 sa.val so ∧
    dst = .t0 da.val dO ∧
    0 < copyGrans a ∧
    rangeOk d x.uid j.val src (copyReach x.image it a) false = true ∧
    rangeOk d x.uid j.val dst (copyGrans a) true = true ∧
    aClassBE a = true ∧
    (∀ k ∈ readGrans d n j.val x it, poisoned d k = false) ∧
    (∀ k, gIsT0 k = true → SMap.get? c.gens k = none) :=
  ⟨(wA ce), 287, 3, (((((Machine.core ((wA ce) : State).dev 287).ctxs).map (·.2)))[0]'(by decide +kernel)), it0, live_of (by decide +kernel), by constructor <;> decide +kernel, cm, 287, 0, 4096, 8192, by constructor <;> decide +kernel, by decide +kernel, by decide +kernel, by decide +kernel, (by decide +kernel), by decide +kernel, by decide +kernel, by decide +kernel, (by decide +kernel), by decide +kernel, fun _ _ => rfl⟩
theorem wit_EngineActionsRun_1 :
    ∃ s : State, ∃ core : CoreId, ∃ j : JobId, ∃ x : Ctx, ∃ it : Item, live s ∧
    TablesSorted s.dev ∧
    let d := s.dev
    let n := core.val
    let a := actOf x.image it
    ∃ c : Cmd, ∃ sa : CoreId, ∃ da : CoreId, ∃ so : Nat, ∃ dO : Nat, MayIssue d n j.val 4 x it ∧
    cmd d x.uid = some c ∧
    let src := copySrcA x.image it a
    let dst := copyDstA x.image it a
    aCopyRemote a = false ∧
    src = .t0 sa.val so ∧
    dst = .t0 da.val dO ∧
    0 < copyGrans a ∧
    rangeOk d x.uid j.val src (copyReach x.image it a) false = true ∧
    rangeOk d x.uid j.val dst (copyGrans a) true = true ∧
    aClassBE a = false :=
  ⟨(wA cp), 287, 3, (((((Machine.core ((wA cp) : State).dev 287).ctxs).map (·.2)))[0]'(by decide +kernel)), it0, live_of (by decide +kernel), by constructor <;> decide +kernel, cm, 287, 0, 4096, 8192, by constructor <;> decide +kernel, by decide +kernel, by decide +kernel⟩
theorem wit_EngineActionsRun_2 :
    ∃ s : State, ∃ core : CoreId, ∃ j : JobId, ∃ x : Ctx, ∃ it : Item, live s ∧
    TablesSorted s.dev ∧
    let d := s.dev
    let n := core.val
    let a := actOf x.image it
    MayIssue d n j.val 2 x it ∧
    x.running = [] ∧
    (arrOf d n).waiting = [] ∧
    let ps := wbRegion d n j.val x (aBank a)
    wbIssueOk d n a ps = true ∧
    (regionBlocks (aBank a) ps.1 ps.2).all ((ownBlocks d n j.val).contains ·) = true ∧
    rangesOwned d j.val n (wbRanges x.image it a ps.1 ++ wbParts x.image it a ps.1) = true :=
  ⟨(wA wb), 287, 3, (((((Machine.core ((wA wb) : State).dev 287).ctxs).map (·.2)))[0]'(by decide +kernel)), it0, live_of (by decide +kernel), by constructor <;> decide +kernel, by constructor <;> decide +kernel, by decide +kernel, by decide +kernel, by decide +kernel⟩
theorem wit_EngineActionsRun_3 :
    ∃ s : State, ∃ core : CoreId, ∃ j : JobId, ∃ x : Ctx, ∃ it : Item, live s ∧
    TablesSorted s.dev ∧
    let d := s.dev
    let n := core.val
    let a := actOf x.image it
    MayIssue d n j.val 3 x it ∧
    x.running = [] ∧
    (arrOf d n).waiting = [] ∧
    vecIssueOk d n (ownBlocks d n j.val) a = true ∧
    rangesOwned d j.val n (vecReads x.image it a ++ vecWrites x.image it a) = true :=
  ⟨(wA vc), 287, 3, (((((Machine.core ((wA vc) : State).dev 287).ctxs).map (·.2)))[0]'(by decide +kernel)), it0, live_of (by decide +kernel), by constructor <;> decide +kernel, by constructor <;> decide +kernel, by decide +kernel⟩
theorem wit_EngineActionsRun_4 :
    ∃ s : State, ∃ core : CoreId, ∃ j : JobId, ∃ x : Ctx, ∃ it : Item, live s ∧
    TablesSorted s.dev ∧
    let d := s.dev
    let n := core.val
    let a := actOf x.image it
    MayIssue d n j.val 1 x it ∧
    x.running = [] ∧
    (arrOf d n).waiting = [] ∧
    (arrOf d n).fresh = true ∧
    aLoadMode a ≠ 2 ∧
    let bl := regionBlocks (aBank a) (aPart a) (aSub a)
    ((aInit a = false ∨ regionMode (Machine.core d n) bl = 0 ∨ regionMode (Machine.core d n) bl = if aInt32 a then 2 else 1)) ∧
    bl.all ((ownBlocks d n j.val).contains ·) = true ∧
    rangesOwned d j.val n (passReads x.image it a) = true :=
  ⟨(wA ps), 287, 3, (((((Machine.core ((wA ps) : State).dev 287).ctxs).map (·.2)))[0]'(by decide +kernel)), it0, live_of (by decide +kernel), by constructor <;> decide +kernel, by constructor <;> decide +kernel, by decide +kernel, by decide +kernel, by decide +kernel, (by decide +kernel), by decide +kernel⟩
theorem wit_EngineActionsRun_5 :
    ∃ s : State, ∃ core : CoreId, ∃ j : JobId, ∃ x : Ctx, live s ∧
    TablesSorted s.dev ∧
    let d := s.dev
    let n := core.val
    ∃ r : RunAct, ctxOf d n j.val = some x ∧
    x.running = [r] ∧
    (arrOf d n).waiting = [] ∧
    runDone d n x r = true ∧
    (r.kind = .copy → addrTier (copySrcA x.image r.item (actOf x.image r.item)) ≠ 3) ∧
    (∀ k, r.doneSem = some k → semOf d n k ≠ 65535) :=
  ⟨(cpl cp rA []), 287, 3, (((((Machine.core ((cpl cp rA []) : State).dev 287).ctxs).map (·.2)))[0]'(by decide +kernel)), live_of (by decide +kernel), by constructor <;> decide +kernel, rA, by decide +kernel⟩

end WEngineActionsRun

namespace WArrayLoadsItsWeights

def ps (w0 : Nat) : Ctx := ctxOf1 [[1*2^28 + 6*2^8+6*2^4 + 2^19 + w0, 127, 8192, 16384, 0, 0, 0, 0]]
def pr (x : Ctx) (sl : Nat) : PassRun := ⟨3, 1, 55, it0, actOf x.image it0, 90, sl, .none⟩
def rr : RunAct := { id := 55, kind := .pass, blocks := [], item := it0, doneSem := none, bestEffort := false, started := false, since := 0, doneAt := 0, endAt := 0, region := (0, 0), modes := [], pos := 0, len := 0, held := [], sealedIn := false, flying := false, vreg := 0, ev := .none }
def ar (x : Ctx) (sl : Nat) : Arr := { idleArr with waiting := [pr x sl] }
def wA (x : Ctx) (a : Arr) : State := stOf (let d := run1 { x with running := [rr], todo := [] } { idleCore with arr := a, accMode := (List.range 32).map (fun i => (i, 1)) }; { d with now := 1128, mem := { d.mem with bytes := memWrite d.mem.bytes (287*12288*4096+16384) (zeros 30 ++ [7, 9]) } })
def fl (n : Nat) : List Nat := List.range (4*n)
def x0 := ps 0
def x1 := ps 4
def x2 := ps (4 + 2*2^21)

theorem wit_ArrayLoadsItsWeights_0 :
    ∃ s : State, ∃ core : CoreId, ∃ p : PassRun, ∃ x : Ctx, live s ∧
    TablesSorted s.dev ∧
    let d := s.dev
    let n := core.val
    let a := arrOf s.dev n
    a.waiting = [p] ∧
    ctxOf d n p.job = some x ∧
    x.uid = p.uid ∧
    (∀ r ∈ x.running, r.kind = .pass) ∧
    a.part = 0 ∧
    aPart p.act = 0 ∧
    a.fresh = true ∧
    aLoadMode p.act ≠ 2 ∧
    a.loading = false ∧
    a.fillPtr < 128 ∧
    fillAt a ≤ d.now ∧
    rowEmpty a 0 0 a.fillPtr = true ∧
    rangesOwned d p.job n (wRowRanges x.image p.item p.act a.fillPtr) = true ∧
    (∀ g ∈ rangesGrans n (wRowRanges x.image p.item p.act a.fillPtr), poisoned d g = false) :=
  ⟨(wA x0 (ar x0 0)), 287, (((arrOf ((wA x0 (ar x0 0)) : State).dev 287).waiting)[0]'(by decide +kernel)), (((((Machine.core ((wA x0 (ar x0 0)) : State).dev 287).ctxs).map (·.2)))[0]'(by decide +kernel)), live_of (by decide +kernel), by constructor <;> decide +kernel, by decide +kernel⟩
theorem wit_ArrayLoadsItsWeights_1 :
    ∃ s : State, ∃ core : CoreId, ∃ p : PassRun, ∃ x : Ctx, live s ∧
    TablesSorted s.dev ∧
    let d := s.dev
    let n := core.val
    let a := arrOf s.dev n
    a.waiting = [p] ∧
    ctxOf d n p.job = some x ∧
    x.uid = p.uid ∧
    (∀ r ∈ x.running, r.kind = .pass) ∧
    a.part = 0 ∧
    aPart p.act = 0 ∧
    loadKind a p = 0 ∧
    a.loading = false ∧
    rowFull a 0 0 0 = true ∧
    a.fillPtr < 128 ∧
    passReady d n p = true ∧
    max a.lastWord p.issuedAt ≤ d.now :=
  ⟨(wA x0 { ar x0 0 with fillPtr := 5, full := fl 5, fresh := false }), 287, (((arrOf ((wA x0 { ar x0 0 with fillPtr := 5, full := fl 5, fresh := false }) : State).dev 287).waiting)[0]'(by decide +kernel)), (((((Machine.core ((wA x0 { ar x0 0 with fillPtr := 5, full := fl 5, fresh := false }) : State).dev 287).ctxs).map (·.2)))[0]'(by decide +kernel)), live_of (by decide +kernel), by constructor <;> decide +kernel, by decide +kernel⟩
theorem wit_ArrayLoadsItsWeights_2 :
    ∃ s : State, ∃ core : CoreId, ∃ p : PassRun, ∃ x : Ctx, live s ∧
    TablesSorted s.dev ∧
    let d := s.dev
    let n := core.val
    let a := arrOf s.dev n
    a.waiting = [p] ∧
    ctxOf d n p.job = some x ∧
    x.uid = p.uid ∧
    (∀ r ∈ x.running, r.kind = .pass) ∧
    a.part = 0 ∧
    aPart p.act = 0 ∧
    loadKind a p = 1 ∧
    a.loading = false ∧
    a.fillPtr = 128 ∧
    subFull a 0 (aSub p.act) = true ∧
    passReady d n p = true ∧
    (if a.fresh then p.issuedAt else max a.drainedAt p.issuedAt) ≤ d.now :=
  ⟨(wA x0 { ar x0 0 with fillPtr := 128, full := fl 128 }), 287, (((arrOf ((wA x0 { ar x0 0 with fillPtr := 128, full := fl 128 }) : State).dev 287).waiting)[0]'(by decide +kernel)), (((((Machine.core ((wA x0 { ar x0 0 with fillPtr := 128, full := fl 128 }) : State).dev 287).ctxs).map (·.2)))[0]'(by decide +kernel)), live_of (by decide +kernel), by constructor <;> decide +kernel, by decide +kernel⟩
theorem wit_ArrayLoadsItsWeights_3 :
    ∃ s : State, ∃ core : CoreId, ∃ p : PassRun, ∃ x : Ctx, live s ∧
    TablesSorted s.dev ∧
    let d := s.dev
    let n := core.val
    let a := arrOf s.dev n
    a.waiting = [p] ∧
    ctxOf d n p.job = some x ∧
    x.uid = p.uid ∧
    (∀ r ∈ x.running, r.kind = .pass) ∧
    a.part ≠ 0 ∧
    a.dead = [] ∧
    a.slotStart + partSlot a.part ≤ d.now + 1 ∧
    p.slot ≠ a.slotNo + 1 :=
  ⟨(wA x1 { ar x1 3 with part := 1, slotNo := 0, slotStart := 700 }), 287, (((arrOf ((wA x1 { ar x1 3 with part := 1, slotNo := 0, slotStart := 700 }) : State).dev 287).waiting)[0]'(by decide +kernel)), (((((Machine.core ((wA x1 { ar x1 3 with part := 1, slotNo := 0, slotStart := 700 }) : State).dev 287).ctxs).map (·.2)))[0]'(by decide +kernel)), live_of (by decide +kernel), by constructor <;> decide +kernel, by decide +kernel⟩
theorem wit_ArrayLoadsItsWeights_4 :
    ∃ s : State, ∃ core : CoreId, ∃ p : PassRun, ∃ x : Ctx, live s ∧
    TablesSorted s.dev ∧
    let d := s.dev
    let n := core.val
    let a := arrOf s.dev n
    a.waiting = [p] ∧
    ctxOf d n p.job = some x ∧
    x.uid = p.uid ∧
    (∀ r ∈ x.running, r.kind = .pass) ∧
    a.part ≠ 0 ∧
    a.dead = [] ∧
    a.slotStart + partSlot a.part ≤ d.now + 1 ∧
    aPart p.act = a.part ∧
    p.slot = a.slotNo + 1 ∧
    aLoadMode p.act = 2 ∧
    passReady d n p = true :=
  ⟨(wA x2 { ar x2 1 with part := 1, slotNo := 0, slotStart := 700 }), 287, (((arrOf ((wA x2 { ar x2 1 with part := 1, slotNo := 0, slotStart := 700 }) : State).dev 287).waiting)[0]'(by decide +kernel)), (((((Machine.core ((wA x2 { ar x2 1 with part := 1, slotNo := 0, slotStart := 700 }) : State).dev 287).ctxs).map (·.2)))[0]'(by decide +kernel)), live_of (by decide +kernel), by constructor <;> decide +kernel, by decide +kernel⟩

end WArrayLoadsItsWeights

namespace WMicroprogramsRun

def mc (id : Nat) (r : List Nat) : Ctx := ctxOf1 [[7*2^28 + id*2^8] ++ r]
def mg : Ctx := mc 3 [8192, 1, 0, 16384, 0, 20480, 32]
def wA (x : Ctx) : State := stOf (let d := run1 x { idleCore with accMode := (List.range 32).map (fun i => (i, 1)) }; { d with now := 128, mem := { d.mem with bytes := memWrite d.mem.bytes (287*12288*4096+8192) ([0,0,128,63,0,0,128,63] ++ zeros 30 ++ [7, 9]) } })

theorem wit_MicroprogramsRun_0 :
    ∃ s : State, ∃ core : CoreId, ∃ j : JobId, ∃ ev : Upset, ∃ x : Ctx, ∃ it : Item, live s ∧
    let d := s.dev
    let n := core.val
    ∃ p, p ∈ ([(.attentionPrefill core j ev, 1, attGr false d n j.val x it, attentionRun d n j.val false x it ev), (.attentionDecode core j ev, 2, attGr true d n j.val x it, attentionRun d n j.val true x it ev), (.partialMerge core j ev, 3, mergeGr n x it, mergeRun d n j.val x it ev), (.cometChunk core j ev, 0x10, cometGr d n j.val x it, cometRun d n j.val x it ev), (.fp64Slicing core j ev, 0x20, sliceGr d n x it, sliceRun d n j.val x it ev), (.fp64Recombination core j ev, 0x21, recombGr d n x it, recombRun d n j.val x it ev), (.convolutionFeed core j ev, 0x30, convGr d n x it, convRun d n j.val x it ev), (.pooling core j ev, 0x31, poolGr d n x it, poolRun d n j.val x it ev), (.quillLayer core j ev, 0x32, quillGr d n x it, quillRun d n j.val x it ev)] : List (Instr × Nat × (List Nat × List Nat) × (Dev × MicroEnd))) ∧ MayRunMicro d n j.val p.2.1 x it p.2.2.1 ∧
    (∃ k, p.2.2.2.2 = .done k) ∧
    ∃ y : Ctx, ctxOf p.2.2.2.1 n j.val = some y ∧
    y.todo = x.todo ∧
    y.uid = x.uid :=
  ⟨(wA mg), 287, 3, .none, (((((Machine.core ((wA mg) : State).dev 287).ctxs).map (·.2)))[0]'(by decide +kernel)), it0, live_of (by decide +kernel), _, List.mem_of_getElem? (i := 2) rfl, by constructor <;> decide +kernel, ⟨1, by decide +kernel⟩, ((ctxOf (mergeRun (wA mg).dev 287 3 mg it0 .none).1 287 3).getD mg), by decide +kernel⟩
theorem wit_MicroprogramsRun_1 :
    ∃ s : State, ∃ core : CoreId, ∃ j : JobId, ∃ ev : Upset, ∃ x : Ctx, ∃ it : Item, live s ∧
    let d := s.dev
    let n := core.val
    ∃ p, p ∈ ([(.attentionPrefill core j ev, 1, attGr false d n j.val x it, attentionRun d n j.val false x it ev), (.attentionDecode core j ev, 2, attGr true d n j.val x it, attentionRun d n j.val true x it ev), (.partialMerge core j ev, 3, mergeGr n x it, mergeRun d n j.val x it ev), (.cometChunk core j ev, 0x10, cometGr d n j.val x it, cometRun d n j.val x it ev), (.fp64Slicing core j ev, 0x20, sliceGr d n x it, sliceRun d n j.val x it ev), (.fp64Recombination core j ev, 0x21, recombGr d n x it, recombRun d n j.val x it ev), (.convolutionFeed core j ev, 0x30, convGr d n x it, convRun d n j.val x it ev), (.pooling core j ev, 0x31, poolGr d n x it, poolRun d n j.val x it ev), (.quillLayer core j ev, 0x32, quillGr d n x it, quillRun d n j.val x it ev)] : List (Instr × Nat × (List Nat × List Nat) × (Dev × MicroEnd))) ∧ MayRunMicro d n j.val p.2.1 x it p.2.2.1 ∧
    (p.2.2.2.2 = .held ∨ p.2.2.2.2 = .pending) ∧
    ∃ y : Ctx, ctxOf p.2.2.2.1 n j.val = some y ∧
    y.todo = x.todo ∧
    y.heldFrom = none :=
  ⟨(wM xCo .swapped cw0 [(12288, [5, 0])]), 287, 3, .none, (((((Machine.core ((wM xCo .swapped cw0 [(12288, [5, 0])]) : State).dev 287).ctxs).map (·.2)))[0]'(by decide +kernel)), (itD [3] [3]), live_of (by decide +kernel), _, List.mem_of_getElem? (i := 3) rfl, by constructor <;> decide +kernel, by decide +kernel, ((ctxOf (cometRun (wM xCo .swapped cw0 [(12288, [5, 0])]).dev 287 3 xCo (itD [3] [3]) .none).1 287 3).getD xCo), by decide +kernel⟩
theorem wit_MicroprogramsRun_2 :
    ∃ s : State, ∃ core : CoreId, ∃ j : JobId, ∃ ev : Upset, ∃ x : Ctx, ∃ it : Item, live s ∧
    let d := s.dev
    let n := core.val
    ∃ p, p ∈ ([(.attentionPrefill core j ev, 1, attGr false d n j.val x it, attentionRun d n j.val false x it ev), (.attentionDecode core j ev, 2, attGr true d n j.val x it, attentionRun d n j.val true x it ev), (.partialMerge core j ev, 3, mergeGr n x it, mergeRun d n j.val x it ev), (.cometChunk core j ev, 0x10, cometGr d n j.val x it, cometRun d n j.val x it ev), (.fp64Slicing core j ev, 0x20, sliceGr d n x it, sliceRun d n j.val x it ev), (.fp64Recombination core j ev, 0x21, recombGr d n x it, recombRun d n j.val x it ev), (.convolutionFeed core j ev, 0x30, convGr d n x it, convRun d n j.val x it ev), (.pooling core j ev, 0x31, poolGr d n x it, poolRun d n j.val x it ev), (.quillLayer core j ev, 0x32, quillGr d n x it, quillRun d n j.val x it ev)] : List (Instr × Nat × (List Nat × List Nat) × (Dev × MicroEnd))) ∧ MayRunMicro d n j.val p.2.1 x it p.2.2.1 ∧
    p.2.2.2.2 = .failed :=
  ⟨(wM xCo .swapped cw0 [(12288, [5, 0])]), 287, 3, (.ue 0), (((((Machine.core ((wM xCo .swapped cw0 [(12288, [5, 0])]) : State).dev 287).ctxs).map (·.2)))[0]'(by decide +kernel)), (itD [3] [3]), live_of (by decide +kernel), _, List.mem_of_getElem? (i := 3) rfl, by constructor <;> decide +kernel, by decide +kernel⟩

end WMicroprogramsRun

namespace WMicroprogramsComplete

theorem no_marks {d : Dev} {n b m v : Nat} {w : List Nat} {P : Prop} (h0 : ccMarks w = false)
    (h : markOf d n b w m = some v) : P := by
  unfold markOf at h; simp [h0] at h
theorem one_stream {l : List Nat} {P : Nat → Prop} (e : l = [5]) (h : P 5) : ∀ s ∈ l, P s := by
  subst e; simpa using h

theorem wit_MicroprogramsComplete_0 :
    ∃ s : State, ∃ core : CoreId, ∃ j : JobId, ∃ x : Ctx, ∃ it : Item, ∃ c : Cmd, live s ∧
    cmd s.dev x.uid = some c ∧
    let d := s.dev
    let n := core.val
    let a := actOf x.image it
    let w := attBlock d n a
    let pc := poolCfg d j.val (acbPool w)
    let ss := sessSet d n (bitsOf (cw w 4) 25 0) (acbNs w)
    MayRunMicro d n j.val 1 x it (attGr false d n j.val x it) ∧
    AttReady d n j.val false x it c a w ss pc :=
  ⟨(wM (xAtt 1) .resident aw0 [(12288, [5, 0])]), 287, 3, (xAtt 1), (itD [2] [4]), cmM, live_of (by decide +kernel), by decide +kernel, by constructor <;> decide +kernel, by constructor <;> first | decide +kernel | (unfold Readable; decide +kernel) | (unfold Legible; decide +kernel)⟩
theorem wit_MicroprogramsComplete_1 :
    ∃ s : State, ∃ core : CoreId, ∃ j : JobId, ∃ x : Ctx, ∃ it : Item, ∃ c : Cmd, live s ∧
    cmd s.dev x.uid = some c ∧
    let d := s.dev
    let n := core.val
    let a := actOf x.image it
    let w := attBlock d n a
    let pc := poolCfg d j.val (acbPool w)
    let ss := sessSet d n (bitsOf (cw w 4) 25 0) (acbNs w)
    MayRunMicro d n j.val 2 x it (attGr true d n j.val x it) ∧
    AttReady d n j.val true x it c a w ss pc :=
  ⟨(wM (xAtt 2) .resident aw0 [(12288, [5, 0]), (16384, [128, 63])]), 287, 3, (xAtt 2), (itD [2] [4]), cmM, live_of (by decide +kernel), by decide +kernel, by constructor <;> decide +kernel, by constructor <;> first | decide +kernel | (unfold Readable; decide +kernel) | (unfold Legible; decide +kernel)⟩
theorem wit_MicroprogramsComplete_2 :
    ∃ s : State, ∃ core : CoreId, ∃ j : JobId, ∃ x : Ctx, ∃ it : Item, ∃ c : Cmd, live s ∧
    cmd s.dev x.uid = some c ∧
    let d := s.dev
    let n := core.val
    let a := actOf x.image it
    MayRunMicro d n j.val 3 x it (mergeGr n x it) ∧
    mergeOk a = true ∧
    rangesOwned d j.val n (mergeWrites x.image it a) = true ∧
    Readable d n j.val true (mergeReads x.image it a) :=
  ⟨(wM xMg .resident [0x3F800000, 0x3F800000] []), 287, 3, xMg, (itD [2] [4]), cmM, live_of (by decide +kernel), by decide +kernel, by constructor <;> decide +kernel, by decide +kernel, by decide +kernel, by unfold Readable; decide +kernel⟩
theorem wit_MicroprogramsComplete_3 :
    ∃ s : State, ∃ core : CoreId, ∃ j : JobId, ∃ x : Ctx, ∃ it : Item, ∃ c : Cmd, live s ∧
    cmd s.dev x.uid = some c ∧
    let d := s.dev
    let n := core.val
    let a := actOf x.image it
    let w := attBlock d n a
    let cd := cometOf d j.val (ccLayer w)
    MayRunMicro d n j.val 0x10 x it (cometGr d n j.val x it) ∧
    CometReady d n j.val x it c a w (sessSet d n (bitsOf (cw w 3) 25 0) (ccNs w)) cd :=
  ⟨(wM xCo .resident cw0 [(12288, [5, 0])]), 287, 3, xCo, (itD [3] [3]), cmM, live_of (by decide +kernel), by decide +kernel, by constructor <;> decide +kernel, 
    ⟨by decide +kernel, fun h => absurd h (by decide +kernel), by decide +kernel, by decide +kernel, by unfold Readable; decide +kernel, by unfold Readable; decide +kernel, by decide +kernel, fun _ _ _ h => no_marks (by decide +kernel) h, by decide +kernel,
     one_stream (by decide +kernel) ⟨by decide +kernel, 78, by decide +kernel, by decide +kernel, by decide +kernel, fun h => absurd h (by decide +kernel), .inr (by unfold Readable; decide +kernel)⟩⟩⟩
theorem wit_MicroprogramsComplete_4 :
    ∃ s : State, ∃ core : CoreId, ∃ j : JobId, ∃ x : Ctx, ∃ it : Item, ∃ c : Cmd, live s ∧
    cmd s.dev x.uid = some c ∧
    let d := s.dev
    let n := core.val
    let a := actOf x.image it
    MayRunMicro d n j.val 0x20 x it (sliceGr d n x it) ∧
    SliceReady d n j.val x it a :=
  ⟨(wM xSl .resident [] []), 287, 3, xSl, (itD [2, 2, 2] [4, 2, 2]), cmM, live_of (by decide +kernel), by decide +kernel, by constructor <;> decide +kernel, by constructor <;> first | decide +kernel | (unfold Readable; decide +kernel) | (unfold Legible; decide +kernel)⟩
theorem wit_MicroprogramsComplete_5 :
    ∃ s : State, ∃ core : CoreId, ∃ j : JobId, ∃ x : Ctx, ∃ it : Item, ∃ c : Cmd, live s ∧
    cmd s.dev x.uid = some c ∧
    let d := s.dev
    let n := core.val
    let a := actOf x.image it
    MayRunMicro d n j.val 0x21 x it (recombGr d n x it) ∧
    RecombReady d n j.val x it a :=
  ⟨(wM xRc .resident [] []), 287, 3, xRc, (itD [2, 2, 2] [4, 2, 2]), cmM, live_of (by decide +kernel), by decide +kernel, by constructor <;> decide +kernel, by constructor <;> first | decide +kernel | (unfold Readable; decide +kernel) | (unfold Legible; decide +kernel)⟩
theorem wit_MicroprogramsComplete_6 :
    ∃ s : State, ∃ core : CoreId, ∃ j : JobId, ∃ x : Ctx, ∃ it : Item, ∃ c : Cmd, live s ∧
    cmd s.dev x.uid = some c ∧
    let d := s.dev
    let n := core.val
    let a := actOf x.image it
    let v := cvb d n x.image it a
    MayRunMicro d n j.val 0x30 x it (convGr d n x it) ∧
    ConvReady d n j.val x it a v :=
  ⟨(wM xCv .resident cvW [(16384, [128, 63])]), 287, 3, xCv, (itD [2, 2, 1] [4, 2, 1]), cmM, live_of (by decide +kernel), by decide +kernel, by constructor <;> decide +kernel, by constructor <;> first | decide +kernel | (unfold Readable; decide +kernel) | (unfold Legible; decide +kernel)⟩
theorem wit_MicroprogramsComplete_7 :
    ∃ s : State, ∃ core : CoreId, ∃ j : JobId, ∃ x : Ctx, ∃ it : Item, ∃ c : Cmd, live s ∧
    cmd s.dev x.uid = some c ∧
    let d := s.dev
    let n := core.val
    let a := actOf x.image it
    let v := cvb d n x.image it a
    MayRunMicro d n j.val 0x31 x it (poolGr d n x it) ∧
    PoolReady d n j.val x it a v :=
  ⟨(wM xPl .resident cvW []), 287, 3, xPl, (itD [2, 2, 1] [4, 2, 1]), cmM, live_of (by decide +kernel), by decide +kernel, by constructor <;> decide +kernel, by constructor <;> first | decide +kernel | (unfold Readable; decide +kernel) | (unfold Legible; decide +kernel)⟩
theorem wit_MicroprogramsComplete_8 :
    ∃ s : State, ∃ core : CoreId, ∃ j : JobId, ∃ x : Ctx, ∃ it : Item, ∃ c : Cmd, live s ∧
    cmd s.dev x.uid = some c ∧
    let d := s.dev
    let n := core.val
    let a := actOf x.image it
    let v := cvb d n x.image it a
    MayRunMicro d n j.val 0x32 x it (quillGr d n x it) ∧
    QuillReady d n j.val x it c a v :=
  ⟨(wM xQl .resident cvW []), 287, 3, xQl, (itD [2, 2, 1] [4, 2, 1]), cmM, live_of (by decide +kernel), by decide +kernel, by constructor <;> decide +kernel, by constructor <;> first | decide +kernel | (unfold Readable; decide +kernel) | (unfold Legible; decide +kernel)⟩

end WMicroprogramsComplete

end Sys2Proof.Tests
end

/-! SUPPORT. The queue: what a step does with it (log 2). -/

namespace Sys2Proof.Machine
open Sys2Proof

/-! ### Every meaning answers a next state that differs in the module alone -/

/-- The answer `o` of a meaning at `s` is a next state, and only its module may differ from that of `s`. -/
def AnswersDev (s : State) (o : Host.Outcome State Fault Refusal) : Prop := ∃ d, o = .next { s with dev := d }

theorem okDev_answersDev (s : State) (d : Dev) : AnswersDev s (okDev s d) := ⟨_, rfl⟩

theorem okAny_answersDev (s : State) (d : Dev) : AnswersDev s (okAny s d) := ⟨d, rfl⟩

/-- A command that no bus carries leaves the whole state (log 15); any other answers what its meaning answers. -/
theorem guardWf_answersDev {s : State} {o : Host.Outcome State Fault Refusal} (ok : Bool) (h : AnswersDev s o) :
    AnswersDev s (guardWf ok s o) := by
  unfold guardWf
  split
  · exact h
  · exact ⟨s.dev, rfl⟩

theorem execCntClr_answersDev (acc : Acc) (die : Fin 64) (page : Fin 1024) (s : State) :
    AnswersDev s (execCntClr acc die page s) := by
  unfold execCntClr
  split
  · exact okDev_answersDev s _
  · exact okDev_answersDev s _

/-- The commands fall into four groups: the arrivals checked for well-formedness, the events that act on a module held in
reset too, CNT_CLR, which looks at its page first, and all others, which a module held in reset ignores. -/
theorem exec_answersDev (c : Instr) (s : State) : AnswersDev s (exec c s) := by
  cases c with
  | forward | put | putAck | getReq | getResp | atomic | atomicResp | nack | orbitData | orbitSignal | cal | calEcho
  | startRx | heartbeat | haltRx | mgmtRd | mgmtWr | mgmtResp | faultReport | linkFrameRx | bar2Read | bar2Write
  | dieTempRead => exact guardWf_answersDev _ (okDev_answersDev s _)
  | perstAssert | perstDeassert | powerOnReset | modRstNAssert | powerLoss | powerLossSequenceEnd | mgmtBusRead
  | jtagAccess => exact okAny_answersDev s _
  | cntClr acc die page => exact execCntClr_answersDev acc die page s
  | _ => exact okDev_answersDev s _

/-- A command leaves the waiting commands as they are. -/
theorem exec_keepsPending {c : Instr} {s t : State} (h : exec c s = .next t) : t.pending = s.pending := by
  obtain ⟨d, hd⟩ := exec_answersDev c s
  obtain rfl : t = { s with dev := d } := Host.Outcome.next.inj (h.symm.trans hd)
  rfl

/-! ### The statements -/

/-- Settles O1: it is the queue's second case in the definition of `step`. -/
theorem stepRunsFront : Obligations.StepRunsFront := by
  intro c rest d
  rfl

/-- Settles O3: the step is the front command's meaning at the state with the rest (O1), and no meaning touches the queue. -/
theorem queueIsServedInOrder : Obligations.QueueIsServedInOrder := by
  intro c rest d t h
  rw [stepRunsFront c rest d] at h
  exact exec_keepsPending h

end Sys2Proof.Machine

/-! SUPPORT. The crossings of the Toruf ports: what waits for its slot, and what a release does (01 R27, R28; 11 R366, R370). -/

namespace Sys2Proof.Machine
open Sys2Proof

/-! ### A port's record -/

theorem fabPort_setPort_same {d : Dev} (port : Nat) (q : Port) (h : SMap.sorted d.fab.ports = true) :
    fabPort (setPort d port q) port = q := SMap.getD_put_same _ _ _ h

theorem fabPort_of_fab {d t : Dev} (h : t.fab = d.fab) (port : Nat) : fabPort t port = fabPort d port := by
  unfold fabPort; rw [h]

/-! ### Arrival -/

/-- A well-formed word of the right type on a port that is up waits for its slot. -/
theorem opOrbitRx_holds {d : Dev} {port typ : Nat} {p : Packet} (ht : p.typ = typ) (hh : headerOk p = true)
    (hu : (fabPort d port).up = true) : opOrbitRx d port typ p = holdWord d port p := by
  simp [opOrbitRx, ht, hh, hu]

theorem holdLoad_waits {d : Dev} (port stamp : Nat) (l : RelLoad) (h : SMap.sorted d.fab.ports = true) :
    Waits d (holdLoad d port stamp l) port stamp l := by
  refine ⟨?_, rfl⟩
  unfold holdLoad
  rw [fabPort_setPort_same _ _ h]

/-! ### Release -/

/-- The module when the word `w` at the head of a port's crossing has left it and, behind its slot, has been counted as a
slip; what the word itself does comes after. -/
def crossed (d : Dev) (port : Nat) (w : RelWord) (r : List RelWord) : Dev :=
  if w.slot < cycNow d then portSlip (setPort d port { fabPort d port with release := r }) port
  else setPort d port { fabPort d port with release := r }

/-- Before its slot no word is released. -/
theorem opRelease_early {d : Dev} {port : Nat} (lateAt : Nat) (h : ∀ w ∈ (fabPort d port).release, cycNow d < w.slot) :
    opRelease d port lateAt = d := by
  have hnone : (fabPort d port).release.findIdx? (fun w => decide (w.slot ≤ cycNow d)) = none :=
    List.findIdx?_eq_none_iff.mpr fun w hw => decide_eq_false (Nat.not_le.mpr (h w hw))
  unfold opRelease
  rw [hnone]

/-- The word at the head is the first whose slot has come: it crosses and does what it does. -/
theorem opRelease_head {d : Dev} {port lateAt : Nat} {w : RelWord} {r : List RelWord} (h : Releases d port lateAt w r) :
    opRelease d port lateAt = releaseLoad (crossed d port w r) port w.load := by
  have hslot : w.slot ≤ cycNow d := h.now ▸ Nat.le_max_left _ _
  have hfirst : (fabPort d port).release.findIdx? (fun w => decide (w.slot ≤ cycNow d)) = some 0 := by
    rw [h.head, List.findIdx?_cons, if_pos (decide_eq_true hslot)]
  have hget : (fabPort d port).release[0]? = some w := by rw [h.head]; rfl
  have hrest : (fabPort d port).release.eraseIdx 0 = r := by rw [h.head]; rfl
  unfold opRelease
  rw [hfirst]
  simp only [hget]
  rw [if_pos h.now]
  unfold releaseAt
  simp only [hget, hrest]
  rfl

theorem RegSide.refl (d : Dev) : RegSide d d := by constructor <;> rfl

theorem regSide_setRaw (d : Dev) (off v : Nat) : RegSide d (setRaw d off v) := by constructor <;> rfl

theorem regSide_bump (d : Dev) (die page reg n : Nat) : RegSide d (bump d die page reg n) := regSide_setRaw d _ _

/-- The slip, if any, changes register words alone. -/
theorem crossed_regSide (d : Dev) (port : Nat) (w : RelWord) (r : List RelWord) :
    RegSide (setPort d port { fabPort d port with release := r }) (crossed d port w r) := by
  unfold crossed
  split
  · exact regSide_bump _ _ _ _ _
  · exact RegSide.refl _

/-- The slip counter of the port is the only register that a crossing may change. -/
theorem rg_crossed_other {d : Dev} {port die page reg : Nat} (w : RelWord) (r : List RelWord) (h : regsSorted d)
    (ho : regOff die page reg ≠ regOff (fpDie port) (port % 6) 0x144) :
    rg (crossed d port w r) die page reg = rg d die page reg := by
  unfold crossed
  split
  · exact rg_bump_other 1 (regsSorted_of_regs (setPort_regs d port _) h) ho
  · rfl

theorem ownDid_crossed {d : Dev} {port : Nat} (w : RelWord) (r : List RelWord) (h : regsSorted d) :
    ownDid (crossed d port w r) = ownDid d :=
  rg_crossed_other w r h (by unfold regOff fpDie; omega)

/-- A word that is released behind its slot counts one slip of its port (01 R28). -/
theorem slipCnt_crossed {d : Dev} (port : Nat) (w : RelWord) (r : List RelWord) (h : regsSorted d) :
    rp (crossed d port w r) port 0x144 =
      if w.slot < cycNow d then min (rp d port 0x144 + 1) (2 ^ 32 - 1) else rp d port 0x144 := by
  unfold crossed
  split
  · exact rg_bump_same _ _ _ 1 (regsSorted_of_regs (setPort_regs d port _) h)
  · rfl

theorem release_crossed {d : Dev} (port : Nat) (w : RelWord) (r : List RelWord) (h : SMap.sorted d.fab.ports = true) :
    (fabPort (crossed d port w r) port).release = r := by
  rw [fabPort_of_fab (crossed_regSide d port w r).fab, fabPort_setPort_same _ _ h]

/-! ### From the port to the core -/

/-- The core that ORBIT data or an ORBIT signal is for (11 R370; log 22). -/
def OrbitCore (p : Packet) (core : Nat) : Prop :=
  (p.typ = 8 ∧ core = bitsOf p.addr 34 26) ∨ (p.typ = 9 ∧ core = sBytes p.payload 4 2)

/-- Data or a signal at the end of its route goes to the network port of the port's die, as a flit for its core's die. -/
theorem releaseLoad_toCore {d : Dev} {p : Packet} {hops : List Nat} {core : Nat} (port : Nat)
    (hr : p.route = some (hops, hops.length)) (hd : p.dst = ownDid d) (hlt : core < 288) (hc : OrbitCore p core) :
    releaseLoad d port (.pkt p) =
      pushPort d (npFab (fpDie port)) (oneFlit (2 * d.now) (fpDie port) (coreDie core) 0 (.toCore port p)) := by
  obtain ⟨ht, rfl⟩ | ⟨ht, rfl⟩ := hc <;> simp [releaseLoad, releaseWord, hr, hd, ht, hlt]

theorem getD_pushPort_same (d : Dev) (np : Nat) (j : PortJob) :
    SMap.getD (pushPort d np j).ports np [] = SMap.getD d.ports np [] ++ [j] := by
  simp [pushPort, SMap.getD]

/-- A crossing and a flit at a network port: only that port, the crossing and the slip counter differ. -/
theorem regSide_pushPort_crossed (d : Dev) (port : Nat) (w : RelWord) (r : List RelWord) (np : Nat) (j : PortJob) :
    let t := pushPort (crossed d port w r) np j
    RegSide { d with ports := t.ports, fab := { d.fab with ports := t.fab.ports } } t := by
  have h := crossed_regSide d port w r
  exact { h with
    net := rfl
    fab := by
      change (crossed d port w r).fab = { d.fab with ports := (crossed d port w r).fab.ports }
      rw [h.fab]
      rfl }

/-! ### The statement -/

/-- Settles O34: an arrival waits (`holdLoad_waits`); a release finds no word due (`opRelease_early`) or the head's
(`opRelease_head`), which crosses and goes to its core. -/
theorem orbitWordsAreReleasedInTheirSlots : Obligations.OrbitWordsAreReleasedInTheirSlots := by
  intro s port p hlive hregs hports
  refine ⟨?_, ?_, ?_⟩
  · intro x hx ht hok hh hu
    have hexec : exec x.2 s = .next { s with dev := holdWord s.dev port.val p } := by
      simp only [List.mem_cons, List.not_mem_nil, or_false] at hx
      obtain rfl | rfl := hx
      all_goals
        rw [← opOrbitRx_holds ht hh hu]
        exact (guardWf_true hok _).trans (okDev_live hlive _)
    exact completes_of_eq _ hexec (holdLoad_waits port.val p.stamp (.pkt p) hports)
  · intro lateAt hearly
    refine completes_of_eq _ (okDev_live hlive _) ?_
    exact opRelease_early lateAt hearly
  · intro lateAt w r hops core hrel hw hroute hdst hlt hcore
    refine completes_of_eq _ (okDev_live hlive _) ?_
    rw [opRelease_head hrel, hw,
      releaseLoad_toCore port.val hroute (hdst.trans (ownDid_crossed w r hregs).symm) hlt hcore]
    refine ⟨release_crossed port.val w r hports, ?_, slipCnt_crossed port.val w r hregs, regSide_pushPort_crossed _ _ _ _ _ _⟩
    have hside := crossed_regSide s.dev port.val w r
    rw [getD_pushPort_same, hside.net, hside.now]
    rfl

end Sys2Proof.Machine

/-! SUPPORT. The issue of an action on a core: what a write of a context leaves, and what the sequencer does with the action
at the head (04 R107, R108, R127). -/

namespace Sys2Proof.Machine
open Sys2Proof

/-! ### Contexts of a core -/

theorem SMap.insert_ne_nil {α : Type} (m : SMap α) (i : Nat) (a : α) : SMap.insert m i a ≠ [] := by
  intro h
  have hget := SMap.get?_insert_same m i a
  rw [h] at hget
  cases hget

theorem core_of_cores {d t : Dev} (h : t.cores = d.cores) (n : Nat) : core t n = core d n := by
  unfold core; rw [h]

theorem ctxOf_of_cores {d t : Dev} (h : t.cores = d.cores) (n j : Nat) : ctxOf t n j = ctxOf d n j := by
  unfold ctxOf; rw [core_of_cores h]

theorem ne_idleCore {c : CoreSt} (h : c.ctxs ≠ []) : c ≠ idleCore := by
  rintro rfl; exact h rfl

/-- A core that has a context is listed whatever the order of the table. -/
theorem core_setCore_busy (d : Dev) (n : Nat) {c : CoreSt} (h : c.ctxs ≠ []) : core (setCore d n c) n = c :=
  SMap.getD_put_listed _ _ (ne_idleCore h)

theorem core_setCore_busy_other (d : Dev) {n m : Nat} {c : CoreSt} (h : c.ctxs ≠ []) (hm : m ≠ n) :
    core (setCore d n c) m = core d m := by
  unfold core setCore SMap.put SMap.getD
  simp only [ne_idleCore h, if_false]
  rw [SMap.get?_insert_other _ _ hm]

theorem setCore_setCore_busy (d : Dev) (n : Nat) {a c : CoreSt} (ha : a.ctxs ≠ []) (hc : c.ctxs ≠ []) :
    setCore (setCore d n a) n c = setCore d n c := by
  unfold setCore SMap.put
  simp only [ne_idleCore ha, ne_idleCore hc, if_false, SMap.insert_insert]

theorem ctxs_ne_nil {d : Dev} {n j : Nat} {x : Ctx} (h : ctxOf d n j = some x) : (core d n).ctxs ≠ [] := by
  intro hnil
  unfold ctxOf at h
  rw [hnil] at h
  cases h

@[simp] theorem core_setCtx_same (d : Dev) (n j : Nat) (x : Ctx) :
    core (setCtx d n j x) n = { core d n with ctxs := SMap.insert (core d n).ctxs j x } :=
  core_setCore_busy d n (SMap.insert_ne_nil _ _ _)

theorem core_setCtx_other (d : Dev) {n m : Nat} (j : Nat) (x : Ctx) (h : m ≠ n) : core (setCtx d n j x) m = core d m :=
  core_setCore_busy_other d (SMap.insert_ne_nil _ _ _) h

@[simp] theorem ctxOf_setCtx_same (d : Dev) (n j : Nat) (x : Ctx) : ctxOf (setCtx d n j x) n j = some x := by
  unfold ctxOf; simp

@[simp] theorem arrOf_setCtx (d : Dev) (n j : Nat) (x : Ctx) : arrOf (setCtx d n j x) n = arrOf d n := by
  unfold arrOf; simp

@[simp] theorem setCtx_setCtx (d : Dev) (n j : Nat) (x y : Ctx) : setCtx (setCtx d n j x) n j y = setCtx d n j y := by
  unfold setCtx
  rw [setCore_setCore_busy _ _ (SMap.insert_ne_nil _ _ _) (SMap.insert_ne_nil _ _ _),
    core_setCore_busy _ _ (SMap.insert_ne_nil _ _ _)]
  simp [SMap.insert_insert]

/-! ### The head of a context -/

theorem canIssue_some {d : Dev} {n j : Nat} {x : Ctx} {it : Item} (h : canIssue d n j = some (x, it)) :
    ctxOf d n j = some x ∧ ∃ rest, x.todo = it :: rest := by
  unfold canIssue at h
  cases hc : ctxOf d n j with
  | none => simp [hc] at h
  | some y =>
    cases ht : y.todo with
    | nil => simp [hc, ht] at h
    | cons i rest =>
      simp only [hc, ht, Option.ite_none_right_eq_some, Option.some.injEq, Prod.mk.injEq] at h
      obtain ⟨-, rfl, rfl⟩ := h
      exact ⟨rfl, rest, ht⟩

/-- An action that nothing holds does what its ATYPE does. -/
theorem issueAct_of_mayIssue {d : Dev} {n j typ : Nat} {x : Ctx} {it : Item} (h : MayIssue d n j typ x it)
    (f : Dev → Ctx → Item → Dev) : issueAct d n j typ f = f d x it := by
  unfold issueAct
  simp [h.head, h.kind, h.free, h.reads, h.writes, h.gate]

/-! ### Going on past the head -/

theorem Advanced.congr {now : Nat} {x y x' : Ctx} (h : Advanced now y x') (hu : y.uid = x.uid) (ht : y.todo = x.todo) :
    Advanced now x x' :=
  { h with uid := h.uid.trans hu, todo := ht ▸ h.todo }

theorem bump_regs_only (d : Dev) (die page reg n : Nat) : ∃ g, bump d die page reg n = { d with regs := g } :=
  ⟨_, by unfold bump setRg setRaw; rfl⟩

theorem bump64_regs_only (d : Dev) (die page reg n : Nat) : ∃ g, bump64 d die page reg n = { d with regs := g } :=
  ⟨_, by unfold bump64 setRg64 setRg setRaw; rfl⟩

theorem slipEnd_regs_only (d : Dev) (n : Nat) (x : Ctx) : ∃ g, slipEnd d n x = { d with regs := g } := by
  unfold slipEnd slipCycles
  split
  · exact ⟨d.regs, rfl⟩
  · exact bump64_regs_only _ _ _ _ _

theorem setCtx_bump_setCtx (d : Dev) (n j : Nat) (x y : Ctx) (die page reg k : Nat) :
    ∃ g, setCtx (bump (setCtx d n j x) die page reg k) n j y = setCtx { d with regs := g } n j y := by
  obtain ⟨g, hg⟩ := bump_regs_only (setCtx d n j x) die page reg k
  exact ⟨g, by rw [hg]; exact setCtx_setCtx { d with regs := g } n j x y⟩

/-- Skipping pads moves the context's walk and its next cycle on; it counts them in a register. -/
theorem skipItems_setCtx (d : Dev) (n j : Nat) (y : Ctx) :
    ∃ (g : SMap Word) (y' : Ctx), skipItems (setCtx d n j y) n j = setCtx { d with regs := g } n j y' ∧
      y' = { y with todo := y'.todo, readyAt := y'.readyAt } ∧ y'.todo <:+ y.todo ∧ y.readyAt ≤ y'.readyAt := by
  unfold skipItems
  simp only [ctxOf_setCtx_same]
  split
  · exact ⟨d.regs, y, rfl, rfl, List.suffix_refl _, Nat.le_refl _⟩
  · exact ⟨_, _, (setCtx_bump_setCtx d n j y _ _ _ _ _).choose_spec, rfl, List.dropWhile_suffix _, Nat.le_add_right _ _⟩

/-- A core with something on its engines is not done. -/
theorem finishCore_running {d : Dev} {n j : Nat} {x : Ctx} (h : ctxOf d n j = some x) (hr : x.running ≠ []) :
    finishCore d n j = d := by
  unfold finishCore
  simp [h, hr]

/-- What an issue leaves: the context has moved on, its slips are counted in registers, and all else stays. -/
theorem issued_spec {d : Dev} {n j : Nat} {x : Ctx} {it : Item} {rest : List Item} (hx : ctxOf d n j = some x)
    (ht : x.todo = it :: rest) (hr : x.running ≠ []) :
    ∃ (g : SMap Word) (x' : Ctx), issued d n j = setCtx { d with regs := g } n j x' ∧ Advanced d.now x x' ∧
      x'.running = x.running := by
  unfold issued
  simp only [hx, ht]
  obtain ⟨g0, hg0⟩ := slipEnd_regs_only d n x
  rw [hg0]
  obtain ⟨g, y', hs, hy, htodo, hready⟩ := skipItems_setCtx { d with regs := g0 } n j
    { x with todo := rest, readyAt := d.now + 1, curAct := itemAi it, curIdx := itemIdx it, waitFrom := none,
             heldFrom := none, fenceBE := false, stepOk := false, gateFrom := none, swapFrom := none }
  have hrun : y'.running = x.running := by rw [hy]
  rw [hs]
  refine ⟨g, y', finishCore_running (ctxOf_setCtx_same _ _ _ _) (hrun ▸ hr), ?_, hrun⟩
  constructor
  · rw [hy]
  · rw [ht]; exact htodo
  · exact hready
  · rw [hy]
  · rw [hy]

theorem addRun_eq {d : Dev} {n j : Nat} {x : Ctx} (h : ctxOf d n j = some x) (r : RunAct) :
    addRun d n j r = setCtx d n j { x with running := x.running ++ [r], nextId := x.nextId + 1 } := by
  unfold addRun; rw [h]

/-- An action goes on its engine and its context moves on. -/
theorem issued_addRun {d : Dev} {n j : Nat} {x : Ctx} {it : Item} {rest : List Item} (hx : ctxOf d n j = some x)
    (ht : x.todo = it :: rest) (r : RunAct) :
    ∃ (g : SMap Word) (x' : Ctx), issued (addRun d n j r) n j = setCtx { d with regs := g } n j x' ∧
      Advanced d.now x x' ∧ x'.running = x.running ++ [r] := by
  rw [addRun_eq hx]
  obtain ⟨g, x', he, ha, hr⟩ := issued_spec (it := it) (rest := rest) (ctxOf_setCtx_same d n j
    { x with running := x.running ++ [r], nextId := x.nextId + 1 }) ht (List.append_ne_nil_of_right_ne_nil _ (by simp))
  refine ⟨g, x', ?_, ha.congr rfl rfl, hr⟩
  rw [he]
  exact setCtx_setCtx { d with regs := g } n j _ x'

end Sys2Proof.Machine

/-! SUPPORT. What the work of an engine on its core's scratchpad leaves as it is, and which bytes it may change
(04 R104; 08 R235, R258-R262). -/

namespace Sys2Proof.Machine
open Sys2Proof

/-! ### Frames of an engine's work -/

/-- Engine work of core n: of the queue managers' tables only the commands' records may differ, of memory only bytes, marks
and the count of granules, and of the cores only the engines of core n. -/
structure EngineSide (d t : Dev) (n : Nat) : Prop where
  now : t.now = d.now
  ctxs : (core t n).ctxs = (core d n).ctxs
  others : ∀ m, m ≠ n → core t m = core d m
  mem : t.mem = { d.mem with bytes := t.mem.bytes, sealMk := t.mem.sealMk, poison := t.mem.poison, granCtr := t.mem.granCtr }
  qm : t.qm = { d.qm with cmds := t.qm.cmds }
  out : t.out = d.out

theorem EngineSide.refl (d : Dev) (n : Nat) : EngineSide d d n := ⟨rfl, rfl, fun _ _ => rfl, rfl, rfl, rfl⟩

theorem EngineSide.trans {a b c : Dev} {n : Nat} (h : EngineSide a b n) (k : EngineSide b c n) : EngineSide a c n where
  now := k.now.trans h.now
  ctxs := k.ctxs.trans h.ctxs
  others := fun m hm => (k.others m hm).trans (h.others m hm)
  mem := by rw [k.mem, h.mem]
  qm := by rw [k.qm, h.qm]
  out := k.out.trans h.out

/-- A change that leaves the cores alone. -/
theorem EngineSide.of_cores {d t : Dev} (n : Nat) (hc : t.cores = d.cores) (hn : t.now = d.now)
    (hm : t.mem = { d.mem with bytes := t.mem.bytes, sealMk := t.mem.sealMk, poison := t.mem.poison, granCtr := t.mem.granCtr })
    (hq : t.qm = { d.qm with cmds := t.qm.cmds }) (ho : t.out = d.out) : EngineSide d t n :=
  ⟨hn, by rw [core_of_cores hc], fun m _ => core_of_cores hc m, hm, hq, ho⟩

theorem EngineSide.ctxOf_eq {d t : Dev} {n j : Nat} (h : EngineSide d t n) : ctxOf t n j = ctxOf d n j := by
  unfold ctxOf; rw [h.ctxs]

theorem EngineSide.slot_eq {d t : Dev} {n : Nat} (h : EngineSide d t n) (k : Nat) : slot t k = slot d k := by
  unfold slot; rw [h.qm]

/-- Engine work that leaves the queue managers' tables alone too. -/
structure ScratchSide (d t : Dev) (n : Nat) : Prop extends EngineSide d t n where
  tables : t.qm = d.qm

theorem ScratchSide.refl (d : Dev) (n : Nat) : ScratchSide d d n := ⟨EngineSide.refl d n, rfl⟩
theorem ScratchSide.trans {a b c : Dev} {n : Nat} (h : ScratchSide a b n) (k : ScratchSide b c n) : ScratchSide a c n :=
  ⟨h.toEngineSide.trans k.toEngineSide, k.tables.trans h.tables⟩

/-- A change that leaves the cores alone. -/
theorem ScratchSide.of_cores {d t : Dev} (n : Nat) (hc : t.cores = d.cores) (hn : t.now = d.now)
    (hm : t.mem = { d.mem with bytes := t.mem.bytes, sealMk := t.mem.sealMk, poison := t.mem.poison, granCtr := t.mem.granCtr })
    (hq : t.qm = d.qm) (ho : t.out = d.out) : ScratchSide d t n :=
  ⟨EngineSide.of_cores n hc hn hm (by rw [hq]) ho, hq⟩

theorem ScratchSide.foldl {α : Type} {n : Nat} (f : Dev → α → Dev) (l : List α) (h : ∀ d, ∀ x ∈ l, ScratchSide d (f d x) n)
    (d : Dev) : ScratchSide d (l.foldl f d) n := by
  induction l generalizing d with
  | nil => exact ScratchSide.refl d n
  | cons x r ih => exact (h d x List.mem_cons_self).trans (ih (fun d y hy => h d y (List.mem_cons_of_mem _ hy)) _)

theorem scratchSide_bump (d : Dev) (n die page reg k : Nat) : ScratchSide d (bump d die page reg k) n := by
  obtain ⟨g, hg⟩ := bump_regs_only d die page reg k
  rw [hg]
  exact ScratchSide.of_cores n rfl rfl rfl rfl rfl

/-! ### The bytes of granules -/

theorem GransKept.refl (d : Dev) (gs : List Nat) : GransKept d d gs := fun _ _ => rfl
theorem GransKept.trans {a b c : Dev} {gs : List Nat} (h : GransKept a b gs) (k : GransKept b c gs) : GransKept a c gs :=
  fun x hx => (k x hx).trans (h x hx)
theorem GransKept.of_bytes {d t : Dev} (h : t.mem.bytes = d.mem.bytes) (gs : List Nat) : GransKept d t gs :=
  fun _ _ => by rw [h]

theorem GransKept.foldl {α : Type} {gs : List Nat} (f : Dev → α → Dev) (l : List α) (h : ∀ d, ∀ x ∈ l, GransKept d (f d x) gs)
    (d : Dev) : GransKept d (l.foldl f d) gs := by
  induction l generalizing d with
  | nil => exact GransKept.refl d gs
  | cons x r ih => exact (h d x List.mem_cons_self).trans (ih (fun d y hy => h d y (List.mem_cons_of_mem _ hy)) _)

/-- A write inside a granule of the list keeps the bytes of the others. -/
theorem gransKept_stWrite (d : Dev) {sid off : Nat} {bs gs : List Nat} (hs : sid ∈ gs) (hb : off + bs.length ≤ 4096) :
    GransKept d (stWrite d sid off bs) gs := by
  intro x hx
  unfold stWrite setBytes
  simp only [wf_wcbDrop]
  have hne : x / 4096 ≠ sid := fun h => hx (h ▸ hs)
  exact memByte_memWrite_out _ (by omega)

theorem writeMarks_bytes_only (d : Dev) (sid off n : Nat) (b : Bool) :
    ∃ s p, writeMarks d sid off n b = { d with mem := { d.mem with sealMk := s, poison := p } } := by
  unfold writeMarks
  split
  · exact ⟨_, _, rfl⟩
  · split
    · exact ⟨_, _, rfl⟩
    · exact ⟨_, _, rfl⟩

/-! ### Writes of the scratchpad -/

/-- Some of the ranges holds the `len` bytes from `off` on, if there are any. -/
def Inside (ws : List (Int × Nat)) (off len : Nat) : Prop :=
  len = 0 ∨ ∃ r ∈ ws, r.1.toNat ≤ off ∧ off + len ≤ r.1.toNat + r.2

theorem mem_granRange {n off len g : Nat} :
    g ∈ granRange n off len ↔ ∃ i, off / 4096 + i < (off + len + 4095) / 4096 ∧ gT0 n (off / 4096 + i) = g := by
  unfold granRange
  simp only [List.mem_map, List.mem_range]
  constructor
  · rintro ⟨i, hi, h⟩; exact ⟨i, by omega, h⟩
  · rintro ⟨i, hi, h⟩; exact ⟨i, by omega, h⟩

/-- The granules of bytes inside some ranges are granules of the ranges. -/
theorem granRange_subset_rangesGrans {ws : List (Int × Nat)} {n off len : Nat} (hl : len ≠ 0) (h : Inside ws off len) :
    granRange n off len ⊆ rangesGrans n ws := by
  obtain h0 | ⟨r, hr, hlo, hhi⟩ := h
  · exact absurd h0 hl
  · intro g hg
    obtain ⟨i, hi, rfl⟩ := mem_granRange.mp hg
    unfold rangesGrans
    refine List.mem_flatten.mpr ⟨_, List.mem_map.mpr ⟨r, List.mem_filter.mpr ⟨hr, by simp; omega⟩, rfl⟩, ?_⟩
    exact mem_granRange.mpr ⟨off / 4096 - r.1.toNat / 4096 + i, by omega, by congr 1; omega⟩

theorem Inside.mono {ws vs : List (Int × Nat)} {off len : Nat} (h : Inside ws off len) (hs : ws ⊆ vs) : Inside vs off len :=
  h.imp_right fun ⟨r, hr, hb⟩ => ⟨r, hs hr, hb⟩

/-- Engine work that writes inside some ranges of its core's scratchpad. -/
structure Wrote (d t : Dev) (n : Nat) (ws : List (Int × Nat)) : Prop extends ScratchSide d t n where
  kept : GransKept d t (rangesGrans n ws)

theorem Wrote.refl (d : Dev) (n : Nat) (ws : List (Int × Nat)) : Wrote d d n ws := ⟨ScratchSide.refl d n, GransKept.refl d _⟩
theorem Wrote.trans {a b c : Dev} {n : Nat} {ws : List (Int × Nat)} (h : Wrote a b n ws) (k : Wrote b c n ws) : Wrote a c n ws :=
  ⟨h.toScratchSide.trans k.toScratchSide, h.kept.trans k.kept⟩

theorem Wrote.foldl {α : Type} {n : Nat} {ws : List (Int × Nat)} (f : Dev → α → Dev) (l : List α)
    (h : ∀ d, ∀ x ∈ l, Wrote d (f d x) n ws) (d : Dev) : Wrote d (l.foldl f d) n ws :=
  ⟨ScratchSide.foldl f l (fun d x hx => (h d x hx).toScratchSide) d, GransKept.foldl f l (fun d x hx => (h d x hx).kept) d⟩

/-- A fold over the elements of a list with their places. -/
theorem Wrote.foldl_zipIdx {α : Type} {n : Nat} {ws : List (Int × Nat)} (f : Dev → α × Nat → Dev) (l : List α)
    (h : ∀ d i (hi : i < l.length), Wrote d (f d (l[i], i)) n ws) (d : Dev) : Wrote d (l.zipIdx.foldl f d) n ws := by
  refine Wrote.foldl f _ (fun d p hp => ?_) d
  obtain ⟨a, i⟩ := p
  obtain ⟨hi, ha⟩ := List.mem_zipIdx' hp
  rw [ha]
  exact h d i hi

theorem Wrote.of_bytes {d t : Dev} {n : Nat} (ws : List (Int × Nat)) (h : ScratchSide d t n) (hb : t.mem.bytes = d.mem.bytes) :
    Wrote d t n ws := ⟨h, GransKept.of_bytes hb _⟩

theorem wrote_bump (d : Dev) (n die page reg k : Nat) (ws : List (Int × Nat)) : Wrote d (bump d die page reg k) n ws :=
  Wrote.of_bytes ws (scratchSide_bump _ _ _ _ _ _) (by rw [bump_mem])

theorem scratchSide_stWrite (d : Dev) (n sid off : Nat) (bs : List Nat) : ScratchSide d (stWrite d sid off bs) n := by
  refine ScratchSide.of_cores n ?_ ?_ ?_ ?_ ?_
  all_goals
    unfold stWrite wcbDrop
    simp only
    split <;> rfl

theorem scratchSide_writeMarks (d : Dev) (n sid off k : Nat) (b : Bool) : ScratchSide d (writeMarks d sid off k b) n := by
  obtain ⟨s, p, h⟩ := writeMarks_bytes_only d sid off k b
  rw [h]
  exact ScratchSide.of_cores n rfl rfl rfl rfl rfl

theorem scratchSide_writeT0 (d : Dev) (n off : Nat) (bs : List Nat) (sl : Bool) : ScratchSide d (writeT0 d n off bs sl) n := by
  unfold writeT0
  refine ScratchSide.foldl _ _ (fun d i _ => ?_) d
  dsimp only
  split
  · exact ScratchSide.refl d n
  · exact (scratchSide_stWrite _ _ _ _ _).trans (scratchSide_writeMarks _ _ _ _ _ _)

/-- A write of the scratchpad inside the ranges. -/
theorem wrote_writeT0 (d : Dev) (n : Nat) {off : Nat} {bs : List Nat} (sl : Bool) {ws : List (Int × Nat)}
    (h : Inside ws off bs.length) : Wrote d (writeT0 d n off bs sl) n ws := by
  refine ⟨scratchSide_writeT0 d n off bs sl, ?_⟩
  unfold writeT0
  refine GransKept.foldl _ _ (fun d i hi => ?_) d
  dsimp only
  split
  · exact GransKept.refl d _
  · rename_i hne
    have hlen : bs.length ≠ 0 := by
      intro h0
      rw [List.length_eq_zero_iff] at h0
      simp [h0] at hne
    have hi' : i < (off + bs.length + 4095) / 4096 - off / 4096 := List.mem_range.mp hi
    have hg : gT0 n (off / 4096 + i) ∈ rangesGrans n ws :=
      granRange_subset_rangesGrans hlen h (mem_granRange.mpr ⟨i, by omega, rfl⟩)
    have hpart := List.length_take_le (min (off + bs.length) ((off / 4096 + i + 1) * 4096) - max off ((off / 4096 + i) * 4096))
      (bs.drop (max off ((off / 4096 + i) * 4096) - off))
    have hkept := gransKept_stWrite d (off := max off ((off / 4096 + i) * 4096) - (off / 4096 + i) * 4096) hg
      (Nat.le_trans (Nat.add_le_add_left hpart _) (by omega))
    exact hkept.trans (GransKept.of_bytes (bytes_writeMarks _ _ _ _ _) _)

/-! ### Free contents -/

/-- A core's engines change under its contexts. -/
theorem scratchSide_setCore {d : Dev} {n : Nat} {c : CoreSt} (hc : c.ctxs = (core d n).ctxs) (hne : (core d n).ctxs ≠ []) :
    ScratchSide d (setCore d n c) n where
  now := rfl
  ctxs := by rw [core_setCore_busy _ _ (hc ▸ hne), hc]
  others := fun _ hm => core_setCore_busy_other d (hc ▸ hne) hm
  mem := rfl
  qm := rfl
  out := rfl
  tables := rfl

theorem scratchSide_freeCtr (d : Dev) (n k : Nat) : ScratchSide d { d with freeCtr := k } n :=
  ScratchSide.of_cores n rfl rfl rfl rfl rfl

theorem scratchSide_freeBanks {d : Dev} {n j : Nat} {x : Ctx} (hx : ctxOf d n j = some x) : ScratchSide d (freeBanks d n j) n :=
  (scratchSide_freeCtr d n _).trans (scratchSide_setCore rfl (ctxs_ne_nil hx))

theorem scratchSide_freeRegion (d : Dev) (n off len : Nat) : ScratchSide d (freeRegion d n off len) n := by
  unfold freeRegion
  exact (scratchSide_freeCtr d n _).trans (scratchSide_writeT0 _ _ _ _ _)

theorem wrote_freeCtr (d : Dev) (n k : Nat) (ws : List (Int × Nat)) : Wrote d { d with freeCtr := k } n ws :=
  Wrote.of_bytes ws (scratchSide_freeCtr d n k) rfl

theorem wrote_freeBanks {d : Dev} {n j : Nat} {x : Ctx} (ws : List (Int × Nat)) (hx : ctxOf d n j = some x) :
    Wrote d (freeBanks d n j) n ws := Wrote.of_bytes ws (scratchSide_freeBanks hx) rfl

theorem wrote_freeRegion (d : Dev) (n : Nat) {off len : Nat} {ws : List (Int × Nat)} (h : Inside ws off len) :
    Wrote d (freeRegion d n off len) n ws := by
  unfold freeRegion
  exact (wrote_freeCtr d n _ ws).trans (wrote_writeT0 _ n _ (by rw [List.length_map, List.length_range]; exact h))

end Sys2Proof.Machine

/-! SUPPORT. Microprograms: their operands' reads, the places of their rows, and their issue (04 R104, R127; log 40). -/

namespace Sys2Proof.Machine
open Sys2Proof

/-! ### Ranges of the scratchpad -/

theorem rangesOwned_subset {d : Dev} {j n : Nat} {rs vs : List (Int × Nat)} (h : rangesOwned d j n rs = true) (hs : vs ⊆ rs) :
    rangesOwned d j n vs = true := by
  unfold rangesOwned at h ⊢
  rw [List.all_eq_true] at h ⊢
  exact fun r hr => h r (hs hr)

theorem rangesOwned_append {d : Dev} {j n : Nat} {rs vs : List (Int × Nat)} (h : rangesOwned d j n rs = true)
    (k : rangesOwned d j n vs = true) : rangesOwned d j n (rs ++ vs) = true := by
  unfold rangesOwned at h k ⊢
  rw [List.all_append, h, k]; rfl

theorem rangesOwned_nonneg {d : Dev} {j n : Nat} {rs : List (Int × Nat)} (h : rangesOwned d j n rs = true) {r : Int × Nat}
    (hr : r ∈ rs) (hne : r.2 ≠ 0) : 0 ≤ r.1 := by
  have hall := List.all_eq_true.mp h r hr
  simp only [Bool.or_eq_true, beq_iff_eq, Bool.and_eq_true, decide_eq_true_eq] at hall
  exact (hall.resolve_left hne).1

theorem rangesGrans_subset (n : Nat) {rs vs : List (Int × Nat)} (hs : vs ⊆ rs) : rangesGrans n vs ⊆ rangesGrans n rs := by
  intro g hg
  unfold rangesGrans at hg ⊢
  simp only [List.mem_flatten, List.mem_map, List.mem_filter] at hg ⊢
  obtain ⟨l, ⟨r, ⟨hr, hne⟩, hl⟩, hg⟩ := hg
  exact ⟨l, ⟨r, ⟨hs hr, hne⟩, hl⟩, hg⟩

theorem mem_rangesGrans_append {n g : Nat} {rs vs : List (Int × Nat)} :
    g ∈ rangesGrans n (rs ++ vs) ↔ g ∈ rangesGrans n rs ∨ g ∈ rangesGrans n vs := by
  unfold rangesGrans
  simp

theorem Readable.subset {d : Dev} {n j : Nat} {b : Bool} {rs vs : List (Int × Nat)} (h : Readable d n j b rs) (hs : vs ⊆ rs) :
    Readable d n j b vs :=
  ⟨rangesOwned_subset h.1 hs, fun g hg => h.2 g (rangesGrans_subset n hs hg)⟩

theorem Readable.of_forall {d : Dev} {n j : Nat} {b : Bool} {rs : List (Int × Nat)} (h : ∀ r ∈ rs, Readable d n j b [r]) :
    Readable d n j b rs := by
  induction rs with
  | nil => exact ⟨rfl, by simp [rangesGrans]⟩
  | cons r rs ih =>
    obtain ⟨ho, hg⟩ := h r List.mem_cons_self
    obtain ⟨ho', hg'⟩ := ih fun q hq => h q (List.mem_cons_of_mem _ hq)
    rw [← List.singleton_append]
    exact ⟨rangesOwned_append ho ho', fun g hm => (mem_rangesGrans_append.mp hm).elim (hg g) (hg' g)⟩

/-- An engine reads what it may read, and nothing is upset: nothing changes. -/
theorem engineReads_readable {d : Dev} {n j : Nat} {b : Bool} {rs : List (Int × Nat)} (h : Readable d n j b rs) (uid ai : Nat) :
    engineReads d uid j n ai b rs .none = (d, true) := by
  obtain ⟨hown, hg⟩ := h
  have hseal : (rangesGrans n rs).find? (fun g => !b && sealed d g) = none := by
    rw [List.find?_eq_none]
    intro g hm
    obtain hb | hs := (hg g hm).2
    · simp [hb]
    · simp [hs]
  have hpois : (rangesGrans n rs).find? (poisoned d) = none := by
    rw [List.find?_eq_none]
    exact fun g hm => by simp [(hg g hm).1]
  unfold engineReads
  dsimp only
  rw [hown, hseal, hpois]
  rfl

theorem arrayUpset_none (d : Dev) (uid j n : Nat) : arrayUpset d uid j n .none = (d, true) := rfl

/-! ### Rows of operands in engine-ready tiles -/

theorem length_leBytes (n x : Nat) : (leBytes n x).length = n := by
  induction n generalizing x with
  | zero => rfl
  | succ n ih => rw [leBytes, List.length_cons, ih]

theorem ceilDiv_mono {a b : Nat} (n : Nat) (h : a ≤ b) : ceilDiv a n ≤ ceilDiv b n :=
  Nat.div_le_div_right (by omega)

theorem elemBits_pos (f : ElemFmt) : 0 < elemBits f := by cases f <;> decide

theorem mem_opRanges {base : Int} {f : ElemFmt} {rows cols r t : Nat} (hr : r < rows) (ht : t < ceilDiv cols 128)
    {q : Int × Nat} (hq : q ∈ (base + (t * storedBytes f + tileRowAt f r : Nat), ceilDiv (min 128 (cols - 128 * t) * elemBits f) 8)
      :: (if isMX f then [(base + (t * storedBytes f + tileScaleAt f r : Nat), ceilDiv (min 128 (cols - 128 * t)) 32)] else [])) :
    q ∈ opRanges base f rows cols := by
  unfold opRanges
  exact List.mem_flatten.mpr ⟨_, List.mem_map.mpr ⟨r, List.mem_range.mpr hr, rfl⟩,
    List.mem_flatten.mpr ⟨_, List.mem_map.mpr ⟨t, List.mem_range.mpr ht, rfl⟩, hq⟩⟩

/-- The elements of a row's tile lie in the operand's ranges. -/
theorem inside_opRanges_row {base : Int} (f : ElemFmt) {rows cols r t len : Nat} (hb : 0 ≤ base) (hr : r < rows)
    (ht : t < ceilDiv cols 128) (hl : len ≤ min 128 (cols - 128 * t)) :
    Inside (opRanges base f rows cols) (base.toNat + t * storedBytes f + tileRowAt f r) (ceilDiv (elemBits f * len) 8) := by
  refine .inr ⟨_, mem_opRanges hr ht List.mem_cons_self, by simp only; omega, ?_⟩
  have hlen : ceilDiv (elemBits f * len) 8 ≤ ceilDiv (min 128 (cols - 128 * t) * elemBits f) 8 :=
    ceilDiv_mono 8 (by rw [Nat.mul_comm]; exact Nat.mul_le_mul_right _ hl)
  simp only
  omega

/-- So do the scales of its blocks. -/
theorem inside_opRanges_scale {base : Int} {f : ElemFmt} {rows cols r t len : Nat} (hf : isMX f = true) (hb : 0 ≤ base)
    (hr : r < rows) (ht : t < ceilDiv cols 128) (hl : len ≤ ceilDiv (min 128 (cols - 128 * t)) 32) :
    Inside (opRanges base f rows cols) (base.toNat + t * storedBytes f + tileScaleAt f r) len := by
  refine .inr ⟨(base + (t * storedBytes f + tileScaleAt f r : Nat), ceilDiv (min 128 (cols - 128 * t)) 32),
    mem_opRanges hr ht (by rw [if_pos hf]; exact List.mem_cons_of_mem _ List.mem_cons_self), by simp only; omega, ?_⟩
  simp only
  omega

/-- An operand with something in it that lies in the job's banks has a base. -/
theorem opRanges_base_nonneg {d : Dev} {j n rows cols : Nat} {base : Int} {f : ElemFmt}
    (h : rangesOwned d j n (opRanges base f rows cols) = true) (hr : 0 < rows) (hc : 0 < cols) : 0 ≤ base := by
  have ht : 0 < ceilDiv cols 128 := by unfold ceilDiv; omega
  have hbits := Nat.mul_pos (show 0 < min 128 (cols - 128 * 0) by omega) (elemBits_pos f)
  have hbase := rangesOwned_nonneg h (mem_opRanges hr ht List.mem_cons_self) (by unfold ceilDiv; simp only; omega)
  simp only [tileRowAt, Nat.zero_mul, Nat.add_zero] at hbase
  omega

theorem wrote_writeRowBits (d : Dev) (n : Nat) {at_ b : Nat} {l : List Nat} (sl : Bool) {ws : List (Int × Nat)}
    (h : Inside ws at_ (ceilDiv (b * l.length) 8)) : Wrote d (writeRowBits d n at_ b l sl) n ws := by
  unfold writeRowBits
  exact wrote_writeT0 d n sl (by rw [length_leBytes]; exact h)

/-- A row is written where the elements and the scales of each of its tiles lie in the ranges. -/
theorem wrote_putRow (d : Dev) (n : Nat) {base r : Nat} {f : ElemFmt} {elts scales : List Nat} (sl : Bool)
    {ws : List (Int × Nat)}
    (he : ∀ t < ceilDiv elts.length 128, Inside ws (base + t * storedBytes f + tileRowAt f r)
      (ceilDiv (elemBits f * min 128 (elts.length - 128 * t)) 8))
    (hs : isMX f = true → ∀ t < ceilDiv elts.length 128, Inside ws (base + t * storedBytes f + tileScaleAt f r)
      (min 4 (scales.length - 4 * t))) : Wrote d (putRow d n base f r elts scales sl) n ws := by
  unfold putRow
  refine Wrote.foldl _ _ (fun d t ht => ?_) d
  have ht' := List.mem_range.mp ht
  have hrow := wrote_writeRowBits d n (at_ := base + t * storedBytes f + tileRowAt f r) (b := elemBits f)
    (l := (elts.drop (128 * t)).take 128) sl (by rw [List.length_take, List.length_drop]; exact he t ht')
  simp only
  split
  · rename_i hf
    exact hrow.trans (wrote_writeT0 _ n sl (by rw [List.length_take, List.length_drop]; exact hs hf t ht'))
  · exact hrow

/-- A row of an operand of engine-ready tiles is written inside the operand's ranges. -/
theorem wrote_putRow_operand (d : Dev) (n : Nat) {base : Int} {r rows cols : Nat} {f : ElemFmt} {elts scales : List Nat}
    (sl : Bool) {ws : List (Int × Nat)} (hb : elts ≠ [] → 0 ≤ base) (hr : r < rows) (he : elts.length ≤ cols)
    (hs : scales.length ≤ ceilDiv elts.length 32) (hw : opRanges base f rows cols ⊆ ws) :
    Wrote d (putRow d n base.toNat f r elts scales sl) n ws := by
  have hpos : ∀ t < ceilDiv elts.length 128, 0 ≤ base ∧ t < ceilDiv cols 128 := by
    intro t ht
    refine ⟨hb ?_, Nat.lt_of_lt_of_le ht (ceilDiv_mono _ he)⟩
    rintro rfl
    simp [ceilDiv] at ht
  refine wrote_putRow d n sl (fun t ht => ?_) (fun hf t ht => ?_)
  · exact (inside_opRanges_row f (hpos t ht).1 hr (hpos t ht).2 (by omega)).mono hw
  · refine (inside_opRanges_scale hf (hpos t ht).1 hr (hpos t ht).2 ?_).mono hw
    unfold ceilDiv at *
    omega

/-! ### Conversion of a row -/

theorem length_mxQuant (f : ElemFmt) (vs : List (FVal × RndMode)) : (mxQuant f vs).2.length = vs.length := by
  unfold mxQuant
  split
  · rw [List.length_map]
  · dsimp only
    split <;> rw [List.length_map]

/-- Blocks of 32 that cover a list hold together as many elements. -/
theorem sum_blocks (len k : Nat) : ((List.range k).map (fun b => min 32 (len - 32 * b))).sum = min len (32 * k) := by
  induction k with
  | zero => simp
  | succ k ih =>
    rw [List.range_succ, List.map_append, List.sum_append, ih]
    simp only [List.map_cons, List.map_nil, List.sum_cons, List.sum_nil]
    omega

theorem length_cvtRow (f : ElemFmt) (rnd : Nat → RndMode) (sat : Bool) (l : List FVal) :
    (cvtRow f rnd sat l).1.length = l.length := by
  unfold cvtRow
  split
  · simp only [List.map_map, List.length_flatten, Function.comp_def, length_mxQuant, List.length_map, List.length_zipIdx,
      List.length_take, List.length_drop]
    rw [sum_blocks]
    unfold ceilDiv
    omega
  · simp

theorem length_cvtRow_scales (f : ElemFmt) (rnd : Nat → RndMode) (sat : Bool) (l : List FVal) :
    (cvtRow f rnd sat l).2.length ≤ ceilDiv l.length 32 := by
  unfold cvtRow
  split
  · simp
  · exact Nat.zero_le _

/-! ### Issue -/

/-- What a microprogram's run leaves for its issue: its context at the same place of the program, and no other core, job or
output changed. -/
structure RunLeaves (d d1 : Dev) (n j : Nat) (x : Ctx) : Prop where
  now : d1.now = d.now
  ctx : ∃ y, ctxOf d1 n j = some y ∧ y.uid = x.uid ∧ y.todo = x.todo
  others : ∀ m, m ≠ n → core d1 m = core d m
  jobs : d1.qm.jobs = d.qm.jobs
  out : d1.out = d.out

theorem EngineSide.leaves {d d1 : Dev} {n j : Nat} {x : Ctx} (h : EngineSide d d1 n) (hx : ctxOf d n j = some x) :
    RunLeaves d d1 n j x where
  now := h.now
  ctx := ⟨x, h.ctxOf_eq.trans hx, rfl, rfl⟩
  others := h.others
  jobs := by rw [h.qm]
  out := h.out

theorem MayRunMicro.ctx {d : Dev} {n j id : Nat} {x : Ctx} {it : Item} {gr : List Nat × List Nat}
    (h : MayRunMicro d n j id x it gr) : ctxOf d n j = some x := (canIssue_some h.head).1

/-- The action that a microprogram's run of k cycles puts on its engine. -/
def microAct (d : Dev) (n : Nat) (x : Ctx) (it : Item) (kind : EngKind) (k : Nat) : RunAct :=
  { newRun d n x it kind [] .none with started := true, endAt := d.now + max 1 k }

/-- A microprogram whose run ends is on its engine, its context moves on, and memory is as the run left it. -/
theorem microIssue_ran {d d1 : Dev} {n j id k : Nat} {kind : EngKind} {x : Ctx} {it : Item}
    {gr : Dev → Ctx → Item → List Nat × List Nat} {f : Dev → Ctx → Item → Dev × MicroEnd}
    (h : MayRunMicro d n j id x it (gr d x it)) (hf : f d x it = (d1, .done k)) (hl : RunLeaves d d1 n j x) :
    Ran d (microIssue d n j id kind gr f) n j x it ∧ (microIssue d n j id kind gr f).mem = d1.mem := by
  obtain ⟨-, rest, htodo⟩ := canIssue_some h.head
  obtain ⟨y, hy, huid, hytodo⟩ := hl.ctx
  have hissue : microIssue d n j id kind gr f = issued (addRun d1 n j (microAct d1 n x it kind k)) n j := by
    unfold microIssue microAct
    simp [h.head, h.kind, h.micro, h.alone, h.reads, h.writes, h.gate, hf]
  obtain ⟨g, x', he, hadv, hrun⟩ := issued_addRun hy (hytodo.trans htodo) (microAct d1 n x it kind k)
  rw [hissue, he]
  refine ⟨⟨⟨x', microAct d1 n x it kind k, ctxOf_setCtx_same _ _ _ _, hl.now ▸ hadv.congr huid hytodo, ?_, rfl, rfl, rfl⟩, ?_, hl.jobs, hl.out⟩, rfl⟩
  · rw [hrun]; exact List.mem_append_right _ List.mem_cons_self
  · exact fun m hm => (core_setCtx_other _ j x' hm).trans (hl.others m hm)

/-- A command that issues a microprogram completes when the run ends. -/
theorem completes_micro {s : State} {i : Instr} {n j id : Nat} {kind : EngKind} {x : Ctx} {it : Item}
    {gr : Dev → Ctx → Item → List Nat × List Nat} {f : Dev → Ctx → Item → Dev × MicroEnd} {P : Mem → Prop} (hlive : live s)
    (he : exec i s = okDev s (microIssue s.dev n j id kind gr f)) (hm : MayRunMicro s.dev n j id x it (gr s.dev x it))
    (hrun : ∃ d1 k, f s.dev x it = (d1, .done k) ∧ RunLeaves s.dev d1 n j x ∧ P d1.mem) :
    Completes i s (fun t => Ran s.dev t n j x it ∧ P t.mem) := by
  obtain ⟨d1, k, hf, hl, hp⟩ := hrun
  obtain ⟨hran, hmem⟩ := microIssue_ran (kind := kind) hm hf hl
  exact completes_of_eq _ (he.trans (okDev_live hlive _)) ⟨hran, hmem ▸ hp⟩

end Sys2Proof.Machine

/-! SUPPORT. FP64 slicing and recombination, and the merge of partial results: where they write (02 R51-R54; 05 R140, R154). -/

namespace Sys2Proof.Machine
open Sys2Proof

/-! ### FP64 slicing and recombination -/

/-- A digit of a sliced operand lies in its set's tiles. -/
theorem digit_place {nt q s kk k r : Nat} (hnt : nt = ceilDiv k 128) (hq : q < s) (hk : kk < k) (hr : r < 16384) :
    (q * nt + kk / 128) * 16384 + r + 1 ≤ s * nt * 16384 := by
  have htile : kk / 128 < nt := by unfold ceilDiv at hnt; omega
  have hset : (q + 1) * nt ≤ s * nt := Nat.mul_le_mul_right _ hq
  rw [Nat.add_mul] at hset
  omega

theorem Wrote.freeBanks {d e : Dev} {n j : Nat} {x : Ctx} {ws : List (Int × Nat)} (h : Wrote d e n ws)
    (hx : ctxOf d n j = some x) : Wrote d (freeBanks e n j) n ws := h.trans (wrote_freeBanks ws (h.ctxOf_eq.trans hx))

theorem length_flatten_map {α : Type} {f : α → List Nat} {k : Nat} (h : ∀ a, (f a).length = k) (l : List α) :
    (l.map f).flatten.length = k * l.length := by
  simp [List.length_flatten, Function.comp_def, h, Nat.mul_comm]

theorem sliceRun_ends {d : Dev} {n j : Nat} {x : Ctx} {it : Item} (hx : ctxOf d n j = some x)
    (h : SliceReady d n j x it (actOf x.image it)) :
    ∃ d1 k, sliceRun d n j x it .none = (d1, .done k) ∧ Wrote d d1 n (sliceWrites x.image it (actOf x.image it)) := by
  obtain ⟨⟨hlo, hhi⟩, hwords, hmode, hrest, hown, hreads⟩ := h
  have hok : (x.image.slices < 4 || 9 < x.image.slices || ((actOf x.image it).w.drop 5).any (· != 0)
      || aw (actOf x.image it) 4 > 1 || !([1, 2, 3].all (fun i => opWordOk (aw (actOf x.image it) i)))) = false := by
    rw [hrest, List.all_eq_true.mpr hwords]
    simp
    omega
  unfold sliceRun
  dsimp only
  rw [if_neg (by rw [hok]; decide), if_neg (by unfold sliceWrites at hown; rw [hown]; decide), engineReads_readable hreads]
  dsimp only
  rw [arrayUpset_none]
  dsimp only
  refine ⟨_, _, rfl, ?_⟩
  refine Wrote.freeBanks (Wrote.foldl _ _ (fun d i hi => ?_) d) hx
  have hline : i < sliceLines x.image it ((aw (actOf x.image it) 4).testBit 0) := List.mem_range.mp hi
  have hi128 : i < 128 := Nat.lt_of_lt_of_le hline (Nat.min_le_left _ _)
  refine (Wrote.foldl_zipIdx _ _ (fun d kk hk => ?_) d).trans ((wrote_freeCtr _ n _ _).trans (wrote_writeT0 _ n _ ?_))
  · simp only [List.length_map, List.length_range] at hk
    refine Wrote.foldl _ _ (fun d q hq => ?_) d
    refine wrote_writeT0 d n _ (.inr ⟨_, List.mem_cons_self, ?_, ?_⟩)
    · simp only; omega
    · have hplace := digit_place rfl (List.mem_range.mp hq) hk (r := if (aw (actOf x.image it) 4).testBit 0 then kk % 128 * 128 + i
        else i * 128 + kk % 128) (by split <;> omega)
      simp only [List.length_cons, List.length_nil]
      omega
  · refine .inr ⟨_, List.mem_cons_of_mem _ List.mem_cons_self, ?_, ?_⟩
    · simp only; omega
    · simp only [length_leBytes]; omega

theorem recombRun_ends {d : Dev} {n j : Nat} {x : Ctx} {it : Item} (hx : ctxOf d n j = some x)
    (h : RecombReady d n j x it (actOf x.image it)) :
    ∃ d1 k, recombRun d n j x it .none = (d1, .done k) ∧ Wrote d d1 n (recombOut x.image it (actOf x.image it)) := by
  obtain ⟨⟨hlo, hhi⟩, hwords, hrest, hown, hreads⟩ := h
  have hok : (x.image.slices < 4 || 9 < x.image.slices || ((actOf x.image it).w.drop 4).any (· != 0)
      || !([1, 2, 3].all (fun i => opWordOk (aw (actOf x.image it) i)))) = false := by
    rw [hrest, List.all_eq_true.mpr hwords]
    simp
    omega
  unfold recombRun
  dsimp only
  rw [if_neg (by rw [hok]; decide), if_neg (by rw [hown]; decide), engineReads_readable hreads]
  dsimp only
  rw [arrayUpset_none]
  dsimp only
  refine ⟨_, _, rfl, Wrote.freeBanks (Wrote.foldl _ _ (fun d m hm => wrote_writeT0 d n _ ?_) d) hx⟩
  have hrow : ∀ r < min 128 (passM x.image it), (opAddr x.image it (aw (actOf x.image it) 3) + (r * 1024 : Nat),
      8 * min 128 (passN x.image it)) ∈ recombOut x.image it (actOf x.image it) :=
    fun r hr => List.mem_map.mpr ⟨r, List.mem_range.mpr hr, rfl⟩
  have hm' := List.mem_range.mp hm
  rw [length_flatten_map (fun c => length_leBytes 8 _), List.length_range]
  obtain hc | hc := Nat.eq_zero_or_pos (min 128 (passN x.image it))
  · exact .inl (by rw [hc])
  · have hbase := rangesOwned_nonneg hown (hrow 0 (by omega)) (by simp only; omega)
    refine .inr ⟨_, hrow m hm', ?_, ?_⟩ <;> simp only at hbase ⊢ <;> omega

/-! ### Result rows -/

theorem length_attFinish (f : ElemFmt) (st : AttState) (p sel : Bool) : (attFinish f st p sel).elts.length = st.o.length := by
  unfold attFinish
  cases p
  · simp [length_cvtRow]
  · simp

theorem length_attFinish_scales (f : ElemFmt) (st : AttState) (p sel : Bool) :
    (attFinish f st p sel).scales.length ≤ ceilDiv (attFinish f st p sel).elts.length 32 := by
  rw [length_attFinish]
  unfold attFinish
  cases p
  · simpa using length_cvtRow_scales f (fun _ => .rne) false
      ((st.o.map (fun x => if st.l = 0 then 0 else div32 x st.l)).map val32)
  · exact Nat.zero_le _

/-- The i-th of the equal items of a range lies in it. -/
theorem inside_item {ws : List (Int × Nat)} {base : Int} {i rows size len : Nat} (hm : (base, rows * size) ∈ ws) (hi : i < rows)
    (hl : len ≤ size) : Inside ws (base.toNat + i * size) len := by
  have hend : (i + 1) * size ≤ rows * size := Nat.mul_le_mul_right _ hi
  rw [Nat.add_mul] at hend
  exact .inr ⟨_, hm, Nat.le_add_right _ _, by simp only; omega⟩

/-- The results of rows go where the action's ranges are: outputs or records, statistics, status bytes. -/
theorem wrote_attWrite (d : Dev) (n : Nat) {f : ElemFmt} {dd : Nat} {out stats status : Int} {partialRec wantStats : Bool}
    {rows : List AttOut} (sl : Bool) {ws : List (Int × Nat)}
    (hlen : ∀ r ∈ rows, r.elts.length ≤ dd ∧ r.scales.length ≤ ceilDiv r.elts.length 32)
    (hout : partialRec = false → opRanges out f rows.length dd ⊆ ws ∧ (0 < rows.length → 0 < dd → 0 ≤ out))
    (hrec : partialRec = true → (out, rows.length * recordBytes dd) ∈ ws)
    (hstats : wantStats = true → (stats, 8 * rows.length) ∈ ws) (hstatus : (status, rows.length) ∈ ws) :
    Wrote d (attWrite d n f dd out.toNat stats.toNat status.toNat partialRec wantStats rows sl) n ws := by
  unfold attWrite
  refine Wrote.foldl_zipIdx _ _ (fun d i hi => ?_) d
  obtain ⟨helts, hscales⟩ := hlen _ (List.getElem_mem hi)
  have hres : ∀ d, Wrote d (if partialRec then
        writeT0 d n (out.toNat + i * recordBytes dd)
          (leBytes 4 rows[i].m ++ leBytes 4 rows[i].l ++ (rows[i].elts.map (leBytes 4)).flatten
            ++ List.replicate (recordBytes dd - 8 - 4 * dd) 0) sl
      else putRow d n out.toNat f i rows[i].elts rows[i].scales sl) n ws := by
    intro d
    cases partialRec with
    | true =>
      refine wrote_writeT0 d n sl (inside_item (hrec rfl) hi ?_)
      have hrecord : 8 + 4 * dd ≤ recordBytes dd := by unfold recordBytes ceilDiv; omega
      simp only [List.length_append, length_leBytes, length_flatten_map (length_leBytes 4), List.length_replicate]
      omega
    | false =>
      obtain ⟨hsub, hbase⟩ := hout rfl
      refine wrote_putRow_operand d n sl (fun hne => hbase (by omega) ?_) hi helts hscales hsub
      exact Nat.lt_of_lt_of_le (List.length_pos_of_ne_nil hne) helts
  have hst : ∀ d, Wrote d (if wantStats then writeT0 d n (stats.toNat + 8 * i) (leBytes 4 rows[i].m ++ leBytes 4 rows[i].l) sl
      else d) n ws := by
    intro d
    cases wantStats with
    | true =>
      refine wrote_writeT0 d n sl ?_
      rw [Nat.mul_comm 8 i]
      exact inside_item (Nat.mul_comm 8 _ ▸ hstats rfl) hi (by simp [length_leBytes])
    | false => exact Wrote.refl d n ws
  exact (hres d).trans ((hst _).trans (wrote_writeT0 _ n sl (by
    simpa using inside_item (size := 1) (len := 1) (by simpa using hstatus) hi (Nat.le_refl 1))))

/-! ### PARTIAL_MERGE -/

theorem pairUp_forall {α : Type} {P : α → Prop} {f : α → α → α} (hf : ∀ a b, P a → P b → P (f a b)) :
    ∀ l : List α, (∀ a ∈ l, P a) → ∀ a ∈ pairUp f l, P a
  | [], _ => by simp [pairUp]
  | [a], h => by simpa [pairUp] using h
  | a :: b :: r, h => by
    simp only [pairUp, List.mem_cons, forall_eq_or_imp] at h ⊢
    obtain ⟨ha, hb, hr⟩ := h
    exact ⟨hf a b ha hb, pairUp_forall hf r hr⟩

theorem pairTree_forall {α : Type} {P : α → Prop} {f : α → α → α} (hf : ∀ a b, P a → P b → P (f a b)) (n : Nat) (l : List α)
    (h : ∀ a ∈ l, P a) : ∀ a ∈ pairTree f n l, P a := by
  induction n generalizing l with
  | zero =>
    match l with
    | [] => simp [pairTree]
    | [x] => simpa [pairTree] using h
    | x :: y :: r => simpa [pairTree] using h x List.mem_cons_self
  | succ n ih =>
    match l with
    | [] => simp [pairTree]
    | [x] => simpa [pairTree] using h
    | x :: y :: r => exact ih _ (pairUp_forall hf _ h)

/-- What holds of a tree's leaves, and of two nodes' sum, holds of its root. -/
theorem treeOf_forall {α : Type} {P : α → Prop} {f : α → α → α} (hf : ∀ a b, P a → P b → P (f a b)) {l : List α} {d : α}
    (h : ∀ a ∈ l, P a) (hd : P d) : P (treeOf f l d) := by
  unfold treeOf
  cases ht : pairTree f l.length l with
  | none => exact hd
  | some a => exact pairTree_forall hf _ _ h a ht

theorem length_mergeTwo {dd : Nat} (a b : AttState) (ha : a.o.length ≤ dd) (hb : b.o.length ≤ dd) :
    (mergeTwo a b).o.length ≤ dd := by
  unfold mergeTwo
  split
  · exact ha
  · split
    · exact hb
    · simp only [List.length_map, List.length_zip]
      omega

theorem mergeRun_ends {d : Dev} {n j : Nat} {x : Ctx} {it : Item} (hx : ctxOf d n j = some x)
    (hok : mergeOk (actOf x.image it) = true) (hown : rangesOwned d j n (mergeWrites x.image it (actOf x.image it)) = true)
    (hreads : Readable d n j true (mergeReads x.image it (actOf x.image it))) :
    ∃ d1 k, mergeRun d n j x it .none = (d1, .done k) ∧ Wrote d d1 n (mergeWrites x.image it (actOf x.image it)) := by
  unfold mergeRun
  dsimp only
  rw [if_neg (by rw [hok]; decide), if_neg (by rw [hown]; decide), engineReads_readable hreads]
  dsimp only
  rw [arrayUpset_none]
  dsimp only
  refine ⟨_, _, rfl, (wrote_freeBanks _ hx).trans (wrote_attWrite _ n _ ?_ (fun _ => ⟨?_, ?_⟩) (fun h => nomatch h) ?_ ?_)⟩
  · intro r hr
    obtain ⟨i, -, rfl⟩ := List.mem_map.mp hr
    refine ⟨?_, length_attFinish_scales _ _ _ _⟩
    rw [length_attFinish]
    refine treeOf_forall length_mergeTwo (fun a ha => ?_) (by simp)
    obtain ⟨p, -, rfl⟩ := List.mem_map.mp ha
    simp [readRecord]
  all_goals rw [List.length_map, List.length_range]
  · exact fun r hr => List.mem_append_left _ (List.mem_append_left _ hr)
  · intro hr hc
    exact opRanges_base_nonneg (rangesOwned_subset hown fun r hr => List.mem_append_left _ (List.mem_append_left _ hr)) hr hc
  · intro h
    exact List.mem_append_left _ (List.mem_append_right _ (by rw [if_pos h]; exact List.mem_cons_self))
  · exact List.mem_append_right _ List.mem_cons_self

end Sys2Proof.Machine

/-! SUPPORT. Convolution and pooling: where their output pixels and argmax records go (07 R209-R221). -/

namespace Sys2Proof.Machine
open Sys2Proof

/-! ### Output pixels -/

theorem wrote_putPixel (d : Dev) (n : Nat) {base sbase : Nat} {f : ElemFmt} {r : List Nat × List Nat} (sl : Bool)
    {ws : List (Int × Nat)} (he : Inside ws base (ceilDiv (elemBits f * r.1.length) 8))
    (hs : isMX f = true → Inside ws sbase r.2.length) : Wrote d (putPixel d n base sbase f r sl) n ws := by
  have hrow : ∀ old, Wrote d (writeT0 d n base (leBytes (ceilDiv (elemBits f * r.1.length) 8) old) sl) n ws :=
    fun old => wrote_writeT0 d n sl (by rw [length_leBytes]; exact he)
  unfold putPixel
  dsimp only
  split
  · rename_i hf
    exact (hrow _).trans (wrote_writeT0 _ n sl (hs hf))
  · exact hrow _

theorem mem_outRanges {w : List Nat} {base : Int} {rows cols sp m : Nat} (hm : m < rows) {q : Int × Nat}
    (hq : q ∈ (base + (m * vPitch w : Nat), ceilDiv (cols * elemBits (vOF w)) 8)
      :: (if isMX (vOF w) then [(base + (128 * vPitch w + sp * m : Nat), ceilDiv cols 32)] else [])) :
    q ∈ outRanges w base rows cols sp :=
  List.mem_flatten.mpr ⟨_, List.mem_map.mpr ⟨m, List.mem_range.mpr hm, rfl⟩, hq⟩

/-- A pixel of the output tile is written inside the tile's ranges. -/
theorem wrote_putPixel_out {d0 : Dev} (d : Dev) {n j : Nat} {w : List Nat} {base : Int} {rows cols sp m : Nat}
    {r : List Nat × List Nat} (sl : Bool) {ws : List (Int × Nat)}
    (hown : rangesOwned d0 j n (outRanges w base rows cols sp) = true) (hm : m < rows) (hl : r.1.length ≤ cols)
    (hs : r.2.length ≤ ceilDiv r.1.length 32) (hw : outRanges w base rows cols sp ⊆ ws) :
    Wrote d (putPixel d n (base.toNat + m * vPitch w) (base.toNat + 128 * vPitch w + sp * m) (vOF w) r sl) n ws := by
  obtain h0 | hpos := Nat.eq_zero_or_pos r.1.length
  · have hs0 : r.2.length = 0 := by rw [h0] at hs; simpa [ceilDiv] using hs
    exact wrote_putPixel d n sl (.inl (by rw [h0]; simp [ceilDiv])) (fun _ => .inl hs0)
  · have hbits := Nat.mul_pos (Nat.lt_of_lt_of_le hpos hl) (elemBits_pos (vOF w))
    have hbase := rangesOwned_nonneg hown (mem_outRanges (m := 0) (by omega) List.mem_cons_self)
      (by simp only [ceilDiv]; omega)
    simp only [Nat.zero_mul, Nat.cast_zero, add_zero] at hbase
    have hlen : ceilDiv (elemBits (vOF w) * r.1.length) 8 ≤ ceilDiv (cols * elemBits (vOF w)) 8 :=
      ceilDiv_mono 8 (by rw [Nat.mul_comm]; exact Nat.mul_le_mul_right _ hl)
    have hslen := Nat.le_trans hs (ceilDiv_mono 32 hl)
    refine wrote_putPixel d n sl (.inr ⟨_, hw (mem_outRanges hm List.mem_cons_self), ?_, ?_⟩) (fun hf =>
      .inr ⟨(base + (128 * vPitch w + sp * m : Nat), ceilDiv cols 32), hw (mem_outRanges hm ?_), ?_, ?_⟩)
    · simp only; omega
    · simp only; omega
    · rw [if_pos hf]; exact List.mem_cons_of_mem _ List.mem_cons_self
    · simp only; omega
    · simp only; omega

/-! ### POOLING -/

theorem length_emptyMax (w : List Nat) :
    (emptyMax w).1.length = vCin w ∧ (emptyMax w).2.length ≤ ceilDiv (emptyMax w).1.length 32 := by
  unfold emptyMax
  split
  · simp
  · rw [length_cvtRow, List.length_replicate]
    exact ⟨rfl, by simpa using length_cvtRow_scales (vOF w) (fun _ => .rne) false (List.replicate (vCin w) (val32 negInf32))⟩

theorem length_cvtPixel (im : Image) (w : List Nat) (pix ch0 total : Nat) (vs : List FVal) :
    (cvtPixel im w pix ch0 total vs).1.length = vs.length ∧
      (cvtPixel im w pix ch0 total vs).2.length ≤ ceilDiv (cvtPixel im w pix ch0 total vs).1.length 32 := by
  unfold cvtPixel
  rw [length_cvtRow]
  exact ⟨rfl, length_cvtRow_scales _ _ _ _⟩

theorem length_rowTaps (im : Image) (it : Item) (w : List Nat) : (rowTaps im it w).length = min 128 (passM im it) := by
  unfold rowTaps
  rw [List.length_map, List.length_range]

theorem wrote_poolData {d : Dev} {n j : Nat} {x : Ctx} {it : Item} {w : List Nat} (sl : Bool) (hx : ctxOf d n j = some x)
    (hown : rangesOwned d j n (poolOut x.image it (actOf x.image it) w) = true) :
    Wrote d (poolData d n j x it w (rowTaps x.image it w) sl) n (poolOut x.image it (actOf x.image it) w) := by
  unfold poolData
  refine (wrote_freeBanks _ hx).trans (Wrote.foldl_zipIdx _ _ (fun d i hi => ?_) _)
  simp only [List.getElem_map]
  have hlen : ∀ (r : List Nat × List Nat), r.1.length = vCin w ∧ r.2.length ≤ ceilDiv r.1.length 32 →
      Wrote d (putPixel d n ((opAddr x.image it (aw (actOf x.image it) 3)).toNat + i * vPitch w)
        ((opAddr x.image it (aw (actOf x.image it) 3)).toNat + 128 * vPitch w + ceilDiv (vCin w) 32 * i) (vOF w) r sl) n
        (poolOut x.image it (actOf x.image it) w) := by
    intro r hr
    rw [List.length_map, List.length_zipIdx, length_rowTaps] at hi
    exact wrote_putPixel_out d sl hown hi (Nat.le_of_eq hr.1) hr.2 (List.Subset.refl _)
  split
  · exact hlen _ (length_emptyMax w)
  · refine hlen _ ⟨?_, (length_cvtPixel _ _ _ _ _ _).2⟩
    rw [(length_cvtPixel _ _ _ _ _ _).1, List.length_map, List.length_range]

theorem poolRun_ends {d : Dev} {n j : Nat} {x : Ctx} {it : Item} (hx : ctxOf d n j = some x)
    (h : PoolReady d n j x it (actOf x.image it) (cvb d n x.image it (actOf x.image it))) :
    ∃ d1 k, poolRun d n j x it .none = (d1, .done k) ∧
      Wrote d d1 n (poolOut x.image it (actOf x.image it) (cvb d n x.image it (actOf x.image it))) := by
  obtain ⟨hwords, hrest, hblock, hok, hown, hinside, hinput⟩ := h
  have hregion := rangesOwned_subset hown (List.subset_append_left _ _)
  have hout := rangesOwned_subset hown (List.subset_append_right _ _)
  unfold poolRun
  dsimp only
  rw [List.all_eq_true.mpr hwords, hrest, if_neg (by decide), engineReads_readable hblock]
  dsimp only
  rw [hok, hregion, hout, hinside, if_neg (by decide), if_neg (by decide), if_neg (by decide), if_neg (by decide),
    engineReads_readable hinput]
  dsimp only
  rw [arrayUpset_none]
  exact ⟨_, _, rfl, wrote_poolData _ hx hout⟩

/-! ### CONVOLUTION_FEED -/

theorem RunLeaves.trans {d e t : Dev} {n j : Nat} {x : Ctx} (h : RunLeaves d e n j x) (k : EngineSide e t n) :
    RunLeaves d t n j x where
  now := k.now.trans h.now
  ctx := by rw [k.ctxOf_eq]; exact h.ctx
  others := fun m hm => (k.others m hm).trans (h.others m hm)
  jobs := by rw [k.qm]; exact h.jobs
  out := k.out.trans h.out

/-- A context takes new argmax partials. -/
theorem RunLeaves.setArgmax {d e : Dev} {n j : Nat} {x : Ctx} (h : RunLeaves d e n j x) (am : SMap (Nat × Nat)) {y : Ctx}
    (hy : ctxOf e n j = some y) : RunLeaves d (setCtx e n j { y with argmax := am }) n j x := by
  obtain ⟨z, hz, huid, htodo⟩ := h.ctx
  obtain rfl : z = y := Option.some.inj (hz.symm.trans hy)
  exact ⟨h.now, ⟨_, ctxOf_setCtx_same _ _ _ _, huid, htodo⟩, fun m hm => (core_setCtx_other e j _ hm).trans (h.others m hm), h.jobs,
    h.out⟩

theorem length_flatten_le {α : Type} {f : α → List Nat} {k : Nat} (h : ∀ a, (f a).length ≤ k) (l : List α) :
    (l.map f).flatten.length ≤ l.length * k := by
  induction l with
  | nil => simp
  | cons a r ih =>
    rw [List.map_cons, List.flatten_cons, List.length_append, List.length_cons, Nat.add_mul]
    have := h a
    omega

/-- Argmax records are 4 bytes each, 8 with the values. -/
theorem length_argRecords (a : ActionD) (s : SMap (Nat × Nat)) (rows : Nat) :
    (argRecords a s rows).length ≤ rows * (if aArgmaxVal a then 8 else 4) := by
  unfold argRecords
  refine Nat.le_trans (length_flatten_le (k := if aArgmaxVal a then 8 else 4) (fun m => ?_) _) (by rw [List.length_range])
  split
  · cases aArgmaxVal a <;> simp [length_leBytes]
  · exact Nat.zero_le _

/-- The action word and address that a convolution gives the argmax of a WRITEBACK. -/
theorem aArgmaxVal_convArg (b : Bool) (v : Nat) : aArgmaxVal ⟨[if b then 65536 else 0, 0, 0, 0, v]⟩ = b := by
  cases b
  · exact (by decide : Nat.testBit 0 16 = false)
  · exact (by decide : Nat.testBit 65536 16 = true)

theorem convArgmax_leaves {d e : Dev} {n j : Nat} {x y : Ctx} {it : Item} {b : Bool} {v rows : Nat} (cols : Nat)
    (v32 : Nat → Nat → Nat) {ws : List (Int × Nat)} (hl : RunLeaves d e n j x) (hy : ctxOf e n j = some y)
    (hw : (opAddr y.image it v, rows * (if b then 8 else 4)) ∈ ws) :
    RunLeaves d (convArgmax e n j y it ⟨[if b then 65536 else 0, 0, 0, 0, v]⟩ rows cols v32) n j x ∧
      GransKept e (convArgmax e n j y it ⟨[if b then 65536 else 0, 0, 0, 0, v]⟩ rows cols v32) (rangesGrans n ws) := by
  unfold convArgmax
  dsimp only
  have hset := fun am => hl.setArgmax am hy
  split
  · have hwrite := fun d am => wrote_writeT0 d n (bs := argRecords ⟨[if b then 65536 else 0, 0, 0, 0, v]⟩ am rows) false
      (.inr ⟨_, hw, Nat.le_refl _, Nat.add_le_add_left (Nat.le_trans (length_argRecords _ am rows) (by rw [aArgmaxVal_convArg])) _⟩)
    exact ⟨(hset _).trans (hwrite _ _).toEngineSide, (hwrite _ _).kept⟩
  · exact ⟨hset _, GransKept.refl _ _⟩

theorem convData_leaves {d : Dev} {n j : Nat} {x : Ctx} {it : Item} {w : List Nat} (hx : ctxOf d n j = some x)
    (hown : rangesOwned d j n (convOut x.image it (actOf x.image it) w) = true) :
    RunLeaves d (convData d n j x it w (rowTaps x.image it w)) n j x ∧
      GransKept d (convData d n j x it w (rowTaps x.image it w)) (rangesGrans n (convOut x.image it (actOf x.image it) w)) := by
  unfold convData
  extract_lets im a f inB scB wB bB oB cols act sca one sums d1 d2 d3 am
  have hlen : sums.length = min 128 (passM x.image it) := (List.length_map _).trans (length_rowTaps _ _ _)
  have h3 : Wrote d d3 n (convOut x.image it (actOf x.image it) w) := by
    refine (wrote_freeBanks _ hx).trans ((Wrote.foldl_zipIdx _ _ (fun d i hi => ?_) _).trans (wrote_bump _ _ _ _ _ _ _))
    have hcvt := length_cvtPixel x.image w (outRow x.image it i) (outCol x.image it 0) (vCout w) (sums[i].map val32)
    refine wrote_putPixel_out d false (rangesOwned_subset hown (List.subset_append_left _ _)) (hlen ▸ hi) ?_ hcvt.2
      (List.subset_append_left _ _)
    rw [hcvt.1, List.length_map]
    simp [sums, cols, im]
  have hl3 := h3.leaves hx
  split
  · rename_i harg
    simp only [Bool.and_eq_true] at harg
    obtain ⟨⟨hargmax, -⟩, -⟩ := harg
    rw [h3.ctxOf_eq, hx]
    have hrec : (opAddr x.image it (aw a 7), sums.length * (if vArgVal w then 8 else 4)) ∈ convOut x.image it a w := by
      unfold convOut
      dsimp only
      rw [if_pos hargmax, hlen]
      exact List.mem_append_right _ List.mem_cons_self
    obtain ⟨hl, hk⟩ := convArgmax_leaves cols (fun m c => rne32 (val32 (((sums[m]?.getD [])[c]?).getD 0))) hl3
      (h3.ctxOf_eq.trans hx) hrec
    exact ⟨hl, h3.kept.trans hk⟩
  · exact ⟨hl3, h3.kept⟩

theorem convRun_ends {d : Dev} {n j : Nat} {x : Ctx} {it : Item} (hx : ctxOf d n j = some x)
    (h : ConvReady d n j x it (actOf x.image it) (cvb d n x.image it (actOf x.image it))) :
    ∃ d1 k, convRun d n j x it .none = (d1, .done k) ∧ RunLeaves d d1 n j x ∧
      GransKept d d1 (rangesGrans n (convOut x.image it (actOf x.image it) (cvb d n x.image it (actOf x.image it)))) := by
  obtain ⟨hwords, hblock, hok, hown, hinside, hinput, hweights⟩ := h
  rw [List.forall_mem_append] at hwords
  obtain ⟨hplaces, hrest⟩ := hwords
  have hregion := rangesOwned_subset hown (List.subset_append_left _ _)
  have hout := rangesOwned_subset hown (List.subset_append_right _ _)
  unfold convRun
  dsimp only
  rw [List.all_eq_true.mpr hplaces, if_neg (by decide), engineReads_readable hblock]
  dsimp only
  rw [List.all_eq_true.mpr hrest, hok, hregion, hout, hinside, if_neg (by decide), if_neg (by decide), if_neg (by decide),
    if_neg (by decide), engineReads_readable hinput]
  dsimp only
  rw [engineReads_readable hweights]
  dsimp only
  rw [arrayUpset_none]
  exact ⟨_, _, rfl, convData_leaves hx hout⟩

end Sys2Proof.Machine

/-! SUPPORT. Attention without an append: its reads of pages, and where its results go (05 R142-R153, R167). -/

namespace Sys2Proof.Machine
open Sys2Proof

/-! ### Reads of GDDR7 that nothing upsets -/

/-- Only register words and the external memories' engines may differ. -/
structure TouchSide (d t : Dev) : Prop where
  rest : t = { d with regs := t.regs, ext := t.ext }

theorem TouchSide.refl (d : Dev) : TouchSide d d := ⟨rfl⟩
theorem TouchSide.trans {a b c : Dev} (h : TouchSide a b) (k : TouchSide b c) : TouchSide a c := ⟨by rw [k.rest, h.rest]⟩

theorem TouchSide.foldl {α : Type} (f : Dev → α → Dev) (h : ∀ d x, TouchSide d (f d x)) (l : List α) (d : Dev) :
    TouchSide d (l.foldl f d) := by
  induction l generalizing d with
  | nil => exact TouchSide.refl d
  | cons x r ih => exact (h d x).trans (ih _)

theorem touchSide_bump (d : Dev) (die page reg k : Nat) : TouchSide d (bump d die page reg k) := by
  obtain ⟨g, hg⟩ := bump_regs_only d die page reg k
  exact ⟨by rw [hg]⟩

theorem TouchSide.viewPoison_eq {d t : Dev} (h : TouchSide d t) (uid k : Nat) : viewPoison t uid k = viewPoison d uid k := by
  rw [h.rest]; rfl

theorem TouchSide.pst_eq {d t : Dev} (h : TouchSide d t) (p : Nat) : pst t p = pst d p := by rw [h.rest]; rfl

theorem TouchSide.scratch {d t : Dev} (h : TouchSide d t) (n : Nat) : ScratchSide d t n := by
  rw [h.rest]
  exact ScratchSide.of_cores n rfl rfl rfl rfl rfl

theorem TouchSide.wrote {d t : Dev} (h : TouchSide d t) (n : Nat) (ws : List (Int × Nat)) : Wrote d t n ws :=
  Wrote.of_bytes ws (h.scratch n) (by rw [h.rest])

/-- A read of granules in GDDR7 leaves the pools' shapes too. -/
structure ReadSide (d t : Dev) : Prop extends TouchSide d t where
  pools : ∀ j p, poolCfg t j p = poolCfg d j p

theorem ReadSide.refl (d : Dev) : ReadSide d d := ⟨TouchSide.refl d, fun _ _ => rfl⟩
theorem ReadSide.trans {a b c : Dev} (h : ReadSide a b) (k : ReadSide b c) : ReadSide a c :=
  ⟨h.toTouchSide.trans k.toTouchSide, fun j p => (k.pools j p).trans (h.pools j p)⟩

theorem ReadSide.foldl {α : Type} (f : Dev → α → Dev) (h : ∀ d x, ReadSide d (f d x)) (l : List α) (d : Dev) :
    ReadSide d (l.foldl f d) := by
  induction l generalizing d with
  | nil => exact ReadSide.refl d
  | cons x r ih => exact (h d x).trans (ih _)

/-- A counter that counts something leaves the other words, whatever the order of the register file. -/
theorem raw_bump_other (d : Dev) {die page reg k o : Nat} (hr : resetWord (regOff die page reg) = 0) (hk : 0 < k)
    (ho : o ≠ regOff die page reg) : raw (bump d die page reg k) o = raw d o := by
  have hne : BitVec.ofNat 32 (min (rg d die page reg + k) (2 ^ 32 - 1)) ≠ 0 := by
    intro h0
    have := congrArg BitVec.toNat h0
    rw [BitVec.toNat_ofNat, Nat.mod_eq_of_lt (by omega)] at this
    have hzero : (0 : Word).toNat = 0 := rfl
    omega
  unfold bump setRg Machine.setRaw raw SMap.put SMap.getD
  rw [hr, if_neg hne, SMap.get?_insert_other _ _ ho]

theorem granDie_lt (sid : Nat) : granDie sid < 8 := by unfold granDie; omega

/-- The counters of a memory die's buffer and inkwell reset to zero. -/
theorem resetWord_memoryCounters : ∀ md < 8, resetWord (regOff (48 + md) 17 0x144) = 0 ∧
    resetWord (regOff (48 + md) 18 0x130) = 0 ∧ resetWord (regOff (48 + md) 18 0x134) = 0 ∧
    resetWord (regOff (48 + md) 18 0x138) = 0 := by decide

theorem readSide_bump (d : Dev) {md page reg k : Nat} (hmd : md < 8) (hp : page < 1024) (hreg : reg < 4096)
    (hr : resetWord (regOff (48 + md) page reg) = 0) (hk : 0 < k) : ReadSide d (bump d (48 + md) page reg k) where
  rest := (touchSide_bump d _ _ _ _).rest
  pools := fun j p => raw_bump_other d hr hk (by unfold regOff; omega)

theorem readSide_setInk (d : Dev) (md : Nat) (x : Ink) : ReadSide d (setInk d md x) := ⟨⟨rfl⟩, fun _ _ => rfl⟩

theorem readSide_cacheTouch (d : Dev) {md : Nat} (line : Nat) (write : Bool) (hmd : md < 8) :
    ReadSide d (cacheTouch d md line write) := by
  obtain ⟨-, h0, h4, h8⟩ := resetWord_memoryCounters md hmd
  unfold cacheTouch
  dsimp only
  split
  · exact ReadSide.refl d
  · split
    · exact (readSide_setInk d md _).trans (readSide_bump _ hmd (by decide) (by decide) h0 (by decide))
    · have hmiss := fun x => (readSide_setInk d md x).trans
        (readSide_bump _ (k := 1) hmd (by decide) (by decide) h4 (by decide))
      split
      · exact (hmiss _).trans (readSide_bump _ hmd (by decide) (by decide) h8 (by decide))
      · exact hmiss _

theorem readSide_cacheLines (d : Dev) (sid l0 n : Nat) (write : Bool) : ReadSide d (cacheLines d sid l0 n write) := by
  unfold cacheLines
  split
  · exact ReadSide.refl d
  · exact ReadSide.foldl _ (fun d i => readSide_cacheTouch d _ _ (granDie_lt sid)) _ _

theorem readSide_readLines (d : Dev) (sid off n : Nat) : ReadSide d (readLines d sid off n) := by
  unfold readLines
  dsimp only
  split
  · exact readSide_cacheLines _ _ _ _ _
  · rename_i hheld
    exact (readSide_bump d (granDie_lt sid) (by decide) (by decide) (resetWord_memoryCounters _ (granDie_lt sid)).1
      (Nat.pos_of_ne_zero hheld)).trans (readSide_cacheLines _ _ _ _ _)

/-- Reads of granules none of which lies in flash. -/
theorem readSide_touchReads (d : Dev) {keys : List Nat} (h : ∀ k ∈ keys, gIsT0 k = true ∨ gKind k ≠ 4) :
    ReadSide d (touchReads d keys) := by
  have hflash : keys.filter (fun k => !gIsT0 k && gKind k == 4) = [] := by
    rw [List.filter_eq_nil_iff]
    intro k hk
    obtain hk | hk := h k hk <;> simp [hk]
  unfold touchReads
  rw [hflash]
  refine ReadSide.foldl _ (fun d k => ?_) _ _
  split
  · exact readSide_readLines _ _ _ _
  · exact ReadSide.refl d

theorem touchSide_bump64 (d : Dev) (die page reg k : Nat) : TouchSide d (bump64 d die page reg k) := by
  obtain ⟨g, hg⟩ := bump64_regs_only d die page reg k
  exact ⟨by rw [hg]⟩

theorem touchSide_setFtl (d : Dev) (sd : Nat) (x : Ftl) : TouchSide d (setFtl d sd x) := ⟨rfl⟩

theorem touchSide_readPage (d : Dev) (sd p : Nat) : TouchSide d (readPage d sd p) := by
  unfold readPage
  exact (touchSide_setFtl _ _ _).trans (touchSide_bump _ _ _ _ _)

theorem touchSide_readUnit (d : Dev) (u : Nat) : TouchSide d (readUnit d u) := by
  unfold readUnit
  dsimp only
  split
  · exact (touchSide_readPage _ _ _).trans (touchSide_bump64 _ _ _ _ _)
  · exact TouchSide.refl d

/-- The reads of any granules change counters, buffers, caches and wear alone. -/
theorem touchSide_touchReads (d : Dev) (keys : List Nat) : TouchSide d (touchReads d keys) := by
  unfold touchReads
  refine (TouchSide.foldl _ touchSide_readUnit _ _).trans (TouchSide.foldl _ (fun d k => ?_) _ _)
  split
  · exact (readSide_readLines _ _ _ _).toTouchSide
  · exact TouchSide.refl d

/-! ### Reads of pages -/

theorem evDrop_none (n : Nat) : evDrop .none n = .none := ite_self _

theorem checkReads_legible {d : Dev} {uid : Nat} {l : List (Nat × Nat)} (cp : Cap)
    (h : ∀ q ∈ l, viewPoison d uid q.2 = false) : checkReads uid cp l d .none = (d, .ok .none) := by
  induction l with
  | nil => rfl
  | cons q r ih =>
    obtain ⟨addr, k⟩ := q
    have hk := h _ List.mem_cons_self
    have hr := ih fun q hq => h q (List.mem_cons_of_mem _ hq)
    unfold viewPoison at hk
    unfold checkReads
    cases hsid : viewSid d uid k with
    | none => exact hr
    | some sid =>
      rw [hsid] at hk
      simp only at hk
      simp only [checkRead, hk, evHere, Bool.false_eq_true, if_false]
      exact hr

theorem pageKeys_kind {d : Dev} {j p k : Nat} (h : k ∈ pageKeys d j p) : gKind k ≠ 4 := by
  unfold pageKeys at h
  obtain ⟨g, -, rfl⟩ := List.mem_map.mp h
  unfold gKind gKey
  split <;> omega

theorem ReadSide.pageKeys_eq {d t : Dev} (h : ReadSide d t) (j p : Nat) : pageKeys t j p = pageKeys d j p := by
  unfold pageKeys
  rw [h.pst_eq, h.pools]

/-- Pages with no poison are read, and only counters and buffers change. -/
theorem readPages_legible {uid j : Nat} (ps : List Nat) (d : Dev)
    (h : ∀ p ∈ ps, (pst d p).poison = false ∧ ∀ k ∈ pageKeys d j p, viewPoison d uid k = false) :
    ∃ t, readPages uid j ps d .none = (t, .ok .none) ∧ ReadSide d t := by
  induction ps generalizing d with
  | nil => exact ⟨d, rfl, ReadSide.refl d⟩
  | cons p r ih =>
    obtain ⟨hpage, hkeys⟩ := h p List.mem_cons_self
    have htouch : ReadSide d (touchReads d (pageKeys d j p)) := readSide_touchReads d fun k hk => .inr (pageKeys_kind hk)
    obtain ⟨t, ht, hside⟩ := ih (touchReads d (pageKeys d j p)) (fun q hq => by
      obtain ⟨hq1, hq2⟩ := h q (List.mem_cons_of_mem _ hq)
      refine ⟨by rw [htouch.pst_eq]; exact hq1, fun k hk => ?_⟩
      rw [htouch.viewPoison_eq]
      exact hq2 k (htouch.pageKeys_eq j q ▸ hk))
    refine ⟨t, ?_, htouch.trans hside⟩
    unfold readPages
    rw [hpage, if_neg (by decide), checkReads_legible]
    · exact ht
    · intro q hq
      obtain ⟨k, hk, rfl⟩ := List.mem_map.mp hq
      rw [htouch.viewPoison_eq]
      exact hkeys k hk

/-! ### Rows -/

theorem length_attUpdate (d : Dev) (uid pc : Nat) (w : List Nat) (qf : ElemFmt) (r : AttRow) (st : AttState) (i : Nat) :
    (attUpdate d uid pc w qf r st i).o.length = st.o.length := by
  unfold attUpdate
  dsimp only
  split
  · rfl
  · split
    · rfl
    · simp

theorem length_attRun (d : Dev) (uid pc : Nat) (w : List Nat) (qf : ElemFmt) (r : AttRow) (pages : List Nat) :
    (attRun d uid pc w qf r pages).o.length = poolD pc := by
  have hfold : ∀ st : AttState, (pages.foldl (attUpdate d uid pc w qf r) st).o.length = st.o.length := by
    induction pages with
    | nil => exact fun _ => rfl
    | cons p ps ih => exact fun st => (ih _).trans (length_attUpdate _ _ _ _ _ _ _ _)
  unfold attRun
  rw [hfold, List.length_replicate]

theorem length_attRows (d : Dev) (n : Nat) (decode : Bool) (im : Image) (it : Item) (w : List Nat) (c : Cmd) (ss : List Nat)
    (dd : Nat) : (attRows d n decode im it w c ss dd).length = attRowCount decode im it w := by
  unfold attRows
  rw [List.length_map, List.length_range]

/-- A row's list is that of one of the action's sessions. -/
theorem attRows_ents {d : Dev} {n : Nat} {decode : Bool} {im : Image} {it : Item} {w : List Nat} {c : Cmd} {ss : List Nat}
    {dd : Nat} (hns : 1 ≤ acbNs w) (hss : ss.length = acbNs w) {r : AttRow} (hr : r ∈ attRows d n decode im it w c ss dd) :
    ∃ s ∈ ss, r.ents = (snapOf c (listKey w s)).ents := by
  unfold attRows at hr
  obtain ⟨i, hi, rfl⟩ := List.mem_map.mp hr
  have hslot : (if decode then i / acbQpk w else 0) < ss.length := by
    rw [List.mem_range, attRowCount] at hi
    split
    · rename_i hd
      rw [if_pos hd, Nat.mul_comm] at hi
      exact hss ▸ Nat.div_lt_of_lt_mul hi
    · omega
  exact ⟨_, List.getElem_mem hslot, by simp only [List.getElem?_eq_getElem hslot, Option.getD_some]⟩

theorem mem_pidsAt {l : List (AttRow × List Nat)} {q : Nat × Nat} (h : q ∈ pidsAt l) :
    ∃ r ∈ l, ∃ e ∈ r.1.ents, e.pid = q.2 := by
  unfold pidsAt at h
  rw [List.mem_dedup] at h
  obtain ⟨_, hl, hq⟩ := List.mem_flatten.mp h
  obtain ⟨r, hr, rfl⟩ := List.mem_map.mp hl
  obtain ⟨i, -, hi⟩ := List.mem_filterMap.mp hq
  obtain ⟨e, he, rfl⟩ := Option.map_eq_some_iff.mp hi
  exact ⟨r, hr, e, List.mem_of_getElem? he, rfl⟩

/-! ### The microprogram -/

theorem opRanges_subset_attWrites {w : List Nat} (pc : Nat) (decode : Bool) (im : Image) (it : Item) (hpart : acbPartial w = false) :
    opRanges (opAddr im it (aw (actOf im it) 3)) ((fmtOf (acbOut w)).getD .fp32) (attRowCount decode im it w) (poolD pc)
      ⊆ attWrites pc decode im it w := by
  unfold attWrites
  dsimp only
  rw [hpart]
  exact fun r hr => List.mem_append_left _ (List.mem_append_left _ hr)

theorem attend_ends {d : Dev} {n j : Nat} {decode : Bool} {x : Ctx} {it : Item} {w : List Nat} {c : Cmd} {ss : List Nat}
    (hx : ctxOf d n j = some x) (hns : 1 ≤ acbNs w) (hss : ss.length = acbNs w)
    (hown : rangesOwned d j n (attWrites (poolCfg d j (acbPool w)) decode x.image it w ++ attWorkRange (actOf x.image it)) = true)
    (hpages : ∀ s ∈ ss, ∀ e ∈ (snapOf c (listKey w s)).ents,
      (pst d e.pid).poison = false ∧ ∀ k ∈ pageKeys d j e.pid, viewPoison d x.uid k = false)
    (hmasks : ∀ m ∈ maskBytes w (attRows d n decode x.image it w c ss (poolD (poolCfg d j (acbPool w)))),
      maskFault d x.uid c m = none) :
    ∃ d1 k, attend d n j decode x it w c ss .none = (d1, .done k) ∧
      Wrote d d1 n (attWrites (poolCfg d j (acbPool w)) decode x.image it w ++ attWorkRange (actOf x.image it)) := by
  unfold attend
  dsimp only
  rw [List.findSome?_eq_none_iff.mpr hmasks]
  obtain ⟨t, hread, hside⟩ := readPages_legible (uid := x.uid) (j := j)
    ((pidsAt ((attRows d n decode x.image it w c ss (poolD (poolCfg d j (acbPool w)))).map
      (fun r => (r, rowLive d x.uid w r)))).map (·.2)).dedup d (fun p hp => by
        rw [List.mem_dedup] at hp
        obtain ⟨q, hq, rfl⟩ := List.mem_map.mp hp
        obtain ⟨r, hr, e, he, hpid⟩ := mem_pidsAt hq
        obtain ⟨row, hrow, rfl⟩ := List.mem_map.mp hr
        obtain ⟨s, hs, hents⟩ := attRows_ents hns hss hrow
        exact hpid ▸ hpages s hs e (hents ▸ he))
  rw [hread]
  dsimp only
  refine ⟨_, _, rfl, (((hside.wrote n _).trans (wrote_bump _ _ _ _ _ _ _)).freeBanks hx).trans
    ((wrote_freeRegion _ n (.inr ⟨_, List.mem_append_right _ List.mem_cons_self, Nat.le_refl _, Nat.le_refl _⟩)).trans
      (wrote_attWrite _ n _ ?_ (fun hpart => ⟨?_, ?_⟩) ?_ ?_ ?_))⟩
  · intro r hr
    obtain ⟨q, -, rfl⟩ := List.mem_map.mp hr
    exact ⟨by rw [length_attFinish, length_attRun], length_attFinish_scales _ _ _ _⟩
  all_goals simp only [List.length_map, length_attRows]
  · exact List.subset_append_of_subset_left _ (opRanges_subset_attWrites _ _ _ _ hpart)
  · exact opRanges_base_nonneg (rangesOwned_subset hown
      (List.subset_append_of_subset_left _ (opRanges_subset_attWrites _ _ _ _ hpart)))
  · intro hpart
    refine List.mem_append_left _ (List.mem_append_left _ (List.mem_append_left _ ?_))
    rw [if_pos hpart]
    exact List.mem_cons_self
  · intro hstats
    refine List.mem_append_left _ (List.mem_append_left _ (List.mem_append_right _ ?_))
    rw [if_pos hstats]
    exact List.mem_cons_self
  · exact List.mem_append_left _ (List.mem_append_right _ List.mem_cons_self)

theorem acbOk_sessions {d : Dev} {j : Nat} {decode : Bool} {w : List Nat} (h : acbOk d j decode w = true) : 1 ≤ acbNs w := by
  unfold acbOk at h
  simp only [Bool.and_eq_true, decide_eq_true_eq] at h
  tauto

theorem attentionRun_ends {d : Dev} {n j : Nat} {decode : Bool} {x : Ctx} {it : Item} {c : Cmd} {w : List Nat}
    (hx : ctxOf d n j = some x) (hc : cmd d x.uid = some c) (hw : w = attBlock d n (actOf x.image it))
    (h : AttReady d n j decode x it c (actOf x.image it) w (sessSet d n (bitsOf (cw w 4) 25 0) (acbNs w))
      (poolCfg d j (acbPool w))) :
    ∃ d1 k, attentionRun d n j decode x it .none = (d1, .done k) ∧
      Wrote d d1 n (attWrites (poolCfg d j (acbPool w)) decode x.image it w ++ attWorkRange (actOf x.image it)) := by
  obtain ⟨hwords, hstats, hblock, happ, hown, hreads, hsess, hpages, hmasks⟩ := h
  have hctl : Readable d n j false (attCtl (actOf x.image it) w) := hreads.subset (List.subset_append_left _ _)
  have hcb : Readable d n j false [((bitsOf (aw (actOf x.image it) 1) 25 0 : Nat), 128)] :=
    hctl.subset (List.cons_subset_cons _ (List.nil_subset _))
  have hflag : (acbFlag w 5 && !opWordOk (aw (actOf x.image it) 4)) = false := by
    cases hf : acbFlag w 5 with
    | false => rfl
    | true => rw [hstats hf]; rfl
  have hpend : (maskBytes w (attRows d n decode x.image it w c (sessSet d n (bitsOf (cw w 4) 25 0) (acbNs w))
      (poolD (poolCfg d j (acbPool w))))).any (maskPending d) = false :=
    List.any_eq_false.mpr fun m hm => by rw [(hmasks m hm).2]; decide
  unfold attBlock at hw
  unfold attentionRun
  dsimp only
  rw [← hw, hwords, hflag, if_neg (by decide), engineReads_readable hcb]
  dsimp only
  rw [hblock, happ, rangesOwned_append hown hreads.1, Bool.false_and, Bool.or_false,
    if_neg (by decide), if_neg (by decide), engineReads_readable hctl]
  dsimp only
  rw [hc]
  dsimp only
  rw [hsess, Bool.false_and, Bool.or_false, if_neg (by decide), engineReads_readable hreads]
  dsimp only
  rw [arrayUpset_none]
  dsimp only
  unfold appendAttend
  rw [happ, evDrop_none]
  simp only [Bool.false_eq_true, if_false]
  rw [hc]
  dsimp only
  rw [hpend, if_neg (by decide)]
  exact attend_ends hx (acbOk_sessions hblock) (by unfold sessSet; rw [List.length_map, List.length_range]) hown hpages
    fun m hm => (hmasks m hm).1

end Sys2Proof.Machine

/-! SUPPORT. The comet chunk: where its outputs and status go, and the tails it updates (06 R181-R203). -/

namespace Sys2Proof.Machine
open Sys2Proof

/-! ### Places of the outputs -/

/-- The block's tiles of a chunk's output follow each other. -/
theorem blockTile_add (cd : CometDecl) (w : List Nat) (bytes ch q b : Nat) :
    blockTile cd w bytes 1 ch q b = blockTile cd w bytes 1 ch q 0 + b * bytes := by
  unfold blockTile
  rw [Nat.mul_one, Nat.mul_one, Nat.add_zero, Nat.add_mul]

theorem opRanges_subset_cometTileRanges {cd : CometDecl} {w : List Nat} {base : Int} {f : ElemFmt} {t ch q b : Nat}
    (hch : ch < ccCount w) (hq : q ∈ chunksRun cd w t) (hb : b < ceilDiv (chunkLen cd t q) 128) :
    opRanges (base + (blockTile cd w (storedBytes f) 1 ch q b : Nat)) f (ccNs w) (min 128 (chunkLen cd t q - 128 * b))
      ⊆ cometTileRanges cd w base f 1 t := by
  intro r hr
  unfold cometTileRanges
  refine List.mem_flatten.mpr ⟨_, List.mem_map.mpr ⟨ch, List.mem_range.mpr hch, rfl⟩, List.mem_flatten.mpr ⟨_,
    List.mem_map.mpr ⟨q, hq, rfl⟩, List.mem_flatten.mpr ⟨_, List.mem_map.mpr ⟨b, List.mem_range.mpr hb, rfl⟩,
    List.mem_flatten.mpr ⟨_, List.mem_map.mpr ⟨0, List.mem_range.mpr Nat.one_pos, rfl⟩, ?_⟩⟩⟩⟩
  rw [Nat.zero_mul, Nat.add_zero]
  exact hr

theorem cdL_pos (cd : CometDecl) : 0 < cdL cd := Nat.mul_pos (by decide) (Nat.two_pow_pos _)

theorem mem_chunksRun {cd : CometDecl} {w : List Nat} {t q : Nat} :
    q ∈ chunksRun cd w t ↔ q < ccChunks w ∧ q * cdL cd < t := by
  unfold chunksRun
  simp

/-- An output with something in it that lies in the job's banks has a base. -/
theorem cometTileRanges_base_nonneg {d : Dev} {j n : Nat} {cd : CometDecl} {w : List Nat} {base : Int} {f : ElemFmt} {t q : Nat}
    (hown : rangesOwned d j n (cometTileRanges cd w base f 1 t) = true) (hns : 0 < ccNs w) (hcount : 0 < ccCount w)
    (hq : q ∈ chunksRun cd w t) : 0 ≤ base := by
  obtain ⟨hq1, hq2⟩ := mem_chunksRun.mp hq
  have hlen : 0 < chunkLen cd t 0 := by
    have := cdL_pos cd
    unfold chunkLen
    omega
  have hfirst : 0 ∈ chunksRun cd w t := mem_chunksRun.mpr ⟨by omega, by omega⟩
  have hsub := opRanges_subset_cometTileRanges (base := base) (f := f) (b := 0) hcount hfirst (by unfold ceilDiv; omega)
  have hpos := opRanges_base_nonneg (rangesOwned_subset hown hsub) hns (by omega)
  simpa [blockTile] using hpos

/-- One stream's output row of a chunk is written inside the output's ranges. -/
theorem wrote_cometRow {d0 : Dev} (d : Dev) {n j : Nat} {cd : CometDecl} {w : List Nat} {base : Int} {f : ElemFmt}
    {t m ch q : Nat} {y : List Nat × List Nat} {ws : List (Int × Nat)}
    (hown : rangesOwned d0 j n (cometTileRanges cd w base f 1 t) = true) (hm : m < ccNs w) (hch : ch < ccCount w)
    (hq : q ∈ chunksRun cd w t) (hl : y.1.length = chunkLen cd t q) (hs : y.2.length ≤ ceilDiv y.1.length 32)
    (hw : cometTileRanges cd w base f 1 t ⊆ ws) :
    Wrote d (putRow d n (base.toNat + blockTile cd w (storedBytes f) 1 ch q 0) f m y.1 y.2 false) n ws := by
  have hbase := cometTileRanges_base_nonneg hown (by omega) (by omega) hq
  have hrow : ∀ b < ceilDiv y.1.length 128,
      opRanges (base + (blockTile cd w (storedBytes f) 1 ch q b : Nat)) f (ccNs w) (min 128 (chunkLen cd t q - 128 * b)) ⊆ ws ∧
      0 ≤ base + (blockTile cd w (storedBytes f) 1 ch q b : Nat) ∧ 0 < ceilDiv (min 128 (chunkLen cd t q - 128 * b)) 128 ∧
      base.toNat + blockTile cd w (storedBytes f) 1 ch q 0 + b * storedBytes f =
        (base + (blockTile cd w (storedBytes f) 1 ch q b : Nat)).toNat + 0 * storedBytes f := by
    intro b hb
    have hblk := blockTile_add cd w (storedBytes f) ch q b
    rw [hl] at hb
    refine ⟨List.Subset.trans (opRanges_subset_cometTileRanges hch hq hb) hw, by omega, ?_, by omega⟩
    unfold ceilDiv at hb ⊢
    omega
  refine wrote_putRow d n false (fun b hb => ?_) (fun hf b hb => ?_)
  all_goals
    obtain ⟨hsub, hpos, htile, hplace⟩ := hrow b hb
    rw [hplace]
  · exact (inside_opRanges_row f hpos hm htile (by omega)).mono hsub
  · refine (inside_opRanges_scale hf hpos hm htile ?_).mono hsub
    unfold ceilDiv at *
    omega

/-- Each chunk of a stream gives one output for each of its positions. -/
theorem length_cometStream (prec x16 : Bool) (cd : CometDecl) (ms : List CMode) (mark : Option Nat) (t : Nat)
    (xin : Nat → Nat → Nat × Nat) (qs : List Nat) (tail : List Cpx) :
    ∀ p ∈ (cometStream prec x16 cd ms mark t xin qs tail).1.zip qs, p.1.length = chunkLen cd t p.2 := by
  induction qs generalizing tail with
  | nil => simp [cometStream]
  | cons q r ih =>
    intro p hp
    simp only [cometStream, List.zip_cons_cons, List.mem_cons] at hp
    obtain rfl | hp := hp
    · simp
    · exact ih _ p hp

/-! ### Slots and tails -/

/-- Streams whose slots are there take no new ones. -/
theorem slotsFor_found {d : Dev} {uid j layer : Nat} {c : Cmd} {P : Nat → Prop} (hc : cmd d uid = some c) (ss : List Nat)
    (h : ∀ s ∈ ss, ∃ k, slotFor d c s layer = some k ∧ P k) :
    ∃ l, slotsFor uid j layer ss d = some (d, l) ∧ l.length = ss.length ∧ ∀ k ∈ l, P k := by
  induction ss with
  | nil => exact ⟨[], rfl, rfl, by simp⟩
  | cons s r ih =>
    obtain ⟨k, hk, hp⟩ := h s List.mem_cons_self
    obtain ⟨l, hl, hlen, hall⟩ := ih fun q hq => h q (List.mem_cons_of_mem _ hq)
    refine ⟨k :: l, ?_, by rw [List.length_cons, List.length_cons, hlen], List.forall_mem_cons.mpr ⟨hp, hall⟩⟩
    unfold slotsFor
    rw [hc]
    dsimp only
    rw [hk]
    dsimp only
    rw [hl]

theorem engineSide_setCmd (d : Dev) (n uid : Nat) (c : Cmd) : EngineSide d (setCmd d uid c) n :=
  EngineSide.of_cores n rfl rfl rfl rfl rfl

/-- A tail whose slot the session alone names is updated in place. -/
theorem putTail_some {d : Dev} {uid n j s k : Nat} {cd : CometDecl} {w : List Nat} (tails : List (List Cpx))
    (href : (slot d k).refcnt ≤ 1) (hc : (cmd d uid).isSome) :
    ∃ t, putTail d uid n j cd w s k tails = some t ∧ EngineSide d t n ∧ (cmd t uid).isSome := by
  obtain ⟨c, hc⟩ := Option.isSome_iff_exists.mp hc
  unfold putTail
  dsimp only
  rw [if_neg (by omega)]
  dsimp only
  generalize h2 : (if ccCount w = cdChannels cd then d
    else freeRegion d n (halfOff d (slot d k) !(slot d k).sel) (cdChannels cd * 512)) = d2
  have hside2 : ScratchSide d d2 n := by
    rw [← h2]
    split
    · exact ScratchSide.refl d n
    · exact scratchSide_freeRegion _ _ _ _
  generalize h3 : List.foldl _ d2 tails.zipIdx = d3
  have hside3 : ScratchSide d2 d3 n := by
    rw [← h3]
    exact ScratchSide.foldl _ _ (fun _ _ _ => ScratchSide.foldl _ _ (fun _ _ _ => scratchSide_writeT0 _ _ _ _ _) _) _
  have hcmd : cmd d3 uid = some c := by
    unfold cmd at hc ⊢
    rw [hside3.tables, hside2.tables, hc]
  rw [hcmd]
  exact ⟨_, rfl, (hside2.trans hside3).toEngineSide.trans (engineSide_setCmd _ _ _ _), by simp⟩

theorem putTails_some {uid n j : Nat} {cd : CometDecl} {w : List Nat} (ups : List (Nat × Nat × List (List Cpx))) (d : Dev)
    (href : ∀ u ∈ ups, (slot d u.2.1).refcnt ≤ 1) (hc : (cmd d uid).isSome) :
    ∃ t, putTails uid n j cd w ups d = some t ∧ EngineSide d t n := by
  induction ups generalizing d with
  | nil => exact ⟨d, rfl, EngineSide.refl d n⟩
  | cons u r ih =>
    obtain ⟨s, k, ts⟩ := u
    obtain ⟨e, he, hside, hec⟩ := putTail_some (s := s) (j := j) (n := n) (cd := cd) (w := w) ts (href _ List.mem_cons_self) hc
    obtain ⟨t, ht, hside'⟩ := ih e (fun u hu => by rw [hside.slot_eq]; exact href u (List.mem_cons_of_mem _ hu)) hec
    refine ⟨t, ?_, hside.trans hside'⟩
    unfold putTails
    rw [he]
    exact ht

/-! ### The microprogram -/

theorem wrote_cometCount (d : Dev) (n : Nat) (cd : CometDecl) (w : List Nat) (t : Nat) (marks : List (Option Nat))
    (ws : List (Int × Nat)) : Wrote d (cometCount d n cd w t marks) n ws := by
  unfold cometCount
  dsimp only
  have h1 := fun a b c => ((wrote_bump d n (coreDie n) 17 0x130 a ws).trans (wrote_bump _ n (coreDie n) 17 0x134 b ws)).trans
    (wrote_bump _ n (coreDie n) 17 0x138 c ws)
  split
  · exact (h1 _ _ _).trans ((wrote_freeCtr _ n _ ws).trans (wrote_bump _ _ _ _ _ _ _))
  · exact h1 _ _ _

theorem cometData_ends {d : Dev} {n j : Nat} {x : Ctx} {it : Item} {w : List Nat} {cd : CometDecl} {ss slots : List Nat}
    (hx : ctxOf d n j = some x) (hc : (cmd d x.uid).isSome) (hlen : slots.length = ccNs w)
    (hown : rangesOwned d j n (cometWrites (actOf x.image it) cd x.image it w) = true)
    (href : ccUpdate w = true → ∀ k ∈ slots, (slot d k).refcnt ≤ 1) :
    ∃ d1 k, cometData d n j x it w cd ss slots = (d1, .done k) ∧ EngineSide d d1 n ∧
      (ccUpdate w = false → Wrote d d1 n (cometWrites (actOf x.image it) cd x.image it w)) := by
  unfold cometData
  extract_lets im a t xf yf xb yb qs prec modes marks xin stream res d1 rows d2 a0 status d3 work wait len d4 ups
  have h1 : Wrote d d1 n (cometWrites a cd im it w) :=
    (wrote_freeBanks _ hx).trans (wrote_freeRegion _ n (.inr ⟨_, List.mem_append_right _ List.mem_cons_self, Nat.le_refl _,
      Nat.le_refl _⟩))
  have hrows : ∀ (i : Nat) (hi : i < rows.length), i < ccNs w ∧ ∀ (ch : Nat) (hch : ch < rows[i].length), ch < ccCount w ∧
      ∀ y ∈ rows[i][ch].zip qs, y.1.1.length = chunkLen cd t y.2 ∧ y.1.2.length ≤ ceilDiv y.1.1.length 32 := by
    intro i hi
    refine ⟨by simpa [rows, res] using hi, fun ch hch => ⟨by simpa [rows, res] using hch, fun y hy => ?_⟩⟩
    simp only [rows, res, List.getElem_map, List.getElem_range, List.zip_map_left, List.mem_map, Prod.map, id_eq] at hy
    obtain ⟨p, hp, rfl⟩ := hy
    simp only [length_cvtRow]
    refine ⟨?_, by simpa using length_cvtRow_scales yf (fun _ => .rne) false (p.1.map val32)⟩
    rw [List.length_map]
    exact length_cometStream _ _ _ _ _ _ _ _ _ p hp
  have h2 : Wrote d1 d2 n (cometWrites a cd im it w) := by
    refine Wrote.foldl_zipIdx _ _ (fun d i hi => ?_) _
    obtain ⟨hi', hcols⟩ := hrows i hi
    refine Wrote.foldl_zipIdx _ _ (fun d ch hch => ?_) _
    obtain ⟨hch', hys⟩ := hcols ch hch
    refine Wrote.foldl _ _ (fun d y hy => ?_) _
    obtain ⟨hl, hs⟩ := hys y hy
    exact wrote_cometRow d (rangesOwned_subset hown fun r hr => List.mem_append_left _ (List.mem_append_left _ hr)) hi' hch'
      (List.of_mem_zip hy).2 hl hs fun r hr => List.mem_append_left _ (List.mem_append_left _ hr)
  have h4 : Wrote d d4 n (cometWrites a cd im it w) := by
    refine h1.trans (h2.trans (Wrote.trans (wrote_writeT0 _ n _ ?_) ((wrote_cometCount _ _ _ _ _ _ _).trans (wrote_bump _ _ _ _ _ _ _))))
    refine .inr ⟨_, List.mem_append_left _ (List.mem_append_right _ List.mem_cons_self), Nat.le_refl _, ?_⟩
    simp
  split
  · rename_i hup
    have hups : ∀ u ∈ ups, (slot d4 u.2.1).refcnt ≤ 1 := by
      intro u hu
      obtain ⟨m, hm, rfl⟩ := List.mem_map.mp hu
      have hm' : m < slots.length := hlen ▸ List.mem_range.mp hm
      rw [h4.slot_eq]
      simp only [List.getElem?_eq_getElem hm', Option.getD_some]
      exact href hup _ (List.getElem_mem hm')
    have hc4 : (cmd d4 x.uid).isSome := by
      unfold cmd at hc ⊢
      rw [h4.tables]
      exact hc
    obtain ⟨t5, ht5, hside5⟩ := putTails_some (n := n) (j := j) (cd := cd) (w := w) ups d4 hups hc4
    rw [ht5]
    exact ⟨_, _, rfl, h4.toEngineSide.trans hside5, fun h => absurd h (by rw [hup]; decide)⟩
  · exact ⟨_, _, rfl, h4.toEngineSide, fun _ => h4⟩

theorem cometGo_ends {d : Dev} {n j : Nat} {x : Ctx} {it : Item} {w : List Nat} {cd : CometDecl} {c : Cmd} {ss : List Nat}
    {marks : List (Option Nat)} (hx : ctxOf d n j = some x) (hc : cmd d x.uid = some c) (hss : ss.length = ccNs w)
    (hown : rangesOwned d j n (cometWrites (actOf x.image it) cd x.image it w) = true)
    (hslots : ∀ s ∈ ss, ∃ k, slotFor d c s (ccLayer w) = some k ∧ (slot d k).state = .resident ∧ (slot d k).poison = false ∧
      (ccUpdate w = true → (slot d k).refcnt ≤ 1) ∧ ((slot d k).zero = true ∨ Readable d n j true
        [(((halfOff d (slot d k) (slot d k).sel + ccFirst w * 512 : Nat) : Int), ccCount w * 512)])) :
    ∃ d1 k, cometGo d n j x it .none w cd ss marks = (d1, .done k) ∧ EngineSide d d1 n ∧
      (ccUpdate w = false → Wrote d d1 n (cometWrites (actOf x.image it) cd x.image it w)) := by
  obtain ⟨l, hl, hlen, hall⟩ := slotsFor_found (j := j) hc ss hslots
  unfold cometGo
  extract_lets die
  rw [hl]
  dsimp -zeta only
  rw [if_neg (by simpa using fun k hk => (hall k hk).1)]
  extract_lets d2
  obtain ⟨g, hg⟩ : ∃ g, d2 = { d with regs := g } := by
    unfold d2
    split
    · exact bump_regs_only _ _ _ _ _
    · exact ⟨d.regs, rfl⟩
  clear_value d2
  subst hg
  have hslot : ∀ k ∈ l, (slot d k).poison = false ∧ (ccUpdate w = true → (slot d k).refcnt ≤ 1) ∧
      ((slot d k).zero = true ∨ Readable d n j true
        [(((halfOff d (slot d k) (slot d k).sel + ccFirst w * 512 : Nat) : Int), ccCount w * 512)]) :=
    fun k hk => (hall k hk).2
  have hpoison : (l.zip marks).find? (fun p => (slot { d with regs := g } p.1).poison && p.2 != some 0) = none := by
    rw [List.find?_eq_none]
    intro p hp
    have hp' : (slot { d with regs := g } p.1).poison = false := (hslot p.1 (List.of_mem_zip hp).1).1
    simp [hp']
  have htails : Readable { d with regs := g } n j true (tailRanges { d with regs := g } cd w (l.zip marks)) := by
    refine Readable.of_forall fun r hr => ?_
    obtain ⟨p, hp, rfl⟩ := List.mem_map.mp hr
    obtain ⟨hp, hused⟩ := List.mem_filter.mp hp
    simp only [Bool.and_eq_true, Bool.not_eq_true'] at hused
    obtain ⟨-, -, hread⟩ := hslot p.1 (List.of_mem_zip hp).1
    exact hread.resolve_left (by
      have hz : (slot d p.1).zero = false := hused.1
      rw [hz]; decide)
  rw [hpoison]
  dsimp only
  rw [engineReads_readable htails]
  dsimp only
  rw [if_neg (by decide), arrayUpset_none]
  dsimp only
  rw [if_neg (by decide)]
  obtain ⟨d1, k, hd1, hside, hwrote⟩ := cometData_ends (ss := ss) (d := { d with regs := g }) hx (by
    show (cmd d x.uid).isSome; rw [hc]; rfl) (hlen.trans hss) hown fun hup k hk => (hslot k hk).2.1 hup
  have hregs : ScratchSide d { d with regs := g } n := ScratchSide.of_cores n rfl rfl rfl rfl rfl
  exact ⟨d1, k, hd1, hregs.toEngineSide.trans hside, fun hup => (Wrote.of_bytes _ hregs rfl).trans (hwrote hup)⟩

theorem cometRun_ends {d : Dev} {n j : Nat} {x : Ctx} {it : Item} {c : Cmd} {w : List Nat} {cd : CometDecl}
    (hx : ctxOf d n j = some x) (hc : cmd d x.uid = some c) (hw : w = attBlock d n (actOf x.image it))
    (hcd : cd = cometOf d j (ccLayer w))
    (h : CometReady d n j x it c (actOf x.image it) w (sessSet d n (bitsOf (cw w 3) 25 0) (ccNs w)) cd) :
    ∃ d1 k, cometRun d n j x it .none = (d1, .done k) ∧ EngineSide d d1 n ∧
      (ccUpdate w = false → Wrote d d1 n (cometWrites (actOf x.image it) cd x.image it w)) := by
  obtain ⟨hwords, hmark, hblock, hown, hreads, htables, hmodes, hmarks, hsess, hslots⟩ := h
  have hhead : Readable d n j false (cometHead (actOf x.image it) w ++ cometMarks (actOf x.image it) x.image it w) :=
    hreads.subset (List.subset_append_left _ _)
  have hcb : Readable d n j false [((bitsOf (aw (actOf x.image it) 1) 25 0 : Nat), 128)] :=
    hhead.subset (List.cons_subset_cons _ (List.nil_subset _))
  have hmark5 : (ccMarks w && !opWordOk (aw (actOf x.image it) 5)) = false := by
    cases hf : ccMarks w with
    | false => rfl
    | true => rw [hmark hf]; rfl
  have hwrites := rangesOwned_subset hown (List.subset_append_left _ _)
  have harena := rangesOwned_subset hown (List.subset_append_right _ _)
  have hall : rangesOwned d j n (cometWrites (actOf x.image it) cd x.image it w ++ cometCtl (actOf x.image it) cd x.image it w
      ++ cometTabs cd w ++ arenaRange cd) = true :=
    rangesOwned_append (rangesOwned_append (rangesOwned_append hwrites hreads.1) htables.1) harena
  have hmodes' : (List.range (ccCount w * cdModes cd)).any (fun i =>
      !modeOk (readMode d n (bitsOf (cw w 4) 25 0 + i * 24))) = false :=
    List.any_eq_false.mpr fun i hi => by rw [hmodes i (List.mem_range.mp hi)]; decide
  have hmarks' : marksOk cd ((List.range (ccNs w)).map (markOf d n (opAddr x.image it (aw (actOf x.image it) 5)).toNat w)) = true := by
    refine List.all_eq_true.mpr fun q hq => ?_
    obtain ⟨m, hm, rfl⟩ := List.mem_map.mp hq
    cases hv : markOf d n (opAddr x.image it (aw (actOf x.image it) 5)).toNat w m with
    | none => rfl
    | some v => exact decide_eq_true (hmarks m (List.mem_range.mp hm) v hv)
  have hclash : (sessSet d n (bitsOf (cw w 3) 25 0) (ccNs w)).any (fun s => tailClash d x.uid s (ccLayer w)) = false :=
    List.any_eq_false.mpr fun s hs => by rw [(hslots s hs).1]; decide
  unfold attBlock at hw
  unfold cometRun
  dsimp only
  rw [← hw, ← hcd, hwords, hmark5, if_neg (by decide), engineReads_readable hcb]
  dsimp only
  rw [hblock, hall, if_neg (by decide), if_neg (by decide), engineReads_readable hhead]
  dsimp only
  rw [engineReads_readable htables]
  dsimp only
  rw [hc]
  dsimp only
  rw [hsess, hmodes', hmarks', hclash, if_neg (by decide), engineReads_readable hreads]
  dsimp only
  exact cometGo_ends hx hc (by unfold sessSet; rw [List.length_map, List.length_range]) hwrites fun s hs => (hslots s hs).2

end Sys2Proof.Machine

/-! SUPPORT. QUILL_LAYER: its reads of the input map, and its writes of the output map through the command's new granules
(07 R222-R226; 08 R240, R253). -/

namespace Sys2Proof.Machine
open Sys2Proof

/-! ### Reads through a command's view -/

/-- What a read of a whole granule through a command's view gives: its bytes and its seal. -/
def granRead (d : Dev) (uid k : Nat) : List Nat × Bool :=
  match viewSid d uid k with
  | some s => (stRead d s 0 4096, sealed d s)
  | none => (List.replicate 4096 0, false)

/-- Granules that carry no poison are gathered where no read is upset. -/
theorem gather_legible {d : Dev} {uid : Nat} {l : List (Nat × Nat)} (cp : Cap) (h : ∀ q ∈ l, viewPoison d uid q.2 = false) :
    gather uid cp l d .none = (d, .ok (l.map fun q => granRead d uid q.2)) := by
  induction l with
  | nil => rfl
  | cons q r ih =>
    obtain ⟨addr, k⟩ := q
    have hk := h _ List.mem_cons_self
    have hr := ih fun q hq => h q (List.mem_cons_of_mem _ hq)
    have hnext : evNext .none = .none := evDrop_none 1
    rw [List.map_cons]
    unfold gather
    unfold granRead viewPoison at *
    cases hsid : viewSid d uid k with
    | none => simp only [hr]
    | some sid =>
      rw [hsid] at hk
      replace hk : poisoned d sid = false := hk
      have hread : checkRead d k sid addr (evHere .none) cp = (d, none) := by
        unfold checkRead
        rw [hk]
        rfl
      simp only [hread, hnext, hr]

/-! ### The write combining buffer and GDDR7 -/

theorem scratchSide_setWcb (d : Dev) (n md : Nat) (l : List WcbEnt) : ScratchSide d (setWcb d md l) n :=
  ScratchSide.of_cores n rfl rfl rfl rfl rfl

theorem scratchSide_setWcbHeld (d : Dev) (n md : Nat) (l : List WcbHeld) : ScratchSide d (setWcbHeld d md l) n :=
  ScratchSide.of_cores n rfl rfl rfl rfl rfl

theorem scratchSide_setBytes (d : Dev) (n : Nat) (m : List Host.Cell) : ScratchSide d (setBytes d m) n :=
  ScratchSide.of_cores n rfl rfl rfl rfl rfl

theorem scratchSide_wcbPut (d : Dev) (n md : Nat) (e : WcbEnt) : ScratchSide d (wcbPut d md e) n := by
  unfold wcbPut
  exact (scratchSide_setBytes d n _).trans (scratchSide_setWcb _ n _ _)

theorem scratchSide_wcbFlush (d : Dev) (n md : Nat) (e : WcbEnt) : ScratchSide d (wcbFlush d md e .none) n :=
  scratchSide_wcbPut d n md e

theorem scratchSide_wcbFlushList (n md reg : Nat) (l : List WcbEnt) (d : Dev) :
    ScratchSide d (wcbFlushList md reg l .none d) n := by
  induction l generalizing d with
  | nil => exact ScratchSide.refl d n
  | cons e r ih =>
    have hflush := scratchSide_wcbFlush d n md e
    have hnext : evNext .none = .none := evDrop_none 1
    unfold wcbFlushList
    rw [hnext]
    refine ScratchSide.trans ?_ (ih _)
    split
    · exact hflush
    · exact hflush.trans (scratchSide_bump _ _ _ _ _ _)

theorem scratchSide_wcbEnter (d : Dev) (n md line mask data : Nat) :
    ScratchSide d (wcbEnter d md line mask data .none) n := by
  unfold wcbEnter
  split
  · have hmerged := fun l => (scratchSide_setWcb d n md l).trans (scratchSide_bump _ n (48 + md) 17 0x130 1)
    dsimp only
    split
    · exact ((hmerged _).trans (scratchSide_wcbFlush _ n _ _)).trans (scratchSide_bump _ n _ _ _ _)
    · exact hmerged _
  · split
    · exact scratchSide_setWcbHeld d n _ _
    · dsimp only
      split
      · exact (scratchSide_setWcb d n md _).trans (scratchSide_wcbFlushList n md _ _ _)
      · exact scratchSide_setWcb d n md _

theorem scratchSide_t2Write (d : Dev) (n sid off : Nat) (bs : List Nat) : ScratchSide d (t2Write d sid off bs) n := by
  unfold t2Write
  dsimp only
  split
  · exact ((readSide_cacheLines _ _ _ _ _).toTouchSide.scratch n).trans (scratchSide_stWrite _ _ _ _ _)
  · split
    · exact scratchSide_stWrite _ _ _ _ _
    · refine ScratchSide.foldl _ _ (fun d i _ => ?_) d
      split
      · exact scratchSide_stWrite _ _ _ _ _
      · split
        · exact ScratchSide.refl d n
        · split
          · exact scratchSide_setWcbHeld d n _ _
          · exact scratchSide_wcbEnter d n _ _ _ _

theorem scratchSide_kWrite (d : Dev) (n k sid off : Nat) (bs : List Nat) : ScratchSide d (kWrite d k sid off bs) n := by
  unfold kWrite
  split
  · exact scratchSide_t2Write _ _ _ _ _
  · exact scratchSide_stWrite _ _ _ _ _

/-! ### Writes through a command's view -/

/-- The command has each of the granules already, or nothing is committed where it would stand: its write needs no room. -/
def Room (d : Dev) (uid : Nat) (ks : List Nat) : Prop :=
  ∃ c, cmd d uid = some c ∧ ∀ k ∈ ks, SMap.has c.gens k = true ∨ rootOf d k = none

theorem rootOf_of_roots {d t : Dev} (h : t.mem.roots = d.mem.roots) (k : Nat) : rootOf t k = rootOf d k := by
  unfold rootOf; rw [h]

theorem EngineSide.rootOf_eq {d t : Dev} {n : Nat} (h : EngineSide d t n) (k : Nat) : rootOf t k = rootOf d k :=
  rootOf_of_roots (by rw [h.mem]) k

theorem ScratchSide.room {d t : Dev} {n uid : Nat} {ks : List Nat} (h : ScratchSide d t n) (hr : Room d uid ks) :
    Room t uid ks := by
  obtain ⟨c, hc, hk⟩ := hr
  refine ⟨c, ?_, fun k hm => ?_⟩
  · unfold cmd at hc ⊢
    rw [h.tables, hc]
  · rw [h.rootOf_eq]
    exact hk k hm

theorem engineSide_newGran (d : Dev) (n : Nat) : EngineSide d (newGran d).1 n := EngineSide.of_cores n rfl rfl rfl rfl rfl

theorem writeView_room {d : Dev} {uid n k off : Nat} {bs ks : List Nat} (sl : Bool) (hr : Room d uid ks) (hk : k ∈ ks) :
    ∃ t, writeView d uid k off bs sl = .ok t ∧ EngineSide d t n ∧ Room t uid ks := by
  obtain ⟨c, hc, hks⟩ := hr
  unfold writeView
  split
  · have hside := (scratchSide_stWrite d n k off bs).trans (scratchSide_writeMarks _ n k off bs.length sl)
    exact ⟨_, rfl, hside.toEngineSide, hside.room ⟨c, hc, hks⟩⟩
  · rw [hc]
    dsimp only
    cases hg : SMap.get? c.gens k with
    | some s =>
      have hside := (scratchSide_kWrite d n k s off bs).trans (scratchSide_writeMarks _ n s off bs.length sl)
      exact ⟨_, rfl, hside.toEngineSide, hside.room ⟨c, hc, hks⟩⟩
    | none =>
      have hfree : rootOf d k = none := by
        refine (hks k hk).resolve_left ?_
        unfold SMap.has
        rw [hg]
        decide
      rw [hfree]
      have hgen := (engineSide_newGran d n).trans
        (engineSide_setCmd _ n uid { c with gens := SMap.insert c.gens k (newGran d).2 })
      have hside := (scratchSide_kWrite (setCmd (newGran d).1 uid { c with gens := SMap.insert c.gens k (newGran d).2 })
        n k (newGran d).2 off bs).trans (scratchSide_writeMarks _ n (newGran d).2 off bs.length sl)
      refine ⟨_, rfl, hgen.trans hside.toEngineSide, hside.room ⟨_, by unfold cmd setCmd; exact SMap.get?_insert_same _ _ _, ?_⟩⟩
      intro k' hk'
      by_cases he : k' = k
      · rw [he, hgen.rootOf_eq]
        exact .inr hfree
      · rw [hgen.rootOf_eq]
        unfold SMap.has
        rw [SMap.get?_insert_other _ _ he]
        exact hks k' hk'

/-! ### Writes of a map -/

/-- Steps each of which succeeds and keeps what the next needs succeed in turn. -/
theorem foldl_ok {α : Type} {n : Nat} {P : Dev → Prop} (f : Except Nat Dev → α → Except Nat Dev) (l : List α)
    (h : ∀ d, ∀ x ∈ l, P d → ∃ t, f (.ok d) x = .ok t ∧ EngineSide d t n ∧ P t) (d : Dev) (hp : P d) :
    ∃ t, l.foldl f (.ok d) = .ok t ∧ EngineSide d t n ∧ P t := by
  induction l generalizing d with
  | nil => exact ⟨d, rfl, EngineSide.refl d n, hp⟩
  | cons x r ih =>
    obtain ⟨e, he, hside, hpe⟩ := h d x List.mem_cons_self hp
    obtain ⟨t, ht, hside', hpt⟩ := ih (fun d y hy => h d y (List.mem_cons_of_mem _ hy)) e hpe
    exact ⟨t, by rw [List.foldl_cons, he, ht], hside.trans hside', hpt⟩

theorem writeMap_room {d : Dev} {uid n off len : Nat} {ad : DevAddr} {bs ks : List Nat} (hr : Room d uid ks)
    (hk : mapKeys ad off len ⊆ ks) (hl : bs.length ≤ len) :
    ∃ t, writeMap uid ad off bs d = .ok t ∧ EngineSide d t n ∧ Room t uid ks := by
  cases ad with
  | obj tier oid o =>
    refine foldl_ok (P := fun d => Room d uid ks) _ _ (fun d i hi hp => ?_) d hr
    have hi' := List.mem_range.mp hi
    dsimp only
    split
    · exact ⟨d, rfl, EngineSide.refl d n, hp⟩
    · refine writeView_room false hp (hk ?_)
      unfold mapKeys
      dsimp only
      rw [if_neg (by omega)]
      exact List.mem_map.mpr ⟨i, List.mem_range.mpr (by omega), rfl⟩
  | _ => exact ⟨d, rfl, EngineSide.refl d n, hr⟩

theorem quillWriteAll_room {uid n : Nat} {im : Image} {it : Item} {a : ActionD} {w ks : List Nat}
    (ps : List (Nat × List Nat)) (d : Dev) (hr : Room d uid ks)
    (hk : ∀ p ∈ ps, mapKeys (quillOut a) (quillOutAt im it w p.1) (quillOutPb w) ⊆ ks)
    (hl : ∀ p ∈ ps, p.2.length ≤ quillOutPb w) :
    ∃ t, quillWriteAll uid im it a w ps d = .ok t ∧ EngineSide d t n := by
  induction ps generalizing d with
  | nil => exact ⟨d, rfl, EngineSide.refl d n⟩
  | cons p r ih =>
    obtain ⟨e, he, hside, hre⟩ := writeMap_room (n := n) hr (hk p List.mem_cons_self) (hl p List.mem_cons_self)
    obtain ⟨t, ht, hside'⟩ := ih e hre (fun q hq => hk q (List.mem_cons_of_mem _ hq)) fun q hq => hl q (List.mem_cons_of_mem _ hq)
    refine ⟨t, ?_, hside.trans hside'⟩
    unfold quillWriteAll
    rw [he]
    exact ht

/-! ### The microprogram -/

theorem length_quillPixel (d : Dev) (n uid : Nat) (im : Image) (it : Item) (a : ActionD) (w : List Nat) (p : Nat) :
    (quillPixel d n uid im it a w p).length ≤ quillOutPb w := by
  unfold quillPixel
  extract_lets wB f taps px sum r
  have hr : r.1.length = vCout w := by
    rw [(length_cvtPixel _ _ _ _ _ _).1, List.length_map, List.length_range]
  refine Nat.le_trans (length_flatten_le (fun c => Nat.le_of_eq (length_leBytes _ c)) _) ?_
  rw [hr]
  exact Nat.mul_div_le_mul_div_assoc _ _ _

theorem mem_quillWrites {im : Image} {it : Item} {a : ActionD} {w : List Nat} {p : Nat} (hp : p ∈ quillPixels it a w) :
    mapKeys (quillOut a) (quillOutAt im it w p) (quillOutPb w) ⊆ quillWrites im it a w := by
  intro k hk
  unfold quillWrites
  rw [List.mem_dedup]
  exact List.mem_flatten.mpr ⟨_, List.mem_map.mpr ⟨p, hp, rfl⟩, hk⟩

theorem quillRun_ends {d : Dev} {n j : Nat} {x : Ctx} {it : Item} {c : Cmd} (hc : cmd d x.uid = some c)
    (h : QuillReady d n j x it c (actOf x.image it) (cvb d n x.image it (actOf x.image it))) :
    ∃ d1 k, quillRun d n j x it .none = (d1, .done k) ∧ EngineSide d d1 n := by
  obtain ⟨hhome, hwords, hblock, hok, hin, hout, hweights, hreads, hroom⟩ := h
  unfold quillRun
  extract_lets im a die base k0
  have hw1 : opWordOk (aw a 1) = true := hwords 1 (by decide)
  have hw6 : opWordOk (aw a 6) = true := hwords 6 (by decide)
  rw [if_neg (by rw [hw1, hw6]; simpa [die] using hhome), engineReads_readable hblock]
  dsimp -zeta only
  extract_lets w pix outB keys
  rw [hc]
  dsimp -zeta only
  rw [hok, hin, hout, if_neg (by decide), engineReads_readable hweights]
  dsimp -zeta only
  rw [List.find?_eq_none.mpr ?unsealed]
  case unsealed =>
    intro k hk
    show ¬ viewSealed d x.uid k = true
    rw [(hreads k hk).1]
    decide
  dsimp -zeta only
  have hside := touchSide_touchReads d keys
  rw [gather_legible (d := touchReads d keys) _ fun q hq => by
    obtain ⟨k, hk, rfl⟩ := List.mem_map.mp hq
    rw [hside.viewPoison_eq]
    exact (hreads k hk).2]
  dsimp -zeta only
  have hroom' : Room (touchReads d keys) x.uid (quillWrites im it a w) := (hside.scratch n).room ⟨c, hc, hroom⟩
  obtain ⟨t, ht, hwrote⟩ := quillWriteAll_room (n := n)
    (pix.map (fun p => (p, quillPixel (touchReads d keys) n x.uid im it a w p))) (touchReads d keys) hroom'
    (fun q hq => by obtain ⟨p, hp, rfl⟩ := List.mem_map.mp hq; exact mem_quillWrites hp)
    (fun q hq => by obtain ⟨p, -, rfl⟩ := List.mem_map.mp hq; exact length_quillPixel _ _ _ _ _ _ _ _)
  rw [if_neg (by decide), if_neg (by decide), ht]
  obtain ⟨g, hg⟩ := bump64_regs_only t die 18 0x130 pix.length
  have hcount : ScratchSide t (bump64 t die 18 0x130 pix.length) n := by
    rw [hg]
    exact ScratchSide.of_cores n rfl rfl rfl rfl rfl
  exact ⟨_, _, rfl, (hside.scratch n).toEngineSide.trans (hwrote.trans (hcount.trans (scratchSide_bump _ _ _ _ _ _)).toEngineSide)⟩

end Sys2Proof.Machine

/-! The nine microprograms run to their end (02 R51, R54; 05 R142-R154; 06 R181-R183; 07 R209-R226). -/

namespace Sys2Proof.Machine
open Sys2Proof

/-- A run that writes inside its ranges leaves its issue what it needs. -/
theorem Wrote.ends {d : Dev} {n j : Nat} {x : Ctx} {ws : List (Int × Nat)} {r : Dev × MicroEnd} (hx : ctxOf d n j = some x)
    (h : ∃ d1 k, r = (d1, .done k) ∧ Wrote d d1 n ws) :
    ∃ d1 k, r = (d1, .done k) ∧ RunLeaves d d1 n j x ∧ GransKept d d1 (rangesGrans n ws) := by
  obtain ⟨d1, k, hr, hw⟩ := h
  exact ⟨d1, k, hr, hw.leaves hx, hw.kept⟩

/-- A microprogram whose run ends keeps the granules that the run keeps. -/
theorem completes_micro_kept {s : State} {i : Instr} {n j id : Nat} {kind : EngKind} {x : Ctx} {it : Item}
    {gr : Dev → Ctx → Item → List Nat × List Nat} {f : Dev → Ctx → Item → Dev × MicroEnd} {gs : List Nat} (hlive : live s)
    (he : exec i s = okDev s (microIssue s.dev n j id kind gr f)) (hm : MayRunMicro s.dev n j id x it (gr s.dev x it))
    (hrun : ∃ d1 k, f s.dev x it = (d1, .done k) ∧ RunLeaves s.dev d1 n j x ∧ GransKept s.dev d1 gs) :
    Completes i s (fun t => Ran s.dev t n j x it ∧ GransKept s.dev t gs) :=
  completes_micro (P := fun m => ∀ y, y / 4096 ∉ gs → memByte m.bytes y = memByte s.dev.mem.bytes y) hlive he hm hrun

/-- Settles O60: each microprogram's run, its checks passed and its reads not upset, ends with its writes inside its ranges, and
its issue then puts it on its engine. -/
theorem microprogramsComplete : Obligations.MicroprogramsComplete := by
  unfold Obligations.MicroprogramsComplete
  intro s core j x it c hlive hc
  dsimp only
  refine ⟨fun hm h => ?_, fun hm h => ?_, fun hm hok hown hread => ?_, fun hm h => ?_, fun hm h => ?_, fun hm h => ?_,
    fun hm h => ?_, fun hm h => ?_, fun hm h => ?_⟩
  · exact completes_micro_kept hlive rfl hm (Wrote.ends hm.ctx (attentionRun_ends hm.ctx hc rfl h))
  · exact completes_micro_kept hlive rfl hm (Wrote.ends hm.ctx (attentionRun_ends hm.ctx hc rfl h))
  · exact completes_micro_kept hlive rfl hm (Wrote.ends hm.ctx (mergeRun_ends hm.ctx hok hown hread))
  · obtain ⟨d1, k, hr, hside, hwrote⟩ := cometRun_ends hm.ctx hc rfl rfl h
    exact completes_micro (P := fun m => m.objs = s.dev.mem.objs ∧ (ccUpdate _ = false → ∀ y, y / 4096 ∉ rangesGrans _ _ →
      memByte m.bytes y = memByte s.dev.mem.bytes y)) hlive rfl hm
      ⟨d1, k, hr, hside.leaves hm.ctx, by rw [hside.mem], fun hup => (hwrote hup).kept⟩
  · exact completes_micro_kept hlive rfl hm (Wrote.ends hm.ctx (sliceRun_ends hm.ctx h))
  · exact completes_micro_kept hlive rfl hm (Wrote.ends hm.ctx (recombRun_ends hm.ctx h))
  · exact completes_micro_kept hlive rfl hm (convRun_ends hm.ctx h)
  · exact completes_micro_kept hlive rfl hm (Wrote.ends hm.ctx (poolRun_ends hm.ctx h))
  · obtain ⟨d1, k, hr, hside⟩ := quillRun_ends hc h
    exact completes_micro (P := fun m => m.objs = s.dev.mem.objs ∧ m.roots = s.dev.mem.roots) hlive rfl hm
      ⟨d1, k, hr, hside.leaves hm.ctx, by rw [hside.mem], by rw [hside.mem]⟩

end Sys2Proof.Machine

/-! SUPPORT. Whole granules written to a scratchpad: what a read finds afterwards (04 R104; 08 R234, R262). -/

namespace Sys2Proof.Machine
open Sys2Proof

/-! ### Frames of a store -/

/-- Only memory's bytes and marks and the external memories' engines may differ, and no write waits to be combined that did not
wait before. -/
structure StoreSide (d t : Dev) : Prop where
  rest : t = { d with mem := { d.mem with bytes := t.mem.bytes, sealMk := t.mem.sealMk, poison := t.mem.poison }, ext := t.ext }
  sorted : SMap.sorted t.ext.wcb = true
  wcb : ∀ md, wcbOf t md ⊆ wcbOf d md

theorem StoreSide.refl {d : Dev} (h : SMap.sorted d.ext.wcb = true) : StoreSide d d := ⟨rfl, h, fun _ => List.Subset.refl _⟩

theorem StoreSide.trans {a b c : Dev} (h : StoreSide a b) (k : StoreSide b c) : StoreSide a c :=
  ⟨by rw [k.rest, h.rest], k.sorted, fun md => List.Subset.trans (k.wcb md) (h.wcb md)⟩

theorem storeSide_writeMarks {d : Dev} (sid off n : Nat) (b : Bool) (h : SMap.sorted d.ext.wcb = true) :
    StoreSide d (writeMarks d sid off n b) := by
  obtain ⟨s, p, he⟩ := writeMarks_bytes_only d sid off n b
  rw [he]
  exact ⟨rfl, h, fun _ => List.Subset.refl _⟩

/-- The granule's lines whose bytes a write covers leave the write combining buffer; the other lines stay. -/
theorem mem_wcbOf_wcbDrop {d : Dev} {sid off n md : Nat} {e : WcbEnt} (h : SMap.sorted d.ext.wcb = true)
    (he : e ∈ wcbOf (wcbDrop d sid off n) md) : e ∈ wcbOf d md ∧
      (md = granDie sid → ¬ (e.line / 32 = sid ∧ off ≤ e.line % 32 * 128 ∧ e.line % 32 * 128 + 128 ≤ off + n)) := by
  unfold wcbDrop at he
  dsimp only at he
  split at he
  · rename_i hall
    refine ⟨he, fun hmd => ?_⟩
    subst hmd
    have hkeep := List.all_eq_true.mp hall e he
    simp only [Bool.not_eq_true', Bool.and_eq_false_iff, beq_eq_false_iff_ne, decide_eq_false_iff_not] at hkeep
    tauto
  · unfold wcbOf at he ⊢
    dsimp only at he
    by_cases hmd : md = granDie sid
    · subst hmd
      rw [SMap.getD_put_same _ _ _ h, List.mem_filter] at he
      simp only [Bool.not_eq_true', Bool.and_eq_false_iff, beq_eq_false_iff_ne, decide_eq_false_iff_not] at he
      tauto
    · rw [SMap.getD_put_other _ _ _ h hmd] at he
      exact ⟨he, fun h => absurd h hmd⟩

theorem storeSide_stWrite {d : Dev} (sid off : Nat) (bs : List Nat) (h : SMap.sorted d.ext.wcb = true) :
    StoreSide d (stWrite d sid off bs) where
  rest := by
    unfold stWrite wcbDrop
    dsimp only
    split <;> rfl
  sorted := by
    unfold stWrite wcbDrop setBytes
    dsimp only
    split
    · exact h
    · exact SMap.sorted_put _ _ _ h
  wcb := fun _ _ he => (mem_wcbOf_wcbDrop (off := off) (n := bs.length) h he).1

theorem bytes_stWrite (d : Dev) (sid off : Nat) (bs : List Nat) :
    (stWrite d sid off bs).mem.bytes = memWrite d.mem.bytes (sid * 4096 + off) bs := by
  unfold stWrite setBytes
  dsimp only
  rw [wf_wcbDrop]

/-! ### Reads -/

/-- No write of the granule waits to be combined. -/
def Uncombined (d : Dev) (sid : Nat) : Prop := ∀ e ∈ wcbOf d (granDie sid), e.line / 32 ≠ sid

theorem StoreSide.uncombined {d t : Dev} {sid : Nat} (h : StoreSide d t) (hu : Uncombined d sid) : Uncombined t sid :=
  fun e he => hu e (h.wcb _ he)

theorem uncombined_stWrite_whole {d : Dev} (sid : Nat) {bs : List Nat} (h : SMap.sorted d.ext.wcb = true)
    (hl : bs.length = 4096) : Uncombined (stWrite d sid 0 bs) sid := by
  intro e he hline
  refine (mem_wcbOf_wcbDrop (off := 0) (n := bs.length) h he).2 rfl ⟨hline, Nat.zero_le _, ?_⟩
  omega

/-- A granule with no write to be combined reads as memory holds it. -/
theorem stByte_uncombined {d : Dev} {sid off : Nat} (h : Uncombined d sid) (ho : off < 4096) :
    stByte d sid off = memByte d.mem.bytes (sid * 4096 + off) := by
  have hnone : wcbFind d (granDie sid) (lineOf sid off) = none := by
    unfold wcbFind
    rw [List.find?_eq_none]
    intro e he heq
    have hline : e.line = lineOf sid off := by simpa using heq
    refine h e he ?_
    unfold lineOf at hline
    omega
  unfold stByte
  rw [hnone]

theorem memByte_lt (m : List Host.Cell) (a : Nat) : memByte m a < 256 := by
  unfold memByte
  split
  · exact BitVec.isLt _
  · decide

theorem stByte_lt (d : Dev) (sid off : Nat) : stByte d sid off < 256 := by
  unfold stByte
  split
  · split
    · exact Nat.mod_lt _ (by decide)
    · exact memByte_lt _ _
  · exact memByte_lt _ _

/-- What a store reads depends on memory's bytes and on the write combining buffer alone. -/
theorem stByte_congr {d t : Dev} (hm : t.mem.bytes = d.mem.bytes) (he : t.ext = d.ext) (sid off : Nat) :
    stByte t sid off = stByte d sid off := by
  unfold stByte wcbFind
  rw [hm, he]

/-! ### Whole granules -/

/-- Whole granules written to scratchpads are there afterwards, and no other granule is. -/
theorem scatter_scratch {uid : Nat} (ps : List (Nat × List Nat × Bool)) (d : Dev) (hs : SMap.sorted d.ext.wcb = true)
    (hp : ∀ p ∈ ps, gIsT0 p.1 = true ∧ p.2.1.length = 4096) (hn : (ps.map (·.1)).Nodup) :
    ∃ t, scatter uid ps d = .ok t ∧ StoreSide d t ∧ GransKept d t (ps.map (·.1)) ∧
      ∀ p ∈ ps, ∀ (i : Nat) (hi : i < p.2.1.length), stByte t p.1 i = p.2.1[i] % 256 := by
  induction ps generalizing d with
  | nil => exact ⟨d, rfl, StoreSide.refl hs, GransKept.refl d _, by simp⟩
  | cons p r ih =>
    obtain ⟨k, bs, sl⟩ := p
    obtain ⟨hk, hl⟩ : gIsT0 k = true ∧ bs.length = 4096 := hp _ List.mem_cons_self
    rw [List.map_cons, List.nodup_cons] at hn
    obtain ⟨hnk, hnr⟩ := hn
    have hst := storeSide_stWrite k 0 bs hs
    have hmk := storeSide_writeMarks k 0 bs.length sl hst.sorted
    have hside := hst.trans hmk
    obtain ⟨t, ht, hrest, hkept, hread⟩ := ih _ hside.sorted (fun q hq => hp q (List.mem_cons_of_mem _ hq)) hnr
    have hbytes := bytes_writeMarks (stWrite d k 0 bs) k 0 bs.length sl
    have hhead : GransKept d (writeMarks (stWrite d k 0 bs) k 0 bs.length sl) (k :: r.map (·.1)) :=
      (gransKept_stWrite d List.mem_cons_self (by omega)).trans (GransKept.of_bytes hbytes _)
    refine ⟨t, ?_, hside.trans hrest, ?_, ?_⟩
    · unfold scatter writeView
      rw [if_pos hk]
      exact ht
    · rw [List.map_cons]
      exact hhead.trans fun x hx => hkept x (List.not_mem_of_not_mem_cons hx)
    · rw [List.forall_mem_cons]
      refine ⟨fun i hi => ?_, hread⟩
      have hi' : i < 4096 := hl ▸ hi
      have hun := hmk.uncombined (uncombined_stWrite_whole k hs hl)
      have hout : (k * 4096 + i) / 4096 ∉ r.map (·.1) := by
        rwa [show (k * 4096 + i) / 4096 = k by omega]
      rw [stByte_uncombined (hrest.uncombined hun) hi', hkept _ hout, hbytes, bytes_stWrite, Nat.add_zero]
      exact memByte_memWrite_in _ hi

end Sys2Proof.Machine

/-! SUPPORT. A best-effort copy between scratchpads: the granules that it reads, what its extents let pass, and what it leaves
(02 R56; 04 R105). -/

namespace Sys2Proof.Machine
open Sys2Proof

/-! ### What the extents let pass -/

/-- Of the bits of a byte some pass, whatever the byte is. -/
theorem sum_bits_zero {P : Nat → Prop} [DecidablePred P]
    (h : ((List.range 8).map (fun i => if (255).testBit i = true ∧ P i then 2 ^ i else 0)).foldl (· + ·) 0 = 0) (b : Nat) :
    ((List.range 8).map (fun i => if b.testBit i = true ∧ P i then 2 ^ i else 0)).foldl (· + ·) 0 = 0 := by
  have hbits : ∀ i < 8, (255).testBit i = true := by decide
  have hnone : ∀ i < 8, ¬ P i := by
    intro i hi hp
    rw [← List.sum_eq_foldl, List.sum_eq_zero_iff_forall_eq_nat] at h
    have hzero := h _ (List.mem_map.mpr ⟨i, List.mem_range.mpr hi, rfl⟩)
    rw [if_pos ⟨hbits i hi, hp⟩] at hzero
    exact absurd hzero (by positivity)
  rw [← List.sum_eq_foldl, List.sum_eq_zero_iff_forall_eq_nat]
  intro v hv
  obtain ⟨i, hi, rfl⟩ := List.mem_map.mp hv
  exact if_neg fun hpos => hnone i (List.mem_range.mp hi) hpos.2

theorem sum_bits_lt (P : Nat → Prop) [DecidablePred P] :
    ((List.range 8).map (fun i => if P i then 2 ^ i else 0)).foldl (· + ·) 0 < 256 := by
  have hle : ∀ i, (if P i then 2 ^ i else 0) ≤ 2 ^ i := fun i => by split <;> simp
  have h := List.sum_le_sum (l := List.range 8) fun i _ => hle i
  rw [← List.sum_eq_foldl]
  exact Nat.lt_of_le_of_lt h (by decide)

/-- Where a byte of ones leaves nothing, no byte leaves anything. -/
theorem copyByte_zero {im : Image} {it : Item} {a : ActionD} {t q : Nat} (h : copyByte im it a t q 255 = 0) (b : Nat) :
    copyByte im it a t q b = 0 := by
  unfold copyByte at h ⊢
  dsimp only at h ⊢
  split
  · rename_i hq
    rw [if_pos hq] at h
    simp only [Bool.and_eq_true] at h ⊢
    exact sum_bits_zero h b
  · rename_i hq
    rw [if_neg hq] at h
    split
    · rename_i hs
      rw [if_pos hs] at h
      split at h <;> rename_i hslot <;> simp only [hslot, if_true, if_false] <;> split at h <;> simp_all
    · rename_i hs
      rw [if_neg hs] at h
      exact absurd h (by decide)

theorem copyByte_lt (im : Image) (it : Item) (a : ActionD) (t q : Nat) {b : Nat} (h : b < 256) : copyByte im it a t q b < 256 := by
  unfold copyByte
  dsimp only
  split
  · simpa only using sum_bits_lt _
  · split
    · split <;> split <;> omega
    · exact h

theorem length_copyFill (im : Image) (it : Item) (a : ActionD) (g off : Nat) (bs : List Nat) :
    (copyFill im it a g off bs).length = bs.length := by
  unfold copyFill
  split
  · rfl
  · simp

theorem copyFill_lt (im : Image) (it : Item) (a : ActionD) (g off : Nat) {bs : List Nat} (h : ∀ b ∈ bs, b < 256) :
    ∀ b ∈ copyFill im it a g off bs, b < 256 := by
  unfold copyFill
  split
  · exact h
  · intro b hb
    obtain ⟨⟨v, i⟩, hp, rfl⟩ := List.mem_map.mp hb
    exact copyByte_lt _ _ _ _ _ (h v (List.fst_mem_of_mem_zipIdx hp))

/-- A granule that the copy does not read lies past the extents: nothing of it passes. -/
theorem copyFill_unread {im : Image} {it : Item} {a : ActionD} {g : Nat} {bs : List Nat} (h : copyReads im it a g = false)
    (hl : bs.length = 4096) : copyFill im it a g 0 bs = List.replicate 4096 0 := by
  unfold copyReads at h
  simp only [Bool.or_eq_false_iff, Bool.not_eq_false'] at h
  obtain ⟨hcuts, hones⟩ := h
  rw [List.eq_replicate_iff, length_copyFill]
  refine ⟨hl, fun v hv => ?_⟩
  have hones' : ∀ v ∈ copyFill im it a g 0 (List.replicate 4096 255), v = 0 := by
    intro v hv
    simpa using List.any_eq_false.mp hones v hv
  unfold copyFill at hv hones'
  rw [if_neg (by rw [hcuts]; decide)] at hv hones'
  obtain ⟨⟨b, i⟩, hp, rfl⟩ := List.mem_map.mp hv
  obtain ⟨hi, -⟩ := List.mem_zipIdx' hp
  refine copyByte_zero (hones' _ (List.mem_map.mpr ⟨(255, i), ?_, rfl⟩)) b
  rw [List.mem_zipIdx_iff_getElem?, List.getElem?_replicate, if_pos (by omega)]

/-! ### Granules of a scratchpad -/

theorem gT0_inj {c a b : Nat} (h : gT0 c a = gT0 c b) : a = b := by unfold gT0 at h; omega

theorem rangeKeys_scratch {c o n : Nat} (h : o / 4096 + n ≤ scratchGrans) :
    rangeKeys (.t0 c o) n = (List.range n).map (fun i => gT0 c (o / 4096 + i)) := by
  unfold rangeKeys
  dsimp only
  rw [Nat.min_eq_left (by omega)]

theorem nodup_rangeKeys_scratch (c o n : Nat) : (rangeKeys (.t0 c o) n).Nodup := by
  unfold rangeKeys
  exact List.nodup_range.map fun i k h => Nat.add_left_cancel (gT0_inj h)

theorem gIsT0_gT0 {c g : Nat} (hc : c < 288) (hg : g < scratchGrans) : gIsT0 (gT0 c g) = true := by
  unfold gIsT0 gT0
  have hn : scratchGrans = 12288 := rfl
  rw [hn] at hg
  rw [hn, decide_eq_true_eq]
  omega

/-- A granule's bytes of a scratchpad. -/
theorem readT0_granule (d : Dev) (c g : Nat) {o : Nat} (h : o % 4096 = 0) :
    readT0 d c (o + 4096 * g) 4096 = stRead d (gT0 c (o / 4096 + g)) 0 4096 := by
  unfold readT0 stRead
  refine List.map_congr_left fun i hi => ?_
  have hi' := List.mem_range.mp hi
  rw [show (o + 4096 * g + i) / 4096 = o / 4096 + g by omega, show (o + 4096 * g + i) % 4096 = 0 + i by omega]

theorem length_stRead (d : Dev) (sid off n : Nat) : (stRead d sid off n).length = n := by
  unfold stRead
  rw [List.length_map, List.length_range]

theorem stRead_eq_of_bytes {d : Dev} {sid n : Nat} {bs : List Nat} (hl : bs.length = n)
    (h : ∀ (i : Nat) (hi : i < bs.length), stByte d sid i = bs[i]) : stRead d sid 0 n = bs := by
  subst hl
  refine List.ext_getElem (length_stRead _ _ _ _) fun i _ hi => ?_
  simp only [stRead, List.getElem_map, List.getElem_range, Nat.zero_add, h i hi]

theorem touchReads_scratch (d : Dev) {keys : List Nat} (h : ∀ k ∈ keys, gIsT0 k = true) : touchReads d keys = d := by
  have hflash : keys.filter (fun k => !gIsT0 k && gKind k == 4) = [] := by
    rw [List.filter_eq_nil_iff]
    intro k hk
    simp [h k hk]
  have hmem : keys.filter inT2 = [] := by
    rw [List.filter_eq_nil_iff]
    intro k hk
    unfold inT2
    simp [h k hk]
  unfold touchReads
  rw [hflash, hmem]
  rfl

/-- A command whose table holds no granule of scratchpads sees the scratchpads. -/
theorem viewSid_scratch {d : Dev} {uid k : Nat} {c : Cmd} (hc : cmd d uid = some c) (hg : SMap.get? c.gens k = none)
    (hk : gIsT0 k = true) : viewSid d uid k = some k := by
  unfold viewSid
  rw [hc]
  dsimp only
  rw [hg]
  dsimp only
  unfold rootOf
  rw [if_pos hk]

/-! ### Data that some of the granules give -/

theorem get?_zip_map {α : Type} (G : Nat → α) {l : List Nat} (h : l.Pairwise (· < ·)) (i : Nat) :
    SMap.get? (l.zip (l.map G)) i = if i ∈ l then some (G i) else none := by
  induction l with
  | nil => rfl
  | cons k r ih =>
    rw [List.pairwise_cons] at h
    obtain ⟨hk, hr⟩ := h
    rw [List.map_cons, List.zip_cons_cons, SMap.get?]
    by_cases hlt : i < k
    · have hout : i ∉ r := fun hm => absurd (hk i hm) (by omega)
      rw [if_pos hlt, if_neg (by rw [List.mem_cons]; rintro (h | h); omega; exact hout h)]
    · rw [if_neg hlt, ih hr]
      by_cases he : i = k
      · subst he; simp
      · simp [he]

/-- Each granule of the destination takes what its source granule gives, where that is read, and zeros else. -/
theorem spread_filter (n : Nat) (p : Nat → Bool) (G : Nat → List Nat × Bool) (fix : Nat → List Nat → List Nat) :
    spread n ((List.range n).filter p) (((List.range n).filter p).map G) fix =
      (List.range n).map (fun i => if p i then (fix i (G i).1, (G i).2) else (List.replicate 4096 0, false)) := by
  unfold spread
  generalize List.replicate 4096 0 = zs
  dsimp only
  split
  · rename_i hlen
    have hall : ∀ i ∈ List.range n, p i = true :=
      List.length_filter_eq_length_iff.mp (hlen.trans List.length_range.symm)
    rw [List.filter_eq_self.mpr hall]
    refine List.ext_getElem (by simp) fun i h _ => ?_
    have hi : i < n := by simpa using h
    simp [hall i (List.mem_range.mpr hi)]
  · refine List.map_congr_left fun i hi => ?_
    rw [get?_zip_map G (List.Pairwise.filter _ List.pairwise_lt_range)]
    by_cases hp : p i = true
    · rw [if_pos (List.mem_filter.mpr ⟨hi, hp⟩), if_pos hp]
    · rw [if_neg (fun hm => hp (List.mem_filter.mp hm).2), if_neg hp]

end Sys2Proof.Machine

/-! SUPPORT. The issue of a copy between scratchpads, best-effort and scheduled (02 R56; 04 R105, R110; 08 R236). -/

namespace Sys2Proof.Machine
open Sys2Proof

/-! ### Whole granules from scratchpad to scratchpad -/

/-- Only what a copy writes may differ: memory's bytes and marks, the external memories' engines and the commands' records. -/
structure CopySide (d t : Dev) : Prop where
  rest : t = { d with mem := { d.mem with bytes := t.mem.bytes, sealMk := t.mem.sealMk, poison := t.mem.poison }, ext := t.ext,
                      qm := { d.qm with cmds := t.qm.cmds } }

theorem StoreSide.copySide {d t : Dev} (h : StoreSide d t) : CopySide d t := ⟨by rw [h.rest]⟩
theorem CopySide.trans {a b c : Dev} (h : CopySide a b) (k : CopySide b c) : CopySide a c := ⟨by rw [k.rest, h.rest]⟩

/-- Granules of scratchpads that a command may move: `p` says which of the source it reads, `fix` what it makes of one. -/
structure ScratchMove (d : Dev) (uid sa so da dO n : Nat) (p : Nat → Bool) (fix : Nat → List Nat → List Nat) : Prop where
  view : ∃ c, cmd d uid = some c ∧ ∀ k, gIsT0 k = true → SMap.get? c.gens k = none
  sorted : SMap.sorted d.ext.wcb = true
  source : sa < 288 ∧ so % 4096 = 0 ∧ ∀ i < n, p i = true → so / 4096 + i < scratchGrans
  target : da < 288 ∧ dO % 4096 = 0 ∧ dO / 4096 + n ≤ scratchGrans
  clean : ∀ i < n, p i = true → poisoned d (gT0 sa (so / 4096 + i)) = false
  length : ∀ i bs, (fix i bs).length = bs.length
  bytes : ∀ i bs, (∀ b ∈ bs, b < 256) → ∀ b ∈ fix i bs, b < 256
  unread : ∀ i < n, p i = false → ∀ bs, bs.length = 4096 → fix i bs = List.replicate 4096 0

/-- The pairs of an address and a granule that a move reads. -/
theorem moveReads_scratch {d : Dev} {uid sa so da dO n : Nat} {p : Nat → Bool} {fix : Nat → List Nat → List Nat}
    (h : ScratchMove d uid sa so da dO n p fix) :
    (if ((List.range n).filter p).length = n then (granAddrs (.t0 sa so) n).zip (rangeKeys (.t0 sa so) n)
      else ((List.range n).filter p).filterMap (fun i => ((granAddrs (.t0 sa so) n).zip (rangeKeys (.t0 sa so) n))[i]?)) =
      ((List.range n).filter p).map (fun i => (encodeAddr (addrAdd (.t0 sa so) (4096 * (i : Nat))), gT0 sa (so / 4096 + i))) := by
  obtain ⟨-, -, hin⟩ := h.source
  unfold granAddrs
  split
  · rename_i hlen
    have hall : ∀ i ∈ List.range n, p i = true :=
      List.length_filter_eq_length_iff.mp (hlen.trans List.length_range.symm)
    rw [List.filter_eq_self.mpr hall]
    obtain rfl | hn := Nat.eq_zero_or_pos n
    · rfl
    · have hlast := hin (n - 1) (by omega) (hall _ (List.mem_range.mpr (by omega)))
      rw [rangeKeys_scratch (by omega), List.zip_map']
  · rw [List.filterMap_eq_map_iff_forall_eq_some]
    intro i hi
    obtain ⟨hi, hp⟩ := List.mem_filter.mp hi
    have hi' := List.mem_range.mp hi
    have hg := hin i hi' hp
    unfold rangeKeys
    rw [List.getElem?_zip_eq_some, List.getElem?_map, List.getElem?_map, List.getElem?_range hi',
      List.getElem?_range (by omega)]
    exact ⟨rfl, rfl⟩

/-- Granules of scratchpads are not programmed into flash. -/
theorem startPrograms_scratch (d : Dev) {keys : List Nat} (uid : Nat) (h : ∀ k ∈ keys, gIsT0 k = true) :
    ∃ l, startPrograms d uid keys = { d with qm := { d.qm with cmds := l } } := by
  have hflash : keys.filter (fun k => !gIsT0 k && gKind k == 4) = [] := by
    rw [List.filter_eq_nil_iff]
    intro k hk
    simp [h k hk]
  unfold startPrograms
  rw [hflash]
  dsimp only [List.dedup_nil, List.map_nil, List.foldl_nil]
  split
  · exact ⟨_, rfl⟩
  · exact ⟨d.qm.cmds, rfl⟩

theorem moveGrans_scratch {d : Dev} {uid sa so da dO n : Nat} {p : Nat → Bool} {fix : Nat → List Nat → List Nat}
    (h : ScratchMove d uid sa so da dO n p fix) (act j : Nat) :
    ∃ t, moveGrans d uid act j (.t0 sa so) (.t0 da dO) n ((List.range n).filter p) fix .none = (t, true) ∧ CopySide d t ∧
      GransKept d t (rangeKeys (.t0 da dO) n) ∧
      ∀ g < n, readT0 t da (dO + 4096 * g) 4096 = fix g (readT0 d sa (so + 4096 * g) 4096) := by
  obtain ⟨c, hc, hgens⟩ := h.view
  obtain ⟨hsa, hso, hin⟩ := h.source
  obtain ⟨hda, hdo, hout⟩ := h.target
  have hkey : ∀ i < n, p i = true → gIsT0 (gT0 sa (so / 4096 + i)) = true := fun i hi hp => gIsT0_gT0 hsa (hin i hi hp)
  have hview : ∀ i < n, p i = true → viewSid d uid (gT0 sa (so / 4096 + i)) = some (gT0 sa (so / 4096 + i)) :=
    fun i hi hp => viewSid_scratch hc (hgens _ (hkey i hi hp)) (hkey i hi hp)
  have hdst : ∀ k ∈ rangeKeys (.t0 da dO) n, gIsT0 k = true := by
    rw [rangeKeys_scratch hout]
    intro k hk
    obtain ⟨i, hi, rfl⟩ := List.mem_map.mp hk
    exact gIsT0_gT0 hda (by have := List.mem_range.mp hi; omega)
  unfold moveGrans
  dsimp only
  rw [moveReads_scratch h, touchReads_scratch d (fun k hk => by
    simp only [List.map_map, List.mem_map, Function.comp_apply] at hk
    obtain ⟨i, hi, rfl⟩ := hk
    obtain ⟨hi, hp⟩ := List.mem_filter.mp hi
    exact hkey i (List.mem_range.mp hi) hp)]
  rw [gather_legible _ (fun q hq => by
    obtain ⟨i, hi, rfl⟩ := List.mem_map.mp hq
    obtain ⟨hi, hp⟩ := List.mem_filter.mp hi
    unfold viewPoison
    rw [hview i (List.mem_range.mp hi) hp]
    exact h.clean i (List.mem_range.mp hi) hp)]
  dsimp only
  rw [List.map_map, spread_filter n p _ fix]
  generalize hdata : (fun i => if p i = true then _ else _) = data
  have hlen : ∀ i < n, (data i).1 = fix i (readT0 d sa (so + 4096 * i) 4096) := by
    intro i hi
    rw [← hdata, readT0_granule d sa i hso]
    by_cases hp : p i = true
    · unfold granRead
      simp only [Function.comp_apply, hp, if_true, hview i hi hp]
    · rw [Bool.not_eq_true] at hp
      simp only [hp, Bool.false_eq_true, if_false]
      exact (h.unread i hi hp _ (length_stRead _ _ _ _)).symm
  clear hdata
  have hsmall : ∀ i < n, ∀ b ∈ (data i).1, b < 256 := by
    intro i hi
    rw [hlen i hi]
    refine h.bytes i _ fun b hb => ?_
    obtain ⟨o, -, rfl⟩ := List.mem_map.mp hb
    exact stByte_lt _ _ _
  obtain ⟨t, ht, hside, hkept, hread⟩ := scatter_scratch (uid := uid)
    ((rangeKeys (.t0 da dO) n).zip ((List.range n).map data)) d h.sorted (fun q hq => by
      refine ⟨hdst _ (List.of_mem_zip hq).1, ?_⟩
      obtain ⟨i, hi, hq⟩ := List.mem_map.mp (List.of_mem_zip hq).2
      rw [← hq, hlen i (List.mem_range.mp hi), h.length, readT0_granule d sa i hso, length_stRead])
    (by rw [List.map_fst_zip (by rw [rangeKeys_scratch hout]; simp)]; exact nodup_rangeKeys_scratch _ _ _)
  rw [List.map_fst_zip (by rw [rangeKeys_scratch hout]; simp)] at hkept
  obtain ⟨l, hprog⟩ := startPrograms_scratch t uid hdst
  have hnone : (rangeKeys (.t0 da dO) n).any (fun k => gKind k == 4 && !gIsT0 k) = false :=
    List.any_eq_false.mpr fun k hk => by rw [hdst k hk]; simp
  rw [hnone, Bool.false_and, if_neg (by decide), ht]
  dsimp only
  rw [hprog]
  refine ⟨_, rfl, hside.copySide.trans ⟨rfl⟩, hkept, fun g hg => ?_⟩
  rw [readT0_granule _ da g hdo, ← hlen g hg]
  have hmem : (gT0 da (dO / 4096 + g), data g) ∈ (rangeKeys (.t0 da dO) n).zip ((List.range n).map data) := by
    rw [rangeKeys_scratch hout, List.zip_map']
    exact List.mem_map.mpr ⟨g, List.mem_range.mpr hg, rfl⟩
  have hsize : (data g).1.length = 4096 := by rw [hlen g hg, h.length, readT0_granule d sa g hso, length_stRead]
  refine stRead_eq_of_bytes hsize fun i hi => ?_
  refine ((stByte_congr (d := t) rfl rfl _ _).trans (hread _ hmem i hi)).trans ?_
  exact Nat.mod_eq_of_lt (hsmall g hg _ (List.getElem_mem hi))

end Sys2Proof.Machine

/-! SUPPORT. The issue of a copy between scratchpads (02 R56; 04 R105, R110). -/

namespace Sys2Proof.Machine
open Sys2Proof

/-- The action is on an engine of the given kind, and its context has moved on. -/
def OnEngine (d t : Dev) (n j : Nat) (x : Ctx) (it : Item) (k : EngKind) (started : Bool) : Prop :=
  ∃ x' r, ctxOf t n j = some x' ∧ Advanced d.now x x' ∧ r ∈ x'.running ∧ r.kind = k ∧ r.id = actId x n it ∧ r.started = started

/-! ### What the copy may move -/

theorem le_foldl_reach (l : List Nat) (b : Nat) :
    b ≤ l.foldl (fun m g => max m (g + 1)) b ∧ ∀ g ∈ l, g < l.foldl (fun m g => max m (g + 1)) b := by
  induction l generalizing b with
  | nil => simp
  | cons k r ih =>
    obtain ⟨hb, hr⟩ := ih (max b (k + 1))
    rw [List.foldl_cons]
    refine ⟨by omega, fun g hg => ?_⟩
    obtain rfl | hg := List.mem_cons.mp hg
    · omega
    · exact hr g hg

/-- A range of a scratchpad that a job may use starts at a granule and ends in the scratchpad. -/
theorem rangeOk_scratch {d : Dev} {uid j c o n : Nat} {wr : Bool} (h : rangeOk d uid j (.t0 c o) n wr = true) :
    o % 4096 = 0 ∧ o / 4096 + n ≤ scratchGrans := by
  have hbytes : scratchBytes = scratchGrans * 4096 := rfl
  unfold rangeOk banksOk at h
  dsimp only at h
  split at h
  · simp at h
  · simp only [addrOff, Bool.and_eq_true, beq_iff_eq, decide_eq_true_eq] at h
    obtain ⟨ho, hle, -⟩ := h
    omega

theorem getElem?_rangeKeys_scratch {c o n i : Nat} (hi : i < n) (hg : o / 4096 + i < scratchGrans) :
    (rangeKeys (.t0 c o) n)[i]? = some (gT0 c (o / 4096 + i)) := by
  unfold rangeKeys
  rw [List.getElem?_map, List.getElem?_range (by omega)]
  rfl

theorem scratchMove_of_copy {d : Dev} {n j : Nat} {x : Ctx} {it : Item} {c : Cmd} {sa da : CoreId} {so dO : Nat}
    (hsorted : SMap.sorted d.ext.wcb = true) (hkind : aType (actOf x.image it) = 4) (hc : cmd d x.uid = some c)
    (hsrc : copySrcA x.image it (actOf x.image it) = .t0 sa.val so)
    (hread : rangeOk d x.uid j (.t0 sa.val so) (copyReach x.image it (actOf x.image it)) false = true)
    (hwrite : rangeOk d x.uid j (.t0 da.val dO) (copyGrans (actOf x.image it)) true = true)
    (hpoison : ∀ k ∈ readGrans d n j x it, poisoned d k = false)
    (hgens : ∀ k, gIsT0 k = true → SMap.get? c.gens k = none) :
    ScratchMove d x.uid sa.val so da.val dO (copyGrans (actOf x.image it)) (copyReads x.image it (actOf x.image it))
      (fun i bs => copyFill x.image it (actOf x.image it) i 0 bs) := by
  obtain ⟨hso, hsn⟩ := rangeOk_scratch hread
  obtain ⟨hdo, hdn⟩ := rangeOk_scratch hwrite
  have hneed : ∀ i < copyGrans (actOf x.image it), copyReads x.image it (actOf x.image it) i = true →
      i ∈ copyNeeds x.image it (actOf x.image it) :=
    fun i hi hp => List.mem_filter.mpr ⟨List.mem_range.mpr hi, hp⟩
  have hin : ∀ i < copyGrans (actOf x.image it), copyReads x.image it (actOf x.image it) i = true →
      so / 4096 + i < scratchGrans := by
    intro i hi hp
    have hreach : i < copyReach x.image it (actOf x.image it) := (le_foldl_reach _ 0).2 i (hneed i hi hp)
    omega
  refine ⟨⟨c, hc, hgens⟩, hsorted, ⟨sa.isLt, hso, hin⟩, ⟨da.isLt, hdo, hdn⟩, fun i hi hp => ?_, fun i bs => length_copyFill _ _ _ _ _ _,
    fun i bs => copyFill_lt _ _ _ _ _, fun i _ hp bs => copyFill_unread hp⟩
  refine hpoison _ ?_
  unfold readGrans
  dsimp only
  rw [hkind, hsrc]
  exact List.mem_filterMap.mpr ⟨i, hneed i hi hp, getElem?_rangeKeys_scratch hi (hin i hi hp)⟩

/-! ### Its issue -/

theorem CopySide.ctxOf_eq {d t : Dev} (h : CopySide d t) (n j : Nat) : ctxOf t n j = ctxOf d n j :=
  ctxOf_of_cores (by rw [h.rest]) n j

theorem onEngine_setCtx {d e : Dev} {n j : Nat} {x x' : Ctx} {it : Item} {r : RunAct} (ha : Advanced d.now x x')
    (hr : r ∈ x'.running) (hid : r.id = actId x n it) : OnEngine d (setCtx e n j x') n j x it r.kind r.started :=
  ⟨x', r, ctxOf_setCtx_same _ _ _ _, ha, hr, rfl, hid, rfl⟩

/-- A copy between scratchpad ranges that the job may use starts. -/
theorem opCopyAct_scratch {d : Dev} {n j : Nat} {x : Ctx} {it : Item} {c : Cmd} {sa da so dO : Nat}
    (h : MayIssue d n j 4 x it) (hc : cmd d x.uid = some c) (hlocal : aCopyRemote (actOf x.image it) = false)
    (hsrc : copySrcA x.image it (actOf x.image it) = .t0 sa so) (hdst : copyDstA x.image it (actOf x.image it) = .t0 da dO)
    (hread : rangeOk d x.uid j (.t0 sa so) (copyReach x.image it (actOf x.image it)) false = true)
    (hwrite : rangeOk d x.uid j (.t0 da dO) (copyGrans (actOf x.image it)) true = true) :
    opCopyAct d n j .none = startCopy d n j x it (.t0 sa so) (.t0 da dO) .none := by
  have hclass : classOk (aClassBE (actOf x.image it)) (.t0 sa so) (.t0 da dO) = true := by
    unfold classOk
    split <;> rfl
  unfold opCopyAct
  rw [issueAct_of_mayIssue h]
  dsimp only
  rw [hc]
  dsimp only
  rw [hlocal, if_neg (by decide), hsrc, hdst, hclass, hread, hwrite]
  rfl

theorem readT0_congr {d t : Dev} (hm : t.mem.bytes = d.mem.bytes) (he : t.ext = d.ext) (c o n : Nat) :
    readT0 t c o n = readT0 d c o n :=
  List.map_congr_left fun _ _ => stByte_congr hm he _ _

/-- The action that a copy puts on its engine. -/
def copyAction (d : Dev) (n : Nat) (x : Ctx) (it : Item) (be : Bool) : RunAct :=
  { newRun d n x it .copy [] .none with
    doneSem := if aDoneEn (actOf x.image it) then some (aDoneSem (actOf x.image it)) else none, bestEffort := be,
    started := true, flying := !be, doneAt := d.now + 1, endAt := d.now + 1 }

/-- A context with one more action on its engines. -/
def withRun (x : Ctx) (r : RunAct) : Ctx := { x with running := x.running ++ [r], nextId := x.nextId + 1 }

theorem mem_withRun (x : Ctx) (r : RunAct) : r ∈ (withRun x r).running := List.mem_append_right _ List.mem_cons_self

/-- A best-effort copy moves its granules as it issues. -/
theorem startCopy_bestEffort {d : Dev} {n j : Nat} {x : Ctx} {it : Item} {rest : List Item} {sa da so dO : Nat}
    (hx : ctxOf d n j = some x) (htodo : x.todo = it :: rest) (hbe : aClassBE (actOf x.image it) = true)
    (h : ScratchMove d x.uid sa so da dO (copyGrans (actOf x.image it)) (copyReads x.image it (actOf x.image it))
      (fun i bs => copyFill x.image it (actOf x.image it) i 0 bs)) :
    ∃ t, startCopy d n j x it (.t0 sa so) (.t0 da dO) .none = t ∧
      (∀ g < copyGrans (actOf x.image it), readT0 t da (dO + 4096 * g) 4096 =
        copyFill x.image it (actOf x.image it) g 0 (readT0 d sa (so + 4096 * g) 4096)) ∧
      GransKept d t (rangeKeys (.t0 da dO) (copyGrans (actOf x.image it))) ∧ OnEngine d t n j x it .copy true ∧
      t.ports = d.ports ∧ t.mem.objs = d.mem.objs ∧ t.qm.jobs = d.qm.jobs := by
  obtain ⟨e, he, hside, hkept, hread⟩ := moveGrans_scratch h (actId x n it) j
  obtain ⟨g, x', hi, hadv, hrun⟩ := issued_addRun ((hside.ctxOf_eq n j).trans hx) htodo (copyAction e n x it true)
  have hnow : e.now = d.now := by rw [hside.rest]
  refine ⟨setCtx { e with regs := g } n j x', ?_, fun g hg => (readT0_congr (d := e) rfl rfl _ _ _).trans (hread g hg), hkept,
    onEngine_setCtx (hnow ▸ hadv) (hrun ▸ List.mem_append_right _ List.mem_cons_self) rfl, ?_, ?_, ?_⟩
  · unfold startCopy copyNeeds
    dsimp only
    rw [hbe, Bool.true_or, if_pos rfl, he]
    exact hi
  · show e.ports = d.ports
    rw [hside.rest]
  · show e.mem.objs = d.mem.objs
    rw [hside.rest]
  · show e.qm.jobs = d.qm.jobs
    rw [hside.rest]

theorem setRun_eq {d : Dev} {n j : Nat} {x : Ctx} (h : ctxOf d n j = some x) (id : Nat) (f : RunAct → RunAct) :
    setRun d n j id f = setCtx d n j { x with running := x.running.map (fun r => if r.id == id then f r else r) } := by
  unfold setRun; rw [h]

/-- What a scheduled copy puts in its core's network port: its data, or its request where another core holds the source. -/
def copyPortJob (now n j uid id sa da g : Nat) : PortJob :=
  if sa = n then ⟨2 * now, coreDie n, coreDie da, 0, 8 * g, j, .copyData n j uid id false 0 [] false⟩
  else oneFlit (2 * now) (coreDie n) (coreDie sa) j (.copyReq n j uid id)

/-- A scheduled copy's flits wait at the port of its core; it stays on its engine. -/
theorem copyFlits_scratch {d : Dev} {n j : Nat} {x y : Ctx} {r : RunAct} (sa so da dO g id : Nat) (hr : r ∈ y.running) :
    ∃ (z : Ctx) (r' : RunAct), copyFlits (setCtx d n j y) n j x id (.t0 sa so) (.t0 da dO) (coreDie da) g =
        pushPort (setCtx d n j z) n (copyPortJob d.now n j x.uid id sa da g) ∧
      z.uid = y.uid ∧ z.todo = y.todo ∧ r' ∈ z.running ∧ r'.kind = r.kind ∧ r'.id = r.id ∧ r'.started = r.started := by
  unfold copyFlits copyPortJob
  by_cases hs : sa = n
  · subst hs
    rw [if_pos rfl, if_pos (show srcPort (setCtx d sa j y) (.t0 sa so) = sa from rfl)]
    unfold sendCopy
    dsimp only
    split
    · exact ⟨y, r, rfl, rfl, rfl, hr, rfl, rfl, rfl⟩
    · rw [setRun_eq (ctxOf_setCtx_same _ _ _ _), setCtx_setCtx]
      refine ⟨_, _, rfl, rfl, rfl, List.mem_map.mpr ⟨r, hr, rfl⟩, ?_, ?_, ?_⟩
      all_goals split <;> rfl
  · rw [if_neg hs, if_neg (show ¬ srcPort (setCtx d n j y) (.t0 sa so) = n from hs)]
    exact ⟨y, r, rfl, rfl, rfl, hr, rfl, rfl, rfl⟩

/-- A scheduled copy sends its flits from its core's port. -/
theorem startCopy_scheduled {d : Dev} {n j : Nat} {x : Ctx} {it : Item} {rest : List Item} (sa so da dO : Nat)
    (hx : ctxOf d n j = some x) (htodo : x.todo = it :: rest) (hbe : aClassBE (actOf x.image it) = false)
    (hg : 0 < copyGrans (actOf x.image it)) :
    ∃ t, startCopy d n j x it (.t0 sa so) (.t0 da dO) .none = t ∧
      t.ports = SMap.insert d.ports n (SMap.getD d.ports n [] ++
        [copyPortJob d.now n j x.uid (actId x n it) sa da (copyGrans (actOf x.image it))]) ∧
      OnEngine d t n j x it .copy true ∧ t.mem = d.mem ∧ t.qm.jobs = d.qm.jobs := by
  have hrun : copyRun d n j x it false .none = setCtx d n j (withRun x (copyAction d n x it false)) := addRun_eq hx _
  obtain ⟨z, r, hflits, huid, hztodo, hr, hkind, hid, hstart⟩ := copyFlits_scratch (d := d) (n := n) (j := j) (x := x) sa so da dO
    (copyGrans (actOf x.image it)) (actId x n it) (mem_withRun x (copyAction d n x it false))
  obtain ⟨g, x', hi, hadv, hrunning⟩ := issued_spec (d := pushPort (setCtx d n j z) n (copyPortJob d.now n j x.uid (actId x n it)
    sa da (copyGrans (actOf x.image it)))) (n := n) (j := j) (ctxOf_setCtx_same d n j z) (hztodo.trans htodo) (List.ne_nil_of_mem hr)
  have hadv' : Advanced d.now x x' := hadv.congr huid hztodo
  have hissue : startCopy d n j x it (.t0 sa so) (.t0 da dO) .none = setCtx { pushPort (setCtx d n j z) n
      (copyPortJob d.now n j x.uid (actId x n it) sa da (copyGrans (actOf x.image it))) with regs := g } n j x' := by
    unfold startCopy
    dsimp only
    rw [hbe, Bool.false_or, if_neg (by simpa using Nat.ne_of_gt hg), hrun]
    exact (congrArg (issued · n j) hflits).trans hi
  refine ⟨_, hissue, rfl, ?_, rfl, rfl⟩
  have hon := onEngine_setCtx (d := d) (e := { pushPort (setCtx d n j z) n (copyPortJob d.now n j x.uid (actId x n it) sa da
    (copyGrans (actOf x.image it))) with regs := g }) (n := n) (j := j) (it := it) hadv' (hrunning ▸ hr) hid
  rw [hkind, hstart] at hon
  exact hon

end Sys2Proof.Machine

/-! SUPPORT. The sequencer's turn after an issue: an engine that is free starts its oldest action (02 R71; 03 R526, R529; 04 R105). -/

namespace Sys2Proof.Machine
open Sys2Proof

/-! ### The sequencer with no pass waiting -/

theorem tryKeep_idle {d : Dev} {n : Nat} (h : (arrOf d n).waiting = []) : tryKeep d n = d := by
  unfold tryKeep
  dsimp only
  rw [h]

theorem tryRide_idle {d : Dev} {n : Nat} (h : (arrOf d n).waiting = []) : tryRide d n = d := by
  unfold tryRide
  dsimp only
  rw [h]

theorem settleOne_none {d : Dev} {n j : Nat} {x : Ctx} (hx : ctxOf d n j = some x) (h : startable x = none) :
    settleOne d n j = none := by
  unfold settleOne
  rw [hx]
  dsimp only
  rw [h]

theorem settleN_none {d : Dev} {n j : Nat} (k : Nat) (h : settleOne d n j = none) : settleN k d n j = d := by
  cases k with
  | zero => rfl
  | succ k => unfold settleN; rw [h]

/-- With no pass waiting and no action that may start, the sequencer does nothing. -/
theorem settle_idle {d : Dev} {n j : Nat} {x : Ctx} (hx : ctxOf d n j = some x) (hw : (arrOf d n).waiting = [])
    (h : startable x = none) : settle d n j = d := by
  unfold settle
  rw [tryKeep_idle hw, tryRide_idle hw]
  exact settleN_none 64 (settleOne_none hx h)

/-- A pass that loads its weights on a fresh array takes the array's own turn: the sequencer does nothing with it. -/
theorem settle_loads {d : Dev} {n j : Nat} {x : Ctx} {p : PassRun} (hx : ctxOf d n j = some x)
    (hw : (arrOf d n).waiting = [p]) (hfresh : (arrOf d n).fresh = true) (hmode : aLoadMode p.act ≠ 2)
    (h : startable x = none) : settle d n j = d := by
  have hkind : loadKind (arrOf d n) p = 1 := by
    unfold loadKind
    rw [if_neg hmode, hfresh]
    simp
  have hkeep : tryKeep d n = d := by
    unfold tryKeep
    dsimp only
    rw [hw]
    dsimp only
    rw [hkind]
    simp
  have hride : tryRide d n = d := by
    unfold tryRide
    dsimp only
    rw [hw]
    dsimp only
    rw [hkind]
    simp
  unfold settle
  rw [hkeep, hride]
  exact settleN_none 64 (settleOne_none hx h)

/-! ### The start of an action -/

/-- An action that issues now waits for no bank. -/
theorem bankWait_now {d : Dev} (n : Nat) {since : Nat} (h : d.now ≤ since) : bankWait d n since d.now = d := by
  have hempty : ∀ l : List (Nat × Nat), l.foldl (fun ss q => (ss.map (fun s => spanCut s q)).flatten) [] = [] := by
    intro l
    induction l with
    | nil => rfl
    | cons q r ih => exact ih
  unfold bankWait
  dsimp only
  rw [if_neg (show ¬ since < d.now by omega), hempty]
  rfl

/-- Nothing upsets an action of no event. -/
theorem runUpset_none (d : Dev) (n j : Nat) (x : Ctx) {r : RunAct} (h : r.ev = .none) : runUpset d n j x r = (d, true) := by
  unfold runUpset
  dsimp only
  rw [h]
  dsimp only [engineUpset]
  split
  · rfl
  · rfl

/-- An engine's one action that has not started starts now. -/
def startedNow (now : Nat) (r : RunAct) : RunAct := { r with started := true, endAt := now + r.len }

theorem startable_single {x : Ctx} {r : RunAct} (hr : x.running = [r]) (hk : r.kind = .writeback ∨ r.kind = .vector)
    (hs : r.started = false) : startable x = some r := by
  unfold startable engineFree blocksWritten
  rw [hr, List.find?_cons_of_pos]
  simp [hs, hk]

theorem startable_started {x : Ctx} (h : ∀ r ∈ x.running, r.started = true ∨ (r.kind ≠ .writeback ∧ r.kind ≠ .vector)) :
    startable x = none := by
  unfold startable
  rw [List.find?_eq_none]
  intro r hr
  obtain hs | ⟨hw, hv⟩ := h r hr
  · simp [hs]
  · simp [hw, hv]

theorem settle_starts {d : Dev} {n j : Nat} {x : Ctx} {r : RunAct} (hx : ctxOf d n j = some x) (hr : x.running = [r])
    (hw : (arrOf d n).waiting = []) (hk : r.kind = .writeback ∨ r.kind = .vector) (hs : r.started = false)
    (hsince : r.since = d.now) (hev : r.ev = .none) :
    settle d n j = setCtx d n j { x with running := [startedNow d.now r] } := by
  have hbank : (if r.kind = .writeback then bankWait d n (max r.since (wbFreeAt d n)) d.now else d) = d := by
    split
    · exact bankWait_now n (by omega)
    · rfl
  have hone : settleOne d n j = some (setCtx d n j { x with running := [startedNow d.now r] }) := by
    unfold settleOne
    rw [hx]
    dsimp only
    rw [startable_single hr hk hs]
    dsimp only
    rw [hbank, runUpset_none d n j x hev]
    dsimp only
    rw [setRun_eq hx, hr]
    simp [startedNow]
  have hnext : settleOne (setCtx d n j { x with running := [startedNow d.now r] }) n j = none :=
    settleOne_none (ctxOf_setCtx_same _ _ _ _) (startable_started (by simp [startedNow]))
  unfold settle
  rw [tryKeep_idle hw, tryRide_idle hw]
  unfold settleN
  rw [hone]
  exact settleN_none 63 hnext

end Sys2Proof.Machine

/-! SUPPORT. WRITEBACK, VECTOR and PASS as they issue (03 R526, R529, R530; 04 R105). -/

namespace Sys2Proof.Machine
open Sys2Proof

theorem seqSide_setCtx (d : Dev) (g : SMap Word) (n j : Nat) (x : Ctx) : SeqSide d (setCtx { d with regs := g } n j x) n where
  rest := ⟨rfl, rfl, rfl, rfl, rfl, rfl, rfl, rfl, rfl, rfl, rfl, rfl, rfl, rfl, rfl, rfl, rfl, rfl, rfl, rfl, rfl, rfl, rfl, rfl,
    rfl, rfl⟩
  others := fun _ hm => core_setCtx_other _ j x hm

/-- An engine action that issues on a core with nothing on its engines and no pass waiting starts at once. -/
theorem issue_starts {d : Dev} {n j : Nat} {x : Ctx} {it : Item} {rest : List Item} {r : RunAct} (hx : ctxOf d n j = some x)
    (htodo : x.todo = it :: rest) (hidle : x.running = []) (hw : (arrOf d n).waiting = [])
    (hk : r.kind = .writeback ∨ r.kind = .vector) (hs : r.started = false) (hsince : r.since = d.now) (hev : r.ev = .none) :
    ∃ (g : SMap Word) (x' : Ctx), settle (issued (addRun d n j r) n j) n j = setCtx { d with regs := g } n j x' ∧
      Advanced d.now x x' ∧ x'.running = [startedNow d.now r] := by
  obtain ⟨g, x', he, hadv, hrun⟩ := issued_addRun hx htodo r
  rw [hidle, List.nil_append] at hrun
  refine ⟨g, { x' with running := [startedNow d.now r] }, ?_, { hadv with }, rfl⟩
  have hwait : (arrOf (setCtx { d with regs := g } n j x') n).waiting = [] := by rw [arrOf_setCtx]; exact hw
  rw [he]
  exact (settle_starts (ctxOf_setCtx_same _ _ _ _) hrun hwait hk hs hsince hev).trans (setCtx_setCtx { d with regs := g } n j _ _)

/-- What the issue of an action on an engine leaves, its action started now. -/
theorem started_of_issue {d t : Dev} {n j : Nat} {x : Ctx} {it : Item} {r : RunAct} (hid : r.id = actId x n it)
    (h : ∃ (g : SMap Word) (x' : Ctx), t = setCtx { d with regs := g } n j x' ∧ Advanced d.now x x' ∧
      x'.running = [startedNow d.now r]) :
    OnEngine d t n j x it r.kind true ∧ t.mem = d.mem ∧ SeqSide d t n ∧
      ∃ x', ctxOf t n j = some x' ∧ startedNow d.now r ∈ x'.running := by
  obtain ⟨g, x', rfl, hadv, hrun⟩ := h
  have hr : startedNow d.now r ∈ x'.running := by rw [hrun]; exact List.mem_cons_self
  exact ⟨onEngine_setCtx hadv hr hid, rfl, seqSide_setCtx d g n j x', x', ctxOf_setCtx_same _ _ _ _, hr⟩

/-! ### WRITEBACK and VECTOR -/

/-- The action of a WRITEBACK. -/
def wbAction (d : Dev) (n j : Nat) (x : Ctx) (it : Item) : RunAct :=
  let ps := wbRegion d n j x (aBank (actOf x.image it))
  { newRun d n x it .writeback (regionBlocks (aBank (actOf x.image it)) ps.1 ps.2) .none with region := ps, len := wbCycles ps.1 }

theorem opWriteback_issues {d : Dev} {n j : Nat} {x : Ctx} {it : Item} (h : MayIssue d n j 2 x it)
    (hok : wbIssueOk d n (actOf x.image it) (wbRegion d n j x (aBank (actOf x.image it))) = true)
    (hblocks : (regionBlocks (aBank (actOf x.image it)) (wbRegion d n j x (aBank (actOf x.image it))).1
      (wbRegion d n j x (aBank (actOf x.image it))).2).all ((ownBlocks d n j).contains ·) = true)
    (hown : rangesOwned d j n (wbRanges x.image it (actOf x.image it) (wbRegion d n j x (aBank (actOf x.image it))).1 ++
      wbParts x.image it (actOf x.image it) (wbRegion d n j x (aBank (actOf x.image it))).1) = true) :
    opWriteback d n j .none = settle (issued (addRun d n j (wbAction d n j x it)) n j) n j := by
  unfold opWriteback
  rw [issueAct_of_mayIssue h]
  dsimp only
  rw [hok, hblocks, hown]
  rfl

/-- The accumulator blocks that a VECTOR reads. -/
def vecBlocks (a : ActionD) : List Nat :=
  (if isBankSrc (aw a 1) then bankReadBlocks (aw a 1) (aLen a) else [])
    ++ (if vopReads2 (aVop a) && isBankSrc (aw a 2) then bankReadBlocks (aw a 2) (aLen a) else [])

/-- The action of a VECTOR. -/
def vecAction (d : Dev) (n : Nat) (x : Ctx) (it : Item) (vreg : Nat) : RunAct :=
  { newRun d n x it .vector (vecBlocks (actOf x.image it)) .none with len := vecCycles (actOf x.image it), vreg := vreg }

theorem opVector_issues {d : Dev} {n j : Nat} {x : Ctx} {it : Item} (vreg : Nat) (h : MayIssue d n j 3 x it)
    (hok : vecIssueOk d n (ownBlocks d n j) (actOf x.image it) = true)
    (hown : rangesOwned d j n (vecReads x.image it (actOf x.image it) ++ vecWrites x.image it (actOf x.image it)) = true) :
    opVector d n j vreg .none = settle (issued (addRun d n j (vecAction d n x it vreg)) n j) n j := by
  unfold opVector
  rw [issueAct_of_mayIssue h]
  dsimp only
  rw [hok, hown]
  rfl

/-! ### PASS -/

/-- The pass that a PASS puts in its array's queue. -/
def passOf (d : Dev) (n j : Nat) (x : Ctx) (it : Item) : PassRun :=
  { job := j, uid := x.uid, actId := actId x n it, item := it, act := actOf x.image it, issuedAt := d.now,
    slot := if aPart (actOf x.image it) = 0 then 0 else assignSlot (arrOf d n) (actOf x.image it), ev := .none }

/-- The accumulator blocks of a PASS. -/
def passBlocks (a : ActionD) : List Nat := regionBlocks (aBank a) (aPart a) (aSub a)

/-- A context with a PASS on its engines: its bank's last region is the pass's. -/
def passCtx (d : Dev) (n : Nat) (x : Ctx) (it : Item) : Ctx :=
  { withRun x (newRun d n x it .pass (passBlocks (actOf x.image it)) .none) with
    lastRegion := SMap.insert x.lastRegion (aBank (actOf x.image it)) [aPart (actOf x.image it), aSub (actOf x.image it)] }

/-- A core whose array takes one more pass. -/
def passCore (d : Dev) (n j : Nat) (x : Ctx) (it : Item) (c : CoreSt) : CoreSt :=
  { setRegionMode c (passBlocks (actOf x.image it)) (if aInt32 (actOf x.image it) then 2 else 1) with
    arr := { c.arr with waiting := c.arr.waiting ++ [passOf d n j x it] } }

theorem opPass_issues {d : Dev} {n j : Nat} {x : Ctx} {it : Item} (h : MayIssue d n j 1 x it) (hw : (arrOf d n).waiting = [])
    (hmode : aInit (actOf x.image it) = false ∨ regionMode (core d n) (passBlocks (actOf x.image it)) = 0 ∨
      regionMode (core d n) (passBlocks (actOf x.image it)) = if aInt32 (actOf x.image it) then 2 else 1)
    (hblocks : (passBlocks (actOf x.image it)).all ((ownBlocks d n j).contains ·) = true)
    (hown : rangesOwned d j n (passReads x.image it (actOf x.image it)) = true) :
    opPass d n j .none = settle (issued (setCore (setCtx d n j (passCtx d n x it)) n
      (passCore d n j x it (core (setCtx d n j (passCtx d n x it)) n))) n j) n j := by
  obtain ⟨hx, -⟩ := canIssue_some h.head
  have hroom : passRoom (arrOf d n) (actOf x.image it) = true := by
    unfold passRoom
    rw [hw]
    rfl
  have hcond : (aInit (actOf x.image it) && decide (regionMode (core d n) (passBlocks (actOf x.image it)) ≠ 0) &&
      decide (regionMode (core d n) (passBlocks (actOf x.image it)) ≠ if aInt32 (actOf x.image it) then 2 else 1)) = false := by
    obtain h | h | h := hmode
    · rw [h]; rfl
    · rw [h]; simp
    · rw [h]; simp
  unfold passBlocks at *
  unfold opPass
  rw [issueAct_of_mayIssue h]
  dsimp only
  rw [hroom, if_neg (by decide), hcond, if_neg (by decide), hblocks, if_neg (by decide), hown, if_neg (by decide), addRun_eq hx,
    ctxOf_setCtx_same]
  dsimp only
  rw [setCtx_setCtx]
  rfl

/-- A PASS that loads its weights on a fresh, idle array joins the passes that wait. -/
theorem pass_waits {d : Dev} {n j : Nat} {x : Ctx} {it : Item} {rest : List Item} (htodo : x.todo = it :: rest)
    (hidle : x.running = []) (hw : (arrOf d n).waiting = []) (hfresh : (arrOf d n).fresh = true)
    (hload : aLoadMode (actOf x.image it) ≠ 2) :
    ∃ t, settle (issued (setCore (setCtx d n j (passCtx d n x it)) n
        (passCore d n j x it (core (setCtx d n j (passCtx d n x it)) n))) n j) n j = t ∧
      OnEngine d t n j x it .pass false ∧ (arrOf t n).waiting = [passOf d n j x it] ∧ t.mem = d.mem ∧ SeqSide d t n := by
  have hbusy : (passCore d n j x it (core (setCtx d n j (passCtx d n x it)) n)).ctxs ≠ [] :=
    ctxs_ne_nil (ctxOf_setCtx_same d n j (passCtx d n x it))
  have hcore := core_setCore_busy (setCtx d n j (passCtx d n x it)) n hbusy
  have harr : (core (setCtx d n j (passCtx d n x it)) n).arr = arrOf d n := arrOf_setCtx d n j _
  generalize hd3 : setCore (setCtx d n j (passCtx d n x it)) n _ = d3 at *
  have hctx : ctxOf d3 n j = some (passCtx d n x it) := by
    unfold ctxOf
    rw [hcore]
    exact ctxOf_setCtx_same d n j (passCtx d n x it)
  obtain ⟨g, x', he, hadv, hrun⟩ := issued_spec hctx htodo (List.ne_nil_of_mem (mem_withRun _ _))
  have hnow : d3.now = d.now := by rw [← hd3]; rfl
  have hadv' : Advanced d.now x x' := hnow ▸ hadv.congr rfl rfl
  have hrun' : x'.running = [newRun d n x it .pass (passBlocks (actOf x.image it)) .none] := by
    rw [hrun]
    show x.running ++ _ = _
    rw [hidle]
    rfl
  have harr' : arrOf (setCtx { d3 with regs := g } n j x') n = { arrOf d n with waiting := [passOf d n j x it] } := by
    rw [arrOf_setCtx]
    show (core d3 n).arr = _
    rw [hcore]
    unfold passCore
    dsimp only
    rw [harr, hw]
    rfl
  refine ⟨setCtx { d3 with regs := g } n j x', ?_, ?_, by rw [harr'], by rw [← hd3]; rfl, ?_⟩
  · rw [he]
    refine settle_loads (p := passOf d n j x it) (ctxOf_setCtx_same _ _ _ _) (by rw [harr']) (by rw [harr']; exact hfresh) hload
      (startable_started ?_)
    rw [hrun']
    simp [newRun]
  · exact onEngine_setCtx (r := newRun d n x it .pass (passBlocks (actOf x.image it)) .none) hadv' (hrun' ▸ List.mem_cons_self) rfl
  · refine ⟨?_, fun m hm => ?_⟩
    · rw [← hd3]
      exact ⟨rfl, rfl, rfl, rfl, rfl, rfl, rfl, rfl, rfl, rfl, rfl, rfl, rfl, rfl, rfl, rfl, rfl, rfl, rfl, rfl, rfl, rfl, rfl, rfl,
        rfl, rfl⟩
    · rw [core_setCtx_other _ j x' hm]
      show core d3 m = core d m
      rw [← hd3, core_setCore_busy_other _ hbusy hm, core_setCtx_other _ j _ hm]

end Sys2Proof.Machine

/-! SUPPORT. ACTION_COMPLETION: what it leaves of its core, its semaphores and its command (02 R66; 04 R110, R124, R127). -/

namespace Sys2Proof.Machine
open Sys2Proof

/-! ### Steps of one core -/

/-- Only registers and core n may differ, and of core n not its array. -/
structure CoreStep (d e : Dev) (n : Nat) : Prop where
  rest : e = { d with regs := e.regs, cores := e.cores }
  others : ∀ m, m ≠ n → core e m = core d m
  arr : arrOf e n = arrOf d n

theorem CoreStep.refl (d : Dev) (n : Nat) : CoreStep d d n := ⟨rfl, fun _ _ => rfl, rfl⟩

theorem CoreStep.trans {a b c : Dev} {n : Nat} (h : CoreStep a b n) (k : CoreStep b c n) : CoreStep a c n :=
  ⟨by rw [k.rest, h.rest], fun m hm => (k.others m hm).trans (h.others m hm), k.arr.trans h.arr⟩

theorem coreStep_regs (d : Dev) (n : Nat) (g : SMap Word) : CoreStep d { d with regs := g } n := ⟨rfl, fun _ _ => rfl, rfl⟩

theorem coreStep_setCore {d : Dev} {n : Nat} {c : CoreSt} (hc : c.ctxs ≠ []) (ha : c.arr = arrOf d n) :
    CoreStep d (setCore d n c) n :=
  ⟨rfl, fun _ hm => core_setCore_busy_other d hc hm, by unfold arrOf; rw [core_setCore_busy _ _ hc, ha]; rfl⟩

theorem coreStep_setCtx (d : Dev) (n j : Nat) (x : Ctx) : CoreStep d (setCtx d n j x) n :=
  coreStep_setCore (SMap.insert_ne_nil _ _ _) rfl

/-! ### Semaphores -/

/-- Semaphore k lies in the range. -/
def semInRange (k : Nat) (r : Nat × Nat × Nat) : Bool := decide (r.1 ≤ k) && decide (k < r.1 + r.2.1)

/-- The range of undefined semaphores in which a semaphore lies gives it its value. -/
theorem semOf_eq (d : Dev) (n k : Nat) : semOf d n k =
    (((core d n).semUndef.find? (semInRange k)).map (·.2.2)).elim
      (SMap.getD (core d n).sems k 0) (fun v => (Config.freeSem v k).toNat) := by
  show (match (core d n).semUndef.find? (semInRange k) with
    | some r => (Config.freeSem r.2.2 k).toNat
    | none => SMap.getD (core d n).sems k 0) = _
  cases (core d n).semUndef.find? (semInRange k) <;> rfl

theorem semOf_congr {d e : Dev} {n : Nat} (hs : (core e n).sems = (core d n).sems)
    (hu : (core e n).semUndef = (core d n).semUndef) (k : Nat) : semOf e n k = semOf d n k := by
  unfold semOf
  rw [hs, hu]

/-- What a cut leaves of one range is all of it but the cut. -/
theorem find?_pieces (lo len v sem k : Nat) :
    (([(lo, min (lo + len) sem - lo, v), (max lo (sem + 1), lo + len - max lo (sem + 1), v)].filter
      (fun p => p.2.1 != 0)).find? (semInRange k)).map (·.2.2) = if k ≠ sem ∧ semInRange k (lo, len, v) = true then some v else none := by
  rw [List.find?_filter]
  unfold semInRange
  by_cases hlow : lo ≤ k ∧ k < lo + len ∧ k < sem
  · rw [List.find?_cons_of_pos (by simp; omega), if_pos (by simp; omega)]
    rfl
  · rw [List.find?_cons_of_neg (by simp; omega)]
    by_cases hhigh : lo ≤ k ∧ k < lo + len ∧ sem < k
    · rw [List.find?_cons_of_pos (by simp; omega), if_pos (by simp; omega)]
      rfl
    · rw [List.find?_cons_of_neg (by simp; omega), if_neg (by simp; omega)]
      rfl

/-- A semaphore that is set leaves the undefined ranges; the others keep theirs. -/
theorem find?_semCut (l : List (Nat × Nat × Nat)) (sem k : Nat) :
    ((semCut l sem (sem + 1)).find? (semInRange k)).map (·.2.2) = if k = sem then none else (l.find? (semInRange k)).map (·.2.2) := by
  induction l with
  | nil => simp [semCut]
  | cons q r ih =>
    obtain ⟨lo, len, v⟩ := q
    have hcut : semCut ((lo, len, v) :: r) sem (sem + 1) =
        [(lo, min (lo + len) sem - lo, v), (max lo (sem + 1), lo + len - max lo (sem + 1), v)].filter (fun p => p.2.1 != 0)
          ++ semCut r sem (sem + 1) := rfl
    rw [hcut, List.find?_append, Option.map_or, find?_pieces, ih]
    by_cases hk : k = sem
    · simp [hk]
    · by_cases hh : semInRange k (lo, len, v) = true
      · simp [hk, hh]
      · simp [hk, hh]

theorem core_setSem {d : Dev} {n sem v : Nat} (hc : (core d n).ctxs ≠ []) : core (setSem d n sem v) n = { core d n with
    sems := SMap.put (core d n).sems sem v 0, semUndef := semCut (core d n).semUndef sem (sem + 1) } :=
  core_setCore_busy _ _ hc

/-- A semaphore that is set to something has it; the others keep theirs. -/
theorem semOf_setSem {d : Dev} {n sem v : Nat} (hc : (core d n).ctxs ≠ []) (hv : v ≠ 0) (k : Nat) :
    semOf (setSem d n sem v) n k = if k = sem then v else semOf d n k := by
  rw [semOf_eq, semOf_eq, core_setSem hc, find?_semCut]
  by_cases hk : k = sem
  · subst hk
    simp only [if_true, Option.elim_none]
    exact SMap.getD_put_listed _ _ hv
  · have hget : SMap.getD (SMap.put (core d n).sems sem v 0) k 0 = SMap.getD (core d n).sems k 0 := by
      unfold SMap.put SMap.getD
      rw [if_neg hv, SMap.get?_insert_other _ _ hk]
    simp only [if_neg hk, hget]

/-- The DONE_SEM of an action rises by 1. -/
theorem doneSem_rises {d : Dev} {n j : Nat} {x : Ctx} (hx : ctxOf d n j = some x) (uid : Nat) (s : Option Nat)
    (hs : ∀ k, s = some k → semOf d n k ≠ 65535) :
    CoreStep d (doneSem d n j uid s) n ∧ ctxOf (doneSem d n j uid s) n j = some x ∧
      ∀ k, semOf (doneSem d n j uid s) n k = if s = some k then semOf d n k + 1 else semOf d n k := by
  cases s with
  | none => exact ⟨CoreStep.refl d n, hx, fun k => (if_neg (by simp)).symm⟩
  | some sem =>
    have hbusy := ctxs_ne_nil hx
    unfold doneSem
    dsimp only
    rw [if_neg (hs sem rfl)]
    refine ⟨coreStep_setCore hbusy rfl, ?_, fun k => ?_⟩
    · unfold ctxOf
      rw [core_setSem hbusy]
      exact hx
    · rw [semOf_setSem hbusy (Nat.succ_ne_zero _)]
      by_cases hk : k = sem
      · subst hk; simp
      · rw [if_neg hk, if_neg (by simpa using Ne.symm hk)]

/-! ### A fence behind a best-effort copy -/

/-- A step that keeps the core's semaphores. -/
structure SemStep (d e : Dev) (n : Nat) : Prop extends CoreStep d e n where
  sems : (core e n).sems = (core d n).sems
  undef : (core e n).semUndef = (core d n).semUndef

theorem SemStep.trans {a b c : Dev} {n : Nat} (h : SemStep a b n) (k : SemStep b c n) : SemStep a c n :=
  ⟨h.toCoreStep.trans k.toCoreStep, k.sems.trans h.sems, k.undef.trans h.undef⟩

theorem semStep_regs (d : Dev) (n : Nat) (g : SMap Word) : SemStep d { d with regs := g } n := ⟨coreStep_regs d n g, rfl, rfl⟩

theorem semStep_setCore {d : Dev} {n : Nat} {c : CoreSt} (hc : c.ctxs ≠ []) (ha : c.arr = arrOf d n)
    (hs : c.sems = (core d n).sems) (hu : c.semUndef = (core d n).semUndef) : SemStep d (setCore d n c) n :=
  ⟨coreStep_setCore hc ha, by rw [core_setCore_busy _ _ hc, hs], by rw [core_setCore_busy _ _ hc, hu]⟩

theorem semStep_setCtx (d : Dev) (n j : Nat) (x : Ctx) : SemStep d (setCtx d n j x) n :=
  ⟨coreStep_setCtx d n j x, by rw [core_setCtx_same], by rw [core_setCtx_same]⟩

theorem semStep_bump (d : Dev) (n die page reg k : Nat) : SemStep d (bump d die page reg k) n := by
  obtain ⟨g, hg⟩ := bump_regs_only d die page reg k
  rw [hg]
  exact semStep_regs d n g

theorem semStep_slipEnd (d : Dev) (n : Nat) (x : Ctx) : SemStep d (slipEnd d n x) n := by
  obtain ⟨g, hg⟩ := slipEnd_regs_only d n x
  rw [hg]
  exact semStep_regs d n g

theorem semStep_slipCore {d : Dev} {n : Nat} (hc : (core d n).ctxs ≠ []) : SemStep d (slipCore d n) n := by
  have hroll : SemStep d (rollWin d n) n := by
    unfold rollWin
    dsimp only
    split
    · exact ⟨CoreStep.refl d n, rfl, rfl⟩
    · exact semStep_setCore hc rfl rfl rfl
  unfold slipCore
  exact (hroll.trans (semStep_bump _ _ _ _ _ _)).trans (semStep_bump _ _ _ _ _ _)

theorem fenceFree_step {d : Dev} {n j : Nat} {x : Ctx} (x0 : Ctx) (hx : ctxOf d n j = some x) :
    SemStep d (fenceFree d n j x0) n ∧ ∃ y, ctxOf (fenceFree d n j x0) n j = some y ∧ y = { x with fenceBE := y.fenceBE } := by
  unfold fenceFree
  rw [hx]
  dsimp only
  split
  · exact ⟨⟨CoreStep.refl d n, rfl, rfl⟩, x, hx, rfl⟩
  · have hhold : SemStep d (fenceHold d n j x) n := by
      unfold fenceHold
      split
      · exact ⟨CoreStep.refl d n, rfl, rfl⟩
      · exact (semStep_setCtx d n j _).trans (semStep_slipCore (ctxs_ne_nil (ctxOf_setCtx_same d n j _)))
    exact ⟨(hhold.trans (semStep_slipEnd _ _ _)).trans (semStep_setCtx _ _ _ _), _, ctxOf_setCtx_same _ _ _ _, rfl⟩

/-! ### The end of a core's work -/

/-- Only the queue managers' commands and requests may differ. -/
theorem requestCommit_qm (d : Dev) (uid : Nat) :
    ∃ l q, requestCommit d uid = { d with qm := { d.qm with cmds := l, commitQ := q } } := by
  unfold requestCommit
  split
  · exact ⟨d.qm.cmds, d.qm.commitQ, rfl⟩
  · split
    · exact ⟨_, _, rfl⟩
    · exact ⟨d.qm.cmds, d.qm.commitQ, rfl⟩

theorem finishCore_qm (d : Dev) (n j : Nat) :
    ∃ l q, finishCore d n j = { d with qm := { d.qm with cmds := l, commitQ := q } } := by
  unfold finishCore
  split
  · split
    · split
      · split
        · exact ⟨_, _, (requestCommit_qm _ _).choose_spec.choose_spec⟩
        · exact ⟨d.qm.cmds, d.qm.commitQ, rfl⟩
      · exact ⟨d.qm.cmds, d.qm.commitQ, rfl⟩
    · exact ⟨d.qm.cmds, d.qm.commitQ, rfl⟩
  · exact ⟨d.qm.cmds, d.qm.commitQ, rfl⟩

/-- The last core of a command that ends its work completes the command's work. -/
theorem finishCore_last {d : Dev} {n j : Nat} {x : Ctx} {c : Cmd} (hx : ctxOf d n j = some x) (htodo : x.todo = [])
    (hrun : x.running = []) (hready : x.readyAt ≤ d.now + 1) (hc : cmd d x.uid = some c) (hphase : c.phase = .running)
    (hleft : c.coresLeft = [n]) (ht4 : c.t4left = 0) : WorkedNow (finishCore d n j) x.uid := by
  have hreq := requestCommit_running (d := setCmd d x.uid { c with coresLeft := [n].filter (· != n) }) (cmd_setCmd_same d x.uid _)
    hphase (by simp) ht4
  unfold finishCore
  rw [hx]
  dsimp only
  rw [if_pos (by simp [htodo, hrun, hready]), hc]
  dsimp only
  rw [hleft, if_pos (by simp), hreq]
  exact ⟨⟨_, cmd_requested _ _ _, rfl⟩, List.mem_append_right _ List.mem_cons_self⟩

/-! ### The completion -/

theorem CoreStep.seqSide {d e : Dev} {n : Nat} (h : CoreStep d e n) (l : SMap Cmd) (q : List Nat) :
    SeqSide d { e with qm := { e.qm with cmds := l, commitQ := q } } n where
  rest := by
    rw [h.rest]
    exact ⟨rfl, rfl, rfl, rfl, rfl, rfl, rfl, rfl, rfl, rfl, rfl, rfl, rfl, rfl, rfl, rfl, rfl, rfl, rfl, rfl, rfl, rfl, rfl, rfl,
      rfl, rfl⟩
  others := h.others

/-- An action that does not fetch from another module has nothing to program into flash. -/
theorem landedT4_local (d : Dev) {x : Ctx} {r : RunAct}
    (h : r.kind = .copy → addrTier (copySrcA x.image r.item (actOf x.image r.item)) ≠ 3) : landedT4 d x r = d := by
  unfold landedT4
  dsimp only
  rw [if_neg]
  simp only [Bool.and_eq_true, decide_eq_true_eq]
  rintro ⟨⟨⟨hk, -⟩, h3⟩, -⟩
  exact h hk h3

/-- A WRITEBACK that ends has read its blocks out. -/
def markReadOut (d : Dev) (n : Nat) (r : RunAct) : Dev :=
  if r.kind = .writeback then
    setCore d n { core d n with readOut := List.foldl (fun s b => SMap.insert s b d.now) (core d n).readOut r.blocks }
  else d

theorem markReadOut_step {d : Dev} {n j : Nat} {x : Ctx} (r : RunAct) (hx : ctxOf d n j = some x) :
    SemStep d (markReadOut d n r) n ∧ ctxOf (markReadOut d n r) n j = some x := by
  have hbusy := ctxs_ne_nil hx
  unfold markReadOut
  split
  · refine ⟨semStep_setCore hbusy rfl rfl rfl, Eq.trans ?_ hx⟩
    unfold ctxOf
    rw [core_setCore_busy]
    exact hbusy
  · exact ⟨⟨CoreStep.refl d n, rfl, rfl⟩, hx⟩

/-- A context with nothing on its engines. -/
def cleared (x : Ctx) : Ctx := { x with running := [] }

/-- The completion of the one action that runs, its work done, takes it off its engine. -/
theorem opActionDone_single {d : Dev} {n j : Nat} {x : Ctx} {r : RunAct} (hx : ctxOf d n j = some x) (hr : x.running = [r])
    (hdone : runDone d n x r = true)
    (hlocal : r.kind = .copy → addrTier (copySrcA x.image r.item (actOf x.image r.item)) ≠ 3) :
    opActionDone d n j r.id = finishCore (settle (fenceFree (doneSem (markReadOut (setCtx d n j (cleared x)) n r) n j x.uid
      r.doneSem) n j x) n j) n j := by
  unfold opActionDone
  rw [hx]
  dsimp only
  rw [hr, List.find?_cons_of_pos (by simp)]
  dsimp only
  rw [hdone, if_neg (by decide), List.filter_cons_of_neg (by simp), List.filter_nil, landedT4_local _ hlocal]
  rfl

/-- What the completion leaves for the end of the core's work. -/
theorem opActionDone_step {d : Dev} {n j : Nat} {x : Ctx} {r : RunAct} (hx : ctxOf d n j = some x) (hr : x.running = [r])
    (hw : (arrOf d n).waiting = []) (hdone : runDone d n x r = true)
    (hlocal : r.kind = .copy → addrTier (copySrcA x.image r.item (actOf x.image r.item)) ≠ 3)
    (hsem : ∀ k, r.doneSem = some k → semOf d n k ≠ 65535) :
    ∃ e y, opActionDone d n j r.id = finishCore e n j ∧ CoreStep d e n ∧ ctxOf e n j = some y ∧
      y = { cleared x with fenceBE := y.fenceBE } ∧
      ∀ k, semOf e n k = if r.doneSem = some k then semOf d n k + 1 else semOf d n k := by
  obtain ⟨hmark, hctx0⟩ := markReadOut_step r (ctxOf_setCtx_same d n j (cleared x))
  have hstep0 := (semStep_setCtx d n j (cleared x)).trans hmark
  have hsem0 := semOf_congr hstep0.sems hstep0.undef
  obtain ⟨hstep1, hctx1, hsem1⟩ := doneSem_rises hctx0 x.uid r.doneSem (fun k hk => by rw [hsem0]; exact hsem k hk)
  obtain ⟨hstep2, y, hctx2, hy⟩ := fenceFree_step x hctx1
  have hstep := (hstep0.toCoreStep.trans hstep1).trans hstep2.toCoreStep
  have hsettle := settle_idle hctx2 ((congrArg Arr.waiting hstep.arr).trans hw) (startable_started (by rw [hy]; simp [cleared]))
  refine ⟨_, y, ?_, hstep, hctx2, hy, fun k => ?_⟩
  · rw [opActionDone_single hx hr hdone hlocal, hsettle]
  · rw [semOf_congr hstep2.sems hstep2.undef, hsem1, hsem0]

end Sys2Proof.Machine

/-! COPY, WRITEBACK, VECTOR, PASS and ACTION_COMPLETION (02 R56; 03 R66, R526, R529; 04 R105, R110, R124; 08 R236, R238). -/

namespace Sys2Proof.Machine
open Sys2Proof

/-- A command that changes the live module in one step completes with what holds of the new module. -/
theorem completes_okDev {s : State} {i : Instr} {t : Dev} {P : Dev → Prop} (hlive : live s) (he : exec i s = okDev s t) (hp : P t) :
    Completes i s P :=
  completes_of_eq _ (he.trans (okDev_live hlive _)) hp

/-- Settles O57: each action goes on its engine as it issues, a best-effort copy's granules moved and a free engine started, and
its completion takes it off again. -/
theorem engineActionsRun : Obligations.EngineActionsRun := by
  unfold Obligations.EngineActionsRun
  intro s core j x it hlive hsorted
  dsimp only
  refine ⟨fun c sa da so dO hm hc hlocal hsrc hdst hg hread hwrite => ⟨fun hbe hpoison hgens => ?_, fun hbe => ?_⟩,
    fun hm hidle hw hok hblocks hown => ?_, fun vreg hm hidle hw hok hown => ?_, fun hm hidle hw hfresh hload hmode hblocks hown => ?_,
    fun r hx hr hw hdone hnotT3 hsem => ?_⟩
  · obtain ⟨hx, rest, htodo⟩ := canIssue_some hm.head
    rw [hsrc] at hread
    rw [hdst] at hwrite
    obtain ⟨t, ht, hpost⟩ := startCopy_bestEffort hx htodo hbe
      (scratchMove_of_copy hsorted.wcb hm.kind hc hsrc hread hwrite hpoison hgens)
    rw [hdst]
    exact completes_okDev (t := t) hlive (congrArg (okDev s) ((opCopyAct_scratch hm hc hlocal hsrc hdst hread hwrite).trans ht)) hpost
  · obtain ⟨hx, rest, htodo⟩ := canIssue_some hm.head
    rw [hsrc] at hread
    rw [hdst] at hwrite
    obtain ⟨t, ht, hpost⟩ := startCopy_scheduled sa.val so da.val dO hx htodo hbe hg
    exact completes_okDev (t := t) hlive (congrArg (okDev s) ((opCopyAct_scratch hm hc hlocal hsrc hdst hread hwrite).trans ht)) hpost
  · obtain ⟨hx, rest, htodo⟩ := canIssue_some hm.head
    obtain ⟨hon, hmem, hside, x', hx', hr⟩ := started_of_issue rfl (issue_starts (r := wbAction s.dev core.val j.val x it) hx htodo hidle
      hw (.inl rfl) rfl rfl rfl)
    exact completes_okDev hlive (congrArg (okDev s) (opWriteback_issues hm hok hblocks hown))
      ⟨hon, hmem, hside, x', _, hx', hr, rfl, rfl, rfl, rfl, rfl⟩
  · obtain ⟨hx, rest, htodo⟩ := canIssue_some hm.head
    obtain ⟨hon, hmem, hside, x', hx', hr⟩ := started_of_issue rfl (issue_starts (r := vecAction s.dev core.val x it vreg.val) hx htodo hidle
      hw (.inr rfl) rfl rfl rfl)
    exact completes_okDev hlive (congrArg (okDev s) (opVector_issues vreg.val hm hok hown))
      ⟨hon, hmem, hside, x', _, hx', hr, rfl, rfl, rfl, rfl, rfl⟩
  · obtain ⟨-, rest, htodo⟩ := canIssue_some hm.head
    obtain ⟨t, ht, hon, hwait, hmem, hside⟩ := pass_waits (d := s.dev) (n := core.val) (j := j.val) htodo hidle hw hfresh hload
    exact completes_okDev (t := t) hlive (congrArg (okDev s) ((opPass_issues hm hw hmode hblocks hown).trans ht))
      ⟨hon, ⟨_, hwait, rfl, rfl, rfl, rfl, rfl⟩, hmem, hside⟩
  · obtain ⟨e, y, he, hstep, hy, hyx, hsems⟩ := opActionDone_step hx hr hw hdone hnotT3 hsem
    obtain ⟨l, q, hfin⟩ := finishCore_qm e core.val j.val
    have hnow : e.now = s.dev.now := by rw [hstep.rest]
    have hcmd : cmd e x.uid = cmd s.dev x.uid := by rw [hstep.rest]; rfl
    refine completes_okDev (t := finishCore e core.val j.val) hlive (congrArg (okDev s) he) ⟨?_, ?_, ?_, ?_⟩
    · rw [hfin]
      exact ⟨y, hy, by rw [hyx]; rfl, by rw [hyx]; rfl, by rw [hyx]; rfl⟩
    · rw [hfin]
      exact hsems
    · intro c htodo hc hphase hleft ht4 hready
      have hu : y.uid = x.uid := by rw [hyx]; rfl
      have hyr : y.readyAt = x.readyAt := by rw [hyx]; rfl
      rw [← hu]
      exact finishCore_last hy (by rw [hyx]; exact htodo) (by rw [hyx]; rfl) (by rw [hnow, hyr]; exact hready)
        (by rw [hu, hcmd]; exact hc) hphase hleft ht4
    · rw [hfin]
      exact hstep.seqSide l q

end Sys2Proof.Machine

/-! PASS_SLOT: a pass that carries the upset of the row that issued it (03 R69, R94, R528). -/

namespace Sys2Proof.Machine
open Sys2Proof

/-- A pass whose upset ends its command does not start (R69). -/
theorem startPass_stopped {d e : Dev} {n : Nat} {p : PassRun} {ev : Upset} (c0 : Nat) (h : passUpset d n p ev = (e, false)) :
    startPass d n p c0 ev = e := by
  unfold startPass
  rw [h]

/-- The module of a partitioned array's next slot, its passes still to start (R94). -/
def nextSlot (d : Dev) (n : Nat) : Dev :=
  let a := arrOf d n
  setArr d n { a with slotNo := a.slotNo + 1, slotStart := a.slotStart + partSlot a.part, fillPtr := 0,
                      fillFrom := a.slotStart + partSlot a.part }

theorem arrOf_setArr_busy {d : Dev} {n : Nat} (a : Arr) (h : (core d n).ctxs ≠ []) : arrOf (setArr d n a) n = a :=
  congrArg CoreSt.arr (core_setCore_busy d n (c := { core d n with arr := a }) h)

theorem washDead_none {d : Dev} {n : Nat} (h : (arrOf d n).dead = []) : washDead d n = d := by
  have hdead : (core d n).arr.dead = [] := h
  unfold washDead
  simp [hdead]

/-- A slot whose one pass keeps its weights and finds its region ready starts that pass with the upset of the row that
issued it (R69, R95, R528). -/
theorem opPassSlot_keep {d : Dev} {n : Nat} {p : PassRun} (hbusy : (core d n).ctxs ≠ []) (hw : (arrOf d n).waiting = [p])
    (hpart : (arrOf d n).part ≠ 0) (hdead : (arrOf d n).dead = [])
    (hend : (arrOf d n).slotStart + partSlot (arrOf d n).part ≤ d.now + 1) (hsame : aPart p.act = (arrOf d n).part)
    (hslot : p.slot = (arrOf d n).slotNo + 1) (hkeep : aLoadMode p.act = 2) (hready : passReady d n p = true) :
    opPassSlot d n .none = startPass (nextSlot d n) n p ((arrOf d n).slotStart + partSlot (arrOf d n).part) p.ev := by
  have hwash : washDead (nextSlot d n) n = nextSlot d n :=
    washDead_none ((congrArg Arr.dead (arrOf_setArr_busy _ hbusy)).trans hdead)
  have hopen : ¬((arrOf d n).part = 0 ∨ d.now + 1 < (arrOf d n).slotStart + partSlot (arrOf d n).part) := by omega
  have hnext : setArr d n
      { arrOf d n with
        waiting := [p], slotNo := (arrOf d n).slotNo + 1, slotStart := (arrOf d n).slotStart + partSlot (arrOf d n).part
        fillPtr := 0, fillFrom := (arrOf d n).slotStart + partSlot (arrOf d n).part } = nextSlot d n := by
    unfold nextSlot
    rw [← hw]
  simp [opPassSlot, hopen, hw, hsame, hslot, hkeep, hready, hnext, hwash, slotPass]

/-! ### A module in which such a pass waits -/

/-- A PASS to sub-array 0 of partition P2 that keeps its weights. -/
def keepAct : ActionD := ⟨[1 * 2 ^ 28 + 2 * 2 ^ 21 + 6 * 2 ^ 8 + 6 * 2 ^ 4 + 1 * 2 ^ 2, 127, 8192, 16384, 0, 0, 0, 0]⟩

def keepItem : Item := .act 0 [] [] [] none

/-- It waits for slot 1, and its row has met an uncorrectable error of the accumulator memory. -/
def struckPass : PassRun :=
  { job := 3, uid := 1, actId := 5, item := keepItem, act := keepAct, issuedAt := 90, slot := 1, ev := .accUE }

/-- The context of command 1, with the pass on its engines. -/
def struckCtx : Ctx :=
  { uid := 1, image := ⟨false, 0, 0, 0, 0, 0, 0, 0, 0, 0, [], [], [keepAct]⟩, exts := [], todo := [], readyAt := 0,
    curAct := 0, curIdx := [], waitFrom := none, heldFrom := none, nextId := 6,
    running := [{ id := 5, kind := .pass, blocks := regionBlocks 0 1 0, item := keepItem, doneSem := none, bestEffort := false,
                  started := false, since := 90, doneAt := 0, endAt := 0, region := (0, 0), modes := [], pos := 0, len := 0,
                  held := [], sealedIn := false, flying := false, vreg := 0, ev := .accUE }],
    argmax := [], lastRegion := [(0, [1, 0])], fenceBE := false, stepOk := false, gateFrom := none, slipFrom := 0,
    swapFrom := none }

/-- The array of the core, in the last cycle of slot 0. -/
def struckArr : Arr := { idleArr with part := 1, fresh := false, waiting := [struckPass] }

/-- The running RUN_SEGMENT that issued the pass. -/
def struckCmd : Cmd :=
  { job := 3, queue := 0, ringIdx := 0, desc := 1, fetchedAt := 0, phase := .running, status := 0, detail := 0,
    retry := false, committed := false, cores := [0], coresLeft := [0], images := [], sess := [], objs := [], pinP := [],
    pinS := [], held := [], snap := [], gens := [], newCopies := [], newPages := [], newSlots := [], upds := [],
    t4left := 0, swaps := [], fenceUids := [], flushLeft := [], affected := false, orbit := false, tag := 7, slot := 0,
    reqAt := 0, doneAt := 0 }

/-- Job 3, resident on core 0, runs the command. -/
def struckState : State :=
  { pending := []
    dev := { resetDev with
      now := partSlot 1 - 1, state := .ready
      cores := [(0, { idleCore with ctxs := [(3, struckCtx)], arr := struckArr })]
      qm := { emptyQm with
        jobs := [(3, { freeJob with state := 1, resident := true, place := ⟨[⟨0, 0xFFFFFFFF, 0, 1, 0, 0⟩], [], []⟩ })]
        cmds := [(1, struckCmd)], uidCtr := 2 } } }

theorem struckState_sorted : TablesSorted struckState.dev := by constructor <;> decide +kernel

/-- The accumulator error ends the pass's command (R69). -/
theorem passUpset_struck : (passUpset (nextSlot struckState.dev 0) 0 struckPass struckPass.ev).2 = false := by decide +kernel

theorem current_passUpset_struck :
    (arrOf (passUpset (nextSlot struckState.dev 0) 0 struckPass struckPass.ev).1 0).current = [] := by decide +kernel

theorem current_opPassSlot_struck : (arrOf (opPassSlot struckState.dev 0 .none) 0).current = [] := by
  rw [opPassSlot_keep (p := struckPass) (by decide +kernel) rfl (by decide +kernel) rfl (by decide +kernel) rfl rfl rfl
    (by decide +kernel), startPass_stopped _ (Prod.ext rfl passUpset_struck)]
  exact current_passUpset_struck

/-- Refutes O58, in its last clause: the pass that keeps its weights carries the upset of the row that issued it, an
uncorrectable error of the accumulator memory; its command then ends and it does not start (R69), though PASS_SLOT itself
meets no upset. -/
theorem not_arrayLoadsItsWeights : ¬ Obligations.ArrayLoadsItsWeights := by
  unfold Obligations.ArrayLoadsItsWeights
  intro h
  obtain ⟨-, -, -, hslots⟩ := h struckState 0 struckPass struckCtx rfl struckState_sorted rfl rfl rfl (by decide)
  obtain ⟨-, hkeep⟩ := hslots (by decide +kernel) rfl (by decide +kernel)
  obtain ⟨t, ht, -, -, hstarted, -⟩ := hkeep rfl rfl rfl (by decide +kernel)
  have hdev : opPassSlot struckState.dev 0 .none = t.dev :=
    congrArg State.dev (Host.Outcome.next.inj ((okDev_live (s := struckState) rfl _).symm.trans ht))
  have hnone : (arrOf t.dev 0).current = [] := hdev ▸ current_opPassSlot_struck
  exact List.not_mem_nil (hnone ▸ hstarted)

end Sys2Proof.Machine

/-! SUPPORT. Slip thresholds, the debug halt and CNT_CLR: tables whose values change key by key, and the words of a page
(04 R108, R128, R130, R131). -/

namespace Sys2Proof.Machine
open Sys2Proof

/-! ### Tables filtered or changed value by value -/

theorem SMap.get?_mapVals {α β : Type} (m : SMap α) (f : Nat → α → β) (i : Nat) :
    SMap.get? (SMap.mapVals m f) i = (SMap.get? m i).map (f i) := by
  induction m with
  | nil => rfl
  | cons e r ih =>
    obtain ⟨k, v⟩ := e
    show (if i < k then none else if i = k then some (f k v) else SMap.get? (SMap.mapVals r f) i) = _
    rw [ih]
    simp only [SMap.get?]
    split
    · rfl
    · split
      · rename_i hik; rw [hik]; rfl
      · rfl

/-- An entry of a canonical table whose key is kept stays; no other does. -/
theorem SMap.get?_keep {α : Type} {m : SMap α} (p : Nat → Bool) (h : SMap.sorted m = true) (i : Nat) :
    SMap.get? (SMap.keep m (fun k _ => p k)) i = if p i then SMap.get? m i else none := by
  unfold SMap.sorted at h
  generalize 0 = lo at h
  induction m generalizing lo with
  | nil => simp [SMap.keep, SMap.get?]
  | cons e r ih =>
    obtain ⟨k, v⟩ := e
    simp only [SMap.sortedFrom, Bool.and_eq_true, decide_eq_true_eq] at h
    have hr := ih _ h.2
    unfold SMap.keep at hr ⊢
    rw [List.filter_cons]
    by_cases hpk : p k = true
    · rw [if_pos hpk]
      simp only [SMap.get?, hr]
      split
      · simp
      · split
        · rename_i hik; rw [hik, if_pos hpk]
        · rfl
    · rw [if_neg hpk]
      simp only [SMap.get?, hr]
      by_cases hik : i < k
      · rw [if_pos hik, SMap.get?_none_of_lt r h.2 (by omega)]
      · by_cases hek : i = k
        · rw [hek, if_neg hpk, if_neg hpk]
        · rw [if_neg hik, if_neg hek]

/-! ### Cores of a canonical table -/

theorem core_setCore_other {d : Dev} {n m : Nat} (x : CoreSt) (h : SMap.sorted d.cores = true) (hm : m ≠ n) :
    core (setCore d n x) m = core d m := by
  unfold core setCore
  exact SMap.getD_put_other _ _ _ h hm

/-- Only core n may differ, once it has been written. -/
theorem core_cores_other {d t : Dev} {n : Nat} {x : CoreSt} (ht : t.cores = (setCore d n x).cores)
    (h : SMap.sorted d.cores = true) (m : Nat) (hm : m ≠ n) : core t m = core d m :=
  (core_of_cores ht m).trans (core_setCore_other x h hm)

/-! ### Slip windows -/

/-- Within its window a core's slip window stays. -/
theorem rollWin_within {d : Dev} {n : Nat} (h : d.now < (core d n).slipWin + rc d n 0x164) : rollWin d n = d := by
  unfold rollWin
  simp [h]

/-- The slips of a core have reached its threshold (R128). -/
def SlipsReached (d : Dev) (n : Nat) : Prop := (core d n).slipBase + rc d n 0x160 ≤ rc d n 0x130

/-- The slips of a die have reached its threshold (R128). -/
def NocSlipsReached (d : Dev) (die : Nat) : Prop := (core d (die * 6)).nocBase + rg d die 16 0x130 ≤ rg d die 16 0x120

/-- The threshold is reached: the base leaves every count behind, and source 6 latches. -/
theorem opSchedSlip_reached {d : Dev} {n : Nat} (hth : rc d n 0x160 ≠ 0) (hw : rc d n 0x164 ≠ 0)
    (hwin : d.now < (core d n).slipWin + rc d n 0x164) (h : SlipsReached d n) :
    opSchedSlip d n = latchCoreSrc (setCore d n { core d n with slipBase := 2 ^ 32 }) n 6 (coreCap n none 0 8 0) := by
  unfold SlipsReached at h
  unfold opSchedSlip
  rw [rollWin_within hwin]
  simp [hth, hw, h]

theorem opSchedSlip_below {d : Dev} {n : Nat} (hwin : d.now < (core d n).slipWin + rc d n 0x164)
    (h : ¬ SlipsReached d n) : opSchedSlip d n = d := by
  unfold SlipsReached at h
  unfold opSchedSlip
  rw [rollWin_within hwin]
  simp [h]

theorem opNocSlip_reached {d : Dev} {die : Nat} (hth : rg d die 16 0x130 ≠ 0) (hw : rc d (die * 6) 0x164 ≠ 0)
    (hwin : d.now < (core d (die * 6)).slipWin + rc d (die * 6) 0x164) (h : NocSlipsReached d die) :
    opNocSlip d die =
      latch (setCore d (die * 6) { core d (die * 6) with nocBase := 2 ^ 32 }) die 16 1 ⟨0, 1, die, none, 8, 0⟩ := by
  unfold NocSlipsReached at h
  unfold opNocSlip
  rw [rollWin_within hwin]
  simp [hth, hw, h]

theorem opNocSlip_below {d : Dev} {die : Nat} (hwin : d.now < (core d (die * 6)).slipWin + rc d (die * 6) 0x164)
    (h : ¬ NocSlipsReached d die) : opNocSlip d die = d := by
  unfold NocSlipsReached at h
  unfold opNocSlip
  rw [rollWin_within hwin]
  simp [h]

/-- A source latched after a write of a core: its bit is set, that core is as written, no other differs, and the rest is what
latching may change. -/
theorem latch_setCore {d : Dev} {n : Nat} (x : CoreSt) {die page src : Nat} (c : Cap) (hs : TablesSorted d) (hsrc : src < 32) :
    let t := latch (setCore d n x) die page src c
    (rg t die page 0x020).testBit src = true ∧ core t n = x ∧ FaultSide { d with cores := t.cores } t ∧
      ∀ m, m ≠ n → core t m = core d m := by
  intro t
  have hside := (latchSide_latch (setCore d n x) die page src c).side
  refine ⟨latch_flag c (regsSorted_of_regs (setCore_regs d n x) hs.regs) hsrc, ?_, ?_, core_cores_other hside.cores hs.cores⟩
  · exact (core_of_cores hside.cores n).trans (core_setCore_same n x hs.cores)
  · rw [show t.cores = (setCore d n x).cores from hside.cores]
    exact hside

/-! ### Halt and step -/

theorem raw_opHalt_other {d : Dev} {n : Nat} (h : Bool) (hs : regsSorted d) {off : Nat}
    (ho : off ≠ regOff (n / 6) (n % 6) 0x100) : raw (opHalt d n h) off = raw d off :=
  raw_setRaw_other _ hs ho

theorem rc_opHalt {d : Dev} (n : Nat) (h : Bool) (hs : regsSorted d) : rc (opHalt d n h) n 0x100 = b2n h := by
  have hb : b2n h < 2 ^ 32 := by cases h <;> decide
  exact (rg_setRg_same _ _ _ _ hs).trans (Nat.mod_eq_of_lt hb)

/-- The contexts of a halted core may each issue one action. -/
def stepped (c : CoreSt) : CoreSt := { c with ctxs := SMap.mapVals c.ctxs (fun _ x => { x with stepOk := true }) }

theorem opStep_halted {d : Dev} {n : Nat} (h : (rc d n 0x100).testBit 0 = true) :
    opStep d n = setCore d n (stepped (core d n)) := by
  unfold opStep
  rw [if_pos h]
  rfl

theorem opStep_runs {d : Dev} {n : Nat} (h : (rc d n 0x100).testBit 0 = false) : opStep d n = d := by
  unfold opStep
  simp [h]

theorem ctxOf_stepped {d : Dev} {n j : Nat} {x : Ctx} (hs : SMap.sorted d.cores = true) (h : ctxOf d n j = some x) :
    ctxOf (setCore d n (stepped (core d n))) n j = some { x with stepOk := true } := by
  unfold ctxOf at h ⊢
  rw [core_setCore_same _ _ hs]
  unfold stepped
  rw [SMap.get?_mapVals, h]
  rfl

/-! ### Places in the register file -/

theorem offDie_regOff {die page reg : Nat} (hd : die < 64) (hp : page < 1024) (hr : reg < 4096) :
    offDie (regOff die page reg) = die := by
  unfold offDie bitsOf regOff
  rw [Nat.shiftRight_eq_div_pow]
  omega

theorem offPage_regOff {page reg : Nat} (die : Nat) (hp : page < 1024) (hr : reg < 4096) :
    offPage (regOff die page reg) = page := by
  unfold offPage bitsOf regOff
  rw [Nat.shiftRight_eq_div_pow]
  omega

theorem offReg_regOff {reg : Nat} (die page : Nat) (hr : reg < 4096) : offReg (regOff die page reg) = reg := by
  unfold offReg bitsOf regOff
  rw [Nat.shiftRight_eq_div_pow]
  omega

/-! ### CNT_CLR -/

/-- A word is a counter that CNT_CLR of a page clears. -/
def clearedBy (b : Blk) (die page off : Nat) : Bool :=
  offDie off == die && offPage off == page && decide (0x100 ≤ offReg off) &&
    (match findRow b (offReg off) with
     | some r => r.cnt
     | none => false)

theorem clearCounters_eq {d : Dev} {die page : Nat} {b : Blk} (h : blkAt die page = some b) :
    clearCounters d die page = { d with regs := SMap.keep d.regs (fun k _ => !clearedBy b die page k) } := by
  unfold clearCounters
  rw [h]
  rfl

/-- A counter of the page returns to its reset value, every other word stays (R130). -/
theorem raw_clearCounters {d : Dev} {die page : Nat} {b : Blk} (h : blkAt die page = some b) (hs : regsSorted d) (off : Nat) :
    raw (clearCounters d die page) off = if clearedBy b die page off then (resetWord off).toNat else raw d off := by
  rw [clearCounters_eq h]
  unfold raw SMap.getD
  dsimp only
  rw [SMap.get?_keep (fun k => !clearedBy b die page k) hs]
  cases clearedBy b die page off <;> rfl

/-- What follows the clearing changes cores alone: a new slip window on a CORE page, a new base on a CDIE page. -/
theorem opCntClr_cores (d : Dev) (die page : Nat) : ∃ l, opCntClr d die page = { clearCounters d die page with cores := l } := by
  unfold opCntClr restartSlips startWin setCore
  dsimp only
  split
  · split
    · exact ⟨_, rfl⟩
    · exact ⟨_, rfl⟩
  · exact ⟨_, rfl⟩
  · exact ⟨_, rfl⟩

theorem raw_opCntClr {d : Dev} {die page : Nat} {b : Blk} (h : blkAt die page = some b) (hs : regsSorted d) (off : Nat) :
    raw (opCntClr d die page) off = if clearedBy b die page off then (resetWord off).toNat else raw d off := by
  obtain ⟨l, hl⟩ := opCntClr_cores d die page
  rw [hl]
  exact raw_clearCounters h hs off

theorem regSide_opCntClr {d : Dev} {die page : Nat} {b : Blk} (h : blkAt die page = some b) :
    RegSide { d with cores := (opCntClr d die page).cores } (opCntClr d die page) := by
  obtain ⟨l, hl⟩ := opCntClr_cores d die page
  rw [hl, clearCounters_eq h]
  constructor <;> rfl

theorem clearedBy_regOff {b : Blk} {die page reg : Nat} {r : RegRow} (hd : die < 64) (hp : page < 1024) (hlo : 0x100 ≤ reg)
    (hr : reg < 4096) (hrow : findRow b reg = some r) (hcnt : r.cnt = true) : clearedBy b die page (regOff die page reg) = true := by
  unfold clearedBy
  rw [offDie_regOff hd hp hr, offPage_regOff die hp hr, offReg_regOff die page hr, hrow]
  simp [hlo, hcnt]

theorem clearedBy_other {b : Blk} {die page off : Nat}
    (h : offDie off ≠ die ∨ offPage off ≠ page ∨ ∀ r, findRow b (offReg off) = some r → r.cnt = false) :
    clearedBy b die page off = false := by
  unfold clearedBy
  rcases h with h | h | h
  · simp [h]
  · simp [h]
  · cases hrow : findRow b (offReg off) with
    | none => simp
    | some r => simp [h r hrow]

/-- CNT_CLR of a FABR page acts on FD0's; a page that is listed has that place (log 17). -/
def clrDie (b : Blk) (die : Nat) : Nat := if b = .fabr then 56 else die

theorem clrDie_lt {die : Nat} (b : Blk) (h : die < 64) : clrDie b die < 64 := by
  unfold clrDie
  split
  · decide
  · exact h

/-- The register of CNT_CLR of a page, as its accessor reaches it (R389). -/
def clrOff (acc : Acc) (b : Blk) (die page : Nat) : Nat :=
  match b with
  | .qmgrJ => jobOff acc (page - 0x200) 0x100
  | _ => regOff die page (cntClrReg b)

theorem execCntClr_performed {acc : Acc} {die : Fin 64} {page : Fin 1024} {s : State} {b : Blk}
    (h : blkAt die.val page.val = some b) (hp : Performed s.dev acc (clrOff acc b die.val page.val)) :
    exec (.cntClr acc die page) s = okDev s (opCntClr s.dev (clrDie b die.val) page.val) := by
  have hlisted : exec (.cntClr acc die page) s = okDev s (withReg s.dev acc (clrOff acc b die.val page.val)
      (fun d => opCntClr d (clrDie b die.val) page.val)) := by
    show execCntClr acc die page s = _
    unfold execCntClr
    rw [h]
    rfl
  rw [hlisted, withReg_performed hp]

theorem blkAt_fabr {die page : Nat} (h : blkAt die page = some .fabr) : page = 16 := by
  unfold blkAt at h
  grind (splits := 20)

theorem blkAt_clrDie {die page : Nat} {b : Blk} (h : blkAt die page = some b) : blkAt (clrDie b die) page = some b := by
  unfold clrDie
  split
  · rename_i hb
    subst hb
    rw [blkAt_fabr h]
    rfl
  · exact h

/-! ### The statement -/

/-- Settles O56: the slips' threshold, the halt and the step by what each operation does in its two cases; CNT_CLR keeps every
word but the page's counters (`raw_opCntClr`). -/
theorem slipsCountAndCoresHalt : Obligations.SlipsCountAndCoresHalt := by
  unfold Obligations.SlipsCountAndCoresHalt
  intro s acc hlive hs
  refine ⟨fun n hth hw hwin => ⟨fun h => ?_, fun h => ?_⟩, fun die hth hw hwin => ⟨fun h => ?_, fun h => ?_⟩,
    fun n hperf => ⟨fun h => ?_, fun hhalt => ?_, fun hrun => ?_⟩, fun die page b hb hperf => ?_⟩
  · obtain ⟨hflag, hcore, hside, hother⟩ := latch_setCore (page := n.val % 6) (src := 6)
      { core s.dev n.val with slipBase := 2 ^ 32 }
      (coreCap n.val none 0 8 0) (die := n.val / 6) hs (by decide)
    exact completes_okDev hlive (congrArg (okDev s) (opSchedSlip_reached hth hw hwin h))
      ⟨hflag, (rg_lt _ _ _ _).trans_eq (congrArg CoreSt.slipBase hcore).symm, hside, hother⟩
  · exact completes_okDev hlive (congrArg (okDev s) (opSchedSlip_below hwin (Nat.not_le.mpr h))) rfl
  · obtain ⟨hflag, hcore, hside, hother⟩ := latch_setCore (page := 16) (src := 1)
      { core s.dev (die.val * 6) with nocBase := 2 ^ 32 }
      ⟨0, 1, die.val, none, 8, 0⟩ (die := die.val) hs (by decide)
    exact completes_okDev hlive (congrArg (okDev s) (opNocSlip_reached hth hw hwin h))
      ⟨hflag, (rg_lt _ _ _ _).trans_eq (congrArg CoreSt.nocBase hcore).symm, hside, hother⟩
  · exact completes_okDev hlive (congrArg (okDev s) (opNocSlip_below hwin (Nat.not_le.mpr h))) rfl
  · exact completes_okDev hlive (congrArg (okDev s) (withReg_performed hperf _))
      ⟨rc_opHalt n.val h hs.regs, fun _ => raw_opHalt_other h hs.regs, regSide_setRaw _ _ _⟩
  · exact completes_okDev hlive (congrArg (okDev s) ((withReg_performed hperf _).trans (opStep_halted hhalt)))
      ⟨fun _ _ => ctxOf_stepped hs.cores, core_cores_other rfl hs.cores, rfl⟩
  · exact completes_okDev hlive (congrArg (okDev s) ((withReg_performed hperf _).trans (opStep_runs hrun))) rfl
  · have hb' := blkAt_clrDie hb
    refine completes_okDev hlive (execCntClr_performed hb hperf)
      ⟨fun reg r hlo hhi hrow hcnt => ?_, fun off hoff => ?_, regSide_opCntClr hb'⟩
    · exact (raw_opCntClr hb' hs.regs _).trans (if_pos (clearedBy_regOff (clrDie_lt b die.isLt) page.isLt hlo hhi hrow hcnt))
    · exact (raw_opCntClr hb' hs.regs _).trans (if_neg (Bool.eq_false_iff.mp (clearedBy_other hoff)))

end Sys2Proof.Machine

/-! SUPPORT. The end of a command: its record, and what of the module stays (04 R123, R127; 10 R311-R319; 14 R448). -/

namespace Sys2Proof.Machine
open Sys2Proof

/-! ### Canonical tables -/

theorem SMap.sorted_mapVals {α β : Type} (m : SMap α) (f : Nat → α → β) (h : SMap.sorted m = true) :
    SMap.sorted (SMap.mapVals m f) = true := by
  unfold SMap.sorted at h ⊢
  generalize 0 = lo at h ⊢
  induction m generalizing lo with
  | nil => rfl
  | cons e r ih =>
    obtain ⟨k, v⟩ := e
    simp only [SMap.sortedFrom, Bool.and_eq_true, decide_eq_true_eq] at h
    show (decide (lo ≤ k) && SMap.sortedFrom (k + 1) (SMap.mapVals r f)) = true
    rw [ih _ h.2]
    simp [h.1]

theorem SMap.sortedFrom_le {α : Type} {m : SMap α} {lo : Nat} (h : SMap.sortedFrom lo m = true) {e : Nat × α} (he : e ∈ m) :
    lo ≤ e.1 := by
  induction m generalizing lo with
  | nil => cases he
  | cons q r ih =>
    obtain ⟨k, v⟩ := q
    simp only [SMap.sortedFrom, Bool.and_eq_true, decide_eq_true_eq] at h
    rcases List.mem_cons.mp he with rfl | he
    · exact h.1
    · have hk := ih (lo := k + 1) h.2 he
      omega

/-- An entry of a canonical table is found by its key. -/
theorem SMap.get?_of_mem {α : Type} {m : SMap α} (h : SMap.sorted m = true) {e : Nat × α} (he : e ∈ m) :
    SMap.get? m e.1 = some e.2 := by
  unfold SMap.sorted at h
  generalize 0 = lo at h
  induction m generalizing lo with
  | nil => cases he
  | cons q r ih =>
    obtain ⟨k, v⟩ := q
    simp only [SMap.sortedFrom, Bool.and_eq_true, decide_eq_true_eq] at h
    simp only [SMap.get?]
    rcases List.mem_cons.mp he with rfl | he
    · simp
    · have hk := SMap.sortedFrom_le h.2 he
      rw [if_neg (by omega), if_neg (by omega)]
      exact ih he (k + 1) h.2

/-! ### Frames of a command's end -/

/-- Only memory, the external memories' engines and the queue managers' tables may differ; the table of commands stays
canonical. -/
structure EndSide (d t : Dev) : Prop where
  rest : t = { d with mem := t.mem, ext := t.ext, qm := t.qm }
  canon : SMap.sorted d.qm.cmds = true → SMap.sorted t.qm.cmds = true

theorem EndSide.refl (d : Dev) : EndSide d d := ⟨rfl, id⟩

theorem EndSide.trans {a b c : Dev} (h : EndSide a b) (k : EndSide b c) : EndSide a c :=
  ⟨by rw [k.rest, h.rest], k.canon ∘ h.canon⟩

theorem EndSide.of_cmds {d t : Dev} (hr : t = { d with mem := t.mem, ext := t.ext, qm := t.qm }) (hc : t.qm.cmds = d.qm.cmds) :
    EndSide d t :=
  ⟨hr, fun h => by rw [hc]; exact h⟩

theorem EndSide.foldl {α : Type} (f : Dev → α → Dev) (h : ∀ d x, EndSide d (f d x)) (l : List α) (d : Dev) :
    EndSide d (l.foldl f d) := by
  induction l generalizing d with
  | nil => exact EndSide.refl d
  | cons x r ih => exact (h d x).trans (ih _)

theorem endSide_mem (d : Dev) (m : Mem) : EndSide d { d with mem := m } := .of_cmds rfl rfl

theorem endSide_setCmd (d : Dev) (uid : Nat) (c : Cmd) : EndSide d (setCmd d uid c) := ⟨rfl, SMap.sorted_insert uid c⟩

theorem endSide_setPst (d : Dev) (p : Nat) (x : Pst) : EndSide d (setPst d p x) := .of_cmds rfl rfl

theorem endSide_setSlot (d : Dev) (s : Nat) (x : Slot) : EndSide d (setSlot d s x) := .of_cmds rfl rfl

theorem endSide_setFtl (d : Dev) (sd : Nat) (x : Ftl) : EndSide d (setFtl d sd x) := .of_cmds rfl rfl

/-! ### Freeing -/

theorem endSide_stWrite (d : Dev) (sid off : Nat) (bs : List Nat) : EndSide d (stWrite d sid off bs) := by
  unfold stWrite wcbDrop setBytes
  dsimp only
  split
  · exact endSide_mem _ _
  · exact .of_cmds rfl rfl

theorem endSide_dropGran (d : Dev) (sid : Nat) : EndSide d (dropGran d sid) := by
  unfold dropGran
  exact (endSide_stWrite _ _ _ _).trans ((endSide_mem _ _).trans (endSide_mem _ _))

theorem endSide_ftlUnmap (d : Dev) (kind id : Nat) : EndSide d (ftlUnmap d kind id) := by
  unfold ftlUnmap
  refine EndSide.foldl _ (fun d sd => ?_) _ d
  dsimp only
  split
  · exact .refl d
  · exact endSide_setFtl _ _ _

theorem endSide_freeGrans (d : Dev) (kind id : Nat) : EndSide d (freeGrans d kind id) := by
  have hunmap : EndSide d (if kind = 4 then ftlUnmap d kind id else d) := by
    split
    · exact endSide_ftlUnmap _ _ _
    · exact .refl d
  unfold freeGrans
  exact (hunmap.trans (EndSide.foldl (fun d (e : Nat × Nat) => dropGran d e.2) (fun d e => endSide_dropGran d e.2) _ _)).trans
    (endSide_mem _ _)

theorem endSide_freeCopy (d : Dev) (oid tier : Nat) : EndSide d (freeCopy d oid tier) := by
  unfold freeCopy
  split
  · exact .refl d
  · dsimp only
    split
    · exact (endSide_freeGrans _ _ _).trans (endSide_mem _ _)
    · exact (endSide_freeGrans _ _ _).trans (endSide_mem _ _)

theorem endSide_unpinPage (d : Dev) (pid : Nat) : EndSide d (unpinPage d pid) := by
  unfold unpinPage reclaimPage
  dsimp only
  split
  · exact (endSide_setPst _ _ _).trans
      ((endSide_freeGrans _ _ _).trans ((endSide_freeGrans _ _ _).trans (endSide_setPst _ _ _)))
  · exact endSide_setPst _ _ _

theorem endSide_unpinSlot (d : Dev) (sid : Nat) : EndSide d (unpinSlot d sid) := by
  unfold unpinSlot reclaimSlot
  dsimp only
  split
  · exact (endSide_setSlot _ _ _).trans ((endSide_freeGrans _ _ _).trans (endSide_setSlot _ _ _))
  · exact endSide_setSlot _ _ _

theorem endSide_unholdCopy (d : Dev) (oid tier : Nat) : EndSide d (unholdCopy d oid tier) := by
  unfold unholdCopy
  split
  · exact .refl d
  · dsimp only
    split
    · exact (endSide_mem _ _).trans (endSide_freeCopy _ _ _)
    · exact endSide_mem _ _

theorem endSide_releaseCmd (d : Dev) (c : Cmd) : EndSide d (releaseCmd d c) := by
  have hpages := EndSide.foldl unpinPage endSide_unpinPage
  have hslots := EndSide.foldl (fun d (p : Nat × Nat) => unpinSlot d p.1) (fun d p => endSide_unpinSlot d p.1)
  have hnew := EndSide.foldl (fun d (p : Nat × Nat × Nat) => unpinSlot d p.1) (fun d p => endSide_unpinSlot d p.1)
  have hcopies := EndSide.foldl (fun d (h : Nat × Nat) => unholdCopy d h.2 h.1) (fun d h => endSide_unholdCopy d h.2 h.1)
  unfold releaseCmd
  exact ((((hpages c.pinP d).trans (hpages c.newPages _)).trans (hslots c.pinS _)).trans (hnew c.newSlots _)).trans
    (hcopies c.held _)

theorem endSide_ftlDrop (d : Dev) (uid : Nat) : EndSide d (ftlDrop d uid) := by
  unfold ftlDrop
  refine EndSide.foldl _ (fun d sd => ?_) _ d
  dsimp only
  split
  · exact endSide_setFtl _ _ _
  · exact .refl d

theorem endSide_mapCmds (d : Dev) (ps : List Pre) (f : Nat → Cmd → Cmd) :
    EndSide d { d with qm := { d.qm with pres := ps, cmds := SMap.mapVals d.qm.cmds f } } :=
  ⟨rfl, SMap.sorted_mapVals d.qm.cmds f⟩

theorem endSide_undoCmd (d : Dev) (uid : Nat) (c : Cmd) : EndSide d (undoCmd d uid c) := by
  unfold undoCmd
  split
  · exact .refl d
  · have hfreed : EndSide d (c.newCopies.foldl (fun d t => freeCopy d t.2 t.1) (c.gens.foldl (fun d e => dropGran d e.2)
        (ftlDrop d uid))) :=
      ((endSide_ftlDrop d uid).trans
        (EndSide.foldl (fun d (e : Nat × Nat) => dropGran d e.2) (fun d e => endSide_dropGran d e.2) _ _)).trans
        (EndSide.foldl (fun d (t : Nat × Nat) => freeCopy d t.2 t.1) (fun d t => endSide_freeCopy d t.2 t.1) _ _)
    refine hfreed.trans ?_
    dsimp only
    split
    · exact .refl _
    · split
      · exact (endSide_mapCmds _ _ _).trans (.of_cmds rfl rfl)
      · exact endSide_mapCmds _ _ _

/-! ### What waits for a command goes on -/

/-- The queue managers' tables may differ, but not the record of command `u`. -/
structure WakeSide (u : Nat) (d t : Dev) : Prop where
  rest : t = { d with qm := t.qm }
  canon : SMap.sorted d.qm.cmds = true → SMap.sorted t.qm.cmds = true
  same : cmd t u = cmd d u

theorem WakeSide.refl (u : Nat) (d : Dev) : WakeSide u d d := ⟨rfl, id, rfl⟩

theorem WakeSide.trans {u : Nat} {a b c : Dev} (h : WakeSide u a b) (k : WakeSide u b c) : WakeSide u a c :=
  ⟨by rw [k.rest, h.rest], k.canon ∘ h.canon, k.same.trans h.same⟩

theorem WakeSide.foldl {α : Type} {u : Nat} (f : Dev → α → Dev) (l : List α) (h : ∀ x ∈ l, ∀ d, WakeSide u d (f d x))
    (d : Dev) : WakeSide u d (l.foldl f d) := by
  induction l generalizing d with
  | nil => exact .refl u d
  | cons x r ih =>
    exact (h x List.mem_cons_self d).trans (ih (fun y hy => h y (List.mem_cons_of_mem _ hy)) _)

theorem wakeSide_setCmd {u v : Nat} (d : Dev) (c : Cmd) (h : u ≠ v) : WakeSide u d (setCmd d v c) :=
  ⟨rfl, SMap.sorted_insert v c, cmd_setCmd_other d c h⟩

theorem wakeSide_requestCommit {u v : Nat} (d : Dev) (h : u ≠ v) : WakeSide u d (requestCommit d v) := by
  unfold requestCommit
  split
  · exact .refl u d
  · split
    · exact (wakeSide_setCmd d _ h).trans ⟨rfl, id, rfl⟩
    · exact .refl u d

/-- A command that does not run is not among the running ones. -/
theorem ne_of_running {d : Dev} {u : Nat} {c : Cmd} {e : Nat × Cmd} (hs : SMap.sorted d.qm.cmds = true) (hc : cmd d u = some c)
    (hp : c.phase ≠ .running) (he : e ∈ d.qm.cmds) (hr : e.2.phase = .running) : u ≠ e.1 := by
  rintro rfl
  obtain rfl : c = e.2 := Option.some.inj (hc.symm.trans (SMap.get?_of_mem hs he))
  exact hp hr

theorem wakeSide_wakeFences {d : Dev} {u : Nat} {c : Cmd} (hs : SMap.sorted d.qm.cmds = true) (hc : cmd d u = some c)
    (hp : c.phase ≠ .running) (v : Nat) : WakeSide u d (wakeFences d v) := by
  unfold wakeFences
  refine WakeSide.foldl _ _ (fun e he d' => ?_) d
  dsimp only
  split
  · rename_i hfires
    simp only [Bool.and_eq_true, decide_eq_true_eq] at hfires
    have hne := ne_of_running hs hc hp he hfires.1.1
    split
    · exact (wakeSide_setCmd _ _ hne).trans (wakeSide_requestCommit _ hne)
    · exact wakeSide_setCmd _ _ hne
  · exact .refl u d'

theorem wakeSide_wakeSwaps {d : Dev} {u : Nat} {c : Cmd} (hs : SMap.sorted d.qm.cmds = true) (hc : cmd d u = some c)
    (hp : c.phase ≠ .running) : WakeSide u d (wakeSwaps d) := by
  unfold wakeSwaps
  refine WakeSide.foldl _ _ (fun e he d' => ?_) d
  split
  · rename_i hfires
    simp only [Bool.and_eq_true, decide_eq_true_eq] at hfires
    exact wakeSide_requestCommit _ (ne_of_running hs hc hp he hfires.1.1.1)
  · exact .refl u d'

/-! ### A command that has completed -/

/-- The record of a command that has completed at a time: it holds and has made nothing any more. -/
def doneCmd (now : Nat) (c : Cmd) : Cmd :=
  { c with gens := [], newCopies := [], newPages := [], newSlots := [], pinP := [], pinS := [], held := [], doneAt := now }

/-- The module once what a command did is undone and given back, and its entry is the next of its job to be written. -/
def finished (d : Dev) (uid : Nat) (c : Cmd) : Dev :=
  let e := setCmd (releaseCmd (undoCmd d uid c) c) uid (doneCmd d.now c)
  { e with qm := { e.qm with doneQ := e.qm.doneQ ++ [uid] } }

theorem endSide_finished (d : Dev) (uid : Nat) (c : Cmd) : EndSide d (finished d uid c) :=
  (((endSide_undoCmd d uid c).trans (endSide_releaseCmd (undoCmd d uid c) c)).trans (endSide_setCmd _ uid (doneCmd d.now c))).trans
    (.of_cmds rfl rfl)

theorem cmd_finished (d : Dev) (uid : Nat) (c : Cmd) : cmd (finished d uid c) uid = some (doneCmd d.now c) :=
  cmd_setCmd_same (releaseCmd (undoCmd d uid c) c) uid _

theorem completeCmd_eq {d : Dev} {uid : Nat} {c : Cmd} (hc : cmd d uid = some c) :
    completeCmd d uid = wakeSwaps (wakeFences (finished d uid c) uid) := by
  unfold completeCmd
  rw [hc]
  rfl

/-- What goes on once an ended command has completed leaves all but the queue managers' tables, and its record. -/
theorem completeCmd_ended {d : Dev} {uid : Nat} {c : Cmd} (hs : SMap.sorted d.qm.cmds = true) (hc : cmd d uid = some c)
    (hp : c.phase = .ended) : WakeSide uid (finished d uid c) (completeCmd d uid) := by
  have hrun : (doneCmd d.now c).phase ≠ .running := by
    unfold doneCmd
    rw [hp]
    decide
  have hfences := wakeSide_wakeFences ((endSide_finished d uid c).canon hs) (cmd_finished d uid c) hrun uid
  rw [completeCmd_eq hc]
  exact hfences.trans (wakeSide_wakeSwaps (hfences.canon ((endSide_finished d uid c).canon hs))
    (hfences.same.trans (cmd_finished d uid c)) hrun)

/-! ### A command that ends -/

/-- Taking a command's work off its cores counts its slips in registers; then only cores differ, and the count of free values. -/
theorem dropWork_latchSide (d : Dev) (uid : Nat) (killed : Bool) :
    ∃ e l k, LatchSide d e ∧ dropWork d uid killed = { e with cores := l, freeCtr := k } := by
  have hslip : ∀ (d : Dev) (n : Nat) (x : Ctx), LatchSide d (slipEnd d n x) := fun d n x => by
    unfold slipEnd slipCycles bump64
    split
    · exact .refl d
    · exact .setRg64 _ (by unfold regOff; omega) (by unfold regOff; omega)
  have hfold : LatchSide d (d.cores.foldl (fun d e =>
      e.2.ctxs.foldl (fun d x => if x.2.uid = uid then slipEnd d e.1 x.2 else d) d) d) := by
    refine LatchSide.foldl _ (fun d e => LatchSide.foldl _ (fun d x => ?_) _ d) _ d
    split
    · exact hslip _ _ _
    · exact .refl d
  unfold dropWork
  dsimp only
  split
  · exact ⟨_, _, _, hfold, rfl⟩
  · exact ⟨_, _, _, hfold, rfl⟩

/-- The record of a command that has ended with a status. -/
def endedCmd (c : Cmd) (status detail : Nat) (retry : Bool) : Cmd :=
  { c with phase := .ended, status := status, detail := detail % 2 ^ 64, retry := retry, coresLeft := [] }

/-- The module once the record of a command that ends is written and nothing is on its way for it any more. -/
def stopped (d : Dev) (uid : Nat) (c : Cmd) : Dev :=
  let e := dropCmdReqs (setCmd d uid c) uid
  { e with qm := { e.qm with commitQ := e.qm.commitQ.filter (· != uid) } }

theorem endCmd_eq {d : Dev} {uid : Nat} {c : Cmd} (hc : cmd d uid = some c) (hp : c.phase ≠ .ended)
    (status detail : Nat) (retry : Bool) : endCmd d uid status detail retry =
      completeCmd (dropWork (stopped d uid (endedCmd c status detail retry)) uid true) uid := by
  unfold endCmd
  rw [hc]
  dsimp only
  rw [if_neg hp]
  rfl

/-- A command that ends has its status and keeps its COMMITTED bit; no FLT_STAT bit falls, and no signal on its way is lost. -/
theorem endCmd_ends {d : Dev} {uid : Nat} {c : Cmd} (hs : SMap.sorted d.qm.cmds = true) (hc : cmd d uid = some c)
    (hp : c.phase ≠ .ended) (status detail : Nat) (retry : Bool) :
    EndedAs (endCmd d uid status detail retry) uid c status retry ∧ (endCmd d uid status detail retry).sigs = d.sigs ∧
      (regsSorted d → ∀ off i, off % 4096 = 0x020 → (raw d off).testBit i = true →
        (raw (endCmd d uid status detail retry) off).testBit i = true) := by
  rw [endCmd_eq hc hp]
  obtain ⟨e, l, k, hlatch, hdrop⟩ := dropWork_latchSide (stopped d uid (endedCmd c status detail retry)) uid true
  have hqm := hlatch.side.qm
  have hrec : cmd { e with cores := l, freeCtr := k } uid = some (endedCmd c status detail retry) := by
    unfold cmd
    rw [hqm]
    exact cmd_setCmd_same d uid _
  have hsorted : SMap.sorted ({ e with cores := l, freeCtr := k } : Dev).qm.cmds = true := by
    rw [hqm]
    exact SMap.sorted_insert _ _ hs
  rw [hdrop]
  have hwake := completeCmd_ended hsorted hrec rfl
  have hfin := endSide_finished { e with cores := l, freeCtr := k } uid (endedCmd c status detail retry)
  refine ⟨⟨_, hwake.same.trans (cmd_finished _ _ _), rfl, rfl, rfl, rfl⟩, ?_, fun hregs off i ho hb => ?_⟩
  · rw [hwake.rest, hfin.rest]
    exact hlatch.side.sigs
  · have hflag := hlatch.flags (regsSorted_of_regs (d := d) rfl hregs) off i ho hb
    rw [hwake.rest, hfin.rest]
    exact hflag

end Sys2Proof.Machine

/-! SUPPORT. Register words that an operation keeps (04 R127, R131; 14 R439-R462). -/

namespace Sys2Proof.Machine
open Sys2Proof

/-- The register word at an offset stays, and the register file stays canonical. -/
structure KeepsWord (off : Nat) (d t : Dev) : Prop where
  canon : regsSorted d → regsSorted t
  same : regsSorted d → raw t off = raw d off

namespace KeepsWord
variable {off : Nat}

theorem refl (d : Dev) : KeepsWord off d d := ⟨id, fun _ => rfl⟩

theorem trans {a b c : Dev} (h : KeepsWord off a b) (k : KeepsWord off b c) : KeepsWord off a c :=
  ⟨k.canon ∘ h.canon, fun s => (k.same (h.canon s)).trans (h.same s)⟩

theorem of_regs {d t : Dev} (h : t.regs = d.regs) : KeepsWord off d t := ⟨regsSorted_of_regs h, fun _ => raw_of_regs h off⟩

theorem setRaw {o : Nat} (d : Dev) (v : Nat) (h : off ≠ o) : KeepsWord off d (setRaw d o v) :=
  ⟨regsSorted_setRaw o v, fun s => raw_setRaw_other v s h⟩

theorem setRg {die page reg : Nat} (d : Dev) (v : Nat) (h : off ≠ regOff die page reg) : KeepsWord off d (setRg d die page reg v) :=
  setRaw d v h

theorem setRg64 {die page reg : Nat} (d : Dev) (v : Nat) (h : off ≠ regOff die page reg) (h' : off ≠ regOff die page (reg + 4)) :
    KeepsWord off d (setRg64 d die page reg v) :=
  (setRg d _ h).trans (setRg _ _ h')

theorem bump {die page reg : Nat} (d : Dev) (n : Nat) (h : off ≠ regOff die page reg) : KeepsWord off d (bump d die page reg n) :=
  setRg d _ h

theorem foldl {α : Type} (f : Dev → α → Dev) (h : ∀ d x, KeepsWord off d (f d x)) (l : List α) (d : Dev) :
    KeepsWord off d (l.foldl f d) := by
  induction l generalizing d with
  | nil => exact refl d
  | cons x r ih => exact (h d x).trans (ih _)

end KeepsWord

/-! ### Issue -/

/-- A word that no issue counts in: neither the slips' cycles nor the skipped iterations of a core (R112, R127). -/
def NoIssueWord (off : Nat) : Prop := off % 4096 ≠ 0x134 ∧ off % 4096 ≠ 0x138 ∧ off % 4096 ≠ 0x148

theorem keepsWord_slipEnd {off : Nat} (h : NoIssueWord off) (d : Dev) (n : Nat) (x : Ctx) : KeepsWord off d (slipEnd d n x) := by
  obtain ⟨h134, h138, -⟩ := h
  unfold slipEnd slipCycles bump64
  split
  · exact .refl d
  · exact .setRg64 d _ (by unfold regOff; omega) (by unfold regOff; omega)

theorem keepsWord_skipItems {off : Nat} (h : NoIssueWord off) (d : Dev) (n j : Nat) : KeepsWord off d (skipItems d n j) := by
  obtain ⟨-, -, h148⟩ := h
  unfold skipItems
  split
  · exact .refl d
  · dsimp only
    split
    · exact .refl d
    · exact (KeepsWord.bump d _ (by unfold regOff; omega)).trans (.of_regs rfl)

theorem keepsWord_issued {off : Nat} (h : NoIssueWord off) (d : Dev) (n j : Nat) : KeepsWord off d (issued d n j) := by
  have hfin : ∀ e : Dev, KeepsWord off e (finishCore e n j) := fun e => by
    obtain ⟨l, q, hl⟩ := finishCore_qm e n j
    rw [hl]
    exact .of_regs rfl
  have hmove : ∀ (e : Dev) (y : Ctx), KeepsWord off e (finishCore (skipItems (setCtx e n j y) n j) n j) := fun e y =>
    ((KeepsWord.of_regs (setCore_regs _ _ _)).trans (keepsWord_skipItems h (setCtx e n j y) n j)).trans (hfin _)
  unfold issued
  split
  · dsimp only
    split
    · exact (keepsWord_slipEnd h d n _).trans (hmove _ _)
    · exact .refl d
  · exact .refl d

end Sys2Proof.Machine

/-! NOP, SIGNAL, WAIT and the arrival of signals (04 R107, R108, R119 to R122, R125 to R127). -/

namespace Sys2Proof.Machine
open Sys2Proof

/-! ### The context moves on -/

/-- What an issue leaves, whatever runs on the engines: the context has moved on, and its command may have requested the
token. -/
theorem issued_moves {d : Dev} {n j : Nat} {x : Ctx} {it : Item} {rest : List Item} (hx : ctxOf d n j = some x)
    (ht : x.todo = it :: rest) :
    ∃ (g : SMap Word) (l : SMap Cmd) (q : List Nat) (x' : Ctx),
      issued d n j = { setCtx { d with regs := g } n j x' with qm := { d.qm with cmds := l, commitQ := q } } ∧
        Advanced d.now x x' := by
  obtain ⟨g0, hg0⟩ := slipEnd_regs_only d n x
  obtain ⟨g, y, hs, hy, htodo, hready⟩ := skipItems_setCtx { d with regs := g0 } n j
    { x with todo := rest, readyAt := d.now + 1, curAct := itemAi it, curIdx := itemIdx it, waitFrom := none,
             heldFrom := none, fenceBE := false, stepOk := false, gateFrom := none, swapFrom := none }
  obtain ⟨l, q, hfin⟩ := finishCore_qm (setCtx { d with regs := g } n j y) n j
  refine ⟨g, l, q, y, ?_, ⟨by rw [hy], by rw [ht]; exact htodo, hready, by rw [hy], by rw [hy]⟩⟩
  unfold issued
  simp only [hx, ht]
  rw [hg0]
  dsimp only
  rw [hs, hfin]
  rfl

/-- An issue after a step of its core: the context moves on, the semaphores stay as the step left them. -/
theorem issued_after {d e : Dev} {n j : Nat} {x : Ctx} {it : Item} {rest : List Item} (h : CoreStep d e n)
    (hx : ctxOf e n j = some x) (ht : x.todo = it :: rest) :
    (∃ x', ctxOf (issued e n j) n j = some x' ∧ Advanced d.now x x') ∧ (∀ k, semOf (issued e n j) n k = semOf e n k) ∧
      SeqSide d (issued e n j) n := by
  obtain ⟨g, l, q, x', he, hadv⟩ := issued_moves hx ht
  have hnow : e.now = d.now := by rw [h.rest]
  have hstep : SemStep e (setCtx { e with regs := g } n j x') n := (semStep_regs e n g).trans (semStep_setCtx _ n j x')
  rw [he]
  refine ⟨⟨x', ctxOf_setCtx_same { e with regs := g } n j x', hnow ▸ hadv⟩, semOf_congr hstep.sems hstep.undef, ?_⟩
  exact (h.trans hstep.toCoreStep).seqSide l q

/-! ### Semaphores of a canonical table -/

theorem SMap.mem_of_get? {α : Type} {m : SMap α} {i : Nat} {a : α} (h : SMap.get? m i = some a) : (i, a) ∈ m := by
  induction m with
  | nil => cases h
  | cons e r ih =>
    obtain ⟨k, v⟩ := e
    simp only [SMap.get?] at h
    split at h
    · cases h
    · split at h
      · rename_i hik
        obtain rfl := Option.some.inj h
        rw [hik]
        exact List.mem_cons_self
      · exact List.mem_cons_of_mem _ (ih h)

theorem TablesSorted.sems_core {d : Dev} (hs : TablesSorted d) (n : Nat) : SMap.sorted (core d n).sems = true := by
  unfold core SMap.getD
  cases h : SMap.get? d.cores n with
  | none => rfl
  | some c => exact hs.sems _ (SMap.mem_of_get? h)

/-- A semaphore that is set has its value; the others of the core keep theirs. -/
theorem semOf_setSem_sorted {d : Dev} {n sem v : Nat} (hc : (core d n).ctxs ≠ []) (hs : SMap.sorted (core d n).sems = true)
    (k : Nat) : semOf (setSem d n sem v) n k = if k = sem then v else semOf d n k := by
  rw [semOf_eq, semOf_eq, core_setSem hc, find?_semCut]
  by_cases hk : k = sem
  · subst hk
    simp only [if_true, Option.elim_none]
    exact SMap.getD_put_same _ _ _ hs
  · simp only [if_neg hk, SMap.getD_put_other v 0 0 hs hk]

theorem coreStep_setSem {d : Dev} {n : Nat} (hc : (core d n).ctxs ≠ []) (sem v : Nat) : CoreStep d (setSem d n sem v) n :=
  coreStep_setCore hc rfl

theorem ctxOf_setSem {d : Dev} {n j : Nat} {x : Ctx} (hx : ctxOf d n j = some x) (sem v : Nat) :
    ctxOf (setSem d n sem v) n j = some x := by
  unfold ctxOf
  rw [core_setSem (ctxs_ne_nil hx)]
  exact hx

/-! ### WAIT -/

/-- A WAIT that takes its count moves on (R119). -/
theorem issued_takes {d : Dev} {n j k v : Nat} {x : Ctx} {it : Item} {rest : List Item} (hs : TablesSorted d)
    (hx : ctxOf d n j = some x) (ht : x.todo = it :: rest) :
    let t := issued (setSem d n k (semOf d n k - v)) n j
    semOf t n k = semOf d n k - v ∧ (∀ i, i ≠ k → semOf t n i = semOf d n i) ∧
      (∃ x', ctxOf t n j = some x' ∧ Advanced d.now x x') ∧ SeqSide d t n := by
  intro t
  have hbusy := ctxs_ne_nil hx
  have hset := semOf_setSem_sorted (sem := k) (v := semOf d n k - v) hbusy (hs.sems_core n)
  obtain ⟨hadv, hsem, hside⟩ := issued_after (coreStep_setSem hbusy k _) (ctxOf_setSem hx k (semOf d n k - v)) ht
  exact ⟨(hsem k).trans ((hset k).trans (if_pos rfl)), fun i hi => (hsem i).trans ((hset i).trans (if_neg hi)), hadv, hside⟩

/-- A context that a WAIT holds from now on. -/
def waiting (d : Dev) (x : Ctx) (it : Item) : Ctx :=
  { x with waitFrom := some d.now, curAct := itemAi it, curIdx := itemIdx it }

theorem opWait_takes {d : Dev} {n j : Nat} {x : Ctx} {it : Item} (h : MayIssue d n j 6 x it)
    (hv : aValue (actOf x.image it) ≤ semOf d n (bitsOf (aw (actOf x.image it) 1) 7 0)) :
    opWait d n j = issued (setSem d n (bitsOf (aw (actOf x.image it) 1) 7 0)
      (semOf d n (bitsOf (aw (actOf x.image it) 1) 7 0) - aValue (actOf x.image it))) n j :=
  (issueAct_of_mayIssue h _).trans (if_pos hv)

theorem opWait_holds {d : Dev} {n j : Nat} {x : Ctx} {it : Item} (h : MayIssue d n j 6 x it)
    (hv : semOf d n (bitsOf (aw (actOf x.image it) 1) 7 0) < aValue (actOf x.image it)) :
    opWait d n j = slipCore (setCtx d n j (waiting d x it)) n :=
  (issueAct_of_mayIssue h _).trans (if_neg (Nat.not_le.mpr hv))

theorem CoreStep.seqSide_self {d e : Dev} {n : Nat} (h : CoreStep d e n) : SeqSide d e n := h.seqSide e.qm.cmds e.qm.commitQ

theorem ctxOf_slipCore {d : Dev} {n j : Nat} {x : Ctx} (hx : ctxOf d n j = some x) : ctxOf (slipCore d n) n j = some x := by
  have hroll : ctxOf (rollWin d n) n j = some x := by
    unfold rollWin
    dsimp only
    split
    · exact hx
    · refine Eq.trans (congrArg (fun c : CoreSt => SMap.get? c.ctxs j) (core_setCore_busy d n ?_)) hx
      exact ctxs_ne_nil hx
  unfold slipCore
  rw [ctxOf_of_cores (bump_cores _ _ _ _ _), ctxOf_of_cores (bump_cores _ _ _ _ _)]
  exact hroll

/-- A WAIT that does not find its count holds its context and changes no count (R119). -/
theorem slipCore_waits {d : Dev} {n j : Nat} {x : Ctx} {it : Item} :
    let t := slipCore (setCtx d n j (waiting d x it)) n
    (∀ i, semOf t n i = semOf d n i) ∧
      (∃ x', ctxOf t n j = some x' ∧ x'.waitFrom = some d.now ∧ x'.todo = x.todo ∧ x'.uid = x.uid) ∧ SeqSide d t n := by
  have hx := ctxOf_setCtx_same d n j (waiting d x it)
  have hstep := (semStep_setCtx d n j (waiting d x it)).trans (semStep_slipCore (ctxs_ne_nil hx))
  exact ⟨semOf_congr hstep.sems hstep.undef, ⟨_, ctxOf_slipCore hx, rfl, rfl, rfl⟩, hstep.toCoreStep.seqSide_self⟩

/-- A held WAIT that finds its count within its limit. -/
theorem opWaitComplete_takes {d : Dev} {n j w : Nat} {x : Ctx} {it : Item} {rest : List Item} (hx : ctxOf d n j = some x)
    (ht : x.todo = it :: rest) (hw : x.waitFrom = some w)
    (hv : aValue (actOf x.image it) ≤ semOf d n (bitsOf (aw (actOf x.image it) 1) 7 0))
    (hlim : rc d n 0x168 = 0 ∨ d.now ≤ w + rc d n 0x168) :
    opWaitComplete d n j = issued (setSem d n (bitsOf (aw (actOf x.image it) 1) 7 0)
      (semOf d n (bitsOf (aw (actOf x.image it) 1) 7 0) - aValue (actOf x.image it))) n j := by
  unfold opWaitComplete
  rw [hx]
  dsimp only
  rw [hw, ht]
  dsimp only
  rw [if_pos (by simpa [hv] using hlim)]

theorem opWaitComplete_waits {d : Dev} {n j w : Nat} {x : Ctx} {it : Item} {rest : List Item} (hx : ctxOf d n j = some x)
    (ht : x.todo = it :: rest) (hw : x.waitFrom = some w)
    (hv : semOf d n (bitsOf (aw (actOf x.image it) 1) 7 0) < aValue (actOf x.image it)) : opWaitComplete d n j = d := by
  unfold opWaitComplete
  rw [hx]
  dsimp only
  rw [hw, ht]
  dsimp only
  rw [if_neg (by simp [hv])]

/-! ### SIGNAL -/

theorem ports_setRaw (d : Dev) (off v : Nat) : (setRaw d off v).ports = d.ports := by simp only [setRaw]

theorem ports_bump (d : Dev) (die page reg n : Nat) : (bump d die page reg n).ports = d.ports := by
  simp only [bump, setRg, ports_setRaw]

/-- A signal has been counted on its die, and beside it only what carries it has changed. -/
structure Signalled (d e : Dev) (n : Nat) : Prop where
  canon : regsSorted e
  count : rg e (coreDie n) 16 0x128 = min (rg d (coreDie n) 16 0x128 + 1) (2 ^ 32 - 1)
  now : e.now = d.now
  cores : e.cores = d.cores
  mem : e.mem = d.mem
  jobs : e.qm.jobs = d.qm.jobs

theorem rg_issued_signals {e : Dev} (h : regsSorted e) (n j : Nat) :
    rg (issued e n j) (coreDie n) 16 0x128 = rg e (coreDie n) 16 0x128 := by
  have hword : NoIssueWord (regOff (coreDie n) 16 0x128) := by
    unfold NoIssueWord regOff
    omega
  exact (keepsWord_issued hword e n j).same h

theorem issued_sends {e : Dev} {n j : Nat} {x : Ctx} {it : Item} {rest : List Item}
    (hx : ctxOf e n j = some x) (ht : x.todo = it :: rest) :
    (issued e n j).sigs = e.sigs ∧ (issued e n j).ports = e.ports ∧
      (∃ x', ctxOf (issued e n j) n j = some x' ∧ Advanced e.now x x') ∧ (issued e n j).mem = e.mem ∧
      (issued e n j).qm.jobs = e.qm.jobs := by
  obtain ⟨g, l, q, x', he, hadv⟩ := issued_moves hx ht
  rw [he]
  exact ⟨rfl, rfl, ⟨x', ctxOf_setCtx_same { e with regs := g } n j x', hadv⟩, rfl, rfl⟩

/-- A SIGNAL has issued: its context has moved on, and of what it sends nothing has changed since. -/
theorem Signalled.issued {d e : Dev} {n j : Nat} {x : Ctx} {it : Item} {rest : List Item} (h : Signalled d e n)
    (hx : ctxOf d n j = some x) (ht : x.todo = it :: rest) :
    let t := issued e n j
    t.sigs = e.sigs ∧ t.ports = e.ports ∧
      rg t (coreDie n) 16 0x128 = min (rg d (coreDie n) 16 0x128 + 1) (2 ^ 32 - 1) ∧
      (∃ x', ctxOf t n j = some x' ∧ Advanced d.now x x') ∧ t.mem = d.mem ∧ t.qm.jobs = d.qm.jobs := by
  obtain ⟨hsigs, hports, ⟨x', hx', hadv⟩, hmem, hjobs⟩ := issued_sends ((ctxOf_of_cores h.cores n j).trans hx) ht
  have hcount := rg_issued_signals h.canon n j
  rw [h.count] at hcount
  rw [h.now] at hadv
  exact ⟨hsigs, hports, hcount, ⟨x', hx', hadv⟩, hmem.trans h.mem, hjobs.trans h.jobs⟩

/-- A SIGNAL that no fence holds and that names no foreign semaphore is sent. -/
theorem opSignal_sends {d : Dev} {n j : Nat} {x : Ctx} {it : Item} (h : MayIssue d n j 5 x it)
    (hfence : aFence (actOf x.image it) = true → copyLeft x false = false)
    (hown : aSigRemote (actOf x.image it) = false →
      semForeign d (aSigCore (actOf x.image it)) j (aSem (actOf x.image it)) = false) :
    opSignal d n j .none = sendSignal d n j x it := by
  have hf : ¬ (aFence (actOf x.image it) && copyLeft x false) = true := by
    cases hb : aFence (actOf x.image it)
    · simp
    · simp [hfence hb]
  have ho : ¬ (!aSigRemote (actOf x.image it) && semForeign d (aSigCore (actOf x.image it)) j (aSem (actOf x.image it))) = true := by
    cases hb : aSigRemote (actOf x.image it)
    · simp [hown hb]
    · simp
  refine (issueAct_of_mayIssue h _).trans ?_
  dsimp only
  rw [if_neg hf, if_neg ho]

section Send
variable {d : Dev} {n j : Nat} {x : Ctx} {it : Item} {c : Cmd}

/-- The module with a flit at the end of a core's network port, the signal counted on its die. -/
def flitSent (d : Dev) (n : Nat) (f : PortJob) : Dev := pushPort (bump d (coreDie n) 16 0x128 1) n f

/-- The signal within its core, visible in the next cycle. -/
def sigSent (d : Dev) (n : Nat) (g : Sig) : Dev :=
  { bump (bump d (coreDie n) 16 0x128 1) (coreDie n) 16 0x12C 1 with sigs := d.sigs ++ [g] }

theorem regs_flitSent (d : Dev) (n : Nat) (f : PortJob) : (flitSent d n f).regs = (bump d (coreDie n) 16 0x128 1).regs := by
  simp only [flitSent, pushPort]

theorem regs_sigSent (d : Dev) (n : Nat) (g : Sig) :
    (sigSent d n g).regs = (bump (bump d (coreDie n) 16 0x128 1) (coreDie n) 16 0x12C 1).regs := by
  simp only [sigSent]

theorem signalled_flitSent (n : Nat) (hregs : regsSorted d) (f : PortJob) : Signalled d (flitSent d n f) n where
  canon := regsSorted_of_regs (regs_flitSent d n f) (regsSorted_bump (coreDie n) 16 0x128 1 hregs)
  count := by rw [rg_of_regs (regs_flitSent d n f), rg_bump_same (coreDie n) 16 0x128 1 hregs]
  now := by simp only [flitSent, pushPort, bump_now]
  cores := by simp only [flitSent, pushPort, bump_cores]
  mem := by simp only [flitSent, pushPort, bump_mem]
  jobs := by simp only [flitSent, pushPort, bump_qm]

theorem signalled_sigSent (n : Nat) (hregs : regsSorted d) (g : Sig) : Signalled d (sigSent d n g) n where
  canon := regsSorted_of_regs (regs_sigSent d n g)
    (regsSorted_bump (coreDie n) 16 0x12C 1 (regsSorted_bump (coreDie n) 16 0x128 1 hregs))
  count := by
    have hother : regOff (coreDie n) 16 0x128 ≠ regOff (coreDie n) 16 0x12C := by
      unfold regOff
      omega
    rw [rg_of_regs (regs_sigSent d n g), rg_bump_other 1 (regsSorted_bump (coreDie n) 16 0x128 1 hregs) hother,
      rg_bump_same (coreDie n) 16 0x128 1 hregs]
  now := by simp only [sigSent, bump_now]
  cores := by simp only [sigSent, bump_cores]
  mem := by simp only [sigSent, bump_mem]
  jobs := by simp only [sigSent, bump_qm]

theorem sigs_flitSent (d : Dev) (n : Nat) (f : PortJob) : (flitSent d n f).sigs = d.sigs := by
  simp only [flitSent, pushPort, bump_sigs]

theorem ports_flitSent (d : Dev) (n : Nat) (f : PortJob) :
    (flitSent d n f).ports = SMap.insert d.ports n (SMap.getD d.ports n [] ++ [f]) := by
  simp only [flitSent, pushPort, ports_bump]

theorem ports_sigSent (d : Dev) (n : Nat) (g : Sig) : (sigSent d n g).ports = d.ports := by
  simp only [sigSent, ports_bump]

theorem sendSignal_core (hc : cmd d x.uid = some c) (hr : aSigRemote (actOf x.image it) = false)
    (hn : aSigCore (actOf x.image it) = n) :
    sendSignal d n j x it = issued (sigSent d n ⟨n, aSem (actOf x.image it), aValue (actOf x.image it), c.tag, d.now + 1,
      some (itemAi it)⟩) n j := by
  simp only [sendSignal, sigSent, hr, hn, hc, bump_sigs, bump_now, Bool.false_eq_true, if_false, if_true]

theorem sendSignal_flit (hc : cmd d x.uid = some c) (hr : aSigRemote (actOf x.image it) = false)
    (hn : aSigCore (actOf x.image it) ≠ n) :
    sendSignal d n j x it = issued (flitSent d n (oneFlit (2 * d.now) (coreDie n) (coreDie (aSigCore (actOf x.image it))) j
      (.signal (aSigCore (actOf x.image it)) (aSem (actOf x.image it)) (aValue (actOf x.image it)) c.tag (itemAi it)))) n j := by
  simp only [sendSignal, flitSent, hr, hn, hc, bump_now, Bool.false_eq_true, if_false]

/-- The packet of a signal to another device. -/
def signalPkt (d : Dev) (n : Nat) (x : Ctx) (it : Item) (tag : Nat) (r : List Nat) : Packet :=
  orbitPkt (bump d (coreDie n) 16 0x128 1) (bitsOf (aw (actOf x.image it) 2) 15 0) 9 0
    (padTo 16 (leBytes 2 tag ++ leBytes 2 (aValue (actOf x.image it)) ++ leBytes 2 (aSigCore (actOf x.image it)) ++
      [aSem (actOf x.image it)])) r false

theorem sendSignal_route {r : List Nat} (hc : cmd d x.uid = some c) (hr : aSigRemote (actOf x.image it) = true)
    (hroute : orbitRoute d (bitsOf (aw (actOf x.image it) 2) 15 0) = some r) :
    sendSignal d n j x it = issued (flitSent d n (oneFlit (2 * d.now) (coreDie n) (fpDie (egress r)) j
      (.toPort (egress r) (signalPkt d n x it c.tag r)))) n j := by
  simp only [sendSignal, flitSent, signalPkt, hr, hroute, hc, bump_now, if_true]

end Send

/-! ### A source that latches and ends a command -/

/-- The source's bit is set, the command has ended, and no signal on its way is lost. -/
theorem endCmd_latch {d : Dev} {uid src : Nat} {c : Cmd} (hregs : regsSorted d) (hs : SMap.sorted d.qm.cmds = true)
    (hc : cmd d uid = some c) (hp : c.phase ≠ .ended) (die page : Nat) (hsrc : src < 32) (cap : Cap) (status detail : Nat)
    (retry : Bool) :
    EndedAs (endCmd (latch d die page src cap) uid status detail retry) uid c status retry ∧
      (endCmd (latch d die page src cap) uid status detail retry).sigs = d.sigs ∧
      (rg (endCmd (latch d die page src cap) uid status detail retry) die page 0x020).testBit src = true := by
  have hlatch := latchSide_latch d die page src cap
  have hqm := hlatch.side.qm
  have hc' : cmd (latch d die page src cap) uid = some c := by
    unfold cmd
    rw [hqm]
    exact hc
  obtain ⟨hend, hsigs, hflags⟩ := endCmd_ends (by rw [hqm]; exact hs) hc' hp status detail retry
  exact ⟨hend, hsigs.trans hlatch.side.sigs,
    hflags (hlatch.canon hregs) _ _ (by unfold regOff; omega) (latch_flag cap hregs hsrc)⟩

/-! ### SEM_TIMEOUT -/

/-- The module once a WAIT's cycles up to its limit are counted. -/
def timedOut (d : Dev) (n j w : Nat) (x : Ctx) : Dev :=
  slipCycles (setCtx d n j { x with slipFrom := d.now + 1 }) n (w + rc d n 0x168 + 1 - max w x.slipFrom)

theorem timedOut_qm (d : Dev) (n j w : Nat) (x : Ctx) : (timedOut d n j w x).qm = d.qm := by
  simp only [timedOut, slipCycles, bump64_qm, setCtx, setCore_qm]

theorem regsSorted_timedOut {d : Dev} (h : regsSorted d) (n j w : Nat) (x : Ctx) : regsSorted (timedOut d n j w x) :=
  regsSorted_bump64 _ _ _ _ (regsSorted_of_regs (setCore_regs _ _ _) h)

theorem opSemTimeout_fails {d : Dev} {n j w : Nat} {x : Ctx} {it : Item} {rest : List Item} (hx : ctxOf d n j = some x)
    (ht : x.todo = it :: rest) (hw : x.waitFrom = some w) (hlim : rc d n 0x168 ≠ 0) (hpast : w + rc d n 0x168 ≤ d.now)
    (hv : semOf d n (bitsOf (aw (actOf x.image it) 1) 7 0) < aValue (actOf x.image it)) :
    opSemTimeout d n j =
      failFault (latchCoreSrc (timedOut d n j w x) n 5 (coreCap n (some j) 0 8 0)) x.uid (n / 6) (n % 6) true := by
  unfold opSemTimeout
  rw [hx]
  dsimp only
  rw [hw, ht]
  dsimp only
  rw [if_pos (by simp [hlim, hpast, hv])]
  unfold timedOut
  rw [hw, ht]

theorem opSemTimeout_early {d : Dev} {n j w : Nat} {x : Ctx} {it : Item} {rest : List Item} (hx : ctxOf d n j = some x)
    (ht : x.todo = it :: rest) (hw : x.waitFrom = some w) (hearly : d.now < w + rc d n 0x168) : opSemTimeout d n j = d := by
  unfold opSemTimeout
  rw [hx]
  dsimp only
  rw [hw, ht]
  dsimp only
  rw [if_neg (by simp [hearly])]

/-! ### SIGNAL_ARRIVAL -/

section Arrival
variable {d : Dev} {i : Nat} {g : Sig}

/-- The module once a signal is taken from those on their way. -/
def sigTaken (d : Dev) (i : Nat) : Dev := { d with sigs := d.sigs.eraseIdx i }

theorem opSignalArrival_early (hg : d.sigs[i]? = some g) (h : d.now < g.visibleAt) : opSignalArrival d i = d := by
  unfold opSignalArrival
  rw [hg]
  exact if_pos h

theorem opSignalArrival_drops (hg : d.sigs[i]? = some g) (h : g.visibleAt ≤ d.now) (hidle : (core d g.core).ctxs = []) :
    opSignalArrival d i = bump (sigTaken d i) (g.core / 6) (g.core % 6) 0x14C 1 := by
  have hidle' : (core { d with sigs := d.sigs.eraseIdx i } g.core).ctxs = [] := hidle
  unfold opSignalArrival
  rw [hg]
  dsimp only
  rw [if_neg (Nat.not_lt.mpr h), hidle']
  rfl

/-- The one context of the core has the signal's tag. -/
theorem opSignalArrival_tagged {q : Nat} {x : Ctx} {c : Cmd} (hg : d.sigs[i]? = some g) (h : g.visibleAt ≤ d.now)
    (hone : (core d g.core).ctxs = [(q, x)]) (hc : cmd d x.uid = some c) (htag : c.tag = g.tag) :
    opSignalArrival d i =
      if semForeign d g.core q g.sem then
        failBad (latchCoreSrc (sigTaken d i) g.core 3 (coreCap g.core (some q) 0 1 2)) x.uid g.act
      else if 65535 < semOf d g.core g.sem + g.value then
        failFault (latchCoreSrc (setSem (sigTaken d i) g.core g.sem 65535) g.core 4 (coreCap g.core (some q) 0 8 0)) x.uid
          (g.core / 6) (g.core % 6) false
      else setSem (sigTaken d i) g.core g.sem (semOf d g.core g.sem + g.value) := by
  have hone' : (core { d with sigs := d.sigs.eraseIdx i } g.core).ctxs = [(q, x)] := hone
  have hc' : cmd { d with sigs := d.sigs.eraseIdx i } x.uid = some c := hc
  unfold opSignalArrival
  rw [hg]
  dsimp only
  rw [if_neg (Nat.not_lt.mpr h), hone', List.find?_cons_of_pos (by simp [hc', htag])]
  rfl

/-- The semaphore takes the value; no other one changes, and nothing else but the signals on their way. -/
theorem setSem_arrived {v : Nat} (hs : TablesSorted d) (hbusy : (core d g.core).ctxs ≠ []) :
    let t := setSem (sigTaken d i) g.core g.sem v
    semOf t g.core g.sem = v ∧ (∀ m k, m ≠ g.core ∨ k ≠ g.sem → semOf t m k = semOf d m k) ∧
      t = { d with sigs := d.sigs.eraseIdx i, cores := t.cores } := by
  intro t
  have hset := semOf_setSem_sorted (d := sigTaken d i) (sem := g.sem) (v := v) hbusy (hs.sems_core g.core)
  refine ⟨(hset g.sem).trans (if_pos rfl), fun m k h => ?_, rfl⟩
  by_cases hm : m = g.core
  · rw [hm]
    exact (hset k).trans (if_neg (h.resolve_left (not_not_intro hm)))
  · have hcore : core t m = core d m := core_setCore_busy_other (sigTaken d i) hbusy hm
    exact semOf_congr (congrArg CoreSt.sems hcore) (congrArg CoreSt.semUndef hcore) k

end Arrival

/-! ### The statement -/

/-- Settles O55: NOP and WAIT move on after a step of their core (`issued_after`); a SIGNAL is sent and then moves on; a source
that latches ends the command (`endCmd_latch`). -/
theorem sequencerActionsIssue : Obligations.SequencerActionsIssue := by
  unfold Obligations.SequencerActionsIssue
  intro s core j hlive hs
  refine ⟨?nop, ?signal, ?wait, ?held, ?arrival⟩
  case nop =>
    intro x it hm
    obtain ⟨hx, rest, htodo⟩ := canIssue_some hm.head
    exact completes_okDev hlive (congrArg (okDev s) (issueAct_of_mayIssue hm _)) (issued_after (CoreStep.refl _ _) hx htodo)
  case signal =>
    intro x it c hm hc a hfence hown hroute queued
    obtain ⟨hx, rest, htodo⟩ := canIssue_some hm.head
    have hsend := opSignal_sends hm hfence hown
    cases hr : aSigRemote a with
    | true =>
      obtain ⟨r, hr'⟩ := Option.isSome_iff_exists.mp (hroute hr)
      obtain ⟨hsigs, hports, hrest⟩ := (signalled_flitSent core.val hs.regs _).issued hx htodo
      refine completes_okDev hlive (congrArg (okDev s) (hsend.trans (sendSignal_route hc hr hr')))
        ⟨nofun, nofun, fun r2 _ hr2 => ?_, hrest⟩
      obtain rfl : r = r2 := Option.some.inj (hr'.symm.trans hr2)
      exact ⟨hsigs.trans (sigs_flitSent _ _ _), _, rfl, rfl, rfl, hports.trans (ports_flitSent _ _ _)⟩
    | false =>
      by_cases hn : aSigCore a = core.val
      · obtain ⟨hsigs, hports, hrest⟩ := (signalled_sigSent core.val hs.regs _).issued hx htodo
        exact completes_okDev hlive (congrArg (okDev s) (hsend.trans (sendSignal_core hc hr hn)))
          ⟨fun _ _ => ⟨hports.trans (ports_sigSent _ _ _), hsigs⟩, fun _ hne => absurd hn hne, nofun, hrest⟩
      · obtain ⟨hsigs, hports, hrest⟩ := (signalled_flitSent core.val hs.regs _).issued hx htodo
        exact completes_okDev hlive (congrArg (okDev s) (hsend.trans (sendSignal_flit hc hr hn)))
          ⟨fun _ he => absurd he hn, fun _ _ => ⟨hsigs.trans (sigs_flitSent _ _ _), hports.trans (ports_flitSent _ _ _)⟩, nofun,
            hrest⟩
  case wait =>
    intro x it hm a k
    obtain ⟨hx, rest, htodo⟩ := canIssue_some hm.head
    refine ⟨fun hv => ?_, fun hv => ?_⟩
    · exact completes_okDev hlive (congrArg (okDev s) (opWait_takes hm hv)) (issued_takes hs hx htodo)
    · exact completes_okDev hlive (congrArg (okDev s) (opWait_holds hm hv)) slipCore_waits
  case held =>
    intro x it rest w hx htodo hw a k
    refine ⟨fun hv hlim => ?_, fun hv => ?_, fun c hlim hpast hv hc hp => ?_, fun hearly => ?_⟩
    · exact completes_okDev hlive (congrArg (okDev s) (opWaitComplete_takes hx htodo hw hv hlim)) (issued_takes hs hx htodo)
    · exact completes_okDev hlive (congrArg (okDev s) (opWaitComplete_waits hx htodo hw hv)) rfl
    · obtain ⟨hend, -, hflag⟩ := endCmd_latch (d := timedOut s.dev core.val j.val w x) (src := 5)
        (regsSorted_timedOut hs.regs _ _ _ _) (by rw [timedOut_qm]; exact hs.cmds) (by unfold cmd; rw [timedOut_qm]; exact hc) hp
        (core.val / 6) (core.val % 6) (by decide)
        (coreCap core.val (some j.val) 0 8 0) stFault (blkIdOf (core.val / 6) (core.val % 6)) true
      exact completes_okDev hlive (congrArg (okDev s) (opSemTimeout_fails hx htodo hw hlim hpast hv)) ⟨hend, hflag⟩
    · exact completes_okDev hlive (congrArg (okDev s) (opSemTimeout_early hx htodo hw hearly)) rfl
  case arrival =>
    intro i g hg
    refine ⟨fun hearly => ?_, fun hdue => ⟨fun hidle => ?_, fun q x c hone hc htag =>
      ⟨fun hown hsum => ?_, fun hp hown hover => ?_, fun hp hforeign => ?_⟩⟩⟩
    · exact completes_okDev hlive (congrArg (okDev s) (opSignalArrival_early hg hearly)) rfl
    · exact completes_okDev hlive (congrArg (okDev s) (opSignalArrival_drops hg hdue hidle))
        ⟨bump_sigs _ _ _ _ _, rg_bump_same _ _ _ _ hs.regs, regSide_bump _ _ _ _ _⟩
    · have hbusy : (Machine.core s.dev g.core).ctxs ≠ [] := by rw [hone]; simp
      exact completes_okDev hlive (congrArg (okDev s) ((opSignalArrival_tagged hg hdue hone hc htag).trans
        ((if_neg (by simp [hown])).trans (if_neg (Nat.not_lt.mpr hsum))))) (setSem_arrived hs hbusy)
    · obtain ⟨hend, hsigs, hflag⟩ := endCmd_latch (d := setSem (sigTaken s.dev i) g.core g.sem 65535) (src := 4) hs.regs
        hs.cmds hc hp (g.core / 6) (g.core % 6) (by decide) (coreCap g.core (some q) 0 8 0) stFault (blkIdOf (g.core / 6) (g.core % 6)) false
      exact completes_okDev hlive (congrArg (okDev s) ((opSignalArrival_tagged hg hdue hone hc htag).trans
        ((if_neg (by simp [hown])).trans (if_pos hover)))) ⟨hsigs, hend, hflag⟩
    · obtain ⟨hend, hsigs, hflag⟩ := endCmd_latch (d := sigTaken s.dev i) (src := 3) hs.regs hs.cmds hc hp
        (g.core / 6) (g.core % 6) (by decide) (coreCap g.core (some q) 0 1 2) stBad (badDetail x.uid g.act) false
      exact completes_okDev hlive (congrArg (okDev s) ((opSignalArrival_tagged hg hdue hone hc htag).trans (if_pos hforeign)))
        ⟨hsigs, hend, hflag⟩

end Sys2Proof.Machine

/-! SUPPORT. The register words that latching a fault source keeps (14 R439-R462). -/

namespace Sys2Proof.Machine
open Sys2Proof

/-- A word that no latching writes: not of a page's header, and none of the counters of packets and reports (11 R353; 14 R460). -/
def NoLatchWord (off : Nat) : Prop :=
  0x100 ≤ off % 4096 ∧ off % 4096 ≠ 0x148 ∧ off % 4096 ≠ 0x188 ∧ off % 4096 ≠ 0x190 ∧ off % 4096 ≠ 0x204

namespace NoLatchWord
variable {off : Nat}

theorem ne_header (h : NoLatchWord off) (die page : Nat) {reg : Nat} (hr : reg < 0x100) : off ≠ regOff die page reg := by
  obtain ⟨hlo, -⟩ := h
  unfold regOff
  omega

theorem ne_sent (h : NoLatchWord off) (die page : Nat) : off ≠ regOff die page 0x148 := by
  obtain ⟨-, hs, -⟩ := h
  unfold regOff
  omega

theorem ne_report (h : NoLatchWord off) (die page : Nat) : off ≠ regOff die page 0x188 ∧ off ≠ regOff die page 0x190 := by
  obtain ⟨-, -, h188, h190, -⟩ := h
  unfold regOff
  omega

theorem ne_alternate (h : NoLatchWord off) (die page : Nat) : off ≠ regOff die page 0x204 := by
  obtain ⟨-, -, -, -, h204⟩ := h
  unfold regOff
  omega

end NoLatchWord

section Latching
variable {off : Nat}

/-! ### Sending -/

theorem keepsWord_setPort (d : Dev) (p : Nat) (q : Port) : KeepsWord off d (setPort d p q) := .of_regs rfl

theorem keepsWord_txNow (h : NoLatchWord off) (d : Dev) (port : Nat) (p : Packet) : KeepsWord off d (txNow d port p) := by
  unfold txNow
  exact (keepsWord_setPort d port _).trans ((KeepsWord.bump _ 1 (h.ne_sent _ _)).trans (.of_regs rfl))

theorem keepsWord_drainPort (h : NoLatchWord off) (n : Nat) (d : Dev) (port : Nat) : KeepsWord off d (drainPort n d port) := by
  induction n generalizing d with
  | zero => exact .refl d
  | succ n ih =>
    unfold drainPort
    split
    · rename_i t ht
      refine KeepsWord.trans ?_ (ih t)
      unfold drainOne at ht
      dsimp only at ht
      split at ht
      · cases ht
        exact (keepsWord_setPort d port _).trans (keepsWord_txNow h _ port _)
      · cases ht
    · exact .refl d

theorem keepsWord_sendPort (h : NoLatchWord off) (d : Dev) (port : Nat) (p : Packet) : KeepsWord off d (sendPort d port p) := by
  unfold sendPort
  exact (keepsWord_setPort d port _).trans (keepsWord_drainPort h _ _ port)

theorem keepsWord_sendRouted (h : NoLatchWord off) {d t : Dev} {p : Packet} (ht : sendRouted d p = some t) : KeepsWord off d t := by
  unfold sendRouted at ht
  split at ht
  · cases ht
    exact .of_regs rfl
  · split at ht
    · split at ht
      · split at ht
        · cases ht
          refine KeepsWord.trans (b := if _ then _ else _) ?_ (.foldl _ (fun e port => ?_) _ _)
          · split
            · exact .of_regs rfl
            · exact .refl d
          · split
            · exact keepsWord_sendPort h e port p
            · exact .refl e
        · cases ht
      · cases ht
    · split at ht
      · rename_i port alt _
        cases ht
        cases alt with
        | false => exact keepsWord_sendPort h d port p
        | true => exact (KeepsWord.bump d 1 (h.ne_alternate _ _)).trans (keepsWord_sendPort h _ port p)
      · cases ht

/-! ### Latching -/

theorem keepsWord_markPage (h : NoLatchWord off) (d : Dev) (die page src : Nat) (c : Cap) :
    KeepsWord off d (markPage d die page src c) := by
  have hdr : ∀ reg, reg < 0x100 → off ≠ regOff die page reg := fun reg => h.ne_header die page
  unfold markPage
  dsimp only
  refine KeepsWord.trans (KeepsWord.setRg d (fltStat d die page ||| 2 ^ src) (hdr 0x020 (by decide))) ?_
  split
  · exact .bump _ 1 (hdr 0x048 (by decide))
  · exact (KeepsWord.setRg64 _ _ (hdr 0x030 (by decide)) (hdr 0x034 (by decide))).trans
      ((KeepsWord.setRg _ _ (hdr 0x038 (by decide))).trans ((KeepsWord.setRg _ _ (hdr 0x03C (by decide))).trans
        ((KeepsWord.setRg64 _ _ (hdr 0x040 (by decide)) (hdr 0x044 (by decide))).trans
          (KeepsWord.setRg _ _ (hdr 0x048 (by decide))))))

theorem requestResets_regs (d : Dev) (die page code : Nat) : (requestResets d die page code).regs = d.regs := by
  unfold requestResets
  split
  · rfl
  · split <;> rfl

theorem keepsWord_latchCore (h : NoLatchWord off) (d : Dev) (die page src : Nat) (c : Cap) :
    KeepsWord off d (latchCore d die page src c).1 := by
  have hmark := keepsWord_markPage h d die page src c
  unfold latchCore
  dsimp only
  split
  · exact hmark
  · exact hmark.trans (.of_regs (requestResets_regs _ _ _ _))

theorem keepsWord_sendReport (h : NoLatchWord off) (d : Dev) (origin kind port blk src addr : Nat) :
    KeepsWord off d (sendReport d origin kind port blk src addr).1 := by
  unfold sendReport
  split
  · exact .refl d
  · split
    · exact .bump d 1 (h.ne_report _ _).2
    · split
      · exact .refl d
      · dsimp only
        split
        · rename_i e he
          refine KeepsWord.trans ?_ (.bump _ 1 (h.ne_report _ _).1)
          exact (keepsWord_sendRouted h he).trans (.of_regs rfl)
        · exact .refl d

theorem originTake_regs (d : Dev) (origin kind reporter : Nat) : (originTake d origin kind reporter).1.regs = d.regs := by
  unfold originTake
  dsimp only
  split
  · rfl
  · split <;> rfl

/-- A report of this device is sent; where a limit drops it, that latches. -/
def reported (n : Nat) (d : Dev) (blk src addr kind origin port : Nat) : Dev :=
  match sendReport d origin kind port blk src addr with
  | (d', true) => latchN n d' 60 3 7 noCap
  | (d', false) => d'

/-- A report of this device is sent and taken into its own origin table; what that latches follows. -/
def noted (n : Nat) (d : Dev) (blk src addr kind origin port : Nat) : Dev :=
  if rptValid origin kind then
    match originTake (reported n d blk src addr kind origin port) origin kind (ownDid d) with
    | (d3, some (s, cap)) => latchN n d3 60 3 s cap
    | (d3, none) => d3
  else reported n d blk src addr kind origin port

/-- A latching notes the fabric event of its source and the reset that its reaction requests. -/
theorem latchN_succ (n : Nat) (d : Dev) (die page src : Nat) (c : Cap) :
    latchN (n + 1) d die page src c =
      match latchCore d die page src c with
      | (d1, none) => d1
      | (d1, some code) =>
        let d2 := match fabKind d1 die page src with
          | some (kind, origin, port) => noted n d1 (blkIdOf die page) src c.addr kind origin port
          | none => d1
        if code = 3 || code = 4 then noted n d2 (blkIdOf die page) src c.addr 6 (ownDid d2) 0xFF else d2 := by
  simp only [latchN, noted, reported] <;> rfl

theorem keepsWord_noted {n : Nat} (h : NoLatchWord off)
    (hlatch : ∀ d die page src c, KeepsWord off d (latchN n d die page src c)) (d : Dev) (blk src addr kind origin port : Nat) :
    KeepsWord off d (noted n d blk src addr kind origin port) := by
  have hsent : KeepsWord off d (reported n d blk src addr kind origin port) := by
    have hsend := keepsWord_sendReport h d origin kind port blk src addr
    unfold reported
    split <;> rename_i e he <;> rw [he] at hsend
    · exact hsend.trans (hlatch e 60 3 7 noCap)
    · exact hsend
  unfold noted
  split
  · have htake := originTake_regs (reported n d blk src addr kind origin port) origin kind (ownDid d)
    split <;> rename_i he <;> rw [he] at htake
    · exact (hsent.trans (.of_regs htake)).trans (hlatch _ _ _ _ _)
    · exact hsent.trans (.of_regs htake)
  · exact hsent

theorem keepsWord_latchN (h : NoLatchWord off) (n : Nat) (d : Dev) (die page src : Nat) (c : Cap) :
    KeepsWord off d (latchN n d die page src c) := by
  induction n generalizing d die page src c with
  | zero => exact keepsWord_latchCore h d die page src c
  | succ n ih =>
    have hcore := keepsWord_latchCore h d die page src c
    rw [latchN_succ]
    split <;> rename_i d1 _ he <;> rw [he] at hcore
    · exact hcore
    · refine hcore.trans ?_
      have hfab : KeepsWord off d1 (match fabKind d1 die page src with
          | some (kind, origin, port) => noted n d1 (blkIdOf die page) src c.addr kind origin port
          | none => d1) := by
        split
        · exact keepsWord_noted h ih d1 _ _ _ _ _ _
        · exact .refl d1
      dsimp only
      split
      · exact hfab.trans (keepsWord_noted h ih _ _ _ _ _ _ _)
      · exact hfab

theorem keepsWord_latch (h : NoLatchWord off) (d : Dev) (die page src : Nat) (c : Cap) :
    KeepsWord off d (latch d die page src c) :=
  keepsWord_latchN h 4 d die page src c

end Latching

end Sys2Proof.Machine

/-! SUPPORT. O47: one register written and read (04 R131; 12 R389; 13 R425; 16 R490-R504; 17 R517-R520). -/

namespace Sys2Proof.Machine
open Sys2Proof

/-! ### BAR0 writes -/

theorem opRegWrite_unlisted {d : Dev} {a : Acc} {off t : Nat} (ht : accTarget d a off = some t) (hl : isListed t = false)
    (be v : Nat) : opRegWrite d a off be v = d := by
  unfold opRegWrite
  simp only [ht, hl, Bool.not_false, if_true]

theorem opRegWrite_partial {d : Dev} {a : Acc} {off t be : Nat} (ht : accTarget d a off = some t) (hl : isListed t = true)
    (hw : accWrite d a off = (d, some t)) (hbe : be ≠ 15) (v : Nat) :
    opRegWrite d a off be v = latch (countBar0Err d) 60 4 0 (accCap a off 2 (setBits 4 be).length) := by
  unfold opRegWrite
  simp only [ht, hl, hw, hbe, Bool.not_true, Bool.false_eq_true, if_false, ne_eq, not_false_eq_true, if_true]

theorem opRegWrite_full {d : Dev} {a : Acc} {off t : Nat} (ht : accTarget d a off = some t) (hl : isListed t = true)
    (hw : accWrite d a off = (d, some t)) (v : Nat) :
    opRegWrite d a off 15 v = busWrite d a (fun x => bar0Error x a off) t v := by
  unfold opRegWrite
  simp only [ht, hl, hw, Bool.not_true, Bool.false_eq_true, if_false, ne_eq, not_true_eq_false]

/-- A discarded write is counted once, and REG_ACCESS latches (16 R491, R501). -/
theorem latch_countBar0Err {d : Dev} (hs : regsSorted d) (c : Cap) :
    rg (latch (countBar0Err d) 60 4 0 c) 60 4 0x134 = min (rg d 60 4 0x134 + 1) (2 ^ 32 - 1) ∧
      (rg (latch (countBar0Err d) 60 4 0 c) 60 4 0x020).testBit 0 = true ∧ FaultSide d (latch (countBar0Err d) 60 4 0 c) := by
  have hcount : regsSorted (countBar0Err d) := regsSorted_bump 60 4 0x134 1 hs
  have hword : NoLatchWord (regOff 60 4 0x134) := by unfold NoLatchWord regOff; decide
  have hkeep := (keepsWord_latch hword (countBar0Err d) 60 4 0 c).same hcount
  have hbump := rg_bump_same 60 4 0x134 1 hs
  have hside : LatchSide d (countBar0Err d) := LatchSide.bump 1 (by decide)
  exact ⟨hkeep.trans hbump, latch_flag c hcount (by decide), (hside.trans (latchSide_latch _ 60 4 0 c)).side⟩

/-! ### A plain register of a job's page -/

/-- The registers of a job's page that a write only stores in (10 R331). -/
def plainJobRegs : List Nat :=
  [0x108, 0x10C, 0x110, 0x114, 0x118, 0x11C, 0x120, 0x130, 0x134, 0x138, 0x13C, 0x140, 0x144, 0x148, 0x14C]

theorem plainJobRegs_bounds {reg : Nat} (h : reg ∈ plainJobRegs) : 0x108 ≤ reg ∧ reg ≤ 0x14C := by
  have hall : ∀ x ∈ plainJobRegs, 0x108 ≤ x ∧ x ≤ 0x14C := by decide
  exact hall reg h

theorem findRow_plainJobRegs {reg : Nat} {r : RegRow} (h : reg ∈ plainJobRegs) (hr : findRow .qmgrJ reg = some r) :
    r.rw ≠ 0 ∧ r.rw ≤ 0xFFFFFFFF := by
  have hall : ∀ x ∈ plainJobRegs, (findRow .qmgrJ x).all (fun r => decide (r.rw ≠ 0 ∧ r.rw ≤ 0xFFFFFFFF)) = true := by
    decide
  have hreg := hall reg h
  rw [hr] at hreg
  exact of_decide_eq_true hreg

theorem blkAt_jobPage {j : Nat} (hj : j < 256) : blkAt 60 (jPage j) = some .qmgrJ := by
  have hne : ∀ n, n < 0x200 → jPage j ≠ n := fun n hn => by unfold jPage; omega
  have hin : 0x200 ≤ jPage j ∧ jPage j < 0x300 := by unfold jPage; omega
  unfold blkAt
  simp [hne, hin]

section JobPage
variable {d : Dev} {j reg : Nat} {r : RegRow}

theorem regVal_plainJob (hj : j < 256) (h : reg ∈ plainJobRegs) (hr : findRow .qmgrJ reg = some r) :
    regVal d (regOff 60 (jPage j) reg) = rj d j reg := by
  obtain ⟨hlo, hhi⟩ := plainJobRegs_bounds h
  have hp : jPage j < 1024 := by unfold jPage; omega
  have hdie := offDie_regOff (die := 60) (page := jPage j) (reg := reg) (by decide) hp (by omega)
  have hcanon : canonOff (regOff 60 (jPage j) reg) = regOff 60 (jPage j) reg := by
    unfold canonOff
    simp [hdie]
  have hjob : ∀ x ∈ plainJobRegs, jobReg d (jPage j - 0x200) x = none := by simp [plainJobRegs, jobReg]
  unfold regVal
  simp only [hcanon, hdie, offPage_regOff 60 hp (show reg < 4096 by omega), offReg_regOff 60 (jPage j) (show reg < 4096 by omega),
    blkAt_jobPage hj, hr, hjob reg h, Option.isNone_some, Bool.false_eq_true, if_false, if_neg (show ¬ reg < 0x100 by omega)]
  rfl

theorem rangeFix_plainJob (h : reg ∈ plainJobRegs) (old v : Nat) : rangeFix .qmgrJ reg old v = (v, false) := by
  have hall : ∀ x ∈ plainJobRegs, rangeFix .qmgrJ x old v = (v, false) := by simp [plainJobRegs, rangeFix]
  exact hall reg h

/-- The word that a write of the RW bits `rw` leaves. -/
theorem rw_bits_lt (old v : Nat) {rw : Nat} (h : rw ≤ 0xFFFFFFFF) : (old &&& (0xFFFFFFFF - rw)) + (v &&& rw) < 2 ^ 32 := by
  have hold := Nat.and_le_right (n := old) (m := 0xFFFFFFFF - rw)
  have hnew := Nat.and_le_right (n := v) (m := rw)
  omega

theorem plainWrite_plainJob (hj : j < 256) (h : reg ∈ plainJobRegs) (hr : findRow .qmgrJ reg = some r) (hw : r.w1c = 0) (v : Nat) :
    plainWrite d (regOff 60 (jPage j) reg) v =
      (setRj d j reg ((rj d j reg &&& (0xFFFFFFFF - r.rw)) + (v &&& r.rw)), false) := by
  obtain ⟨hlo, hhi⟩ := plainJobRegs_bounds h
  obtain ⟨hrw, hmask⟩ := findRow_plainJobRegs h hr
  have hp : jPage j < 1024 := by unfold jPage; omega
  have hall : ∀ x : Nat, x < 2 ^ 32 → x &&& 0xFFFFFFFF = x := fun x hx =>
    (Nat.and_two_pow_sub_one_eq_mod x 32).trans (Nat.mod_eq_of_lt hx)
  unfold plainWrite
  simp only [offDie_regOff (show 60 < 64 by decide) hp (show reg < 4096 by omega), offPage_regOff 60 hp (show reg < 4096 by omega),
    offReg_regOff 60 (jPage j) (show reg < 4096 by omega), blkAt_jobPage hj, hr, hrw, hw, regVal_plainJob hj h hr,
    rangeFix_plainJob h, decide_false, Bool.false_and, Bool.false_eq_true, if_false, if_neg (show ¬ reg < 0x100 by omega),
    Nat.and_zero, Nat.sub_zero, hall _ (rw_bits_lt (rj d j reg) v hmask)]
  rfl

theorem busWrite_plainJob (hj : j < 256) (h : reg ∈ plainJobRegs) (hr : findRow .qmgrJ reg = some r) (hw : r.w1c = 0)
    (a : Acc) (err : Dev → Dev) (v : Nat) :
    busWrite d a err (regOff 60 (jPage j) reg) v = setRj d j reg ((rj d j reg &&& (0xFFFFFFFF - r.rw)) + (v &&& r.rw)) := by
  obtain ⟨hlo, hhi⟩ := plainJobRegs_bounds h
  have hp : jPage j < 1024 := by unfold jPage; omega
  have hjob : jPage j - 0x200 = j := by unfold jPage; omega
  have hwrite : writeJobReg d a err j reg v = plainErr err (regOff 60 (jPage j) reg) v d := by
    unfold writeJobReg
    rw [if_neg (by omega), if_neg (by omega), if_neg (by omega), if_neg (by simp; omega), if_neg (by omega)]
  unfold busWrite
  simp only [offDie_regOff (show 60 < 64 by decide) hp (show reg < 4096 by omega), offPage_regOff 60 hp (show reg < 4096 by omega),
    offReg_regOff 60 (jPage j) (show reg < 4096 by omega), blkAt_jobPage hj, if_neg (show ¬ reg < 0x100 by omega), hjob, hwrite,
    plainErr, plainWrite_plainJob hj h hr hw, Bool.false_eq_true, if_false]

theorem isListed_jobPage (hj : j < 256) (hreg : reg < 4096) (hr : findRow .qmgrJ reg = some r) :
    isListed (regOff 60 (jPage j) reg) = true := by
  have hp : jPage j < 1024 := by unfold jPage; omega
  unfold isListed
  simp only [offDie_regOff (show 60 < 64 by decide) hp hreg, offPage_regOff 60 hp hreg, offReg_regOff 60 (jPage j) hreg,
    blkAt_jobPage hj, hr, Option.isSome_some]

end JobPage

/-! ### Reads -/

/-- An accessor reads a register of a page that responds, of a die that is neither retained nor being reset (16 R492, R495). -/
theorem accRead_reads {d : Dev} {a : Acc} {off t : Nat} {b : Blk} (ht : accTarget d a off = some t)
    (hb : blkAt (offDie t) (offPage t) = some b) (hresp : pageResponds d a b = true) (hret : dieRetained d (offDie t) = false)
    (hres : dieResetting d (offDie t) = false) : accRead d a off = readEffect d t := by
  unfold accRead
  simp only [ht, hb, hresp, hret, hres, Bool.not_true, Bool.false_and, Bool.false_eq_true, if_false]

/-- A read of a register that holds no latched word latches its partners (04 R131). -/
theorem readEffect_latches {d : Dev} {off : Nat} (hcanon : canonOff off = off) (horg : off ≠ regOff 60 3 0x144)
    (hlatch : SMap.get? d.latch off = none) : readEffect d off = (latchLo d off, regVal d off) := by
  unfold readEffect
  simp only [hcanon, if_neg horg, hlatch]

/-- A read of FABR_ORB_OCC_LO gives the low word of the orbit's count and latches the high one. -/
theorem readEffect_orbOcc {d : Dev} (hlatch : SMap.get? d.latch (regOff 56 16 0x1D8) = none) :
    readEffect d (regOff 56 16 0x1D8) =
      (setLatch d (regOff 56 16 0x1DC) (d.orb.occ / 2 ^ 32 % 2 ^ 32), d.orb.occ % 2 ^ 32) := by
  rw [readEffect_latches (by decide) (by decide) hlatch]
  rfl

theorem latch_setLatch_same (d : Dev) (off v : Nat) : SMap.get? (setLatch d off v).latch off = some (BitVec.ofNat 32 v) :=
  SMap.get?_insert_same _ _ _

theorem latch_setLatch_other (d : Dev) {off o : Nat} (v : Nat) (h : o ≠ off) :
    SMap.get? (setLatch d off v).latch o = SMap.get? d.latch o :=
  SMap.get?_insert_other _ _ h

/-- Setting latches changes no other part of the module. -/
theorem foldl_setLatch_rest (off v : Nat → Nat) (l : List Nat) (d : Dev) :
    let t := l.foldl (fun d' i => setLatch d' (off i) (v i)) d
    t = { d with latch := t.latch } := by
  induction l generalizing d with
  | nil => rfl
  | cons i l ih =>
    have htail := ih (setLatch d (off i) (v i))
    exact htail.trans rfl

/-- A read of FLTAG_ORG_W0 latches the words of the selected origin (16 R504). -/
theorem latchOrg_latches (d : Dev) :
    SMap.get? (latchOrg d).latch (regOff 60 3 0x148) = some (BitVec.ofNat 32 (match SMap.get? d.flt.org (rg d 60 3 0x140) with
      | some e => e.count
      | none => 0)) ∧ latchOrg d = { d with latch := (latchOrg d).latch } := by
  refine ⟨?_, foldl_setLatch_rest _ _ _ d⟩
  have hrange : List.range 6 = [0, 1, 2, 3, 4, 5] := by decide
  have hne : ∀ i, 0 < i → regOff 60 3 0x148 ≠ regOff 60 3 (0x148 + 4 * i) := fun i hi => by unfold regOff; omega
  unfold latchOrg
  simp only [hrange, List.foldl_cons, List.foldl_nil]
  rw [latch_setLatch_other _ _ (hne 5 (by decide)), latch_setLatch_other _ _ (hne 4 (by decide)),
    latch_setLatch_other _ _ (hne 3 (by decide)), latch_setLatch_other _ _ (hne 2 (by decide)),
    latch_setLatch_other _ _ (hne 1 (by decide)), latch_setLatch_same]
  cases SMap.get? d.flt.org (rg d 60 3 0x140) <;> rfl

theorem readEffect_orgW0 (d : Dev) : readEffect d (regOff 60 3 0x144) = (latchOrg d, regVal d (regOff 60 3 0x144)) := by
  have hcanon : canonOff (regOff 60 3 0x144) = regOff 60 3 0x144 := by decide
  unfold readEffect
  simp only [hcanon, if_true]

/-! ### JTAG -/

/-- A seal hit is counted once; what it captures and latches is apart from its counter (13 R425). -/
theorem sealHit_counts {d : Dev} (hs : regsSorted d) (addr path : Nat) :
    rg (sealHit d addr path) 60 1 0x180 = min (rg d 60 1 0x180 + 1) (2 ^ 32 - 1) ∧ FaultSide d (sealHit d addr path) := by
  have hword : NoLatchWord (regOff 60 1 0x180) := by unfold NoLatchWord regOff; decide
  have hsorted : regsSorted (secBump d 0x180) := regsSorted_bump 60 1 0x180 1 hs
  have hbump := rg_bump_same 60 1 0x180 1 hs
  have hside : LatchSide d (secBump d 0x180) := LatchSide.bump 1 (by decide)
  unfold sealHit
  dsimp only
  split
  · exact ⟨hbump, hside.side⟩
  · refine ⟨Eq.trans (KeepsWord.same ?_ hsorted) hbump, (hside.trans ?_).side⟩
    · exact (((KeepsWord.setRg _ _ (by decide)).trans (.setRg64 _ _ (by decide) (by decide))).trans
        (.setRg _ _ (by decide))).trans (keepsWord_latch hword _ _ _ _ _)
    · exact (((LatchSide.setRg _ (by decide)).trans (.setRg64 _ (by decide) (by decide))).trans
        (.setRg _ (by decide))).trans (latchSide_latch _ _ _ _ _)

theorem opJtag_powered {d : Dev} (h : d.powerLost = false) :
    opJtag d .idcode = emit d (.jtag (leBytes 4 idcode)) ∧
      ∀ (n : CoreId) (i : Fin 32), opJtag d (.readVreg n i) =
        if NSet.mem (core d n.val).vsealed i.val then emit (sealHit d 0 3) (.jtag (List.replicate 1024 0))
        else emit d (.jtag (leBytes 1024 (SMap.getD (core d n.val).vregs i.val 0).toNat)) := by
  have hoff : ¬ d.powerLost = true := by simp [h]
  exact ⟨if_neg hoff, fun n i => if_neg hoff⟩

/-! ### The management bus -/

/-- What a read of the status endpoint gives (17 R518). -/
def statusRead (d : Dev) (o n : Nat) : List Nat := (List.range n).map (fun i => ((statusBytes d)[(o + i) % 256]?).getD 0)

theorem length_statusRead (d : Dev) (o n : Nat) : (statusRead d o n).length = n := by
  simp [statusRead]

/-- The endpoint's first two bytes are its format and the module's state. -/
theorem statusRead_head {d : Dev} (hpower : d.powerLost = false) {n : Nat} (hn : 2 ≤ n) :
    (statusRead d 0 n)[0]? = some 1 ∧ (statusRead d 0 n)[1]? = some (devStateNo d.state) := by
  have h0 : 0 < n := by omega
  have h1 : 1 < n := by omega
  unfold statusRead statusBytes
  simp [hpower, h0, h1]

theorem completes_okAny {s : State} {i : Instr} {t : Dev} {P : Dev → Prop} (he : exec i s = okAny s t) (hp : P t) :
    Completes i s P :=
  completes_of_eq t he hp

/-! ### The statement -/

/-- Settles O47: each clause is what one access does to the module. -/
theorem registersAreReadAndWritten : Obligations.RegistersAreReadAndWritten := by
  unfold Obligations.RegistersAreReadAndWritten
  intro s acc off v hlive hs
  refine ⟨fun be t0 ht hl => ?unlisted, fun be t0 ht hl hw hbe => ?discarded, fun j reg r ht hw hr hw1c hreg => ?jobPage,
    fun hoff ht hresp hret hres hlatch => ?orbOcc, fun ht hresp hret hres => ?orgW0, fun hlost q => ?jtagLost,
    fun hpower => ⟨?idcode, fun n i => ⟨fun hopen => ?vreg, fun hsealed => ?vregSealed⟩⟩, fun o n => ?bus⟩
  case unlisted => exact completes_okDev hlive rfl (opRegWrite_unlisted ht hl _ _)
  case discarded =>
    have hbe' : be.toNat ≠ 15 := fun h => hbe (BitVec.eq_of_toNat_eq h)
    exact completes_okDev hlive (congrArg (okDev s) (opRegWrite_partial ht hl hw hbe' _)) (latch_countBar0Err hs _)
  case jobPage =>
    obtain ⟨-, hmask⟩ := findRow_plainJobRegs hreg hr
    obtain ⟨-, hhi⟩ := plainJobRegs_bounds hreg
    have hlisted := isListed_jobPage j.isLt (by omega) hr
    refine completes_okDev hlive (congrArg (okDev s) ((opRegWrite_full ht hlisted hw _).trans
      (busWrite_plainJob j.isLt hreg hr hw1c acc _ _))) ⟨?_, fun o ho => raw_setRaw_other _ hs ho, regSide_setRaw _ _ _⟩
    exact (rg_setRg_same _ _ _ _ hs).trans (Nat.mod_eq_of_lt (rw_bits_lt _ _ hmask))
  case orbOcc =>
    rw [hoff] at ht hlatch
    have hread := (accRead_reads (b := .fabr) ht (by decide) hresp hret hres).trans (readEffect_orbOcc hlatch)
    refine completes_okDev hlive (t := emit (setLatch s.dev (regOff 56 16 0x1DC) (s.dev.orb.occ / 2 ^ 32 % 2 ^ 32))
      (.readData (s.dev.orb.occ % 2 ^ 32))) (congrArg (okDev s) ?_) ⟨rfl, latch_setLatch_same _ _ _, rfl⟩
    unfold opRegRead
    rw [hoff, hread]
  case orgW0 =>
    have hread := (accRead_reads (b := .fltag) ht (by decide) hresp hret hres).trans (readEffect_orgW0 s.dev)
    obtain ⟨hword, hrest⟩ := latchOrg_latches s.dev
    refine completes_okDev hlive (t := emit (latchOrg s.dev) (.readData (regVal s.dev (regOff 60 3 0x144))))
      (congrArg (okDev s) ?_) ⟨⟨regVal s.dev (regOff 60 3 0x144), ?_⟩, hword, ?_⟩
    · unfold opOrgRead opRegRead
      rw [hread]
    · rw [hrest]
      rfl
    · rw [hrest]
      rfl
  case jtagLost => exact completes_okAny (congrArg (okAny s) (if_pos hlost)) rfl
  case idcode => exact completes_okAny (congrArg (okAny s) (opJtag_powered hpower).1) rfl
  case vreg =>
    exact completes_okAny (congrArg (okAny s) (((opJtag_powered hpower).2 n i).trans (if_neg (by simp [hopen])))) rfl
  case vregSealed =>
    obtain ⟨hcount, hside⟩ := sealHit_counts hs 0 3
    exact completes_okAny (congrArg (okAny s) (((opJtag_powered hpower).2 n i).trans (if_pos hsealed)))
      ⟨⟨_, rfl⟩, hcount, hside.trans (LatchSide.emit _ _).side⟩
  case bus =>
    exact ⟨statusRead s.dev o n, length_statusRead _ _ _, completes_okAny rfl rfl,
      fun ho hpower hn => ho ▸ statusRead_head hpower hn⟩

end Sys2Proof.Machine

/-! SUPPORT. O54: a segment's images and pointer lists are read, and a command that has done nothing yet ends (04 R106, R111;
08 R244, R259; 10 R310). -/

namespace Sys2Proof.Machine
open Sys2Proof

/-! ### Reading with no upset leaves the module -/

theorem checkRead_none (d : Dev) (k sid addr : Nat) (c : Cap) : (checkRead d k sid addr .none c).1 = d := by
  unfold checkRead
  split <;> rfl

theorem gather_none (uid : Nat) (cp : Cap) (l : List (Nat × Nat)) (d : Dev) : (gather uid cp l d .none).1 = d := by
  induction l with
  | nil => rfl
  | cons q r ih =>
    obtain ⟨addr, k⟩ := q
    unfold gather
    split
    · split <;> rename_i he
      · exact (congrArg Prod.fst he).symm.trans ih
      · exact ih
    · rename_i sid _
      have hcheck := checkRead_none d k sid addr cp
      rw [show evHere .none = .none from rfl]
      split <;> rename_i he <;> rw [he] at hcheck
      · exact hcheck
      · obtain rfl := hcheck
        rw [show evNext .none = .none from evDrop_none 1]
        split <;> rename_i hg
        · exact (congrArg Prod.fst hg).symm.trans ih
        · exact ih

theorem readCtl_none (d : Dev) (uid j : Nat) (objs : Option (List (Nat × Nat))) (a n : Nat) :
    (readCtl d uid j objs a n .none).1 = d := by
  unfold readCtl
  dsimp only
  split
  · rfl
  · split
    · rfl
    · have hgather := gather_none uid (qmCap d j a 0 (min n 0xFFFF)) (ctlGrans (decodeAddr a) n) d
      split <;> rename_i he <;> exact (congrArg Prod.fst he).symm.trans hgather

/-- A control structure was read with no upset: the module is as it was, and no upset is left. -/
def Undisturbed {α : Type} (d : Dev) (x : Loaded α) : Prop := x.1 = d ∧ x.2.1 = .none

/-- The images are read up to the first that fails; where it does not, those of the other cores follow. -/
theorem loadImages_cons (uid : Nat) (c : Cmd) (n a : Nat) (r : List (Nat × Nat)) (d : Dev) (ev : Upset) :
    (∃ e, loadImages uid c ((n, a) :: r) d ev = ((readImage d uid c a ev).1, (readImage d uid c a ev).2.1, .error e)) ∨
      ∃ im, loadImages uid c ((n, a) :: r) d ev =
        match loadImages uid c r (readImage d uid c a ev).1 (readImage d uid c a ev).2.1 with
        | (d2, ev2, .ok l) => (d2, ev2, .ok ((n, im) :: l))
        | e => e := by
  rcases hx : readImage d uid c a ev with ⟨d1, ev1, e | bs⟩
  all_goals
    delta loadImages
    dsimp only [List.brecOn, loadImages._f]
    rw [hx]
    dsimp only
  · exact .inl ⟨e, rfl⟩
  · cases decodeImage bs with
    | none => exact .inl ⟨_, rfl⟩
    | some im =>
      dsimp only
      split_ifs
      · exact .inl ⟨_, rfl⟩
      · exact .inr ⟨im, rfl⟩

section Loading
variable (d : Dev) (uid : Nat) (c : Cmd)

theorem loadCtl_none (a n : Nat) : Undisturbed d (loadCtl d uid c a n .none) :=
  ⟨readCtl_none d uid c.job (some c.objs) a n, evDrop_none _⟩

theorem readImage_none (a : Nat) : Undisturbed d (readImage d uid c a .none) := by
  unfold readImage
  split
  · exact ⟨rfl, rfl⟩
  · have hhdr := readCtl_none d uid c.job (some c.objs) a 64
    split <;> rename_i d1 _ he <;> rw [he] at hhdr <;> obtain rfl : d1 = d := hhdr
    · exact ⟨rfl, rfl⟩
    · exact loadCtl_none d1 uid c a _

theorem readPtrs_none (im : Image) (ext : List Nat) : Undisturbed d (readPtrs d uid c im ext .none) := by
  unfold readPtrs
  split
  · exact ⟨rfl, rfl⟩
  · dsimp only
    split
    · exact ⟨rfl, rfl⟩
    · have hload := loadCtl_none d uid c im.batchBase (32 * ptrCount im ext)
      split <;> rename_i he <;> rw [he] at hload <;> exact hload

/-- The images of all cores, in the order of the cores. -/
theorem loadImages_none (l : List (Nat × Nat)) :
    Undisturbed d (loadImages uid c l d .none) ∧
      ∀ ims, (loadImages uid c l d .none).2.2 = .ok ims → ims.map (·.1) = l.map (·.1) := by
  induction l with
  | nil => exact ⟨⟨rfl, rfl⟩, fun ims h => by cases h; rfl⟩
  | cons p r ih =>
    obtain ⟨n, a⟩ := p
    obtain ⟨hdev, hev⟩ := readImage_none d uid c a
    have hcons := loadImages_cons uid c n a r d .none
    rw [hdev, hev] at hcons
    obtain ⟨hrest, hcores⟩ := ih
    rcases hcons with ⟨e, he⟩ | ⟨im, he⟩ <;> rw [he]
    · exact ⟨⟨rfl, rfl⟩, fun ims h => nomatch h⟩
    · split <;> rename_i hl
      · rw [hl] at hrest hcores
        exact ⟨hrest, fun ims h => by cases h; exact congrArg (n :: ·) (hcores _ rfl)⟩
      · exact ⟨hrest, fun ims h => (hl _ _ ims (Prod.ext rfl (Prod.ext rfl h))).elim⟩

theorem loadPtrs_none (l : List (Nat × Image)) :
    Undisturbed d (loadPtrs uid c l d .none) ∧
      ∀ ps, (loadPtrs uid c l d .none).2.2 = .ok ps → ps.map (·.1) = l.map (·.1) := by
  induction l with
  | nil => exact ⟨⟨rfl, rfl⟩, fun ps h => by cases h; rfl⟩
  | cons p r ih =>
    obtain ⟨n, im⟩ := p
    have hptrs := readPtrs_none d uid c im (runExts im (aExts c.desc))
    unfold loadPtrs
    split <;> rename_i d1 ev1 _ he <;> rw [he] at hptrs <;> obtain ⟨rfl, rfl⟩ : d1 = d ∧ ev1 = .none := hptrs
    · exact ⟨⟨rfl, rfl⟩, fun ps h => nomatch h⟩
    · obtain ⟨hrest, hcores⟩ := ih
      split <;> rename_i hl
      · rw [hl] at hrest hcores
        exact ⟨hrest, fun ps h => by cases h; exact congrArg (n :: ·) (hcores _ rfl)⟩
      · exact ⟨hrest, fun ps h => (hl _ _ ps (Prod.ext rfl (Prod.ext rfl h))).elim⟩

end Loading

/-! ### A command that has done nothing ends -/

/-- No core runs anything for the command, so there is no work to take off. -/
theorem dropWork_idle {d : Dev} {uid : Nat} (h : d.cores.all (fun e => e.2.ctxs.all (fun x => x.2.uid != uid)) = true)
    (killed : Bool) : dropWork d uid killed = d := by
  have hidle : ∀ e ∈ d.cores, ∀ x ∈ e.2.ctxs, x.2.uid ≠ uid := by simpa using h
  have hslips : ∀ l : List (Nat × CoreSt), (∀ e ∈ l, ∀ x ∈ e.2.ctxs, x.2.uid ≠ uid) →
      l.foldl (fun d e => e.2.ctxs.foldl (fun d x => if x.2.uid = uid then slipEnd d e.1 x.2 else d) d) d = d := by
    intro l hl
    refine List.foldlRecOn l _ (motive := fun t => t = d) rfl (fun t ht e he => ?_)
    refine List.foldlRecOn e.2.ctxs _ (motive := fun t => t = d) ht (fun t ht x hx => ?_)
    rw [if_neg (hl e he x hx)]
    exact ht
  unfold dropWork
  rw [hslips d.cores hidle]
  dsimp only
  rw [if_neg (by simpa using hidle)]

/-- Dropping a command's flash writes on their way changes the flash translation layers alone. -/
theorem ftlDrop_ext (d : Dev) (uid : Nat) : ∃ x, ftlDrop d uid = { d with ext := x } := by
  unfold ftlDrop
  refine List.foldlRecOn _ _ (motive := fun t => ∃ x, t = { d with ext := x }) ⟨d.ext, rfl⟩ (fun t ht sd _ => ?_)
  obtain ⟨x, rfl⟩ := ht
  dsimp only
  split
  · exact ⟨_, rfl⟩
  · exact ⟨x, rfl⟩

/-- A command holds nothing and has made nothing. -/
structure EmptyHanded (c : Cmd) : Prop where
  committed : c.committed = false
  gens : c.gens = []
  newCopies : c.newCopies = []
  newPages : c.newPages = []
  newSlots : c.newSlots = []
  pinP : c.pinP = []
  pinS : c.pinS = []
  held : c.held = []

theorem emptyHanded_of_untouched {d : Dev} {uid : Nat} {c : Cmd} (h : Untouched d uid c) : EmptyHanded c := by
  rw [h.own]
  constructor <;> rfl

/-- What a command ends with stays apart from what it holds. -/
theorem EmptyHanded.endedCmd {c : Cmd} (h : EmptyHanded c) (status detail : Nat) (retry : Bool) :
    EmptyHanded (endedCmd c status detail retry) :=
  ⟨h.committed, h.gens, h.newCopies, h.newPages, h.newSlots, h.pinP, h.pinS, h.held⟩

theorem EmptyHanded.running {c : Cmd} (h : EmptyHanded c) : EmptyHanded { c with phase := .running } :=
  ⟨h.committed, h.gens, h.newCopies, h.newPages, h.newSlots, h.pinP, h.pinS, h.held⟩

theorem EmptyHanded.undo {d : Dev} {uid : Nat} {c : Cmd} (h : EmptyHanded c)
    (hpres : d.qm.pres.all (fun p => p.uid != uid) = true) : undoCmd d uid c = ftlDrop d uid := by
  obtain ⟨x, hx⟩ := ftlDrop_ext d uid
  have hnone : (ftlDrop d uid).qm.pres.find? (fun p => p.uid == uid) = none := by
    rw [hx]
    simpa using hpres
  unfold undoCmd
  rw [h.committed, h.gens, h.newCopies]
  simp only [Bool.false_eq_true, if_false, List.foldl_nil, hnone]

theorem EmptyHanded.release {c : Cmd} (h : EmptyHanded c) (d : Dev) : releaseCmd d c = d := by
  unfold releaseCmd
  rw [h.pinP, h.newPages, h.pinS, h.newSlots, h.held]
  rfl

theorem EmptyHanded.finished {d : Dev} {uid : Nat} {c : Cmd} (h : EmptyHanded c)
    (hpres : d.qm.pres.all (fun p => p.uid != uid) = true) :
    (finished d uid c).mem = d.mem ∧ (finished d uid c).regs = d.regs := by
  obtain ⟨x, hx⟩ := ftlDrop_ext d uid
  unfold Machine.finished
  rw [h.undo hpres, h.release, hx]
  exact ⟨rfl, rfl⟩

/-- A command that holds nothing, has made nothing and runs nowhere ends with no change of memory or registers. -/
theorem endCmd_emptyHanded {d : Dev} {uid : Nat} {c : Cmd} (hs : SMap.sorted d.qm.cmds = true) (hc : cmd d uid = some c)
    (hp : c.phase ≠ .ended) (h : EmptyHanded c)
    (hidle : d.cores.all (fun e => e.2.ctxs.all (fun x => x.2.uid != uid)) = true)
    (hpres : d.qm.pres.all (fun p => p.uid != uid) = true) (status detail : Nat) (retry : Bool) :
    (endCmd d uid status detail retry).mem = d.mem ∧ (endCmd d uid status detail retry).regs = d.regs := by
  have hempty := h.endedCmd status detail retry
  have hsorted : SMap.sorted (stopped d uid (endedCmd c status detail retry)).qm.cmds = true := SMap.sorted_insert _ _ hs
  have hwake := completeCmd_ended hsorted (cmd_setCmd_same d uid _) rfl
  have hdrop : dropWork (stopped d uid (endedCmd c status detail retry)) uid true = stopped d uid (endedCmd c status detail retry) :=
    dropWork_idle (d := stopped d uid (endedCmd c status detail retry)) hidle true
  obtain ⟨hmem, hregs⟩ := hempty.finished (d := stopped d uid (endedCmd c status detail retry)) (uid := uid) hpres
  rw [endCmd_eq hc hp, hdrop, hwake.rest]
  exact ⟨hmem, hregs⟩

/-- A command that has only begun to run ends with its status; no memory and no register changes. -/
theorem endCmd_untouched {d : Dev} {uid : Nat} {c : Cmd} (hs : SMap.sorted d.qm.cmds = true) (h : Untouched d uid c)
    (status detail : Nat) (retry : Bool) :
    let t := endCmd (setCmd d uid { c with phase := .running }) uid status detail retry
    EndedAs t uid c status retry ∧ t.mem = d.mem ∧ t.regs = d.regs := by
  have hrec := cmd_setCmd_same d uid { c with phase := .running }
  have hne : ({ c with phase := .running } : Cmd).phase ≠ .ended := nofun
  have hsorted : SMap.sorted (setCmd d uid { c with phase := .running }).qm.cmds = true := SMap.sorted_insert _ _ hs
  obtain ⟨hend, -, -⟩ := endCmd_ends hsorted hrec hne status detail retry
  exact ⟨hend, endCmd_emptyHanded hsorted hrec hne (emptyHanded_of_untouched h).running h.idle h.pres status detail retry⟩

end Sys2Proof.Machine

/-! SUPPORT. O54: a segment takes its holds and pins, its job's step rises, and its cores start (04 R118; 05 R143; 06 R194; 08
R244, R252). -/

namespace Sys2Proof.Machine
open Sys2Proof

/-! ### Writing an entry that a table has -/

theorem SMap.keys_insert_listed {α : Type} {m : SMap α} {i : Nat} {a : α} (b : α) (h : SMap.get? m i = some a) :
    (SMap.insert m i b).map (·.1) = m.map (·.1) := by
  induction m with
  | nil => cases h
  | cons e r ih =>
    obtain ⟨k, v⟩ := e
    simp only [SMap.get?] at h
    simp only [SMap.insert]
    split_ifs at h ⊢ with hlt heq
    · rw [heq]
      rfl
    · exact congrArg (k :: ·) (ih h)

theorem sorted_setPst {d : Dev} (h : SMap.sorted d.qm.pst = true) (p : Nat) (x : Pst) : SMap.sorted (setPst d p x).qm.pst = true :=
  SMap.sorted_put p x freePst h

theorem sorted_setSlot {d : Dev} (h : SMap.sorted d.qm.slots = true) (i : Nat) (x : Slot) :
    SMap.sorted (setSlot d i x).qm.slots = true :=
  SMap.sorted_put i x freeSlot h

theorem sorted_setJob {d : Dev} (h : SMap.sorted d.qm.jobs = true) (j : Nat) (x : Job) : SMap.sorted (setJob d j x).qm.jobs = true :=
  SMap.sorted_put j x freeJob h

theorem job_setJob_sorted {d : Dev} (h : SMap.sorted d.qm.jobs = true) (j : Nat) (x : Job) : job (setJob d j x) j = x :=
  SMap.getD_put_same _ _ _ h

theorem pst_pinPage {d : Dev} (h : SMap.sorted d.qm.pst = true) (p q : Nat) :
    (pst (pinPage d p) q).res = (pst d q).res ∧ (pst (pinPage d p) q).gen = (pst d q).gen := by
  unfold pinPage setPst pst
  by_cases hqp : q = p
  · subst hqp
    simp only [SMap.getD_put_same _ _ _ h, and_self]
  · simp only [SMap.getD_put_other _ _ _ h hqp, and_self]

theorem slot_pinSlot {d : Dev} (h : SMap.sorted d.qm.slots = true) (i k : Nat) :
    (slot (pinSlot d i) k).state = (slot d k).state ∧ (slot (pinSlot d i) k).gen = (slot d k).gen := by
  unfold pinSlot setSlot slot
  by_cases hki : k = i
  · subst hki
    simp only [SMap.getD_put_same _ _ _ h, and_self]
  · simp only [SMap.getD_put_other _ _ _ h hki, and_self]

/-! ### The command while its segment starts -/

/-- The command still runs, with the descriptor and the cores it is to run on. -/
def Starting (c c' : Cmd) : Prop :=
  c'.phase = c.phase ∧ c'.desc = c.desc ∧ c'.coresLeft = c.coresLeft ∧ c'.t4left = c.t4left

theorem Starting.refl (c : Cmd) : Starting c c := ⟨rfl, rfl, rfl, rfl⟩

theorem Starting.trans {a b c : Cmd} (h : Starting a b) (k : Starting b c) : Starting a c := by
  obtain ⟨hp, hd, hl, ht⟩ := h
  obtain ⟨kp, kd, kl, kt⟩ := k
  exact ⟨kp.trans hp, kd.trans hd, kl.trans hl, kt.trans ht⟩

/-- A change of what the command holds: the copies' counts and the command's record. -/
structure HoldSide (uid : Nat) (c : Cmd) (d t : Dev) : Prop where
  rest : t = { d with mem := { d.mem with objs := t.mem.objs }, qm := { d.qm with cmds := t.qm.cmds } }
  keys : t.mem.objs.map (·.1) = d.mem.objs.map (·.1)
  record : ∃ c', cmd t uid = some c' ∧ Starting c c'

theorem holdSide_takeHold {d : Dev} {uid : Nat} {c : Cmd} (hc : cmd d uid = some c) (tier oid : Nat) :
    HoldSide uid c d (takeHold d uid tier oid) := by
  unfold takeHold
  rw [hc]
  dsimp only
  split
  · exact ⟨rfl, rfl, c, hc, .refl c⟩
  · have hrec := cmd_setCmd_same d uid { c with held := c.held ++ [(tier, oid)] }
    unfold holdCopy
    split
    · exact ⟨rfl, rfl, _, hrec, .refl c⟩
    · rename_i ho
      exact ⟨rfl, SMap.keys_insert_listed _ ho, _, hrec, .refl c⟩

/-- The holds of a command on all copies of its object list. -/
theorem holdSide_holds {uid : Nat} {c : Cmd} (l : List (Nat × Nat)) {d : Dev} (hc : cmd d uid = some c) :
    HoldSide uid c d (l.foldl (fun d o => takeHold d uid o.1 o.2) d) := by
  induction l generalizing d c with
  | nil => exact ⟨rfl, rfl, c, hc, .refl c⟩
  | cons o l ih =>
    have hstep := holdSide_takeHold hc o.1 o.2
    obtain ⟨c1, hc1, hs1⟩ := hstep.record
    have htail := ih hc1
    obtain ⟨c2, hc2, hs2⟩ := htail.record
    refine ⟨?_, htail.keys.trans hstep.keys, c2, hc2, hs1.trans hs2⟩
    rw [List.foldl_cons, htail.rest, hstep.rest]

/-! ### Pins -/

/-- A change of what the command pins: the pins of pages and slots, and the command's record. -/
structure PinSide (uid : Nat) (c : Cmd) (d t : Dev) : Prop where
  rest : t = { d with qm := { d.qm with cmds := t.qm.cmds, pst := t.qm.pst, slots := t.qm.slots } }
  pages : SMap.sorted t.qm.pst = true ∧ ∀ p, (pst t p).res = (pst d p).res ∧ (pst t p).gen = (pst d p).gen
  slots : SMap.sorted t.qm.slots = true ∧ ∀ i, (slot t i).state = (slot d i).state ∧ (slot t i).gen = (slot d i).gen
  record : ∃ c', cmd t uid = some c' ∧ Starting c c'

namespace PinSide
variable {uid : Nat} {c : Cmd}

theorem refl {d : Dev} (hp : SMap.sorted d.qm.pst = true) (hs : SMap.sorted d.qm.slots = true) (hc : cmd d uid = some c) :
    PinSide uid c d d :=
  ⟨rfl, ⟨hp, fun _ => ⟨rfl, rfl⟩⟩, ⟨hs, fun _ => ⟨rfl, rfl⟩⟩, c, hc, .refl c⟩

/-- The command's record is written. -/
theorem setCmd {d t : Dev} {c' : Cmd} (h : PinSide uid c d t) (hk : Starting c c') : PinSide uid c d (setCmd t uid c') where
  rest := by
    rw [h.rest]
    rfl
  pages := h.pages
  slots := h.slots
  record := ⟨c', cmd_setCmd_same t uid c', hk⟩

theorem pinPage {d t : Dev} (h : PinSide uid c d t) (p : Nat) : PinSide uid c d (pinPage t p) where
  rest := by
    rw [h.rest]
    rfl
  pages := by
    obtain ⟨hsorted, hsame⟩ := h.pages
    refine ⟨sorted_setPst hsorted p _, fun q => ?_⟩
    obtain ⟨hres, hgen⟩ := pst_pinPage hsorted p q
    exact ⟨hres.trans (hsame q).1, hgen.trans (hsame q).2⟩
  slots := h.slots
  record := h.record

theorem pinSlot {d t : Dev} (h : PinSide uid c d t) (i : Nat) : PinSide uid c d (pinSlot t i) where
  rest := by
    rw [h.rest]
    rfl
  pages := h.pages
  slots := by
    obtain ⟨hsorted, hsame⟩ := h.slots
    refine ⟨sorted_setSlot hsorted i _, fun k => ?_⟩
    obtain ⟨hstate, hgen⟩ := slot_pinSlot hsorted i k
    exact ⟨hstate.trans (hsame k).1, hgen.trans (hsame k).2⟩
  record := h.record

/-- The sessions are not changed. -/
theorem sess {d t : Dev} (h : PinSide uid c d t) (x : Nat) : sess t x = sess d x := by
  rw [h.rest]
  rfl

end PinSide

section Pins
variable {d : Dev} {uid : Nat} {c : Cmd}

/-- A session's page lists agree with the page table (05 R143). -/
def PagesAgree (d : Dev) (x : Nat) : Prop :=
  ∀ e ∈ (sess d x).lists, ∀ p ∈ e.2.ents, (pst d p.pid).res ≠ 0 ∧ (pst d p.pid).gen = p.gen

/-- A session's tails agree with the slot table (06 R194). -/
def SlotsAgree (d : Dev) (x : Nat) : Prop :=
  ∀ e ∈ (sess d x).tails, (slot d e.2.1).state ≠ .free ∧ (slot d e.2.1).gen = e.2.2

theorem pinSide_pinPages {t : Dev} {x : Nat} (hrun : c.phase = .running) (hx : PagesAgree d x) (h : PinSide uid c d t) :
    PinSide uid c d (pinPages t uid x) := by
  unfold pinPages
  rw [h.sess]
  refine List.foldlRecOn _ _ (motive := PinSide uid c d) h (fun t ht e he => ?_)
  obtain ⟨c1, hc1, hs1⟩ := ht.record
  have hr1 := hs1.1.trans hrun
  rw [hc1]
  dsimp only
  rw [if_neg (not_not.mpr hr1)]
  refine List.foldlRecOn _ _ (motive := PinSide uid c d) (ht.setCmd hs1) (fun t ht p hp => ?_)
  obtain ⟨c2, hc2, hs2⟩ := ht.record
  have hr2 := hs2.1.trans hrun
  obtain ⟨hres, hgen⟩ := hx e he p hp
  obtain ⟨hres', hgen'⟩ := ht.pages.2 p.pid
  rw [hc2]
  dsimp only
  rw [if_neg (not_not.mpr hr2), if_neg (by simp [hres', hgen', hres, hgen])]
  split
  · exact ht
  · exact (ht.setCmd (c' := { c2 with pinP := c2.pinP ++ [p.pid] }) hs2).pinPage p.pid

theorem pinSide_pinSlots {t : Dev} {x : Nat} (hrun : c.phase = .running) (hx : SlotsAgree d x) (h : PinSide uid c d t) :
    PinSide uid c d (pinSlots t uid x) := by
  unfold pinSlots
  rw [h.sess]
  refine List.foldlRecOn _ _ (motive := PinSide uid c d) h (fun t ht e he => ?_)
  obtain ⟨c1, hc1, hs1⟩ := ht.record
  have hr1 := hs1.1.trans hrun
  obtain ⟨hstate, hgen⟩ := hx e he
  obtain ⟨hstate', hgen'⟩ := ht.slots.2 e.2.1
  rw [hc1]
  dsimp only
  rw [if_neg (not_not.mpr hr1), if_neg (by simp [hstate', hgen', hstate, hgen])]
  split
  · exact ht
  · exact (ht.setCmd (c' := { c1 with pinS := c1.pinS ++ [(e.2.1, (slot t e.2.1).version)] }) hs1).pinSlot e.2.1

/-- Where the tables agree with the sessions' lists, a running command pins their pages and slots and runs on. -/
theorem pinSide_pins (l : List Nat) (hrun : c.phase = .running) (hl : ∀ x ∈ l, PagesAgree d x ∧ SlotsAgree d x)
    (h : PinSide uid c d d) : PinSide uid c d (l.foldl (fun d x => pinSlots (pinPages d uid x) uid x) d) :=
  List.foldlRecOn l _ (motive := PinSide uid c d) h (fun _ ht x hx =>
    pinSide_pinSlots hrun (hl x hx).2 (pinSide_pinPages hrun (hl x hx).1 ht))

end Pins

/-! ### The job's step -/

/-- A change of a job's prefetch record and of the marks that it sets: the step stays. -/
structure MarkSide (j : Nat) (d t : Dev) : Prop where
  rest : t = { d with mem := { d.mem with marks := t.mem.marks }, qm := { d.qm with jobs := t.qm.jobs } }
  canon : SMap.sorted t.qm.jobs = true
  step : (job t j).pfStep = (job d j).pfStep

theorem marksOnly_foldl (d : Dev) (j i : Nat) (l : List Nat) :
    ∃ m, l.foldl (fun d k => markGran d j i k) d = { d with mem := { d.mem with marks := m } } := by
  refine List.foldlRecOn l _ (motive := fun t => ∃ m : SMap (List (Nat × Nat)), t = { d with mem := { d.mem with marks := m } })
    ⟨d.mem.marks, rfl⟩ (fun t ht k _ => ?_)
  obtain ⟨m, rfl⟩ := ht
  exact ⟨_, rfl⟩

theorem marksOnly_markEntry (d : Dev) (j i : Nat) (e : List Nat) :
    ∃ m, markEntry d j i e = { d with mem := { d.mem with marks := m } } := by
  unfold markEntry
  split
  · split
    · exact marksOnly_foldl _ _ _ _
    · exact ⟨d.mem.marks, rfl⟩
  · exact marksOnly_foldl _ _ _ _

theorem markSide_markEligible {d : Dev} (j : Nat) (h : SMap.sorted d.qm.jobs = true) : MarkSide j d (markEligible d j) := by
  unfold markEligible
  refine List.foldlRecOn _ _ (motive := MarkSide j d) ⟨rfl, h, rfl⟩ (fun t ht i _ => ?_)
  dsimp only
  split
  · exact ht
  · have hjob := job_setJob_sorted ht.canon j { job t j with pf := SMap.insert (job t j).pf i .eligible }
    obtain ⟨m, hm⟩ := marksOnly_markEntry (setJob t j { job t j with pf := SMap.insert (job t j).pf i .eligible }) j i
      (pfBytes t j i)
    rw [hm]
    refine ⟨?_, sorted_setJob ht.canon j _, Eq.trans ?_ ht.step⟩
    · rw [ht.rest]
      rfl
    · exact (congrArg Job.pfStep hjob).trans rfl

/-- The job's step rises to that of the descriptor and never falls (08 R252). -/
theorem raiseStep_steps {d : Dev} (h : SMap.sorted d.qm.jobs = true) (j n : Nat) :
    let t := raiseStep d j n
    t = { d with mem := { d.mem with marks := t.mem.marks }, qm := { d.qm with jobs := t.qm.jobs } } ∧
      (job t j).pfStep = max (job d j).pfStep n := by
  unfold raiseStep
  dsimp only
  split
  · rename_i hlt
    have hmark := markSide_markEligible (d := setJob d j { job d j with pfStep := n }) j (sorted_setJob h j _)
    refine ⟨?_, hmark.step.trans ?_⟩
    · rw [hmark.rest]
      rfl
    · rw [Nat.max_eq_right (Nat.le_of_lt hlt)]
      exact congrArg Job.pfStep (job_setJob_sorted h j _)
  · rename_i hge
    exact ⟨rfl, (Nat.max_eq_left (Nat.le_of_not_lt hge)).symm⟩

end Sys2Proof.Machine

/-! SUPPORT. O54: the cores of a segment start (04 R112, R118), and the statement. -/

namespace Sys2Proof.Machine
open Sys2Proof

/-! ### The record of a command that may be done -/

/-- The command runs, or its work is done. -/
def Launched (uid : Nat) (desc : BitVec 512) (d : Dev) : Prop :=
  ∃ c, cmd d uid = some c ∧ (c.phase = .running ∨ c.phase = .worked) ∧ c.desc = desc

theorem launched_requestCommit {uid : Nat} {desc : BitVec 512} {d : Dev} (h : Launched uid desc d) :
    Launched uid desc (requestCommit d uid) := by
  obtain ⟨c, hc, hp, hd⟩ := h
  unfold requestCommit
  rw [hc]
  dsimp only
  split
  · exact ⟨_, cmd_setCmd_same d uid _, .inr rfl, hd⟩
  · exact ⟨c, hc, hp, hd⟩

theorem launched_finishCore {uid n j : Nat} {desc : BitVec 512} {d : Dev} {x : Ctx} (h : Launched uid desc d)
    (hx : ctxOf d n j = some x) (hu : x.uid = uid) : Launched uid desc (finishCore d n j) := by
  obtain ⟨c, hc, hp, hd⟩ := h
  unfold finishCore
  rw [hx]
  dsimp only
  rw [hu, hc]
  dsimp only
  split
  · split
    · exact launched_requestCommit ⟨_, cmd_setCmd_same d uid _, hp, hd⟩
    · exact ⟨c, hc, hp, hd⟩
  · exact ⟨c, hc, hp, hd⟩

/-! ### One core starts -/

/-- What a job makes its own of a core is cleared in that core alone (03 R83, R100). -/
theorem clearCore_core (d : Dev) (j : Nat) (e : CoreEnt) : ∃ k, clearCore d j e = setCore d e.core k := by
  unfold clearCore
  dsimp only
  split <;> exact ⟨_, rfl⟩

/-- Only one core differs. -/
structure OneCore (n : Nat) (d t : Dev) : Prop where
  rest : t = { d with cores := t.cores }
  canon : SMap.sorted t.cores = true
  others : ∀ m, m ≠ n → core t m = core d m

theorem OneCore.setCore {n : Nat} {d t : Dev} (h : OneCore n d t) (k : CoreSt) : OneCore n d (setCore t n k) where
  rest := by
    rw [h.rest]
    rfl
  canon := SMap.sorted_put n k idleCore h.canon
  others := fun m hm => (core_setCore_other k h.canon hm).trans (h.others m hm)

/-- What of a core is a job's own is cleared before its program starts. -/
def ownCleared (d : Dev) (j n : Nat) : Dev :=
  match placeEnt (job d j).place n with
  | some e => clearSems (clearCore d j e) n (ownSems d n j).1 (ownSems d n j).2
  | none => d

theorem oneCore_ownCleared {d : Dev} (h : SMap.sorted d.cores = true) (j n : Nat) : OneCore n d (ownCleared d j n) := by
  have hrefl : OneCore n d d := ⟨rfl, h, fun _ _ => rfl⟩
  unfold ownCleared
  split
  · rename_i e he
    have hn : e.core = n := by simpa using List.find?_some he
    obtain ⟨k, hk⟩ := clearCore_core d j e
    rw [hk, hn]
    exact (hrefl.setCore k).setCore _
  · exact hrefl

/-- A core runs a job's program from its start. -/
def freshCtx (uid readyAt : Nat) (p : Nat × Image × List PtrEnt × List Nat) : Ctx :=
  { uid := uid, image := (foldImage p.2.1 p.2.2.2).1, exts := p.2.2.2,
    todo := walkImage (foldImage p.2.1 p.2.2.2).1 p.2.2.1 (foldImage p.2.1 p.2.2.2).2, readyAt := readyAt, curAct := 0,
    curIdx := [], waitFrom := none, heldFrom := none, nextId := 1, running := [], argmax := [], lastRegion := [],
    fenceBE := false, stepOk := false, gateFrom := none, slipFrom := 0, swapFrom := none }

theorem startCore_eq (uid j readyAt : Nat) (d : Dev) (p : Nat × Image × List PtrEnt × List Nat) :
    startCore uid j readyAt d p =
      finishCore (skipItems (setCtx (ownCleared d j p.1) p.1 j (freshCtx uid readyAt p)) p.1 j) p.1 j := rfl

/-- The cores of some programs have started; the command runs, or is done. -/
structure Started (uid j : Nat) (desc : BitVec 512) (l : List (Nat × Image × List PtrEnt × List Nat)) (d t : Dev) : Prop where
  rest : t = { d with regs := t.regs, cores := t.cores, qm := { d.qm with cmds := t.qm.cmds, commitQ := t.qm.commitQ } }
  canon : SMap.sorted t.cores = true
  record : Launched uid desc t
  ctxs : ∀ p ∈ l, ∃ x, ctxOf t p.1 j = some x ∧ x.uid = uid ∧ x.image = (foldImage p.2.1 p.2.2.2).1
  others : ∀ m, m ∉ l.map (·.1) → core t m = core d m

theorem startCore_starts {uid j : Nat} {desc : BitVec 512} {d : Dev} (hs : SMap.sorted d.cores = true) (h : Launched uid desc d)
    (readyAt : Nat) (p : Nat × Image × List PtrEnt × List Nat) : Started uid j desc [p] d (startCore uid j readyAt d p) := by
  have hclear := oneCore_ownCleared hs j p.1
  rw [startCore_eq]
  generalize ownCleared d j p.1 = e at hclear
  obtain ⟨g, y, hskip, hy, -, -⟩ := skipItems_setCtx e p.1 j (freshCtx uid readyAt p)
  rw [hskip]
  have hctx := ctxOf_setCtx_same { e with regs := g } p.1 j y
  have huid : y.uid = uid := by rw [hy]; rfl
  have himage : y.image = (foldImage p.2.1 p.2.2.2).1 := by rw [hy]; rfl
  have hset : OneCore p.1 e (setCtx e p.1 j y) := (⟨rfl, hclear.canon, fun _ _ => rfl⟩ : OneCore p.1 e e).setCore _
  have hrec : Launched uid desc (setCtx { e with regs := g } p.1 j y) := by
    rw [hclear.rest]
    exact h
  have hfin := launched_finishCore hrec hctx huid
  obtain ⟨l, q, hq⟩ := finishCore_qm (setCtx { e with regs := g } p.1 j y) p.1 j
  rw [hq] at hfin ⊢
  refine ⟨?_, hset.canon, hfin, ?_, ?_⟩
  · rw [hclear.rest]
    rfl
  · intro p' hp'
    obtain rfl := List.mem_singleton.mp hp'
    exact ⟨y, hctx, huid, himage⟩
  · intro m hm
    have hne : m ≠ p.1 := by simpa using hm
    exact (hset.others m hne).trans (hclear.others m hne)

/-- A list of programs starts on as many cores. -/
theorem startCores_start {uid j : Nat} {desc : BitVec 512} (readyAt : Nat) (l : List (Nat × Image × List PtrEnt × List Nat))
    {d : Dev} (hs : SMap.sorted d.cores = true) (h : Launched uid desc d) (hl : (l.map (·.1)).Nodup) :
    Started uid j desc l d (l.foldl (startCore uid j readyAt) d) := by
  induction l generalizing d with
  | nil => exact ⟨rfl, hs, h, fun _ hp => absurd hp List.not_mem_nil, fun _ _ => rfl⟩
  | cons p l ih =>
    obtain ⟨hp, hl⟩ := List.nodup_cons.mp hl
    have hone := startCore_starts (j := j) hs h readyAt p
    have htail := ih hone.canon hone.record hl
    rw [List.foldl_cons]
    refine ⟨?_, htail.canon, htail.record, ?_, ?_⟩
    · rw [htail.rest, hone.rest]
    · intro p' hp'
      rcases List.mem_cons.mp hp' with rfl | hp'
      · obtain ⟨x, hx, hu, hi⟩ := hone.ctxs p' List.mem_cons_self
        refine ⟨x, Eq.trans ?_ hx, hu, hi⟩
        unfold ctxOf
        rw [htail.others p'.1 hp]
      · exact htail.ctxs p' hp'
    · intro m hm
      obtain ⟨hne, hm⟩ := not_or.mp (mt List.mem_cons.mpr hm)
      exact (htail.others m hm).trans (hone.others m (by simpa using hne))

end Sys2Proof.Machine

/-! SUPPORT. O54: a segment is launched, and the statement (04 R106, R111, R118; 10 R308; 11 R369; 13 R433). -/

namespace Sys2Proof.Machine
open Sys2Proof

/-! ### Holds, pins and the step -/

/-- The module with the holds and pins of a command that is to run on its cores. -/
def seized (d : Dev) (uid : Nat) (c : Cmd) : Dev :=
  c.sess.foldl (fun d x => pinSlots (pinPages d uid x) uid x)
    (c.objs.foldl (fun d o => takeHold d uid o.1 o.2) (setCmd d uid { c with coresLeft := c.cores }))

/-- The holds and pins of a command: what of the module may differ, and the record. -/
structure Seized (uid : Nat) (c : Cmd) (d t : Dev) : Prop where
  rest : t = { d with mem := { d.mem with objs := t.mem.objs },
                      qm := { d.qm with cmds := t.qm.cmds, pst := t.qm.pst, slots := t.qm.slots } }
  keys : t.mem.objs.map (·.1) = d.mem.objs.map (·.1)
  objs : c.objs = [] → t.mem.objs = d.mem.objs
  record : ∃ c', cmd t uid = some c' ∧ Starting { c with coresLeft := c.cores } c'

theorem seized_seizes {d : Dev} {uid : Nat} {c : Cmd} (hs : TablesSorted d) (hp : c.phase = .running)
    (hagree : ∀ x ∈ c.sess, PagesAgree d x ∧ SlotsAgree d x) : Seized uid c d (seized d uid c) := by
  have hhold := holdSide_holds c.objs (cmd_setCmd_same d uid { c with coresLeft := c.cores })
  unfold seized
  generalize he : c.objs.foldl (fun d o => takeHold d uid o.1 o.2) (setCmd d uid { c with coresLeft := c.cores }) = e at hhold ⊢
  obtain ⟨c1, hc1, hs1⟩ := hhold.record
  have herest := hhold.rest
  have hagree1 : ∀ x ∈ c.sess, PagesAgree e x ∧ SlotsAgree e x := by
    rw [herest]
    exact hagree
  have hpin := pinSide_pins c.sess (hs1.1.trans hp) hagree1
    (PinSide.refl (by rw [herest]; exact hs.pst) (by rw [herest]; exact hs.slots) hc1)
  obtain ⟨c2, hc2, hs2⟩ := hpin.record
  have hmem := congrArg Dev.mem hpin.rest
  dsimp only at hmem
  refine ⟨?_, ?_, fun hnil => ?_, c2, hc2, hs1.trans hs2⟩
  · rw [hpin.rest, herest]
    rfl
  · rw [hmem]
    exact hhold.keys
  · rw [hmem, ← he, hnil]
    rfl

/-! ### The launch -/

/-- The programs of a command with their extents. -/
def progsOf (c : Cmd) (ps : List (Nat × Image × List PtrEnt)) : List (Nat × Image × List PtrEnt × List Nat) :=
  ps.map (fun p => (p.1, p.2.1, p.2.2, runExts p.2.1 (aExts c.desc)))

/-- The module with the programs of a command started and its job's step raised. -/
def programsStarted (d : Dev) (uid : Nat) (c : Cmd) (ps : List (Nat × Image × List PtrEnt)) : Dev :=
  (progsOf c ps).foldl (startCore uid c.job (d.now + 1)) (raiseStep (seized d uid c) c.job (dBytes c.desc 48 4))

theorem launch_eq {d : Dev} {uid : Nat} {c c' : Cmd} (hc : cmd (seized d uid c) uid = some c') (hp : c'.phase = .running)
    (ps : List (Nat × Image × List PtrEnt)) :
    launch d uid c false ps =
      if c.cores.isEmpty then requestCommit (programsStarted d uid c ps) uid else programsStarted d uid c ps := by
  have hnot : ¬ c'.phase ≠ .running := not_not.mpr hp
  have hseized : c.sess.foldl (fun d x => pinSlots (pinPages d uid x) uid x)
    (c.objs.foldl (fun d o => takeHold d uid o.1 o.2) (setCmd d uid { c with coresLeft := c.cores })) = seized d uid c := rfl
  unfold launch
  simp only [Bool.false_eq_true, if_false, hseized, hc, hnot]
  rfl

/-- What the launch of a segment leaves (04 R118; 08 R244, R252). -/
structure SegLaunched (uid : Nat) (c : Cmd) (ps : List (Nat × Image × List PtrEnt)) (d t : Dev) : Prop where
  ctxs : ∀ p ∈ ps, ∃ x, ctxOf t p.1 c.job = some x ∧ x.uid = uid ∧ x.image = (foldImage p.2.1 (runExts p.2.1 (aExts c.desc))).1
  record : Launched uid c.desc t
  step : (job t c.job).pfStep = max (job d c.job).pfStep (dBytes c.desc 48 4)
  others : ∀ n, n ∉ ps.map (·.1) → core t n = core d n
  bytes : t.mem.bytes = d.mem.bytes
  keys : t.mem.objs.map (·.1) = d.mem.objs.map (·.1)
  objs : c.objs = [] → t.mem.objs = d.mem.objs
  orb : t.orb = d.orb

/-- The request for the commit token changes nothing of it. -/
theorem SegLaunched.requestCommit {uid : Nat} {c : Cmd} {ps : List (Nat × Image × List PtrEnt)} {d t : Dev}
    (h : SegLaunched uid c ps d t) : SegLaunched uid c ps d (requestCommit t uid) := by
  have hrec := launched_requestCommit h.record
  obtain ⟨l, q, hq⟩ := requestCommit_qm t uid
  rw [hq] at hrec ⊢
  exact ⟨h.ctxs, hrec, h.step, h.others, h.bytes, h.keys, h.objs, h.orb⟩

theorem segLaunched_programsStarted {d : Dev} {uid : Nat} {c : Cmd} {ps : List (Nat × Image × List PtrEnt)} (hs : TablesSorted d)
    (hp : c.phase = .running) (hps : (ps.map (·.1)).Nodup) (hseized : Seized uid c d (seized d uid c)) :
    SegLaunched uid c ps d (programsStarted d uid c ps) := by
  obtain ⟨c', hc', hphase, hdesc, -, -⟩ := hseized.record
  have hcores : (progsOf c ps).map (·.1) = ps.map (·.1) := by simp [progsOf]
  unfold programsStarted
  generalize seized d uid c = e at hseized hc'
  have herest := hseized.rest
  obtain ⟨hrest, hstep⟩ := raiseStep_steps (d := e) (by rw [herest]; exact hs.jobs) c.job (dBytes c.desc 48 4)
  generalize raiseStep e c.job (dBytes c.desc 48 4) = f at hrest hstep
  have hsorted : SMap.sorted f.cores = true := by
    rw [hrest, herest]
    exact hs.cores
  have hrec : Launched uid c.desc f := ⟨c', by rw [hrest]; exact hc', .inl (hphase.trans hp), hdesc⟩
  have hstart := startCores_start (uid := uid) (j := c.job) (d.now + 1) (progsOf c ps) hsorted hrec (by rw [hcores]; exact hps)
  generalize (progsOf c ps).foldl (startCore uid c.job (d.now + 1)) f = t at hstart
  have htrest := hstart.rest
  have hmem : t.mem = { d.mem with objs := e.mem.objs, marks := f.mem.marks } := by
    rw [htrest, hrest, herest]
  refine ⟨fun p hmem => ?_, hstart.record, ?_, fun n hn => ?_, by rw [hmem], ?_, fun hnil => ?_, ?_⟩
  · exact hstart.ctxs (p.1, p.2.1, p.2.2, runExts p.2.1 (aExts c.desc)) (List.mem_map_of_mem hmem)
  · have hjobs : job t c.job = job f c.job := by rw [htrest]; rfl
    have hjob : job e c.job = job d c.job := by rw [herest]; rfl
    rw [hjobs, hstep, hjob]
  · rw [hstart.others n (by rw [hcores]; exact hn), hrest, herest]
    rfl
  · rw [hmem]
    exact hseized.keys
  · rw [hmem]
    exact hseized.objs hnil
  · rw [htrest, hrest, herest]

/-- A command with no cores is done once its step is raised. -/
theorem worked_requestCommit {d : Dev} {uid : Nat} {c : Cmd} (hc : cmd d uid = some c) (hp : c.phase = .running)
    (hl : c.coresLeft = []) (ht : c.t4left = 0) : WorkedNow (requestCommit d uid) uid := by
  rw [requestCommit_running hc hp hl ht]
  exact ⟨⟨_, cmd_requested d uid c, rfl⟩, List.mem_append_right _ (List.mem_singleton_self uid)⟩

theorem launch_launches {d : Dev} {uid : Nat} {c : Cmd} {ps : List (Nat × Image × List PtrEnt)} (hs : TablesSorted d)
    (hp : c.phase = .running) (ht : c.t4left = 0) (hps : (ps.map (·.1)).Nodup) (hnone : c.cores = [] → ps = [])
    (hagree : ∀ x ∈ c.sess, PagesAgree d x ∧ SlotsAgree d x) :
    SegLaunched uid c ps d (launch d uid c false ps) ∧ (c.cores = [] → WorkedNow (launch d uid c false ps) uid) := by
  have hseized := seized_seizes (uid := uid) hs hp hagree
  have hstarted := segLaunched_programsStarted hs hp hps hseized
  obtain ⟨c', hc', hphase, -, hleft, ht4⟩ := hseized.record
  rw [launch_eq hc' (hphase.trans hp)]
  refine ⟨?_, fun hnil => ?_⟩
  · split
    · exact hstarted.requestCommit
    · exact hstarted
  · rw [if_pos (by rw [hnil]; rfl)]
    have hrest := (raiseStep_steps (d := seized d uid c) (by rw [hseized.rest]; exact hs.jobs) c.job (dBytes c.desc 48 4)).1
    unfold programsStarted
    rw [hnone hnil]
    refine worked_requestCommit ?_ (hphase.trans hp) (hleft.trans hnil) (ht4.trans ht)
    exact Eq.trans (congrArg (fun e : Dev => cmd e uid) hrest) hc'

/-! ### The start of a segment -/

/-- What a RUN_SEGMENT does once its images and pointer lists are loaded (04 R111; 11 R369; 13 R433). -/
def segmentLoaded (d : Dev) (uid : Nat) (c : Cmd) (ims : List (Nat × Image)) (ps : List (Nat × Image × List PtrEnt)) : Dev :=
  match ps.find? (fun p => overPlan p.2.1 (runExts p.2.1 (aExts c.desc)) p.2.2) with
  | some p => endCmd d uid stShape (overIndex p.2.1 (runExts p.2.1 (aExts c.desc)) p.2.2) false
  | none =>
    if ps.any (fun p => isEmptyRun p.2.1 (runExts p.2.1 (aExts c.desc)) p.2.2) then endEmpty d uid
    else if keyErased d c then endCmd d uid stSealed 0 false
    else if ims.any (fun p => p.2.orbit) && d.orb.state != .running then endCmd d uid stOrbit 0 false
    else launch d uid c (ims.any (fun p => p.2.orbit)) ps

section Start
variable {d : Dev} {uid : Nat} {c : Cmd} {ims : List (Nat × Image)} {ps : List (Nat × Image × List PtrEnt)}

theorem opRunSegment_loaded (h : MayStart d uid 0x01 c) (hready : coresReady d uid c = true) (hpend : imagesPending d uid c = false)
    (hobjs : ∀ o ∈ c.objs, (copyFor d uid o.2 o.1).isSome = true)
    (hsess : ∀ x ∈ c.sess, x < 16384 ∧ boundTo d x c.job = true)
    (himages : loadImages uid { c with phase := .running } (c.cores.zip c.images) (setCmd d uid { c with phase := .running }) .none =
      (setCmd d uid { c with phase := .running }, .none, .ok ims))
    (hptrs : loadPtrs uid { c with phase := .running } ims (setCmd d uid { c with phase := .running }) .none =
      (setCmd d uid { c with phase := .running }, .none, .ok ps)) :
    opRunSegment d uid .none = segmentLoaded (setCmd d uid { c with phase := .running }) uid { c with phase := .running } ims ps := by
  have hcopies : c.objs.any (fun o => (copyFor d uid o.2 o.1).isNone) = false := by
    simp only [List.any_eq_false]
    intro o ho
    simp [Option.isSome_iff_ne_none.mp (hobjs o ho)]
  have hbound : c.sess.any (fun x => decide (16384 ≤ x) || !boundTo d x c.job) = false := by
    simp only [List.any_eq_false]
    intro x hx
    obtain ⟨hlt, hb⟩ := hsess x hx
    simp [hb, hlt]
  have hstop : ¬ (c.objs.any (fun o => (copyFor d uid o.2 o.1).isNone) ||
      c.sess.any (fun x => decide (16384 ≤ x) || !boundTo d x c.job)) = true := by
    simp [hcopies, hbound]
  unfold opRunSegment
  refine (startCmd_start _ h (by simp [hready, hpend])).trans ((if_neg hstop).trans ?_)
  dsimp only
  rw [himages]
  dsimp only
  rw [hptrs]
  rfl

theorem segmentLoaded_over (h : ps.any (fun p => overPlan p.2.1 (runExts p.2.1 (aExts c.desc)) p.2.2) = true) :
    ∃ det, segmentLoaded d uid c ims ps = endCmd d uid stShape det false := by
  obtain ⟨p, hp⟩ := Option.isSome_iff_exists.mp ((List.find?_isSome (p := fun p : Nat × Image × List PtrEnt =>
    overPlan p.2.1 (runExts p.2.1 (aExts c.desc)) p.2.2)).mpr (List.any_eq_true.mp h))
  unfold segmentLoaded
  rw [hp]
  exact ⟨_, rfl⟩

/-- With no extent above its plan, the checks that follow decide. -/
theorem segmentLoaded_within (h : ps.any (fun p => overPlan p.2.1 (runExts p.2.1 (aExts c.desc)) p.2.2) = false) :
    segmentLoaded d uid c ims ps =
      if ps.any (fun p => isEmptyRun p.2.1 (runExts p.2.1 (aExts c.desc)) p.2.2) then endEmpty d uid
      else if keyErased d c then endCmd d uid stSealed 0 false
      else if ims.any (fun p => p.2.orbit) && d.orb.state != .running then endCmd d uid stOrbit 0 false
      else launch d uid c (ims.any (fun p => p.2.orbit)) ps := by
  have hnone : ps.find? (fun p => overPlan p.2.1 (runExts p.2.1 (aExts c.desc)) p.2.2) = none :=
    List.find?_eq_none.mpr (List.any_eq_false.mp h)
  unfold segmentLoaded
  rw [hnone]

section Within
variable (hwithin : ps.any (fun p => overPlan p.2.1 (runExts p.2.1 (aExts c.desc)) p.2.2) = false)
include hwithin

theorem segmentLoaded_empty (h : ps.any (fun p => isEmptyRun p.2.1 (runExts p.2.1 (aExts c.desc)) p.2.2) = true) :
    segmentLoaded d uid c ims ps = endCmd d uid stEmpty 0 false :=
  (segmentLoaded_within hwithin).trans (if_pos h)

variable (hfull : ps.any (fun p => isEmptyRun p.2.1 (runExts p.2.1 (aExts c.desc)) p.2.2) = false)
include hfull

theorem segmentLoaded_sealed (h : keyErased d c = true) : segmentLoaded d uid c ims ps = endCmd d uid stSealed 0 false := by
  rw [segmentLoaded_within hwithin, hfull, h]
  rfl

theorem segmentLoaded_lost (hkey : keyErased d c = false) (ho : ims.any (fun p => p.2.orbit) = true)
    (hlost : d.orb.state ≠ .running) : segmentLoaded d uid c ims ps = endCmd d uid stOrbit 0 false := by
  rw [segmentLoaded_within hwithin, hfull, hkey, ho, bne_iff_ne.mpr hlost]
  rfl

theorem segmentLoaded_launch (hkey : keyErased d c = false) (ho : ims.any (fun p => p.2.orbit) = false) :
    segmentLoaded d uid c ims ps = launch d uid c false ps := by
  rw [segmentLoaded_within hwithin, hfull, hkey, ho]
  rfl

end Within

end Start

/-- Each core takes at most one image. -/
theorem nodup_fst_zip {α β : Type} {l : List α} (h : l.Nodup) (m : List β) : ((l.zip m).map (·.1)).Nodup := by
  have hsub : ((l.zip m).map (·.1)).Sublist l := by
    clear h
    induction l generalizing m with
    | nil => exact List.nil_sublist _
    | cons a l ih =>
      cases m with
      | nil => exact List.nil_sublist _
      | cons b m => exact (ih m).cons_cons a
  exact h.sublist hsub

/-- Settles O54: the reads leave the module as it is (`loadImages_none`, `loadPtrs_none`); a check that fails ends a command that
has done nothing (`endCmd_untouched`); else the segment is launched (`launch_launches`). -/
theorem segmentsStartOnTheirCores : Obligations.SegmentsStartOnTheirCores := by
  unfold Obligations.SegmentsStartOnTheirCores
  intro s uid c ims ps hlive hs hm hready hpend hobjs hsess hnodup d c1 r1 r2 ext orbit hims hps
  obtain ⟨⟨hdev1, hev1⟩, hcores1⟩ := loadImages_none (setCmd d uid c1) uid c1 (c.cores.zip c.images)
  obtain ⟨⟨hdev2, hev2⟩, hcores2⟩ := loadPtrs_none (setCmd d uid c1) uid c1 ims
  have himages : loadImages uid c1 (c.cores.zip c.images) (setCmd d uid c1) .none = (setCmd d uid c1, .none, .ok ims) :=
    Prod.ext hdev1 (Prod.ext hev1 hims)
  have hptrs : loadPtrs uid c1 ims (setCmd d uid c1) .none = (setCmd d uid c1, .none, .ok ps) := by
    have hps' : (loadPtrs uid c1 ims r1.1 r1.2.1).2.2 = .ok ps := hps
    rw [show r1.1 = setCmd d uid c1 from hdev1, show r1.2.1 = .none from hev1] at hps'
    exact Prod.ext hdev2 (Prod.ext hev2 hps')
  have hrun : ∀ t, segmentLoaded (setCmd d uid c1) uid c1 ims ps = t → exec (.runSegment uid .none) s = okDev s t :=
    fun t ht => congrArg (okDev s) ((opRunSegment_loaded hm hready hpend hobjs hsess himages hptrs).trans ht)
  have hends : ∀ status detail, _ := fun status detail => endCmd_untouched hs.cmds hm.fresh status detail false
  refine ⟨fun hover => ?above, fun hwithin => ⟨fun hempty => ?empty, fun hfull hkey => ?key, fun hfull hkey horbit hlost => ?orbit,
    fun hfull hkey horbit hagree => ?launch⟩⟩
  case above =>
    obtain ⟨det, hdet⟩ := segmentLoaded_over (d := setCmd d uid c1) (uid := uid) (c := c1) (ims := ims) hover
    exact completes_okDev hlive (hrun _ hdet) (hends stShape det)
  case empty => exact completes_okDev hlive (hrun _ (segmentLoaded_empty hwithin hempty)) (hends stEmpty 0)
  case key =>
    exact completes_okDev hlive (hrun _ (segmentLoaded_sealed (d := setCmd d uid c1) (c := c1) hwithin hfull hkey)) (hends stSealed 0)
  case orbit =>
    exact completes_okDev hlive
      (hrun _ (segmentLoaded_lost (d := setCmd d uid c1) (c := c1) hwithin hfull hkey horbit hlost)) (hends stOrbit 0)
  case launch =>
    have hps1 : ps.map (·.1) = (c.cores.zip c.images).map (·.1) := (hcores2 ps (congrArg (·.2.2) hptrs)).trans (hcores1 ims hims)
    have htables : TablesSorted (setCmd d uid c1) := { hs with cmds := SMap.sorted_insert _ _ hs.cmds }
    obtain ⟨hl, hworked⟩ := launch_launches (uid := uid) (c := c1) (ps := ps) htables rfl (congrArg Cmd.t4left hm.fresh.own)
      (hps1 ▸ nodup_fst_zip hnodup c.images) (fun hnil => by simpa [show c.cores = [] from hnil] using hps1) hagree
    exact completes_okDev hlive
      (hrun _ (segmentLoaded_launch (d := setCmd d uid c1) (c := c1) hwithin hfull hkey horbit))
      ⟨hl.ctxs, hl.record, hl.step, hworked, hl.others, hl.bytes, hl.keys, hl.objs, hl.orb⟩

end Sys2Proof.Machine

/-! SUPPORT. O18: a control structure read from a scratchpad, the list of a list operation, and the commands on the tables that
request the commit token (05 R162, R163; 08 R239, R248; 10 R303, R308, R309, R317). -/

namespace Sys2Proof.Machine
open Sys2Proof

/-! ### Consecutive bytes of a scratchpad -/

theorem readT0_add (d : Dev) (c o m n : Nat) : readT0 d c o (m + n) = readT0 d c o m ++ readT0 d c (o + m) n := by
  unfold readT0
  rw [List.range_add, List.map_append, List.map_map]
  refine congrArg _ (List.map_congr_left fun i _ => ?_)
  rw [Function.comp_apply, Nat.add_assoc]

theorem length_readT0 (d : Dev) (c o n : Nat) : (readT0 d c o n).length = n := by
  unfold readT0
  rw [List.length_map, List.length_range]

theorem take_readT0 (d : Dev) (c o : Nat) {m n : Nat} (h : m ≤ n) : (readT0 d c o n).take m = readT0 d c o m := by
  obtain ⟨r, rfl⟩ := Nat.exists_eq_add_of_le h
  rw [readT0_add, List.take_left' (length_readT0 d c o m)]

theorem drop_readT0 (d : Dev) (c o : Nat) {m n : Nat} (h : m ≤ n) : (readT0 d c o n).drop m = readT0 d c (o + m) (n - m) := by
  obtain ⟨r, rfl⟩ := Nat.exists_eq_add_of_le h
  rw [readT0_add, List.drop_left' (length_readT0 d c o m), Nat.add_sub_cancel_left]

/-- A number inside the bytes that were read is the number at its place in the scratchpad. -/
theorem sBytes_readT0 (d : Dev) (c o : Nat) {b k n : Nat} (h : b + k ≤ n) :
    sBytes (readT0 d c o n) b k = numT0 d c (o + b) k := by
  unfold sBytes numT0
  rw [drop_readT0 d c o (Nat.le_of_add_right_le h), take_readT0 d c (o + b) (by omega)]

/-- Whole granules one after the other are the bytes of their range. -/
theorem flatten_granules (d : Dev) (c : Nat) {o : Nat} (h : o % 4096 = 0) (m : Nat) :
    ((List.range m).map (fun i => stRead d (gT0 c (o / 4096 + i)) 0 4096)).flatten = readT0 d c o (4096 * m) := by
  induction m with
  | zero => rfl
  | succ m ih =>
    rw [List.range_succ, List.map_append, List.flatten_append, ih, Nat.mul_succ, readT0_add, readT0_granule d c m h]
    exact congrArg _ (List.append_nil _)

theorem flatten_granRange (d : Dev) (c n : Nat) {o : Nat} (h : o % 4096 = 0) :
    ((granRange c o n).map (fun k => stRead d k 0 4096)).flatten = readT0 d c o (4096 * ((o + n + 4095) / 4096 - o / 4096)) := by
  unfold granRange
  rw [List.map_map, Function.comp_def]
  exact flatten_granules d c h ((o + n + 4095) / 4096 - o / 4096)

/-! ### A control structure in a scratchpad -/

theorem map_snd_ctlGrans_scratch (c o n : Nat) : (ctlGrans (.t0 c o) n).map (·.2) = granRange c o n := by
  unfold ctlGrans granRange
  rw [List.filterMap_eq_map', List.map_map]
  rfl

theorem mem_granRange_of_ctlGrans {c o n : Nat} {q : Nat × Nat} (h : q ∈ ctlGrans (.t0 c o) n) : q.2 ∈ granRange c o n :=
  map_snd_ctlGrans_scratch c o n ▸ List.mem_map_of_mem h

theorem core_lt_of_decodeAddr {a c o : Nat} (h : decodeAddr a = .t0 c o) : c < 288 := by
  unfold decodeAddr at h
  dsimp only at h
  split_ifs at h with htier hbad
  cases h
  simp only [Bool.or_eq_true, decide_eq_true_eq, not_or] at hbad
  omega

/-- The granules of a range in a job's banks are granules of the scratchpad. -/
theorem gIsT0_of_banksOk {d : Dev} {j c o n k : Nat} (hc : c < 288) (hb : banksOk d j c o n = true) (hk : k ∈ granRange c o n) :
    gIsT0 k = true := by
  obtain ⟨i, hi, rfl⟩ := mem_granRange.mp hk
  have hend : o + n ≤ scratchGrans * 4096 := by
    unfold banksOk at hb
    split at hb
    · cases hb
    · exact of_decide_eq_true (Bool.and_eq_true_iff.mp hb).1
  exact gIsT0_gT0 hc (by omega)

/-- A control structure in a job's banks, neither sealed nor poisoned, is read as the scratchpad holds it (08 R259; 10 R309). -/
theorem readCtl_scratch {d : Dev} {uid j a n o len : Nat} {c : Cmd} (objs : Option (List (Nat × Nat))) (ha : decodeAddr a = .t0 n o)
    (ho : o % 4096 = 0) (hb : banksOk d j n o len = true) (hc : cmd d uid = some c) (hgens : c.gens = [])
    (hplain : ∀ k ∈ granRange n o len, sealed d k = false ∧ poisoned d k = false) :
    readCtl d uid j objs a len .none = (d, .ok (readT0 d n o len)) := by
  have hview : ∀ k ∈ granRange n o len, viewSid d uid k = some k := fun k hk =>
    viewSid_scratch hc (by rw [hgens]; rfl) (gIsT0_of_banksOk (core_lt_of_decodeAddr ha) hb hk)
  have hunsealed : (ctlGrans (.t0 n o) len).find? (fun g => viewSealed d uid g.2) = none := by
    refine List.find?_eq_none.mpr fun q hq => ?_
    have hk := mem_granRange_of_ctlGrans hq
    unfold viewSealed
    rw [hview _ hk]
    exact Bool.eq_false_iff.mp (hplain _ hk).1
  have hlegible : ∀ q ∈ ctlGrans (.t0 n o) len, viewPoison d uid q.2 = false := fun q hq => by
    have hk := mem_granRange_of_ctlGrans hq
    unfold viewPoison
    rw [hview _ hk]
    exact (hplain _ hk).2
  have hbytes : (((ctlGrans (.t0 n o) len).map fun q => granRead d uid q.2).map (·.1)).flatten =
      readT0 d n o (4096 * ((o + len + 4095) / 4096 - o / 4096)) := by
    rw [← flatten_granRange d n len ho, ← map_snd_ctlGrans_scratch, List.map_map, List.map_map]
    refine congrArg List.flatten (List.map_congr_left fun q hq => ?_)
    simp only [Function.comp_apply, granRead, hview _ (mem_granRange_of_ctlGrans hq)]
  have hcover : len ≤ 4096 * ((o + len + 4095) / 4096 - o / 4096) := by omega
  unfold readCtl
  rw [ha]
  dsimp only
  rw [if_neg (by unfold ctlOk; simp [hb]), hunsealed]
  dsimp only
  rw [gather_legible _ hlegible]
  dsimp only
  rw [hbytes, show addrOff (.t0 n o) = o from rfl, ho, List.drop_zero, take_readT0 d n o hcover]

/-! ### A list operation reads its list -/

/-- A scratchpad address names no copy to hold. -/
theorem holdAddr_scratch (d : Dev) (uid c o : Nat) : holdAddr d uid (.t0 c o) = d := rfl

theorem startListOp_reads {d : Dev} {uid k n o : Nat} {c : Cmd} {es : List Nat} {ready : Cmd → Bool}
    (f : Dev → Cmd → List Nat → Upset → Dev) (h : MayStart d uid 0x02 c) (hk : dBits c.desc 8 3 0 = k) (hr : ready c = true)
    (hl : ListReady d c n o es) :
    startListOp d uid k ready .none f =
      f (setCmd d uid { withList c es with phase := .running }) { withList c es with phase := .running } es .none := by
  have hidle : ctlPending d (dBytes c.desc 16 8) (8 * dBytes c.desc 32 4) = false := by
    unfold ctlPending
    rw [hl.src, Bool.and_eq_false_iff, List.any_eq_false]
    exact .inr fun q hq => Bool.eq_false_iff.mp (hl.plain _ (mem_granRange_of_ctlGrans hq)).1
  have hread := readCtl_scratch (d := setCmd d uid { c with phase := .running }) (j := c.job) none hl.src hl.aligned hl.own
    (cmd_setCmd_same d uid _) (emptyHanded_of_untouched h.fresh).gens fun k hk => (hl.plain k hk).2
  have hentries : (List.range (dBytes c.desc 32 4)).map (fun i => sBytes (readT0 (setCmd d uid { c with phase := .running }) n o
      (8 * dBytes c.desc 32 4)) (8 * i) 8) = es := by
    rw [hl.entries]
    refine List.map_congr_left fun i hi => ?_
    have hi' := List.mem_range.mp hi
    rw [sBytes_readT0 _ n o (by omega)]
    exact congrArg ofLeBytes (readT0_congr rfl rfl n (o + 8 * i) 8)
  unfold startListOp
  dsimp only
  rw [startCopyOp_start _ h hk (by simp [hr, hidle])]
  dsimp only
  rw [hl.src, if_neg (show ¬ addrOff (.t0 n o) % 4096 ≠ 0 from not_not_intro hl.aligned), holdAddr_scratch, hread]
  dsimp only
  rw [hentries, cmd_setCmd_same, evDrop_none]
  dsimp only
  rw [setCmd_setCmd]
  rfl

/-! ### The commit token of a command that has just begun -/

/-- A command whose record changes only in what its work leaves requests the token. -/
theorem requestCommit_setCmd {d : Dev} {uid : Nat} {c : Cmd} (hp : c.phase = .running) (hc : c.coresLeft = []) (ht : c.t4left = 0) :
    requestCommit (setCmd d uid c) uid = requested d uid c :=
  (requestCommit_running (cmd_setCmd_same d uid c) hp hc ht).trans (requested_setCmd d uid c c)

theorem requestCommit_started {d : Dev} {uid op : Nat} {c : Cmd} (h : MayStart d uid op c) :
    requestCommit (setCmd d uid { c with phase := .running }) uid = requested d uid c :=
  requestCommit_setCmd rfl (congrArg Cmd.coresLeft h.fresh.own) (congrArg Cmd.t4left h.fresh.own)

/-! ### The four commands -/

section Tables
variable {d : Dev} {uid : Nat} {c : Cmd}

theorem opFork_requests (h : MayStart d uid 0x03 c) (hparent : boundTo d (dBytes c.desc 8 2) c.job = true)
    (hchild : boundTo d (dBytes c.desc 10 2) c.job = true) (hne : dBytes c.desc 8 2 ≠ dBytes c.desc 10 2)
    (hempty : sessEmpty (sess d (dBytes c.desc 10 2)) = true) : opFork d uid = requested d uid c := by
  have hchecks : (boundTo d (dBytes c.desc 8 2) c.job && boundTo d (dBytes c.desc 10 2) c.job &&
      dBytes c.desc 8 2 != dBytes c.desc 10 2 && sessEmpty (sess d (dBytes c.desc 10 2))) = true := by
    rw [hparent, hchild, bne_iff_ne.mpr hne, hempty]
    rfl
  exact (startCmd_start _ h rfl).trans ((if_pos hchecks).trans (requestCommit_started h))

theorem opFreePages_requests (h : MayStart d uid 0x04 c) (hbound : boundTo d (dBytes c.desc 8 2) c.job = true) :
    opFreePages d uid = requested d uid c :=
  (startCmd_start _ h rfl).trans ((if_pos hbound).trans (requestCommit_started h))

theorem opSetQuota_requests (h : MayStart d uid 0x07 c) (hpriv : isPriv d c.job = true) : opSetQuota d uid = requested d uid c :=
  (startCmd_start _ h rfl).trans ((if_pos hpriv).trans (requestCommit_started h))

theorem listPages_setCmd (d : Dev) (uid : Nat) (c : Cmd) (j : Nat) (es : List Nat) :
    listPages (setCmd d uid c) j es = listPages d j es := by
  induction es with
  | nil => rfl
  | cons e r ih =>
    unfold listPages
    rw [ih]
    rfl

theorem opPageUnstage_requests {n o : Nat} {es : List Nat} {ps : List PEnt} (h : MayStart d uid 0x02 c)
    (hop : dBits c.desc 8 3 0 = 8) (hl : ListReady d c n o es) (hps : listPages d c.job es = some ps) :
    opPageUnstage d uid .none = requested d uid { withList c es with swaps := (ps.map (pageRef d)).dedup } := by
  unfold opPageUnstage
  rw [startListOp_reads _ h hop rfl hl]
  dsimp only
  rw [listPages_setCmd, show listPages d (withList c es).job es = some ps from hps]
  dsimp only
  refine (requestCommit_setCmd ?phase ?cores ?t4).trans (requested_setCmd d uid _ _)
  case phase => rfl
  case cores => exact congrArg Cmd.coresLeft h.fresh.own
  case t4 => exact congrArg Cmd.t4left h.fresh.own

end Tables

/-- Settles O18: each command passes its checks and requests the token at once (`requestCommit_started`); PAGE_UNSTAGE has first
read its list from the scratchpad (`startListOp_reads`). -/
theorem commandsOnTablesRequestTheToken : Obligations.CommandsOnTablesRequestTheToken := by
  unfold Obligations.CommandsOnTablesRequestTheToken
  intro s uid c hlive
  refine ⟨fun hm hparent hchild hne hempty => ?fork, fun hm hbound => ?free, fun hm hpriv => ?quota,
    fun n o es ps hm hop hl hps => ?unstage⟩
  case fork => exact completes_okDev hlive (congrArg (okDev s) (opFork_requests hm hparent hchild hne hempty)) rfl
  case free => exact completes_okDev hlive (congrArg (okDev s) (opFreePages_requests hm hbound)) rfl
  case quota => exact completes_okDev hlive (congrArg (okDev s) (opSetQuota_requests hm hpriv)) rfl
  case unstage => exact completes_okDev hlive (congrArg (okDev s) (opPageUnstage_requests hm hop hl hps)) rfl

end Sys2Proof.Machine

/-! SUPPORT. O52: the end of a swap-in whose image is poisoned as the read of no command sees it (06 R197, R202), and the
refutation. -/

namespace Sys2Proof.Machine
open Sys2Proof

/-- What holds of the new module when a command completes holds of the module that its meaning answers. -/
theorem of_completes_okDev {s : State} {i : Instr} {t : Dev} {P : Dev → Prop} (hlive : live s) (he : exec i s = okDev s t)
    (h : Completes i s P) : P t := by
  obtain ⟨u, hu, -, hp⟩ := h
  have hdev : t = u.dev := congrArg State.dev (Host.Outcome.next.inj ((he.trans (okDev_live hlive t)).symm.trans hu))
  exact hdev ▸ hp

/-! ### A slot's entry -/

theorem slot_of_qm {d t : Dev} (h : t.qm = d.qm) (sid : Nat) : slot t sid = slot d sid := by
  unfold slot
  rw [h]

theorem slot_setSlot_sorted {d : Dev} (h : SMap.sorted d.qm.slots = true) (sid : Nat) (x : Slot) :
    slot (setSlot d sid x) sid = x :=
  SMap.getD_put_same _ _ _ h

theorem slot_requestCommit (d : Dev) (uid sid : Nat) : slot (requestCommit d uid) sid = slot d sid := by
  obtain ⟨l, q, h⟩ := requestCommit_qm d uid
  rw [h]
  rfl

/-- Commands that have waited for swaps go on without a change of any slot. -/
theorem slot_wakeSwaps (d : Dev) (sid : Nat) : slot (wakeSwaps d) sid = slot d sid := by
  unfold wakeSwaps
  refine List.foldlRecOn d.qm.cmds _ (motive := fun t => slot t sid = slot d sid) rfl fun t ht e _ => ?_
  split
  · exact (slot_requestCommit t e.1 sid).trans ht
  · exact ht

/-! ### A swap-in that meets poison -/

theorem scratchSide_slotFromT2 (d : Dev) (sid : Nat) (x : Slot) :
    ScratchSide d (slotFromT2 d sid x) (homeCore d x.job x.layer) := by
  unfold slotFromT2
  exact ScratchSide.foldl _ _ (fun _ _ _ => scratchSide_writeT0 _ _ _ _ _) d

/-- A check of granules of which one shows poison fails, and with no upset it changes nothing (08 R259). -/
theorem checkReads_poisoned {d : Dev} {uid : Nat} {l : List (Nat × Nat)} (cp : Cap)
    (h : ∃ q ∈ l, viewPoison d uid q.2 = true) : ∃ e, checkReads uid cp l d .none = (d, .error e) := by
  induction l with
  | nil => simp at h
  | cons q r ih =>
    obtain ⟨addr, k⟩ := q
    have hrest (hk : viewPoison d uid k = false) : ∃ e, checkReads uid cp r d .none = (d, .error e) := by
      obtain ⟨q, hq, hpois⟩ := h
      rcases List.mem_cons.mp hq with rfl | hq
      · exact absurd (hpois.symm.trans hk) (by decide)
      · exact ih ⟨q, hq, hpois⟩
    unfold viewPoison at hrest
    unfold checkReads
    cases hsid : viewSid d uid k with
    | none => exact hrest (by rw [hsid])
    | some sid =>
      rw [hsid] at hrest
      cases hp : poisoned d sid with
      | true => exact ⟨(stPoison, addr), by simp [checkRead, hp]⟩
      | false =>
        simp only [checkRead, hp, evHere, Bool.false_eq_true, if_false]
        exact hrest hp

/-- A swap-in ends with its slot RESIDENT and poisoned when a granule of its image is poisoned in the view of command 0, which
is the one that its read takes (06 R197, R202). -/
theorem slot_opSwapEnd_poisoned {d : Dev} {sid g : Nat} (hsorted : SMap.sorted d.qm.slots = true)
    (hstate : (slot d sid).state = .swappingIn) (hopp : (slot d sid).queuedOpp = false) (hzero : (slot d sid).zero = false)
    (hg : g < halfGrans (cometOf d (slot d sid).job (slot d sid).layer))
    (hpois : viewPoison d 0 (gKey 10 sid g) = true) :
    slot (opSwapEnd d sid .none) sid = { slot d sid with state := .resident, poison := true } := by
  have htouch := touchSide_touchReads d
    ((List.range (halfGrans (cometOf d (slot d sid).job (slot d sid).layer))).map (gKey 10 sid))
  unfold opSwapEnd
  simp only [hstate, hopp, hzero, Bool.false_eq_true, if_false]
  generalize touchReads d _ = d0 at htouch ⊢
  obtain ⟨e, he⟩ := checkReads_poisoned (d := d0) (uid := 0)
    ⟨0, 2, coreDie (homeCore d (slot d sid).job (slot d sid).layer), some (slot d sid).job, 5, 4096⟩
    (l := ((List.range (halfGrans (cometOf d (slot d sid).job (slot d sid).layer))).map (gKey 10 sid)).map (fun k => (0, k)))
    ⟨(0, gKey 10 sid g), by simpa using ⟨g, hg, rfl⟩, (htouch.viewPoison_eq 0 _).trans hpois⟩
  rw [he]
  have hslots : SMap.sorted (slotFromT2 d0 sid (slot d sid)).qm.slots = true := by
    rw [(scratchSide_slotFromT2 d0 sid _).tables, (htouch.scratch 0).tables]
    exact hsorted
  simp only [if_true, slot_wakeSwaps, Bool.or_true]
  rw [slot_of_qm (latchSide_latch _ _ _ _ _).side.qm, slot_setSlot_sorted (by simpa using hslots)]

/-! ### A module in which the two views differ -/

/-- A command of number 0 that has written the first granule of slot 77's image in a generation of its own. -/
def strayCmd : Cmd := { struckCmd with gens := [(gKey 10 77 0, 2 ^ 32 + 1)] }

/-- Slot 77 of job 3 swaps in; its image is one granule, whose content is sound, and the content of `strayCmd` is poisoned. -/
def strayState : State :=
  { pending := []
    dev := { resetDev with
      state := .ready
      mem := { emptyMem with poison := [(2 ^ 32 + 1, ())], roots := [(gKey 10 77 0, 2 ^ 32)], granCtr := 2 }
      qm := { emptyQm with
        jobs := [(3, { freeJob with state := 1, resident := true, comets := [(1, ⟨8 * 2 ^ 16, 0, 0⟩)] })]
        cmds := [(0, strayCmd)]
        slots := [(77, { freeSlot with state := .swappingIn, job := 3, gen := 2, refcnt := 1, layer := 1 })] } } }

theorem strayState_sorted : TablesSorted strayState.dev := by constructor <;> decide +kernel

/-- The committed image is free of poison. -/
theorem strayState_image_sound : ∀ g ∈ List.range (halfGrans (cometOf strayState.dev 3 1)), ∀ r,
    rootOf strayState.dev (gKey 10 77 g) = some r → poisoned strayState.dev r = false := by
  have hgrans : halfGrans (cometOf strayState.dev 3 1) = 1 := by decide +kernel
  have hroot : rootOf strayState.dev (gKey 10 77 0) = some (2 ^ 32) := by decide +kernel
  intro g hg r hr
  obtain rfl : g = 0 := by simpa [hgrans] using hg
  rw [← Option.some.inj (hroot.symm.trans hr)]
  decide +kernel

/-- The swap-in of the sound image ends with a poisoned slot. -/
theorem poison_opSwapEnd_strayState : (slot (opSwapEnd strayState.dev 77 .none) 77).poison = true := by
  rw [slot_opSwapEnd_poisoned (g := 0) strayState_sorted.slots (by decide +kernel) (by decide +kernel) (by decide +kernel)
    (by decide +kernel) (by decide +kernel)]

/-- Refutes O52, in the clause of the swap-in that meets no poison: the read of the image takes the view of command 0, which is
no command's number as commands are numbered from 1 (log 4), but the statement's premises allow a command of that number. Where
one has its own generation of an image granule, that content is checked in place of the committed one (R197, R202). -/
theorem not_stateSlotsAreSwapped : ¬ Obligations.StateSlotsAreSwapped := by
  unfold Obligations.StateSlotsAreSwapped
  intro h
  obtain ⟨-, hswaps⟩ := h strayState rfl strayState_sorted
  obtain ⟨-, -, hends⟩ := hswaps 77
  obtain ⟨-, hin⟩ := hends (by decide +kernel) rfl
  obtain ⟨hsound, -⟩ := hin rfl
  obtain ⟨hslot, -⟩ := of_completes_okDev (s := strayState) rfl rfl (hsound (.inr strayState_image_sound))
  have hclean : (slot (opSwapEnd strayState.dev 77 .none) 77).poison = false := congrArg Slot.poison hslot
  exact Bool.false_ne_true (hclean.symm.trans poison_opSwapEnd_strayState)

end Sys2Proof.Machine

/-! SUPPORT. The byte memory stays in its canonical form (log 5): what each operation of the model does to the list of
memory bytes, in the order of the model's files. `mem_f` says that `f` leaves the memory as it is, `bytes_f` that it leaves the
bytes, `wf_f` that the form is kept. -/

namespace Sys2Proof.Machine
open Sys2Proof

/-! ### Reasoning rules -/

/-- The byte memory of a module is in its canonical form. -/
@[simp] abbrev Canonical (d : Dev) : Prop := Memory.wf d.mem.bytes = true

@[simp] theorem mem_ite (c : Prop) [Decidable c] (a b : Dev) : (if c then a else b).mem = if c then a.mem else b.mem :=
  apply_ite Dev.mem c a b

@[simp] theorem mem_foldl {α : Type} {f : Dev → α → Dev} (hf : ∀ d x, (f d x).mem = d.mem) (l : List α) (d : Dev) :
    (l.foldl f d).mem = d.mem := by
  induction l generalizing d with
  | nil => rfl
  | cons x r ih => exact (ih _).trans (hf d x)

@[simp] theorem bytes_foldl {α : Type} {f : Dev → α → Dev} (hf : ∀ d x, (f d x).mem.bytes = d.mem.bytes) (l : List α) (d : Dev) :
    (l.foldl f d).mem.bytes = d.mem.bytes := by
  induction l generalizing d with
  | nil => rfl
  | cons x r ih => exact (ih _).trans (hf d x)

@[simp] theorem bytes_ite (c : Prop) [Decidable c] (a b : Mem) : (if c then a else b).bytes = if c then a.bytes else b.bytes :=
  apply_ite Mem.bytes c a b

@[simp] theorem canonical_foldl {α : Type} {f : Dev → α → Dev} (hf : ∀ d x, Canonical d → Canonical (f d x)) (l : List α)
    {d : Dev}
    (h : Canonical d) : Canonical (l.foldl f d) := wf_foldl f hf l h

theorem canonical_of_mem {d t : Dev} (e : t.mem = d.mem) (h : Canonical d) : Canonical t := by rwa [Canonical, e]

theorem canonical_of_bytes {d t : Dev} (e : t.mem.bytes = d.mem.bytes) (h : Canonical d) : Canonical t := by rwa [Canonical, e]

/-- The module in the answer of an operation that also answers something else. -/
theorem canonical_of_fst {α : Type} {p : Dev × α} {t : Dev} {a : α} (e : p = (t, a)) (h : Canonical p.1) : Canonical t := by
  subst e; exact h

/-- A fold over a module and a further value keeps the form. -/
theorem canonical_foldl_fst {α β : Type} {f : Dev × β → α → Dev × β} (hf : ∀ x a, Canonical x.1 → Canonical (f x a).1)
    (l : List α) (x : Dev × β) (h : Canonical x.1) : Canonical (l.foldl f x).1 := by
  induction l generalizing x with
  | nil => exact h
  | cons a r ih => exact ih _ (hf x a h)

/-- What each step of a fold keeps, the fold keeps. -/
theorem foldl_keeps {α β : Type} {P : β → Prop} {f : β → α → β} (hf : ∀ b a, P b → P (f b a)) (l : List α) (b : β) (h : P b) :
    P (l.foldl f b) := by
  induction l generalizing b with
  | nil => exact h
  | cons a r ih => exact ih _ (hf b a h)

theorem canonical_ite {c : Prop} [Decidable c] {a b : Dev} (ha : c → Canonical a) (hb : ¬ c → Canonical b) :
    Canonical (if c then a else b) := by
  split
  · exact ha ‹c›
  · exact hb ‹¬ c›

/-! ### Machine/Regs.lean -/

@[simp] theorem mem_resetPage (d : Dev) (die page : Nat) : (resetPage d die page).mem = d.mem := by
  simp [resetPage]

@[simp] theorem mem_clearCounters (d : Dev) (die page : Nat) : (clearCounters d die page).mem = d.mem := by
  unfold clearCounters; split <;> simp

@[simp] theorem mem_countBar0Err (d : Dev) : (countBar0Err d).mem = d.mem := by
  simp [countBar0Err]

/-! ### Machine/Flags.lean -/

@[simp] theorem mem_txNow (d : Dev) (port : Nat) (p : Packet) : (txNow d port p).mem = d.mem := by
  simp [txNow]

theorem mem_drainOne {d t : Dev} {port : Nat} (e : drainOne d port = some t) : t.mem = d.mem := by
  grind [drainOne, mem_txNow, setPort_mem]

@[simp] theorem mem_drainPort (n : Nat) (d : Dev) (port : Nat) : (drainPort n d port).mem = d.mem :=
  (latchSide_drainPort n d port).side.mem

@[simp] theorem mem_sendPort (d : Dev) (port : Nat) (p : Packet) : (sendPort d port p).mem = d.mem := by
  simp [sendPort]

theorem mem_sendRouted {d t : Dev} {p : Packet} (e : sendRouted d p = some t) : t.mem = d.mem :=
  (latchSide_sendRouted e).side.mem

@[simp] theorem mem_markPage (d : Dev) (die page src : Nat) (c : Cap) : (markPage d die page src c).mem = d.mem := by
  simp [markPage]

@[simp] theorem mem_requestResets (d : Dev) (die page code : Nat) : (requestResets d die page code).mem = d.mem := by
  simp [requestResets]

@[simp] theorem mem_latchCore (d : Dev) (die page src : Nat) (c : Cap) : (latchCore d die page src c).1.mem = d.mem := by
  unfold latchCore; split <;> simp

@[simp] theorem mem_originTake (d : Dev) (origin kind reporter : Nat) : (originTake d origin kind reporter).1.mem = d.mem := by
  unfold originTake; repeat' split
  all_goals simp

@[simp] theorem mem_sendReport (d : Dev) (origin kind port blk src addr : Nat) :
    (sendReport d origin kind port blk src addr).1.mem = d.mem := by
  grind [sendReport, bump_mem, mem_sendRouted]

@[simp] theorem mem_latchN (n : Nat) (d : Dev) (die page src : Nat) (c : Cap) : (latchN n d die page src c).mem = d.mem :=
  (latchSide_latchN n d die page src c).side.mem

@[simp] theorem mem_reportRequest (d : Dev) (origin : Nat) : (reportRequest d origin).mem = d.mem := by
  grind [reportRequest, mem_sendReport, mem_latch, mem_originTake]

@[simp] theorem mem_bar0Error (d : Dev) (a : Acc) (off : Nat) : (bar0Error d a off).mem = d.mem := by
  grind [bar0Error, mem_latch, mem_countBar0Err]

@[simp] theorem mem_latchCoreSrc (d : Dev) (core src : Nat) (c : Cap) : (latchCoreSrc d core src c).mem = d.mem := by
  grind [latchCoreSrc, mem_latch]

@[simp] theorem mem_clearStat (d : Dev) (die page mask : Nat) : (clearStat d die page mask).mem = d.mem := by
  simp [clearStat]

@[simp] theorem mem_logAppend (d : Dev) (r : Rec) : (logAppend d r).mem = d.mem := by
  grind [logAppend, bump_mem, mem_latch]

/-! ### Machine/Store.lean -/

@[simp] theorem mem_readLines (d : Dev) (sid off n : Nat) : (readLines d sid off n).mem = d.mem := by
  unfold readLines
  dsimp only
  rw [mem_cacheLines]
  split
  · rfl
  · exact bump_mem _ _ _ _ _

@[simp] theorem mem_ftlCommit (d : Dev) (uid : Nat) : (ftlCommit d uid).mem = d.mem := by
  simp [ftlCommit]

@[simp] theorem mem_ftlDrop (d : Dev) (uid : Nat) : (ftlDrop d uid).mem = d.mem := by
  simp [ftlDrop]

/-! ### Machine/Ops.lean -/

@[simp] theorem bytes_setObj (d : Dev) (oid : Nat) (o : Obj) : (setObj d oid o).mem.bytes = d.mem.bytes := by
  simp [setObj]

@[simp] theorem bytes_eraseObj (d : Dev) (oid : Nat) : (eraseObj d oid).mem.bytes = d.mem.bytes := by
  simp [eraseObj]

@[simp] theorem wf_freeCopy {d : Dev} (oid tier : Nat) (h : Canonical d) : Canonical (freeCopy d oid tier) := by
  grind [freeCopy, wf_freeGrans, bytes_setObj, bytes_eraseObj]

@[simp] theorem wf_evictCopy {d : Dev} (oid tier j : Nat) (h : Canonical d) : Canonical (evictCopy d oid tier j) := by
  grind [evictCopy, bytes_setObj, wf_freeCopy]

@[simp] theorem bytes_claimCopy (d : Dev) (oid tier j : Nat) : (claimCopy d oid tier j).mem.bytes = d.mem.bytes := by
  unfold claimCopy; split <;> simp

@[simp] theorem bytes_holdCopy (d : Dev) (oid tier : Nat) : (holdCopy d oid tier).mem.bytes = d.mem.bytes := by
  unfold holdCopy; split <;> simp

@[simp] theorem wf_unholdCopy {d : Dev} (oid tier : Nat) (h : Canonical d) : Canonical (unholdCopy d oid tier) := by
  grind [unholdCopy, bytes_setObj, wf_freeCopy]

@[simp] theorem wf_reclaimPage {d : Dev} (pid : Nat) (h : Canonical d) : Canonical (reclaimPage d pid) := by
  grind [reclaimPage, wf_freeGrans, setPst_mem]

@[simp] theorem mem_addRefPage (d : Dev) (pid : Nat) : (addRefPage d pid).mem = d.mem := by
  simp [addRefPage]

@[simp] theorem wf_dropRefPage {d : Dev} (pid : Nat) (h : Canonical d) : Canonical (dropRefPage d pid) := by
  grind [dropRefPage, wf_reclaimPage, setPst_mem]

@[simp] theorem mem_pinPage (d : Dev) (pid : Nat) : (pinPage d pid).mem = d.mem := by
  simp [pinPage]

@[simp] theorem wf_unpinPage {d : Dev} (pid : Nat) (h : Canonical d) : Canonical (unpinPage d pid) := by
  grind [unpinPage, wf_reclaimPage, setPst_mem]

@[simp] theorem wf_reclaimSlot {d : Dev} (sid : Nat) (h : Canonical d) : Canonical (reclaimSlot d sid) := by
  grind [reclaimSlot, setSlot_mem, wf_freeGrans]

@[simp] theorem mem_addRefSlot (d : Dev) (sid : Nat) : (addRefSlot d sid).mem = d.mem := by
  simp [addRefSlot]

@[simp] theorem wf_dropRefSlot {d : Dev} (sid : Nat) (h : Canonical d) : Canonical (dropRefSlot d sid) := by
  grind [dropRefSlot, wf_reclaimSlot, setSlot_mem]

@[simp] theorem mem_pinSlot (d : Dev) (sid : Nat) : (pinSlot d sid).mem = d.mem := by
  simp [pinSlot]

@[simp] theorem wf_unpinSlot {d : Dev} (sid : Nat) (h : Canonical d) : Canonical (unpinSlot d sid) := by
  grind [unpinSlot, wf_reclaimSlot, setSlot_mem]

@[simp] theorem mem_setSem (d : Dev) (n sem v : Nat) : (setSem d n sem v).mem = d.mem := by
  simp [setSem]

@[simp] theorem mem_clearSems (d : Dev) (n first count : Nat) : (clearSems d n first count).mem = d.mem := by
  simp [clearSems]

@[simp] theorem mem_slipCycles (d : Dev) (core n : Nat) : (slipCycles d core n).mem = d.mem := by
  simp [slipCycles]

@[simp] theorem mem_slipEnd (d : Dev) (n : Nat) (x : Ctx) : (slipEnd d n x).mem = d.mem := by
  simp [slipEnd]

@[simp] theorem mem_dropWork (d : Dev) (uid : Nat) (killed : Bool) : (dropWork d uid killed).mem = d.mem := by
  simp [dropWork]

@[simp] theorem mem_requestCommit (d : Dev) (uid : Nat) : (requestCommit d uid).mem = d.mem := by
  unfold requestCommit; split <;> simp

@[simp] theorem mem_wakeSwaps (d : Dev) : (wakeSwaps d).mem = d.mem := by
  simp [wakeSwaps]

@[simp] theorem mem_wakeFences (d : Dev) (uid : Nat) : (wakeFences d uid).mem = d.mem := by
  simp [wakeFences]

@[simp] theorem wf_undoCmd {d : Dev} (uid : Nat) (c : Cmd) (h : Canonical d) : Canonical (undoCmd d uid c) := by
  have hcopies : Canonical (c.newCopies.foldl (fun d t => freeCopy d t.2 t.1)
      (c.gens.foldl (fun d e => dropGran d e.2) (ftlDrop d uid))) := by
    refine wf_foldl _ (fun _ t ht => wf_freeCopy _ _ ht) _ ?_
    refine wf_foldl _ (fun _ e ht => wf_dropGran _ ht) _ ?_
    simpa using h
  grind [undoCmd, setJob_mem]

@[simp] theorem wf_releaseCmd {d : Dev} (c : Cmd) (h : Canonical d) : Canonical (releaseCmd d c) := by
  unfold releaseCmd
  dsimp only
  iterate 5 refine wf_foldl _ (fun _ p hd => by simp [hd]) _ ?_
  exact h

@[simp] theorem wf_completeCmd {d : Dev} (uid : Nat) (h : Canonical d) : Canonical (completeCmd d uid) := by
  grind [completeCmd, wf_releaseCmd, wf_undoCmd, bytes_setCmd, setCmd_mem, mem_wakeSwaps, mem_wakeFences]

@[simp] theorem wf_endCmd {d : Dev} (uid status detail : Nat) (retry : Bool) (h : Canonical d) :
    Canonical (endCmd d uid status detail retry) := by
  grind [endCmd, dropCmdReqs_mem, bytes_setCmd, setCmd_mem, wf_completeCmd, mem_dropWork]

@[simp] theorem wf_failBad {d : Dev} (uid : Nat) (act : Option Nat) (h : Canonical d) : Canonical (failBad d uid act) := by
  grind [failBad, wf_endCmd]

@[simp] theorem wf_failFault {d : Dev} (uid die page : Nat) (retry : Bool) (h : Canonical d) :
    Canonical (failFault d uid die page retry) := by
  grind [failFault, wf_endCmd]

@[simp] theorem wf_endAll {d : Dev} (p : Nat → Cmd → Bool) (status detail : Nat) (retry : Bool) (h : Canonical d) :
    Canonical (endAll d p status detail retry) :=
  wf_foldl (fun d (e : Nat × Cmd) => endCmd d e.1 status detail retry) (fun _ e => wf_endCmd e.1 status detail retry) _ h

@[simp] theorem wf_endEmpty {d : Dev} (uid : Nat) (h : Canonical d) : Canonical (endEmpty d uid) := by
  grind [endEmpty, wf_endCmd]

@[simp] theorem mem_sendVec (d : Dev) (p : HostPort) (fn vec : Nat) : (sendVec d p fn vec).mem = d.mem := by
  simp [sendVec]

@[simp] theorem mem_sendEventVec (d : Dev) (vec : Nat) : (sendEventVec d vec).mem = d.mem := by
  simp [sendEventVec]

@[simp] theorem mem_sendCplVec (d : Dev) (j : Nat) : (sendCplVec d j).mem = d.mem := by
  simp [sendCplVec]

@[simp] theorem mem_rollWin (d : Dev) (n : Nat) : (rollWin d n).mem = d.mem := by
  simp [rollWin]

@[simp] theorem mem_startWin (d : Dev) (n : Nat) : (startWin d n).mem = d.mem := by
  simp [startWin]

@[simp] theorem mem_slipCore (d : Dev) (core : Nat) : (slipCore d core).mem = d.mem := by
  simp [slipCore]

@[simp] theorem mem_slipNoc (d : Dev) (die : Nat) : (slipNoc d die).mem = d.mem := by
  simp [slipNoc]

@[simp] theorem mem_freeVal (d : Dev) : (freeVal d).1.mem = d.mem := by
  simp [freeVal]

/-! ### Machine/RegBus.lean -/

@[simp] theorem mem_setLatch (d : Dev) (off v : Nat) : (setLatch d off v).mem = d.mem := by
  simp [setLatch]

@[simp] theorem mem_dropLatch (d : Dev) (off : Nat) : (dropLatch d off).mem = d.mem := by
  simp [dropLatch]

@[simp] theorem mem_latchLo (d : Dev) (off0 : Nat) : (latchLo d off0).mem = d.mem := by
  unfold latchLo; dsimp only; split <;> simp

@[simp] theorem mem_latchOrg (d : Dev) : (latchOrg d).mem = d.mem := by
  simp [latchOrg]

@[simp] theorem mem_readEffect (d : Dev) (off0 : Nat) : (readEffect d off0).1.mem = d.mem := by
  unfold readEffect; dsimp only; repeat' split
  all_goals simp

@[simp] theorem mem_accRead (d : Dev) (a : Acc) (off : Nat) : (accRead d a off).1.mem = d.mem := by
  unfold accRead; repeat' split
  all_goals simp

@[simp] theorem mem_accWrite (d : Dev) (a : Acc) (off : Nat) : (accWrite d a off).1.mem = d.mem := by
  grind [accWrite, mem_latch, bump_mem]

theorem wf_withReg {d : Dev} {a : Acc} {off : Nat} {f : Dev → Dev} (hf : ∀ t, Canonical t → Canonical (f t))
    (h : Canonical d) : Canonical (withReg d a off f) := by
  have hacc := mem_accWrite d a off
  grind [withReg]

@[simp] theorem mem_storeReg (d : Dev) (b : Blk) (die page reg v : Nat) : (storeReg d b die page reg v).mem = d.mem := by
  unfold storeReg; split <;> simp

@[simp] theorem mem_plainWrite (d : Dev) (off v : Nat) : (plainWrite d off v).1.mem = d.mem := by
  unfold plainWrite; dsimp only; repeat' split
  all_goals simp

/-! ### Machine/Flash.lean -/

@[simp] theorem mem_setFtlBoth (d : Dev) (reg v : Nat) : (setFtlBoth d reg v).mem = d.mem := by
  simp [setFtlBoth]

@[simp] theorem mem_ftlWear (d : Dev) : (ftlWear d).mem = d.mem := by
  simp [ftlWear]

@[simp] theorem mem_pickBlk (d : Dev) (sd : Nat) : (pickBlk d sd).1.mem = d.mem := by
  unfold pickBlk; dsimp only; repeat' split
  all_goals simp

@[simp] theorem mem_progInto (d : Dev) (uid sd u b : Nat) (mirror : Bool) (move : Option Nat) :
    (progInto d uid sd u b mirror move).mem = d.mem := by
  simp [progInto]

@[simp] theorem mem_startProg (d : Dev) (uid sd u : Nat) (mirror : Bool) (move : Option Nat) :
    (startProg d uid sd u mirror move).mem = d.mem := by
  simp [startProg]

@[simp] theorem mem_readPage (d : Dev) (sd p : Nat) : (readPage d sd p).mem = d.mem := by
  simp [readPage]

@[simp] theorem mem_readUnit (d : Dev) (u : Nat) : (readUnit d u).mem = d.mem := by
  unfold readUnit; dsimp only; split <;> simp

@[simp] theorem mem_startErase (d : Dev) (sd b : Nat) : (startErase d sd b).mem = d.mem := by
  simp [startErase]

@[simp] theorem mem_eraseMoved (d : Dev) (sd : Nat) : (eraseMoved d sd).mem = d.mem := by
  simp [eraseMoved]

@[simp] theorem mem_moveBlk (d : Dev) (sd b : Nat) (dst : Option Nat) : (moveBlk d sd b dst).mem = d.mem := by
  unfold moveBlk; split <;> simp

@[simp] theorem mem_startPrograms (d : Dev) (uid : Nat) (keys : List Nat) : (startPrograms d uid keys).mem = d.mem := by
  unfold startPrograms; dsimp only; split <;> simp

theorem wf_t4WriteFault {d t : Dev} {uid : Nat} (e : t4WriteFault d uid = some t) (h : Canonical d) : Canonical t := by
  grind [t4WriteFault, wf_failFault]

@[simp] theorem mem_progDone (d : Dev) (sd op : Nat) : (progDone d sd op).mem = d.mem := by
  unfold progDone; dsimp only; repeat' split
  all_goals simp

@[simp] theorem mem_retireBlk (d : Dev) (sd b : Nat) : (retireBlk d sd b).mem = d.mem := by
  grind [retireBlk, setFtl_mem, mem_setFtlBoth, mem_latch]

@[simp] theorem mem_progFailed (d : Dev) (sd op : Nat) : (progFailed d sd op).mem = d.mem := by
  unfold progFailed; dsimp only; split <;> simp

@[simp] theorem mem_eraseDone (d : Dev) (sd op : Nat) (ok : Bool) : (eraseDone d sd op ok).mem = d.mem := by
  unfold eraseDone; dsimp only; split <;> simp

@[simp] theorem mem_rebuildMap (d : Dev) (g : Nat) : (rebuildMap d g).mem = d.mem := by
  simp [rebuildMap]

/-! ### Machine/MemFault.lean -/

@[simp] theorem mem_countCE (d : Dev) (k sid : Nat) : (countCE d k sid).mem = d.mem := by
  simp [countCE]

@[simp] theorem bytes_poisonGran (d : Dev) (k sid : Nat) : (poisonGran d k sid).mem.bytes = d.mem.bytes := by
  simp [poisonGran]

@[simp] theorem mem_countRetries (d : Dev) (sd n : Nat) : (countRetries d sd n).mem = d.mem := by
  simp [countRetries]

@[simp] theorem bytes_readUE (d : Dev) (k sid : Nat) (c : Cap) : (readUE d k sid c).mem.bytes = d.mem.bytes := by
  grind [readUE, mem_latchCoreSrc, mem_latch, mem_countRetries, bytes_poisonGran, bump_mem, mem_lineRead]

@[simp] theorem bytes_readErr (d : Dev) (k sid : Nat) (c : Cap) (e : ReadErr) :
    (readErr d k sid c e).1.mem.bytes = d.mem.bytes := by
  grind [readErr, mem_countRetries, mem_latch, bump_mem, mem_lineRead, bytes_poisonGran]

/-- Stated of any property of the answer, of the definition as a function: otherwise the kernel evaluates the latch. -/
@[simp] theorem mem_mirrorRepair (d : Dev) (k : Nat) (c : Cap) : (mirrorRepair d k c).mem = d.mem := by
  suffices h : ∀ (f : Dev → Nat → Cap → Dev) (P : Dev → Prop), f = mirrorRepair → (∀ t, t.mem = d.mem → P t) → P (f d k c) from
    h _ (fun t => t.mem = d.mem) rfl (fun _ h => h)
  intro f P hf hP
  delta mirrorRepair at hf
  subst hf
  beta_reduce
  extract_lets sd d0 d1
  have h0 : d0.mem = d.mem := by
    unfold d0
    split
    · exact mem_readPage _ _ _
    · rfl
  have hd1 : d1 = latch (bump d0 (sdDie sd) 16 0x148 1) (sdDie sd) 16 4 c := rfl
  have h1 : d1.mem = d.mem := by rw [hd1, mem_latch, bump_mem, h0]
  split
  · exact hP _ ((mem_startProg _ _ _ _ _ _).trans h1)
  · exact hP _ h1

@[simp] theorem bytes_checkRead (d : Dev) (k sid addr : Nat) (ev : Upset) (c : Cap) :
    (checkRead d k sid addr ev c).1.mem.bytes = d.mem.bytes := by
  have herr (e : ReadErr) := bytes_readErr d k sid { c with addr := addr } e
  unfold checkRead
  grind [mem_countCE, bytes_readUE, mem_mirrorRepair, mem_countRetries]

@[simp] theorem bytes_gather (uid : Nat) (cp : Cap) (l : List (Nat × Nat)) (d : Dev) (ev : Upset) :
    (gather uid cp l d ev).1.mem.bytes = d.mem.bytes := by
  induction l generalizing d ev with
  | nil => rfl
  | cons q r ih =>
    obtain ⟨addr, k⟩ := q
    unfold gather
    split
    · have hrest := ih d ev
      split
      · next he => rwa [he] at hrest
      · exact hrest
    · next sid _ =>
      have hread := bytes_checkRead d k sid addr (evHere ev) cp
      split
      · next he => rwa [he] at hread
      · next d1 he =>
        rw [he] at hread
        have hrest := ih d1 (evNext ev)
        split
        · next he => rw [he] at hrest; exact hrest.trans hread
        · exact hrest.trans hread

@[simp] theorem bytes_checkReads (uid : Nat) (cp : Cap) (l : List (Nat × Nat)) (d : Dev) (ev : Upset) :
    (checkReads uid cp l d ev).1.mem.bytes = d.mem.bytes := by
  induction l generalizing d ev with
  | nil => rfl
  | cons q r ih =>
    have hread (sid : Nat) := bytes_checkRead d q.2 sid q.1 (evHere ev) cp
    grind [checkReads]

@[simp] theorem bytes_markGran (d : Dev) (j i k : Nat) : (markGran d j i k).mem.bytes = d.mem.bytes := by
  simp [markGran]

@[simp] theorem bytes_unmarkGran (d : Dev) (j i k : Nat) : (unmarkGran d j i k).mem.bytes = d.mem.bytes := by
  simp [unmarkGran]

/-! ### Machine/Net.lean -/

theorem mem_sendReq {d t : Dev} {p : Packet} (e : sendReq d p = some t) : t.mem = d.mem := by
  grind [sendReq, mem_sendRouted]

@[simp] theorem mem_respond (d : Dev) (port : Nat) (req p : Packet) : (respond d port req p).mem = d.mem := by
  grind [respond, mem_sendPort, mem_sendRouted]

@[simp] theorem mem_nackReq (d : Dev) (port : Nat) (req : Packet) (reason : Nat) : (nackReq d port req reason).mem = d.mem := by
  simp [nackReq]

@[simp] theorem mem_routeDrop (d : Dev) (port : Nat) (p : Packet) (reason : Nat) : (routeDrop d port p reason).mem = d.mem := by
  grind [routeDrop, mem_latch, bump_mem, mem_nackReq]

@[simp] theorem mem_dropMalformed (d : Dev) (port : Nat) (p : Packet) : (dropMalformed d port p).mem = d.mem := by
  simp [dropMalformed]

theorem wf_checked {d : Dev} {port : Nat} {p : Packet} {f : Dev → Dev} (hf : ∀ t, Canonical t → Canonical (f t))
    (h : Canonical d) : Canonical (checked d port p f) := by
  unfold checked
  split
  · exact hf _ h
  · simpa using h

@[simp] theorem mem_checked {f : Dev → Dev} (hf : ∀ t, (f t).mem = t.mem) (d : Dev) (port : Nat) (p : Packet) :
    (checked d port p f).mem = d.mem := by
  unfold checked
  split
  · exact hf d
  · exact mem_dropMalformed _ _ _

@[simp] theorem mem_sendCtrl (d : Dev) (port : Nat) (payload : List Nat) : (sendCtrl d port payload).mem = d.mem := by
  simp [sendCtrl]

@[simp] theorem mem_setOrbState (d : Dev) (o : Orb) : (setOrbState d o).mem = d.mem := by
  simp [setOrbState]

@[simp] theorem mem_enterLost (d : Dev) (cause : Nat) : (enterLost d cause).mem = d.mem := by
  have hkids (l : List Nat) (t : Dev) : (l.foldl (fun d p => sendCtrl d p (padTo 16 [5])) t).mem = t.mem := by simp
  grind [enterLost, mem_setOrbState, mem_sendReq, mem_latch]

@[simp] theorem mem_portGoesDown (d : Dev) (p : Nat) : (portGoesDown d p).mem = d.mem := by
  have again (l : List Packet) (t : Dev) : (l.foldl (fun d k => match sendRouted d k with
      | some d' => d'
      | none => routeDrop d p k 1) t).mem = t.mem := by
    refine mem_foldl (fun d k => ?_) _ _
    split
    · next hs => exact mem_sendRouted hs
    · exact mem_routeDrop _ _ _ _
  unfold portGoesDown
  dsimp only
  split
  · rfl
  · split
    · exact (mem_enterLost _ _).trans ((again _ _).trans (setPort_mem _ _ _))
    · split
      · exact (mem_enterLost _ _).trans ((again _ _).trans (setPort_mem _ _ _))
      · exact (again _ _).trans (setPort_mem _ _ _)

@[simp] theorem mem_retrainPort (d : Dev) (p : Nat) : (retrainPort d p).mem = d.mem := by
  grind [retrainPort, mem_portGoesDown, mem_latch, bump_mem]

@[simp] theorem mem_replay (d : Dev) (p : Nat) : (replay d p).mem = d.mem := by
  simp [replay]

@[simp] theorem mem_finishRop (d : Dev) (result : Nat) : (finishRop d result).mem = d.mem := by
  simp [finishRop]

@[simp] theorem mem_finishMailbox (d : Dev) (status : Nat) : (finishMailbox d status).mem = d.mem := by
  simp [finishMailbox]

@[simp] theorem wf_failReq {d : Dev} (tag reason : Nat) (h : Canonical d) : Canonical (failReq d tag reason) := by
  unfold failReq
  split
  · exact h
  · next r _ =>
    have hd : Canonical (if reason = 1 || reason = 2 then reportRequest (dropReq d tag) r.did else dropReq d tag) := by
      split <;> simpa using h
    revert hd
    dsimp only
    generalize (if reason = 1 || reason = 2 then reportRequest (dropReq d tag) r.did else dropReq d tag) = t
    intro ht
    grind [wf_failBad, wf_endCmd, dropCmdReqs_mem, setJob_mem, mem_finishRop, mem_finishMailbox]

@[simp] theorem wf_sendTagged {d : Dev} (tag : Nat) (p : Packet) (r : Req) (h : Canonical d) :
    Canonical (sendTagged d tag p r) := by
  grind [sendTagged, setReq_mem, mem_sendReq, wf_failReq]

@[simp] theorem wf_drainReqsN (n : Nat) {d : Dev} (h : Canonical d) : Canonical (drainReqsN n d) := by
  induction n generalizing d with
  | zero => exact h
  | succ n ih =>
    unfold drainReqsN
    split
    · exact ih (wf_sendTagged _ _ _ h)
    · exact h

@[simp] theorem wf_drainReqs {d : Dev} (h : Canonical d) : Canonical (drainReqs d) := by
  grind [drainReqs, wf_drainReqsN]

@[simp] theorem wf_request {d : Dev} (p : Packet) (r : Req) (h : Canonical d) : Canonical (request d p r) := by
  grind [request, wf_drainReqs]

/-! ### Machine/Ext.lean -/

@[simp] theorem wf_opWcbWrite {d : Dev} (md line mask data : Nat) (ev : Upset) (h : Canonical d) :
    Canonical (opWcbWrite d md line mask data ev) := by
  grind [opWcbWrite, wf_wcbEnter]

@[simp] theorem wf_opWcbFlushAge {d : Dev} (md line : Nat) (ev : Upset) (h : Canonical d) :
    Canonical (opWcbFlushAge d md line ev) := by
  grind [opWcbFlushAge, bytes_bumpWcb, wf_wcbFlush]

@[simp] theorem wf_opWcbFullWait {d : Dev} (md : Nat) (ev : Upset) (h : Canonical d) : Canonical (opWcbFullWait d md ev) := by
  grind [opWcbFullWait, wf_wcbEnter, bytes_bumpWcb, bytes_setWcbHeld, setWcbHeld_mem]

@[simp] theorem mem_opInkMode (d : Dev) (md : Nat) (cache : Bool) : (opInkMode d md cache).mem = d.mem := by
  simp [opInkMode]

@[simp] theorem wf_inkChangeEnd {d : Dev} (md : Nat) (ev : Upset) (h : Canonical d) : Canonical (inkChangeEnd d md ev) := by
  grind [inkChangeEnd, bump_mem, setInk_mem, wf_wcbFlushAll, setRg_mem, pageEvent_mem]

@[simp] theorem mem_opGddrTemp (d : Dev) (ch : Nat) (reading : Option Nat) : (opGddrTemp d ch reading).mem = d.mem := by
  simp +contextual [opGddrTemp, mem_latch]

@[simp] theorem bytes_poisonPhys (d : Dev) (g : Nat) : (poisonPhys d g).mem.bytes = d.mem.bytes :=
  bytes_foldl (f := fun d s => setPoison d s true) (fun d s => bytes_setPoison d s true) _ d

@[simp] theorem bytes_lineUE (d : Dev) (ch line reg : Nat) : (lineUE d ch line reg).mem.bytes = d.mem.bytes := by
  grind [lineUE, bump_mem, mem_latch, mem_rebuildMap, bytes_poisonPhys]

@[simp] theorem wf_rsvdRead {d : Dev} (uid : Nat) (ev : Upset) (h : Canonical d) : Canonical (rsvdRead d uid ev) := by
  unfold rsvdRead
  split
  · dsimp only
    split
    · simpa using h
    · exact wf_failFault _ _ _ _ (by simpa using h)
  · exact h

@[simp] theorem bytes_opScrub (d : Dev) (ch : Nat) (r : LineRead) : (opScrub d ch r).mem.bytes = d.mem.bytes := by
  unfold opScrub; dsimp only; repeat' split
  all_goals simp

@[simp] theorem mem_opNandEnd (d : Dev) (sd op : Nat) (ok : Bool) : (opNandEnd d sd op ok).mem = d.mem := by
  simp [opNandEnd]

@[simp] theorem bytes_readTimeout (d : Dev) (u : Nat) : (readTimeout d u).mem.bytes = d.mem.bytes := by
  unfold readTimeout
  dsimp only
  split
  · rfl
  · exact (bytes_foldl (fun t e => bytes_setPoison t _ true) _ _).trans (bytes_readUE _ _ _ _)

@[simp] theorem bytes_opOnfiTimeout (d : Dev) (ch kind op : Nat) : (opOnfiTimeout d ch kind op).mem.bytes = d.mem.bytes := by
  grind [opOnfiTimeout, mem_latch, bump_mem, mem_progFailed, mem_eraseDone, bytes_readTimeout]

@[simp] theorem mem_opReadDisturb (d : Dev) (sd b : Nat) : (opReadDisturb d sd b).mem = d.mem := by
  simp [opReadDisturb]

@[simp] theorem mem_opWearLevel (d : Dev) (sd src dst : Nat) : (opWearLevel d sd src dst).mem = d.mem := by
  simp [opWearLevel]

@[simp] theorem mem_touchReads (d : Dev) (keys : List Nat) : (touchReads d keys).mem = d.mem := by
  rw [(touchSide_touchReads d keys).rest]

/-! ### Machine/Mesh.lean -/

@[simp] theorem mem_pushPort (d : Dev) (np : Nat) (j : PortJob) : (pushPort d np j).mem = d.mem := by
  simp [pushPort]

@[simp] theorem mem_meshLinks (d : Dev) (c : Nat) : (meshLinks d c).mem = d.mem := by
  simp [meshLinks]

/-! ### Machine/Fabric.lean -/

@[simp] theorem mem_opLinkEstablish (d : Dev) (p keyGroup peerDid peerPort : Nat) (serial : BitVec 64) (nonce : BitVec 256)
    (confirm : BitVec 128) : (opLinkEstablish d p keyGroup peerDid peerPort serial nonce confirm).mem = d.mem := by
  unfold opLinkEstablish
  extract_lets
  split
  · rfl
  · split
    · exact (mem_latch _ _ _ _ _).trans (setPort_mem _ _ _)
    · exact setPort_mem _ _ _

@[simp] theorem mem_opFrameRx (d : Dev) (p : Nat) (f : LinkFrame) : (opFrameRx d p f).mem = d.mem := by
  simp [opFrameRx]

@[simp] theorem mem_opReplayTimeout (d : Dev) (p : Nat) : (opReplayTimeout d p).mem = d.mem := by
  unfold opReplayTimeout; dsimp only; split <;> simp

@[simp] theorem mem_opLinkRetrain (d : Dev) (p : Nat) : (opLinkRetrain d p).mem = d.mem := by
  simp [opLinkRetrain]

@[simp] theorem mem_opLinkDown (d : Dev) (p : Nat) : (opLinkDown d p).mem = d.mem := by
  grind [opLinkDown, mem_latch, setPort_mem]

@[simp] theorem mem_opRekey (d : Dev) (p : Nat) : (opRekey d p).mem = d.mem := by
  simp [opRekey]

@[simp] theorem mem_opSupplyOff (d : Dev) (p : Nat) : (opSupplyOff d p).mem = d.mem := by
  simp [opSupplyOff]

@[simp] theorem bytes_checkRoots (c : Cap) (l : List Nat) (d : Dev) (ev : Upset) :
    (checkRoots c l d ev).1.mem.bytes = d.mem.bytes := by
  induction l generalizing d ev with
  | nil => rfl
  | cons k r ih =>
    have hread (sid : Nat) := bytes_checkRead d k sid c.addr (evHere ev) c
    grind [checkRoots]

@[simp] theorem bytes_winCheck (d : Dev) (w a n : Nat) (ev : Upset) (c : Cap) :
    (winCheck d w a n ev c).1.mem.bytes = d.mem.bytes := by
  simp [winCheck]

@[simp] theorem mem_portUE (d : Dev) (port : Nat) : (portUE d port).mem = d.mem := by
  grind [portUE, mem_latch]

@[simp] theorem mem_tableUE (d : Dev) (drop : Fab → Fab) : (tableUE d drop).mem = d.mem := by
  grind [tableUE, mem_latch]

theorem wf_windowRx {d : Dev} {port typ : Nat} {p : Packet} {ev : Upset} {f : Dev → Dev}
    (hf : ∀ t, Canonical t → Canonical (f t)) (h : Canonical d) : Canonical (windowRx d port typ p ev f) := by
  grind [windowRx, mem_portUE, mem_dropMalformed, mem_tableUE]

@[simp] theorem bytes_holdWrite (d : Dev) (h : HeldAcc) : (holdWrite d h).mem.bytes = d.mem.bytes := by
  simp [holdWrite]

@[simp] theorem wf_opPut {d : Dev} (port : Nat) (p : Packet) (ev : Upset) (h : Canonical d) : Canonical (opPut d port p ev) := by
  refine wf_windowRx (fun t ht => ?_) h
  dsimp only
  split
  · simpa using ht
  · split
    · simpa using ht
    · simpa using wf_writeT0 _ _ _ _ ht

@[simp] theorem wf_opGetReq {d : Dev} (port : Nat) (p : Packet) (ev : Upset) (h : Canonical d) :
    Canonical (opGetReq d port p ev) := by
  refine wf_windowRx (fun t ht => ?_) h
  dsimp only
  split
  · simpa using ht
  · split
    · simpa using ht
    · split
      all_goals next hc => have ht1 := canonical_of_fst hc (by simpa using ht); simpa using ht1

@[simp] theorem wf_opAtomic {d : Dev} (port : Nat) (p : Packet) (ev : Upset) (h : Canonical d) :
    Canonical (opAtomic d port p ev) := by
  refine wf_windowRx (fun t ht => ?_) h
  dsimp only
  split
  · simpa using ht
  · split
    · simpa using ht
    · split
      · simpa using ht
      · split
        · next hc => simpa using canonical_of_fst hc (by simpa using ht)
        · next hc => simpa using wf_writeT0 _ _ _ _ (canonical_of_fst hc (by simpa using ht))

theorem wf_responseRx {d : Dev} {port typ : Nat} {p : Packet} {f : Dev → Dev} (hf : ∀ t, Canonical t → Canonical (f t))
    (h : Canonical d) : Canonical (responseRx d port typ p f) := by
  unfold responseRx
  split
  · exact h
  · exact wf_checked (fun t ht => wf_drainReqs (hf t ht)) h

@[simp] theorem wf_reqsDone {d : Dev} (uid : Nat) (h : Canonical d) : Canonical (reqsDone d uid) := by
  grind [reqsDone, mem_requestCommit, wf_t4WriteFault, mem_startPrograms]

@[simp] theorem wf_opPutAck {d : Dev} (p : Packet) (h : Canonical d) : Canonical (opPutAck d p) := by
  grind [opPutAck, wf_reqsDone, dropReq_mem]

theorem wf_landBytes {d t : Dev} {uid : Nat} {addr : Nat} {bs : List Nat} {sl : Bool} (e : landBytes d uid addr bs sl = .ok t)
    (h : Canonical d) : Canonical t := by
  grind [landBytes, wf_writeT0, wf_writeView]

@[simp] theorem wf_landRoot {d : Dev} (addr : Nat) (bs : List Nat) (sl : Bool) (h : Canonical d) :
    Canonical (landRoot d addr bs sl) := by
  grind [landRoot, wf_writeT0, wf_writeRoot]

@[simp] theorem bytes_landEdge (d : Dev) (uid addr : Nat) (first sl last : Bool) :
    (landEdge d uid addr first sl last).mem.bytes = d.mem.bytes := by
  unfold landEdge; dsimp only; repeat' split
  all_goals simp

@[simp] theorem bytes_unmarkAt (d : Dev) (j i addr : Nat) : (unmarkAt d j i addr).mem.bytes = d.mem.bytes := by
  unfold unmarkAt; split <;> simp

@[simp] theorem wf_opGetResp {d : Dev} (port : Nat) (p : Packet) (h : Canonical d) : Canonical (opGetResp d port p) := by
  unfold opGetResp
  split
  · split
    · split
      · simpa using h
      · split
        · split
          · simpa using wf_endCmd _ _ _ _ h
          · next _ hland =>
            have hd := wf_landBytes hland h
            dsimp only
            split
            · exact wf_reqsDone _ (by simpa using hd)
            · simpa using hd
        · dsimp only
          split <;> simpa using wf_landRoot _ _ _ h
        · exact h
    · exact h
  · exact h

@[simp] theorem mem_opAtomicResp (d : Dev) (p : Packet) : (opAtomicResp d p).mem = d.mem := by
  unfold opAtomicResp; split <;> simp

@[simp] theorem wf_opNack {d : Dev} (p : Packet) (h : Canonical d) : Canonical (opNack d p) := by
  grind [opNack, wf_failReq]

@[simp] theorem wf_opRequestTimeout {d : Dev} (tag : Nat) (h : Canonical d) : Canonical (opRequestTimeout d tag) := by
  grind [opRequestTimeout, wf_failReq]

@[simp] theorem mem_opHandleOpen (d : Dev) : (opHandleOpen d).mem = d.mem := by
  simp [opHandleOpen]

@[simp] theorem mem_opHandleFree (d : Dev) : (opHandleFree d).mem = d.mem := by
  simp [opHandleFree]

@[simp] theorem wf_opRop {d : Dev} (v : Nat) (ev : Upset) (h : Canonical d) : Canonical (opRop d v ev) := by
  grind [opRop, setRf_mem, mem_tableUE, wf_request, mem_finishRop]

theorem wf_opMailbox {d : Dev} {err : Dev → Dev} (v : Nat) (herr : ∀ t, Canonical t → Canonical (err t)) (h : Canonical d) :
    Canonical (opMailbox d err v) := by
  have hplain : Canonical (plainWrite d (regOff 56 16 0x170) v).1 := by simpa using h
  have hd : Canonical (if (plainWrite d (regOff 56 16 0x170) v).2 then err (plainWrite d (regOff 56 16 0x170) v).1
      else (plainWrite d (regOff 56 16 0x170) v).1) := by
    split
    · exact herr _ hplain
    · exact hplain
  unfold opMailbox
  dsimp only
  revert hd
  generalize (if (plainWrite d (regOff 56 16 0x170) v).2 then err (plainWrite d (regOff 56 16 0x170) v).1
      else (plainWrite d (regOff 56 16 0x170) v).1) = t
  intro ht
  split
  · exact ht
  · split
    · simpa using ht
    · split
      · split
        · split
          · simpa using ht
          · exact ht
        · simpa using ht
      · exact wf_request _ _ ht

@[simp] theorem mem_opMgmtResp (d : Dev) (p : Packet) : (opMgmtResp d p).mem = d.mem := by
  unfold opMgmtResp; split <;> simp

@[simp] theorem mem_opCalReq (d : Dev) (p : Nat) : (opCalReq d p).mem = d.mem := by
  simp [opCalReq]

@[simp] theorem mem_opCal (d : Dev) (port : Nat) (p : Packet) : (opCal d port p).mem = d.mem := by
  simp [opCal]

@[simp] theorem mem_opCalEcho (d : Dev) (port : Nat) (p : Packet) (rtt : Nat) : (opCalEcho d port p rtt).mem = d.mem := by
  simp [opCalEcho]

@[simp] theorem mem_holdLoad (d : Dev) (port stamp : Nat) (l : RelLoad) : (holdLoad d port stamp l).mem = d.mem := by
  simp [holdLoad]

@[simp] theorem mem_holdWord (d : Dev) (port : Nat) (p : Packet) : (holdWord d port p).mem = d.mem := by
  simp [holdWord]

@[simp] theorem mem_portSlip (d : Dev) (port : Nat) : (portSlip d port).mem = d.mem := by
  simp [portSlip]

@[simp] theorem mem_opOrbitRx (d : Dev) (port typ : Nat) (p : Packet) : (opOrbitRx d port typ p).mem = d.mem := by
  simp [opOrbitRx]

@[simp] theorem mem_opOrbitSignal (d : Dev) (port : Nat) (p : Packet) : (opOrbitSignal d port p).mem = d.mem := by
  simp [opOrbitSignal]

@[simp] theorem mem_releaseWord (d : Dev) (port : Nat) (p : Packet) : (releaseWord d port p).mem = d.mem := by
  unfold releaseWord; split <;> simp

/-! ### Machine/Orbit.lean -/

@[simp] theorem mem_opLockReq (d : Dev) : (opLockReq d).mem = d.mem := by
  simp [opLockReq]

@[simp] theorem mem_opPllLockHeld (d : Dev) : (opPllLockHeld d).mem = d.mem := by
  simp [opPllLockHeld]

@[simp] theorem mem_opOrbStart (d : Dev) : (opOrbStart d).mem = d.mem := by
  simp [opOrbStart]

@[simp] theorem mem_opStartRx (d : Dev) (port : Nat) (p : Packet) (late : Bool) : (opStartRx d port p late).mem = d.mem := by
  unfold opStartRx
  split
  · refine mem_checked (fun t => ?_) _ _ _
    split <;> simp [mem_latch]
  · rfl

@[simp] theorem mem_opRunOrbit (d : Dev) : (opRunOrbit d).mem = d.mem := by
  simp [opRunOrbit]

@[simp] theorem wf_orbitHalt {d : Dev} (h : Canonical d) : Canonical (orbitHalt d) := by
  grind [orbitHalt, setOrb_mem, wf_endAll]

@[simp] theorem wf_opEpochBoundary {d : Dev} (h : Canonical d) : Canonical (opEpochBoundary d) := by
  unfold opEpochBoundary
  split
  · exact h
  · extract_lets e _ d1 _ d2 sent _ d3
    have h1 : Canonical d1 := by simpa [d1] using h
    have h2 : Canonical d2 := by unfold d2; split <;> simpa using h1
    have h3 : Canonical d3 := by unfold d3; split <;> simpa using h2
    split
    · exact wf_orbitHalt h3
    · exact h3

@[simp] theorem mem_heartbeatNow (d : Dev) (port : Nat) (p : Packet) : (heartbeatNow d port p).mem = d.mem := by
  simp [heartbeatNow]

@[simp] theorem mem_opHeartbeat (d : Dev) (port : Nat) (p : Packet) : (opHeartbeat d port p).mem = d.mem := by
  simp [opHeartbeat]

@[simp] theorem mem_opHbMiss (d : Dev) : (opHbMiss d).mem = d.mem := by
  simp [opHbMiss]

@[simp] theorem mem_opHaltRx (d : Dev) (port : Nat) (p : Packet) : (opHaltRx d port p).mem = d.mem := by
  simp [opHaltRx]

@[simp] theorem mem_opOrbitLockLost (d : Dev) (cause : Nat) : (opOrbitLockLost d cause).mem = d.mem := by
  simp [opOrbitLockLost]

@[simp] theorem mem_opDisband (d : Dev) : (opDisband d).mem = d.mem := by
  simp [opDisband]

/-! ### Machine/Cmds.lean -/

@[simp] theorem mem_latchQm (d : Dev) (j src : Nat) (c : Cap) : (latchQm d j src c).mem = d.mem := by
  grind [latchQm, mem_latch]

@[simp] theorem mem_dropBells (d : Dev) (j q : Nat) : (dropBells d j q).mem = d.mem := by
  simp [dropBells]

@[simp] theorem mem_ringBell (d : Dev) (j q tail : Nat) : (ringBell d j q tail).mem = d.mem := by
  simp [ringBell]

@[simp] theorem mem_opSqDoorbell (d : Dev) (a : Acc) (j q v : Nat) : (opSqDoorbell d a j q v).mem = d.mem := by
  simp [opSqDoorbell]

@[simp] theorem mem_opCqDoorbell (d : Dev) (a : Acc) (j v : Nat) : (opCqDoorbell d a j v).mem = d.mem := by
  simp [opCqDoorbell]

@[simp] theorem mem_opSqErrClear (d : Dev) (j : Nat) : (opSqErrClear d j).mem = d.mem := by
  simp [opSqErrClear]

@[simp] theorem bytes_readCtl (d : Dev) (uid j : Nat) (objs : Option (List (Nat × Nat))) (a n : Nat) (ev : Upset) :
    (readCtl d uid j objs a n ev).1.mem.bytes = d.mem.bytes := by
  grind [readCtl, bytes_gather]

@[simp] theorem wf_fetchLaunch {d : Dev} (uid : Nat) (c : Cmd) (ev : Upset) (h : Canonical d) :
    Canonical (fetchLaunch d uid c ev) := by
  grind [fetchLaunch, wf_failBad, bytes_readCtl, wf_endCmd, bytes_setCmd, setCmd_mem]

@[simp] theorem wf_opFetch {d : Dev} (j q : Nat) (desc : Option (BitVec 512)) (ev : Upset) (h : Canonical d) :
    Canonical (opFetch d j q desc ev) := by
  grind [opFetch, setJob_mem, mem_latchQm, mem_dropBells, bytes_setCmd, setCmd_mem, wf_failBad, wf_rsvdRead, wf_fetchLaunch]

/-- A command that starts keeps the form when its operation does. -/
theorem wf_startCmd {d : Dev} {uid op : Nat} {ready : Cmd → Bool} {f : Dev → Cmd → Dev}
    (hf : ∀ t c, Canonical t → Canonical (f t c)) (h : Canonical d) : Canonical (startCmd d uid op ready f) := by
  unfold startCmd
  split
  · exact h
  · split
    · split
      · exact wf_failFault _ _ _ _ h
      · exact hf _ _ h
    · exact h

theorem wf_startCopyOp {d : Dev} {uid op : Nat} {ready : Cmd → Bool} {f : Dev → Cmd → Dev}
    (hf : ∀ t c, Canonical t → Canonical (f t c)) (h : Canonical d) : Canonical (startCopyOp d uid op ready f) :=
  wf_startCmd hf h

@[simp] theorem bytes_takeHold (d : Dev) (uid tier oid : Nat) : (takeHold d uid tier oid).mem.bytes = d.mem.bytes := by
  unfold takeHold; repeat' split
  all_goals simp

@[simp] theorem wf_swapGen {d : Dev} (k sid : Nat) (h : Canonical d) : Canonical (swapGen d k sid) := by
  grind [swapGen, bytes_setRoot, wf_dropGran]

@[simp] theorem wf_commitList {d : Dev} (key : Nat) (s : SnapList) (h : Canonical d) : Canonical (commitList d key s) := by
  unfold commitList
  refine wf_foldl _ (fun _ e ht => wf_dropRefPage _ ht) _ ?_
  refine wf_foldl _ (fun t e ht => ?_) _ ?_
  · dsimp only
    split <;> simpa using ht
  · refine wf_foldl _ (fun _ e ht => by simpa using ht) _ ?_
    simpa using h

@[simp] theorem wf_commitTail {d : Dev} (u : TailUpd) (h : Canonical d) : Canonical (commitTail d u) := by
  grind [commitTail, setSlot_mem, mem_addRefSlot, setSess_mem, wf_dropRefSlot]

@[simp] theorem bytes_commitNew (d : Dev) (uid : Nat) (c : Cmd) : (commitNew d uid c).mem.bytes = d.mem.bytes := by
  unfold commitNew
  refine bytes_foldl (fun d t => ?_) _ _
  split
  · exact bytes_setObj _ _ _
  · rfl

@[simp] theorem wf_freeSession {d : Dev} (sid pos : Nat) (selP : Nat → Nat → Bool) (selT : Nat → Bool) (pages tails : Bool)
    (h : Canonical d) : Canonical (freeSession d sid pos selP selT pages tails) := by
  unfold freeSession
  refine wf_foldl _ (fun _ t ht => wf_dropRefSlot _ ht) _ ?_
  refine wf_foldl _ (fun _ e ht => wf_dropRefPage _ ht) _ ?_
  simpa using h

@[simp] theorem wf_commitFree {d : Dev} (w : BitVec 512) (h : Canonical d) : Canonical (commitFree d w) := by
  grind [commitFree, wf_freeSession]

@[simp] theorem mem_commitFork (d : Dev) (w : BitVec 512) : (commitFork d w).mem = d.mem := by
  simp [commitFork]

@[simp] theorem mem_commitQuota (d : Dev) (w : BitVec 512) : (commitQuota d w).mem = d.mem := by
  simp [commitQuota]

@[simp] theorem wf_commitUnstage {d : Dev} (pids : List Nat) (h : Canonical d) : Canonical (commitUnstage d pids) := by
  refine wf_foldl _ (fun t x ht => ?_) _ h
  dsimp only
  split
  · exact wf_freeGrans _ _ (by simpa using ht)
  · exact ht

@[simp] theorem wf_commitStage {d : Dev} (pids : List Nat) (h : Canonical d) : Canonical (commitStage d pids) := by
  refine wf_foldl _ (fun t x ht => ?_) _ h
  dsimp only
  split
  · refine wf_foldl _ (fun u e hu => wf_copyGran _ _ ?_) _ ?_
    · simpa using hu
    · simpa using ht
  · exact ht

@[simp] theorem wf_commitOp {d : Dev} (_uid : Nat) (c : Cmd) (h : Canonical d) : Canonical (commitOp d _uid c) := by
  grind [commitOp, bytes_claimCopy, wf_evictCopy, wf_commitStage, wf_commitUnstage, mem_commitFork, wf_commitFree,
    mem_commitQuota]

@[simp] theorem wf_dropPrefetch {d : Dev} (j : Nat) (h : Canonical d) : Canonical (dropPrefetch d j) := by
  refine wf_foldl _ (fun t e ht => ?_) (job d j).pf (d := setJob d j { job d j with pf := [], pfStep := 0 }) ?_
  · split
    · exact wf_unholdCopy _ _ ht
    · exact wf_unholdCopy _ _ ht
    · exact ht
  · simpa using h

@[simp] theorem wf_freeSave {d : Dev} (j : Nat) (h : Canonical d) : Canonical (freeSave d j) := by
  unfold freeSave
  split
  · simpa using wf_foldl _ (fun _ (g : SaveGran) ht => wf_dropGran g.sid ht) _ h
  · exact h

@[simp] theorem mem_powerSave (d : Dev) : (powerSave d).mem = d.mem := by
  simp [powerSave]

@[simp] theorem wf_finishDestroy {d : Dev} (j : Nat) (h : Canonical d) : Canonical (finishDestroy d j) := by
  unfold finishDestroy
  extract_lets mine d1 d2 _ d2k d3
  have h1 : Canonical d1 := wf_foldl _ (fun t s ht => by simpa using wf_freeSession s 0 _ _ true true ht) _ h
  have h2 : Canonical d2 :=
    wf_foldl _ (fun t o ht => wf_foldl _ (fun u tier hu => wf_evictCopy o tier j hu) [1, 2, 4] ht) _ h1
  have h3 : Canonical d3 := wf_dropPrefetch j (wf_freeSave j h2)
  simpa using h3

@[simp] theorem wf_checkDestroy {d : Dev} (j : Nat) (h : Canonical d) : Canonical (checkDestroy d j) := by
  grind [checkDestroy, wf_finishDestroy]

@[simp] theorem wf_opCommit {d : Dev} (uid ns : Nat) (h : Canonical d) : Canonical (opCommit d uid ns) := by
  unfold opCommit
  split
  · split
    · exact h
    · split
      · exact wf_endCmd _ _ _ _ h
      · split
        · exact wf_failBad _ _ h
        · extract_lets d1 d2 d3 d4 die d5 d6 c' d7
          have h1 : Canonical d1 := wf_foldl _ (fun t e ht => wf_swapGen e.1 e.2 ht) _ (by simpa using h)
          have h2 : Canonical d2 := by
            refine wf_foldl _ (fun t e ht => ?_) _ h1
            split
            · exact wf_commitList _ _ ht
            · exact ht
          have h3 : Canonical d3 := wf_foldl _ (fun t u ht => wf_commitTail u ht) _ h2
          have h4 : Canonical d4 := wf_commitOp uid _ (by simpa using h3)
          have h7 : Canonical d7 := by simpa [d7, d6, d5] using h4
          exact wf_completeCmd _ (by simpa using h7)
  · exact h

@[simp] theorem wf_removeCmd {d : Dev} (uid j : Nat) (h : Canonical d) : Canonical (removeCmd d uid j) := by
  grind [removeCmd, wf_checkDestroy]

@[simp] theorem mem_countKill (d : Dev) (j : Nat) : (countKill d j).mem = d.mem := by
  simp [countKill]

@[simp] theorem wf_opCompletion {d : Dev} (uid : Nat) (h : Canonical d) : Canonical (opCompletion d uid) := by
  grind [opCompletion, emit_mem, setJob_mem, bump_mem, mem_countKill, wf_removeCmd, mem_sendCplVec]

@[simp] theorem wf_opCqAbandon {d : Dev} (uid : Nat) (h : Canonical d) : Canonical (opCqAbandon d uid) := by
  grind [opCqAbandon, mem_latchQm, wf_removeCmd, mem_countKill]

/-! ### Machine/Copy.lean -/

@[simp] theorem mem_isolation (d : Dev) (j : Nat) (a : DevAddr) (n : Nat) : (isolation d j a n).mem = d.mem := by
  unfold isolation; split <;> simp

theorem wf_scatter {uid : Nat} {l : List (Nat × List Nat × Bool)} {d t : Dev} (e : scatter uid l d = .ok t)
    (h : Canonical d) : Canonical t := by
  induction l generalizing d with
  | nil => cases e; exact h
  | cons x r ih =>
    unfold scatter at e
    split at e
    · next hw => exact ih e (wf_writeView h hw)
    · cases e

@[simp] theorem wf_sendPuts {d : Dev} (ow : ReqOwner) (hdl off t3 : Nat) (data : List (List Nat × Bool)) (h : Canonical d) :
    Canonical (sendPuts d ow hdl off t3 data) :=
  wf_foldl _ (fun _ _ ht => wf_foldl _ (fun _ _ hu => wf_request _ _ hu) _ ht) _ h

@[simp] theorem wf_sendGets {d : Dev} (ow : ReqOwner) (hdl off t3 loc n : Nat) (h : Canonical d) :
    Canonical (sendGets d ow hdl off t3 loc n) :=
  wf_foldl _ (fun _ _ ht => wf_request _ _ ht) _ h

theorem wf_t4WriteFault_getD {d : Dev} (uid : Nat) (h : Canonical d) : Canonical ((t4WriteFault d uid).getD d) := by
  cases e : t4WriteFault d uid with
  | none => exact h
  | some t => exact wf_t4WriteFault e h

@[simp] theorem wf_moveGrans {d : Dev} (uid act j : Nat) (src dst : DevAddr) (n : Nat) (need : List Nat)
    (fix : Nat → List Nat → List Nat) (ev : Upset) (h : Canonical d) :
    Canonical (moveGrans d uid act j src dst n need fix ev).1 := by
  unfold moveGrans
  split
  · split
    · exact wf_t4WriteFault_getD _ h
    · exact wf_sendGets _ _ _ _ _ _ h
  · dsimp only
    split
    · next hg => exact wf_endCmd _ _ _ _ (canonical_of_fst hg (by simpa using h))
    · next d1 _ hg =>
      have h1 : Canonical d1 := canonical_of_fst hg (by simpa using h)
      split
      · exact wf_sendPuts _ _ _ _ _ h1
      · split
        · exact wf_t4WriteFault_getD _ h1
        · split
          · exact wf_endCmd _ _ _ _ h1
          · next hs => simpa using wf_scatter hs h1

@[simp] theorem wf_moveAll {d : Dev} (uid j : Nat) (src dst : DevAddr) (n : Nat) (ev : Upset) (h : Canonical d) :
    Canonical (moveAll d uid j src dst n ev).1 := by
  grind [moveAll, wf_moveGrans]

@[simp] theorem bytes_holdAddr (d : Dev) (uid : Nat) (a : DevAddr) : (holdAddr d uid a).mem.bytes = d.mem.bytes := by
  unfold holdAddr; split <;> simp

@[simp] theorem wf_opCopyTiles {d : Dev} (uid : Nat) (ev : Upset) (h : Canonical d) : Canonical (opCopyTiles d uid ev) := by
  grind [opCopyTiles, wf_startCopyOp, wf_failBad, wf_endEmpty, mem_isolation, wf_moveAll, bytes_holdAddr, mem_requestCommit]

theorem wf_createCopy {d t : Dev} {uid : Nat} {j : Nat} {oid : Nat} {tier : Nat} {o : Obj}
    (e : createCopy d uid j oid tier o = .ok t) (h : Canonical d) : Canonical t := by
  grind [createCopy, bytes_setObj, wf_freeGrans, bytes_setCmd, setCmd_mem]

@[simp] theorem wf_endCreate {d : Dev} (uid tier st : Nat) (h : Canonical d) : Canonical (endCreate d uid tier st) := by
  grind [endCreate, wf_endCmd, wf_failBad]

@[simp] theorem wf_opAlloc {d : Dev} (uid : Nat) (h : Canonical d) : Canonical (opAlloc d uid) := by
  grind [opAlloc, wf_startCopyOp, wf_failBad, mem_requestCommit, bytes_takeHold, wf_endCreate, wf_createCopy]

@[simp] theorem wf_opClaim {d : Dev} (uid : Nat) (h : Canonical d) : Canonical (opClaim d uid) := by
  grind [opClaim, wf_startCopyOp, wf_failBad, mem_requestCommit, bytes_takeHold]

@[simp] theorem wf_opEvict {d : Dev} (uid : Nat) (h : Canonical d) : Canonical (opEvict d uid) := by
  grind [opEvict, wf_startCopyOp, wf_failBad, mem_requestCommit, bytes_takeHold]

@[simp] theorem wf_opStage {d : Dev} (uid : Nat) (ev : Upset) (h : Canonical d) : Canonical (opStage d uid ev) := by
  grind [opStage, wf_startCopyOp, wf_failBad, wf_createCopy, wf_endCreate, wf_moveAll, bytes_takeHold, mem_requestCommit]

@[simp] theorem mem_publishChunk (d : Dev) (j host : Nat) (bs : List Nat) : (publishChunk d j host bs).mem = d.mem := by
  simp [publishChunk]

/-- One round of the loop, whatever the rounds after it do, so long as they keep the form. It is stated of any property of the
answer: otherwise the kernel evaluates the granule numbers of the round. -/
theorem wf_publishLoop_round {uid j tier oid host n off left : Nat} {d : Dev} {ev : Upset}
    {rest : Nat.below (motive := fun _ => Nat → Nat → Nat → Dev → Upset → Dev) (n + 1)}
    (hrest : ∀ host off left t ev, Canonical t → Canonical (rest.1 host off left t ev)) (h : Canonical d) (P : Dev → Prop)
    (hP : ∀ t, Canonical t → P t) : P (publishLoop._f uid j tier oid (n + 1) rest host off left d ev) := by
  delta publishLoop._f
  dsimp -zeta only
  split
  · exact hP _ (by simpa using h)
  · extract_lets
    split
    · exact hP _ (wf_endCmd _ _ _ _ h)
    · split
      · next hg => exact hP _ (wf_endCmd _ _ _ _ (canonical_of_fst hg (by simpa using h)))
      · next hg =>
        have hdata := canonical_of_fst hg (by simpa using h)
        exact hP _ (hrest _ _ _ _ _ (by simpa using hdata))

theorem publishLoop_rounds (uid j tier oid host n off left : Nat) (d : Dev) (ev : Upset) :
    publishLoop uid j tier oid host n off left d ev = (Nat.brecOn.go n (publishLoop._f uid j tier oid)).1 host off left d ev := by
  delta publishLoop
  rfl

@[simp] theorem wf_publishLoop (uid j tier oid host n off left : Nat) {d : Dev} (ev : Upset) (h : Canonical d) :
    Canonical (publishLoop uid j tier oid host n off left d ev) := by
  rw [publishLoop_rounds]
  induction n generalizing host off left d ev with
  | zero => exact h
  | succ n ih =>
    refine wf_publishLoop_round (rest := (Nat.brecOn.go (n + 1) (publishLoop._f uid j tier oid)).2) ?_ h
      (fun t => Canonical t) (fun _ ht => ht)
    exact fun host off left t ev ht => ih host off left ev ht

@[simp] theorem wf_opPublish {d : Dev} (uid : Nat) (ev : Upset) (h : Canonical d) : Canonical (opPublish d uid ev) := by
  grind [opPublish, wf_startCmd, wf_endEmpty, wf_publishLoop, bytes_takeHold, wf_failBad]

@[simp] theorem wf_opFence {d : Dev} (uid : Nat) (ev : Upset) (h : Canonical d) : Canonical (opFence d uid ev) := by
  refine wf_startCmd (fun t c ht => ?_) h
  have hflush (t : Dev) (ht : Canonical t) : Canonical ((List.range 8).foldl (fun (p : Dev × Upset) md =>
      (wcbFlushAll p.1 md true p.2, evDrop p.2 (wcbOf p.1 md).length)) (t, ev)).1 :=
    List.foldlRecOn (List.range 8) _ (motive := fun p : Dev × Upset => Canonical p.1) ht
      fun p hp md _ => wf_wcbFlushAll md true p.2 hp
  dsimp only
  split
  · simpa using hflush _ (by simpa using ht)
  · exact hflush _ (by simpa using ht)

@[simp] theorem wf_opSetQuota {d : Dev} (uid : Nat) (h : Canonical d) : Canonical (opSetQuota d uid) := by
  grind [opSetQuota, wf_startCmd, mem_requestCommit, wf_failBad]

/-! ### Machine/Array.lean -/

@[simp] theorem mem_clearCore (d : Dev) (j : Nat) (e : CoreEnt) : (clearCore d j e).mem = d.mem := by
  simp [clearCore]

@[simp] theorem mem_setCtx (d : Dev) (n j : Nat) (x : Ctx) : (setCtx d n j x).mem = d.mem := by
  simp [setCtx]

@[simp] theorem wf_failOwned {d : Dev} (uid j n ai : Nat) (rs : List (Int × Nat)) (h : Canonical d) :
    Canonical (failOwned d uid j n ai rs) := by
  refine wf_failBad _ _ ?_
  split <;> simpa using h

@[simp] theorem wf_engineUpset {d : Dev} (uid j n : Nat) (gs : List Nat) (ev : Upset) (h : Canonical d) :
    Canonical (engineUpset d uid j n gs ev).1 := by
  unfold engineUpset
  split
  · split
    · exact wf_endCmd _ _ _ _ (by simpa using h)
    · exact h
  · dsimp only
    split <;> simpa using h
  · exact h

@[simp] theorem wf_engineReads {d : Dev} (uid j n ai : Nat) (sealOk : Bool) (rs : List (Int × Nat)) (ev : Upset) (h : Canonical d)
    : Canonical (engineReads d uid j n ai sealOk rs ev).1 := by
  grind [engineReads, wf_failOwned, wf_endCmd, wf_engineUpset]

@[simp] theorem wf_arrayUpset {d : Dev} (uid j n : Nat) (ev : Upset) (h : Canonical d) :
    Canonical (arrayUpset d uid j n ev).1 := by
  unfold arrayUpset
  split
  · exact wf_endCmd _ _ _ _ (by simpa using h)
  · simpa using h
  · exact wf_failFault _ _ _ _ (by simpa using h)
  · exact h

@[simp] theorem wf_passCycle {d : Dev} (n : Nat) (im : Image) (fl : PassFly) (h : Canonical d) :
    Canonical (passCycle d n im fl).1 := by
  grind [passCycle, wf_engineReads, setCore_mem]

/-! ### Machine/Engines.lean -/

@[simp] theorem wf_writeRowBits {d : Dev} (n at_ b : Nat) (l : List Nat) (sl : Bool) (h : Canonical d) :
    Canonical (writeRowBits d n at_ b l sl) := by
  grind [writeRowBits, wf_writeT0]

@[simp] theorem bytes_coverMarks (d : Dev) (n : Nat) (rs : List (Int × Nat)) (sl : Bool) :
    (coverMarks d n rs sl).mem.bytes = d.mem.bytes := by
  unfold coverMarks
  refine bytes_foldl (fun d g => ?_) _ _
  dsimp only
  split <;> rfl

@[simp] theorem wf_wbPutRow {d : Dev} (n : Nat) (im : Image) (it : Item) (a : ActionD) (int : Bool) (rows cols : Nat)
    (w : Nat → Nat → Nat) (m : Nat) (h : Canonical d) : Canonical (wbPutRow d n im it a int rows cols w m) := by
  grind [wbPutRow, wf_writeRowBits, wf_writeT0]

@[simp] theorem wf_wbCycle {d : Dev} (n j : Nat) (r : RunAct) (h : Canonical d) : Canonical (wbCycle d n j r).1 := by
  unfold wbCycle
  split
  · exact h
  · next x _ =>
    extract_lets im it a rows cols ms r1
    split
    · next hr => exact canonical_of_fst hr (wf_engineReads _ _ _ _ _ _ _ h)
    · next d1 hr =>
      have h1 : Canonical d1 := canonical_of_fst hr (wf_engineReads _ _ _ _ _ _ _ h)
      extract_lets c
      split
      extract_lets held w put d2 am d3 d4 d5
      have h2 : Canonical d2 := by
        refine wf_foldl _ (fun t m ht => ?_) _ h1
        unfold put
        split
        · split
          · exact wf_writeT0 _ _ _ _ (wf_foldl _ (fun _ _ hu => wf_wbPutRow _ _ _ _ _ _ _ _ _ hu) _ ht)
          · exact ht
        · exact wf_wbPutRow _ _ _ _ _ _ _ _ _ ht
      have h3 : Canonical d3 := by unfold d3; split <;> simpa using h2
      have h4 : Canonical d4 := by
        unfold d4
        split
        · exact wf_writeT0 _ _ _ _ h3
        · exact h3
      show Canonical d5
      unfold d5
      split
      · exact h3
      · rw [Canonical, bytes_coverMarks]
        exact h4

@[simp] theorem bytes_vecEnd (d : Dev) (n : Nat) (r : RunAct) (ws : List (Int × Nat)) :
    (vecEnd d n r ws).mem.bytes = d.mem.bytes := by
  unfold vecEnd
  extract_lets d1 d2 c c' d3
  have h1 : d1.mem.bytes = d.mem.bytes := by
    unfold d1
    split
    · exact bytes_foldl (f := fun d g => setSeal d g true) (fun t g => bytes_setSeal t g true) _ d
    · rfl
  simp [d3, d2, h1]

@[simp] theorem wf_vecCycle {d : Dev} (n j : Nat) (r : RunAct) (h : Canonical d) : Canonical (vecCycle d n j r).1 := by
  grind [vecCycle, wf_engineReads, wf_writeT0, bytes_vecEnd]

/-! ### Machine/Seq.lean -/

@[simp] theorem mem_holdGate (d : Dev) (n j : Nat) (x : Ctx) : (holdGate d n j x).mem = d.mem := by
  simp [holdGate]

@[simp] theorem mem_skipItems (d : Dev) (n j : Nat) : (skipItems d n j).mem = d.mem := by
  unfold skipItems; split <;> simp

@[simp] theorem mem_finishCore (d : Dev) (n j : Nat) : (finishCore d n j).mem = d.mem := by
  unfold finishCore; repeat' split
  all_goals simp

@[simp] theorem mem_issued (d0 : Dev) (n j : Nat) : (issued d0 n j).mem = d0.mem := by
  unfold issued; repeat' split
  all_goals simp

@[simp] theorem mem_addRun (d : Dev) (n j : Nat) (r : RunAct) : (addRun d n j r).mem = d.mem := by
  unfold addRun; split <;> simp

@[simp] theorem mem_setRun (d : Dev) (n j id : Nat) (f : RunAct → RunAct) : (setRun d n j id f).mem = d.mem := by
  unfold setRun; split <;> simp

@[simp] theorem wf_badAct {d : Dev} (x : Ctx) (it : Item) (h : Canonical d) : Canonical (badAct d x it) := by
  grind [badAct, wf_failBad]

/-- An action that issues keeps the form when what its issue does keeps it. -/
theorem wf_issueAct {d : Dev} {n j typ : Nat} {f : Dev → Ctx → Item → Dev} (hf : ∀ x it, Canonical (f d x it))
    (h : Canonical d) : Canonical (issueAct d n j typ f) := by
  unfold issueAct
  split
  · exact h
  · split
    · exact h
    · split
      · simpa using h
      · split
        · exact h
        · split
          · simpa using h
          · exact hf _ _

@[simp] theorem mem_opResume (d : Dev) (n j : Nat) : (opResume d n j).mem = d.mem := by
  unfold opResume; repeat' split
  all_goals simp

@[simp] theorem mem_setArr (d : Dev) (n : Nat) (a : Arr) : (setArr d n a).mem = d.mem := by
  simp [setArr]

@[simp] theorem wf_passUpset {d : Dev} (n : Nat) (p : PassRun) (ev : Upset) (h : Canonical d) :
    Canonical (passUpset d n p ev).1 := by
  grind [passUpset, wf_engineUpset, wf_arrayUpset]

@[simp] theorem wf_startPass {d0 : Dev} (n : Nat) (p : PassRun) (c0 : Nat) (ev : Upset) (h : Canonical d0) :
    Canonical (startPass d0 n p c0 ev) := by
  grind [startPass, wf_passUpset, mem_setArr, mem_setRun, setCore_mem]

@[simp] theorem mem_bankWait (d : Dev) (n since until' : Nat) : (bankWait d n since until').mem = d.mem := by
  simp [bankWait]

@[simp] theorem mem_countStalls (d : Dev) (n reg earliest start ready part : Nat) :
    (countStalls d n reg earliest start ready part).mem = d.mem := by
  simp [countStalls]

@[simp] theorem wf_tryKeep {d : Dev} (n : Nat) (h : Canonical d) : Canonical (tryKeep d n) := by
  grind [tryKeep, mem_bankWait, mem_setArr, wf_startPass]

@[simp] theorem wf_enterToken {d : Dev} (n : Nat) (p : PassRun) (c : Nat) (ev : Upset) (h : Canonical d) :
    Canonical (enterToken d n p c ev) := by
  grind [enterToken, mem_setArr, wf_startPass]

@[simp] theorem wf_tryRide {d : Dev} (n : Nat) (h : Canonical d) : Canonical (tryRide d n) := by
  grind [tryRide, wf_enterToken]

@[simp] theorem wf_runUpset {d : Dev} (n j : Nat) (x : Ctx) (r : RunAct) (h : Canonical d) :
    Canonical (runUpset d n j x r).1 := by
  grind [runUpset, wf_engineUpset, wf_arrayUpset]

theorem wf_settleOne {d t : Dev} {n : Nat} {j : Nat} (e : settleOne d n j = some t) (h : Canonical d) : Canonical t := by
  grind [settleOne, mem_bankWait, wf_runUpset, mem_setRun]

@[simp] theorem wf_settleN (k : Nat) {d : Dev} (n j : Nat) (h : Canonical d) : Canonical (settleN k d n j) := by
  induction k generalizing d with
  | zero => exact h
  | succ k ih =>
    unfold settleN
    split
    · next he => exact ih (wf_settleOne he h)
    · exact h

@[simp] theorem wf_settle {d : Dev} (n j : Nat) (h : Canonical d) : Canonical (settle d n j) := by
  grind [settle, wf_settleN, wf_tryRide, wf_tryKeep]

@[simp] theorem wf_opNop {d : Dev} (n j : Nat) (h : Canonical d) : Canonical (opNop d n j) :=
  wf_issueAct (fun _ _ => by simpa using h) h

@[simp] theorem mem_fenceHold (d : Dev) (n j : Nat) (x : Ctx) : (fenceHold d n j x).mem = d.mem := by
  simp [fenceHold]

@[simp] theorem wf_sendSignal {d0 : Dev} (n j : Nat) (x : Ctx) (it : Item) (h : Canonical d0) :
    Canonical (sendSignal d0 n j x it) := by
  grind [sendSignal, bump_mem, wf_endCmd, mem_issued, mem_pushPort]

@[simp] theorem wf_opSignal {d : Dev} (n j : Nat) (ev : Upset) (h : Canonical d) : Canonical (opSignal d n j ev) := by
  refine wf_issueAct (fun x it => ?_) h
  dsimp only
  split
  · split
    · simpa using h
    · exact h
  · split
    · exact wf_failFault _ _ _ _ (by simpa [mem_latch] using h)
    · split
      · exact wf_badAct _ _ (by simpa using h)
      · exact wf_sendSignal _ _ _ _ h

@[simp] theorem wf_opWait {d : Dev} (n j : Nat) (h : Canonical d) : Canonical (opWait d n j) := by
  refine wf_issueAct (fun x it => ?_) h
  dsimp only
  split <;> simpa using h

@[simp] theorem mem_opWaitComplete (d : Dev) (n j : Nat) : (opWaitComplete d n j).mem = d.mem := by
  unfold opWaitComplete; repeat' split
  all_goals simp

@[simp] theorem wf_opSemTimeout {d : Dev} (n j : Nat) (h : Canonical d) : Canonical (opSemTimeout d n j) := by
  grind [opSemTimeout, wf_failFault, mem_latchCoreSrc, mem_slipCycles, mem_setCtx]

@[simp] theorem wf_opSignalArrival {d : Dev} (i : Nat) (h : Canonical d) : Canonical (opSignalArrival d i) := by
  grind [opSignalArrival, bump_mem, wf_failBad, mem_latchCoreSrc, wf_failFault, mem_setSem]

@[simp] theorem mem_opSchedSlip (d : Dev) (n : Nat) : (opSchedSlip d n).mem = d.mem := by
  simp [opSchedSlip]

@[simp] theorem mem_opNocSlip (d : Dev) (die : Nat) : (opNocSlip d die).mem = d.mem := by
  grind [opNocSlip, mem_rollWin, mem_latch, setCore_mem]

@[simp] theorem mem_sendCopy (d : Dev) (n j uid id ready : Nat) (s t : DevAddr) (dst g : Nat) :
    (sendCopy d n j uid id ready s t dst g).mem = d.mem := by
  simp [sendCopy]

@[simp] theorem mem_copyFlits (d : Dev) (n j : Nat) (x : Ctx) (id : Nat) (s t : DevAddr) (dst g : Nat) :
    (copyFlits d n j x id s t dst g).mem = d.mem := by
  simp [copyFlits]

@[simp] theorem mem_copyRun (d : Dev) (n j : Nat) (x : Ctx) (it : Item) (be : Bool) (ev : Upset) :
    (copyRun d n j x it be ev).mem = d.mem := by
  simp [copyRun]

@[simp] theorem wf_copyRemote {d : Dev} (n j : Nat) (x : Ctx) (it : Item) (s t : DevAddr) (g : Nat) (ev : Upset)
    (h : Canonical d) : Canonical (copyRemote d n j x it s t g ev) := by
  unfold copyRemote
  extract_lets did
  split
  · simpa using h
  · exact wf_endCmd _ _ _ _ h
  · exact wf_badAct _ _ h

@[simp] theorem wf_startCopy {d : Dev} (n j : Nat) (x : Ctx) (it : Item) (s t : DevAddr) (ev : Upset) (h : Canonical d) :
    Canonical (startCopy d n j x it s t ev) := by
  grind [startCopy, wf_moveGrans, mem_issued, mem_copyRun, mem_copyFlits]

@[simp] theorem wf_opCopyAct {d : Dev} (n j : Nat) (ev : Upset) (h : Canonical d) : Canonical (opCopyAct d n j ev) := by
  refine wf_issueAct (fun x it => ?_) h
  dsimp only
  split
  · exact h
  · exact wf_failFault _ _ _ _ (by simpa [mem_latch] using h)
  · split
    · split
      · exact wf_copyRemote _ _ _ _ _ _ _ _ h
      · exact wf_badAct _ _ (by simpa using h)
    · split
      · exact wf_badAct _ _ (by simpa using h)
      · exact wf_startCopy _ _ _ _ _ _ _ h

@[simp] theorem wf_opWriteback {d : Dev} (n j : Nat) (ev : Upset) (h : Canonical d) : Canonical (opWriteback d n j ev) := by
  refine wf_issueAct (fun x it => ?_) h
  dsimp only
  split
  · exact wf_badAct _ _ h
  · split
    · exact wf_badAct _ _ (by simpa using h)
    · split
      · exact wf_failOwned _ _ _ _ _ h
      · exact wf_settle _ _ (by simpa using h)

@[simp] theorem wf_opVector {d : Dev} (n j vreg : Nat) (ev : Upset) (h : Canonical d) : Canonical (opVector d n j vreg ev) := by
  refine wf_issueAct (fun x it => ?_) h
  dsimp only
  split
  · exact wf_badAct _ _ h
  · split
    · exact wf_failOwned _ _ _ _ _ h
    · exact wf_settle _ _ (by simpa using h)

@[simp] theorem wf_doneSem {d : Dev} (n j uid : Nat) (s : Option Nat) (h : Canonical d) : Canonical (doneSem d n j uid s) := by
  unfold doneSem
  split
  · exact h
  · split
    · exact wf_failFault _ _ _ _ (by simpa using h)
    · simpa using h

@[simp] theorem mem_fenceFree (d : Dev) (n j : Nat) (x0 : Ctx) : (fenceFree d n j x0).mem = d.mem := by
  unfold fenceFree; split <;> simp

@[simp] theorem wf_landedT4 {d : Dev} (x : Ctx) (r : RunAct) (h : Canonical d) : Canonical (landedT4 d x r) := by
  grind [landedT4, wf_t4WriteFault, mem_startPrograms]

@[simp] theorem wf_opActionDone {d : Dev} (n j act : Nat) (h : Canonical d) : Canonical (opActionDone d n j act) := by
  grind [opActionDone, wf_landedT4, mem_setCtx, setCore_mem, mem_finishCore, wf_settle, mem_fenceFree, wf_doneSem]

@[simp] theorem mem_opHalt (d : Dev) (n : Nat) (h : Bool) : (opHalt d n h).mem = d.mem := by
  simp [opHalt]

@[simp] theorem mem_opStep (d : Dev) (n : Nat) : (opStep d n).mem = d.mem := by
  simp [opStep]

@[simp] theorem mem_restartSlips (d : Dev) (n : Nat) : (restartSlips d n).mem = d.mem := by
  simp [restartSlips]

@[simp] theorem mem_opCntClr (d : Dev) (die page : Nat) : (opCntClr d die page).mem = d.mem := by
  unfold opCntClr; split <;> simp

/-! ### Machine/PassRows.lean -/

@[simp] theorem wf_opPass {d : Dev} (n j : Nat) (ev : Upset) (h : Canonical d) : Canonical (opPass d n j ev) := by
  refine wf_issueAct (fun x it => ?_) h
  extract_lets a arr blocks mode want rs p d1 d2 c _ _ d3
  split
  · exact h
  · split
    · exact wf_badAct _ _ h
    · split
      · exact wf_badAct _ _ (by simpa using h)
      · split
        · exact wf_failOwned _ _ _ _ _ h
        · have h2 : Canonical d2 := by unfold d2; split <;> simpa [d1] using h
          exact wf_settle _ _ (by simpa [d3] using h2)

@[simp] theorem wf_fillRead {d : Dev} (n : Nat) (p : PassRun) (r : Nat) (ev : Upset) (h : Canonical d) :
    Canonical (fillRead d n p r ev).1 := by
  grind [fillRead, wf_engineReads]

@[simp] theorem mem_putShadow (d : Dev) (n : Nat) (p : PassRun) (r : Nat) (row : PRow) : (putShadow d n p r row).mem = d.mem := by
  simp [putShadow]

@[simp] theorem mem_putActive (d : Dev) (n : Nat) (p : PassRun) (r : Nat) (row : PRow) : (putActive d n p r row).mem = d.mem := by
  simp [putActive]

@[simp] theorem wf_opShadowFill {d : Dev} (n : Nat) (ev : Upset) (h : Canonical d) : Canonical (opShadowFill d n ev) := by
  unfold opShadowFill
  extract_lets a ps r d1 a1 d2 _
  split
  · exact h
  · split
    · exact h
    · have h1 : Canonical d1 := by
        refine wf_foldl _ (fun t p ht => ?_) _ h
        have hr := wf_fillRead n p r ev ht
        split
        · exact ht
        · split
          · next hf => rw [hf] at hr; split <;> simp [hr]
          · next hf => rwa [hf] at hr
      have h2 : Canonical d2 := by simp [d2, h1]
      clear_value ps
      split
      · simp [h2]
      · split
        · exact wf_settle _ _ h2
        · exact h2

@[simp] theorem wf_opReloadToken {d : Dev} (n : Nat) (ev : Upset) (h : Canonical d) : Canonical (opReloadToken d n ev) := by
  grind [opReloadToken, wf_enterToken, mem_countStalls]

@[simp] theorem mem_washDead (d : Dev) (n : Nat) : (washDead d n).mem = d.mem := by
  simp [washDead]

@[simp] theorem wf_opWash {d : Dev} (n : Nat) (ev : Upset) (h : Canonical d) : Canonical (opWash d n ev) := by
  grind [opWash, mem_washDead, mem_countStalls, mem_setArr, wf_startPass]

@[simp] theorem wf_slotPass (n c0 : Nat) {d : Dev} (p : PassRun × Upset) (h : Canonical d) : Canonical (slotPass n c0 d p) := by
  grind [slotPass, mem_setArr, wf_startPass]

@[simp] theorem wf_opPassSlot {d : Dev} (n : Nat) (ev : Upset) (h : Canonical d) : Canonical (opPassSlot d n ev) := by
  unfold opPassSlot
  extract_lets a len next due filled late go waiting d1 d2
  split
  · exact h
  · split
    · exact h
    · refine wf_foldl _ (fun t p ht => wf_slotPass _ _ _ ht) _ ?_
      have h2 : d2.mem = d.mem := by unfold d2; split <;> simp [d1]
      simp [h2, h]

/-! ### Machine/Sess.lean -/

@[simp] theorem wf_opFork {d : Dev} (uid : Nat) (h : Canonical d) : Canonical (opFork d uid) := by
  grind [opFork, wf_startCmd, mem_requestCommit, wf_failBad]

@[simp] theorem wf_opFreePages {d : Dev} (uid : Nat) (h : Canonical d) : Canonical (opFreePages d uid) := by
  grind [opFreePages, wf_startCmd, mem_requestCommit, wf_failBad]

theorem wf_startListOp {d : Dev} {uid copyOp : Nat} {ready : Cmd → Bool} {ev : Upset} {f : Dev → Cmd → List Nat → Upset → Dev}
    (hf : ∀ t c es ev, Canonical t → Canonical (f t c es ev)) (h : Canonical d) :
    Canonical (startListOp d uid copyOp ready ev f) := by
  unfold startListOp
  extract_lets src len
  refine wf_startCopyOp (fun t c ht => ?_) h
  split
  · simp [ht]
  · have hr := bytes_readCtl (holdAddr t uid (decodeAddr (src c))) uid c.job none (src c) (len c) ev
    split
    · next d1 st det e =>
      rw [e] at hr
      have h1 : Canonical d1 := by exact canonical_of_bytes hr (by simp [ht])
      simp [h1]
    · next d1 bs e =>
      rw [e] at hr
      have h1 : Canonical d1 := by exact canonical_of_bytes hr (by simp [ht])
      extract_lets es
      split
      · exact hf _ _ _ _ (by simp [h1])
      · exact h1

@[simp] theorem wf_opPageStage {d : Dev} (uid : Nat) (ev : Upset) (h : Canonical d) : Canonical (opPageStage d uid ev) := by
  grind [opPageStage, wf_startListOp, wf_failBad, wf_endCmd, bytes_gather, mem_touchReads, mem_requestCommit, bytes_setCmd,
    setCmd_mem]

@[simp] theorem wf_opPageUnstage {d : Dev} (uid : Nat) (ev : Upset) (h : Canonical d) : Canonical (opPageUnstage d uid ev) := by
  grind [opPageUnstage, wf_startListOp, wf_failBad, mem_requestCommit, bytes_setCmd, setCmd_mem]

@[simp] theorem mem_swapOut (d : Dev) (sid : Nat) : (swapOut d sid).mem = d.mem := by
  unfold swapOut; dsimp only; split <;> simp

theorem mem_swapIn {d t : Dev} {sid : Nat} (e : swapIn d sid = some t) : t.mem = d.mem := by
  grind [swapIn, setSlot_mem]

@[simp] theorem wf_opSlotOut {d : Dev} (uid : Nat) (ev : Upset) (h : Canonical d) : Canonical (opSlotOut d uid ev) := by
  refine wf_startListOp (fun t c es ev ht => ?_) h
  split
  · simp [ht]
  · simp [ht]

@[simp] theorem mem_swapInAll (l : List Nat) (d : Dev) : (swapInAll l d).1.mem = d.mem := by
  induction l generalizing d with
  | nil => rfl
  | cons s r ih =>
    simp only [swapInAll]
    split
    · next hs => rw [ih, mem_swapIn hs]
    · rfl

@[simp] theorem wf_opSlotIn {d : Dev} (uid : Nat) (ev : Upset) (h : Canonical d) : Canonical (opSlotIn d uid ev) := by
  grind [opSlotIn, wf_startListOp, wf_failBad, mem_swapInAll, bytes_setCmd, setCmd_mem, mem_wakeSwaps, wf_endCmd]

@[simp] theorem mem_opSwapOutStart (d : Dev) (sid : Nat) : (opSwapOutStart d sid).mem = d.mem := by
  simp [opSwapOutStart]

theorem slotToT2_keeps {P : Dev → Prop} (hP : ∀ t k off bs b, P t → P (writeRoot t k off bs b)) {d : Dev} (sid : Nat) (s : Slot)
    (h : P d) : P (slotToT2 d sid s) := by
  unfold slotToT2
  extract_lets n hc
  exact foldl_keeps (fun t g ht => hP _ _ _ _ _ ht) _ _ h

@[simp] theorem wf_slotToT2 {d : Dev} (sid : Nat) (s : Slot) (h : Canonical d) : Canonical (slotToT2 d sid s) :=
  slotToT2_keeps (P := Canonical) (fun _ _ _ _ _ ht => wf_writeRoot _ _ _ _ ht) sid s h

theorem slotFromT2_keeps {P : Dev → Prop} (hP : ∀ t n off bs b, P t → P (writeT0 t n off bs b)) {d : Dev} (sid : Nat) (s : Slot)
    (h : P d) : P (slotFromT2 d sid s) := by
  unfold slotFromT2
  extract_lets n hc
  exact foldl_keeps (fun t g ht => hP _ _ _ _ _ ht) _ _ h

@[simp] theorem wf_slotFromT2 {d : Dev} (sid : Nat) (s : Slot) (h : Canonical d) : Canonical (slotFromT2 d sid s) :=
  slotFromT2_keeps (P := Canonical) (fun _ _ _ _ _ ht => wf_writeT0 _ _ _ _ ht) sid s h

@[simp] theorem wf_opSwapEnd {d : Dev} (sid : Nat) (ev : Upset) (h : Canonical d) : Canonical (opSwapEnd d sid ev) := by
  grind [opSwapEnd, wf_slotToT2, setSlot_mem, bump_mem, mem_swapIn, mem_wakeSwaps, bytes_checkReads, mem_touchReads,
    wf_slotFromT2, mem_latch, mem_swapOut]

@[simp] theorem mem_setResult (d : Dev) (j r : Nat) : (setResult d j r).mem = d.mem := by
  simp [setResult]

@[simp] theorem mem_opBind (d : Dev) (j s : Nat) : (opBind d j s).mem = d.mem := by
  simp [opBind]

@[simp] theorem mem_opUnbind (d : Dev) (j s : Nat) : (opUnbind d j s).mem = d.mem := by
  simp [opUnbind]

@[simp] theorem mem_opDecl (d : Dev) (a : Acc) (j reg v : Nat) : (opDecl d a j reg v).mem = d.mem := by
  simp [opDecl]

/-! ### Machine/Seg.lean -/

@[simp] theorem bytes_markEntry (d : Dev) (j i : Nat) (e : List Nat) : (markEntry d j i e).mem.bytes = d.mem.bytes := by
  unfold markEntry; repeat' split
  all_goals simp

@[simp] theorem bytes_markEligible (d : Dev) (j : Nat) : (markEligible d j).mem.bytes = d.mem.bytes := by
  refine bytes_foldl (fun t i => ?_) _ _
  extract_lets x e d1
  split
  · rfl
  · simp [d1]

@[simp] theorem bytes_raiseStep (d : Dev) (j step : Nat) : (raiseStep d j step).mem.bytes = d.mem.bytes := by
  unfold raiseStep; dsimp only; split <;> simp

@[simp] theorem bytes_loadCtl (d : Dev) (uid : Nat) (c : Cmd) (a n : Nat) (ev : Upset) :
    (loadCtl d uid c a n ev).1.mem.bytes = d.mem.bytes := by
  grind [loadCtl, bytes_readCtl]

@[simp] theorem bytes_readImage (d : Dev) (uid : Nat) (c : Cmd) (a : Nat) (ev : Upset) :
    (readImage d uid c a ev).1.mem.bytes = d.mem.bytes := by
  grind [readImage, bytes_readCtl, bytes_loadCtl]

@[simp] theorem bytes_readPtrs (d : Dev) (uid : Nat) (c : Cmd) (im : Image) (ext : List Nat) (ev : Upset) :
    (readPtrs d uid c im ext ev).1.mem.bytes = d.mem.bytes := by
  grind [readPtrs, bytes_loadCtl]

@[simp] theorem bytes_loadImages (uid : Nat) (c : Cmd) (x : List (Nat × Nat)) (d : Dev) (ev : Upset) :
    (loadImages uid c x d ev).1.mem.bytes = d.mem.bytes := by
  induction x generalizing d ev with
  | nil => rfl
  | cons p r ih =>
    obtain ⟨n, a⟩ := p
    have hr := bytes_readImage d uid c a ev
    obtain ⟨er, e⟩ | ⟨im, e⟩ := loadImages_cons uid c n a r d ev
    · rw [e]; exact hr
    · rw [e]
      have hl := (ih (readImage d uid c a ev).1 (readImage d uid c a ev).2.1).trans hr
      split
      · next e2 => rwa [e2] at hl
      · exact hl

@[simp] theorem bytes_loadPtrs (uid : Nat) (c : Cmd) (x : List (Nat × Image)) (d : Dev) (ev : Upset) :
    (loadPtrs uid c x d ev).1.mem.bytes = d.mem.bytes := by
  induction x generalizing d ev with
  | nil => rfl
  | cons p r ih =>
    obtain ⟨n, im⟩ := p
    have hr := bytes_readPtrs d uid c im (runExts im (aExts c.desc)) ev
    simp only [loadPtrs]
    split
    · next e => rwa [e] at hr
    · next d1 ev1 ps e =>
      rw [e] at hr
      have hl := ih d1 ev1
      split
      · next e2 => rw [e2] at hl; exact hl.trans hr
      · exact hl.trans hr

@[simp] theorem wf_pinPages {d : Dev} (uid s : Nat) (h : Canonical d) : Canonical (pinPages d uid s) := by
  refine wf_foldl _ (fun t e ht => ?_) _ h
  split
  · exact ht
  · next c _ =>
    split
    · exact ht
    · extract_lets d1
      refine wf_foldl _ (fun u p hu => ?_) _ (by simp [d1, ht])
      split
      · exact hu
      · split
        · exact hu
        · split
          · simp [hu]
          · split
            · exact hu
            · simp [hu]

@[simp] theorem wf_pinSlots {d : Dev} (uid s : Nat) (h : Canonical d) : Canonical (pinSlots d uid s) := by
  refine wf_foldl _ (fun t e ht => ?_) _ h
  split
  · exact ht
  · split
    · exact ht
    · extract_lets x die
      split
      · exact wf_failFault _ _ _ _ (canonical_of_mem (mem_latch _ _ _ _ _) ht)
      · split
        · exact ht
        · simp [ht]

@[simp] theorem mem_startCore (uid j readyAt : Nat) (d : Dev) (p : Nat × Image × List PtrEnt × List Nat) :
    (startCore uid j readyAt d p).mem = d.mem := by
  unfold startCore; dsimp only; split <;> simp

@[simp] theorem wf_launch {d : Dev} (uid : Nat) (c : Cmd) (orbit : Bool) (ps : List (Nat × Image × List PtrEnt)) (h : Canonical d)
    :
    Canonical (launch d uid c orbit ps) := by
  unfold launch
  extract_lets b c1 d1 d2 d3 d4 readyAt d5
  have h1 : Canonical d1 := by unfold d1; split <;> simp [h]
  have h2 : Canonical d2 := wf_foldl _ (fun _ _ ht => by simp [ht]) _ h1
  have h3 : Canonical d3 := wf_foldl _ (fun _ _ ht => wf_pinSlots _ _ (wf_pinPages _ _ ht)) _ h2
  split
  · next c3 _ =>
    split
    · exact h3
    · have h4 : Canonical d4 := by simp [d4, h3]
      have h5 : Canonical d5 := wf_foldl _ (fun _ _ ht => by simp [ht]) _ h4
      split
      · simp [h5]
      · exact h5
  · exact h3

@[simp] theorem wf_opRunSegment {d : Dev} (uid : Nat) (ev : Upset) (h : Canonical d) : Canonical (opRunSegment d uid ev) := by
  refine wf_startCmd (fun t c ht => ?_) h
  split
  · simp [ht]
  · have hi := bytes_loadImages uid c (c.cores.zip c.images) t ev
    split
    · next d1 _ st det e =>
      rw [e] at hi
      have h1 : Canonical d1 := by exact canonical_of_bytes hi ht
      simp [h1]
    · next d1 ev1 ims e =>
      rw [e] at hi
      have h1 : Canonical d1 := by exact canonical_of_bytes hi ht
      have hp := bytes_loadPtrs uid c ims d1 ev1
      split
      · next d2 _ st det e2 =>
        rw [e2] at hp
        have h2 : Canonical d2 := by exact canonical_of_bytes hp h1
        simp [h2]
      · next d2 _ ps e2 =>
        rw [e2] at hp
        have h2 : Canonical d2 := by exact canonical_of_bytes hp h1
        extract_lets orbit ext
        split
        · simp [h2]
        · split
          · simp [h2]
          · split
            · simp [h2]
            · split
              · simp [h2]
              · exact wf_launch _ _ _ _ h2

/-! ### Machine/Jobs.lean -/

@[simp] theorem mem_wakeFor (d : Dev) (p : Placement) : (wakeFor d p).mem = d.mem := by
  simp [wakeFor]

@[simp] theorem bytes_becomeResident (d : Dev) (j : Nat) : (becomeResident d j).mem.bytes = d.mem.bytes := by
  unfold becomeResident
  extract_lets x d1 d2
  have h2 : d2.mem.bytes = d.mem.bytes := (bytes_foldl (fun _ _ => by simp) _ _).trans (by simp [d1])
  refine (bytes_foldl (fun t e => ?_) _ _).trans h2
  split <;> simp

@[simp] theorem bytes_admitAwaiting (d : Dev) : (admitAwaiting d).mem.bytes = d.mem.bytes := by
  refine bytes_foldl (fun t e => ?_) _ _
  split <;> simp

@[simp] theorem bytes_opActivate (d : Dev) (a : Acc) (j : Nat) (rec : Option (List Nat)) :
    (opActivate d a j rec).mem.bytes = d.mem.bytes := by
  unfold opActivate; dsimp only; repeat' split
  all_goals simp

@[simp] theorem wf_opDestroy {d : Dev} (j : Nat) (h : Canonical d) : Canonical (opDestroy d j) := by
  grind [opDestroy, setJob_mem, wf_checkDestroy, wf_endAll]

@[simp] theorem bytes_liveMap (d : Dev) (uid j : Nat) (ev : Upset) : (liveMap d uid j ev).1.mem.bytes = d.mem.bytes := by
  grind [liveMap, bytes_readCtl]

@[simp] theorem mem_setPre (d : Dev) (p : Pre) : (setPre d p).mem = d.mem := by
  simp [setPre]

@[simp] theorem mem_dropPre (d : Dev) (uid : Nat) : (dropPre d uid).mem = d.mem := by
  simp [dropPre]

@[simp] theorem wf_endSlice {d : Dev} (p : Pre) (h : Canonical d) : Canonical (endSlice d p) := by
  unfold endSlice
  extract_lets d1 d2
  exact wf_foldl _ (fun _ _ ht => by simp [ht]) _ (by simp [d2, d1, h])

@[simp] theorem wf_opSliceEnd {d : Dev} (j : Nat) (h : Canonical d) : Canonical (opSliceEnd d j) := by
  grind [opSliceEnd, wf_endSlice, setJob_mem]

@[simp] theorem wf_opOverrun {d : Dev} (uid : Nat) (h : Canonical d) : Canonical (opOverrun d uid) := by
  grind [opOverrun, wf_endCmd]

@[simp] theorem wf_opPreempt {d : Dev} (uid : Nat) (ev : Upset) (h : Canonical d) : Canonical (opPreempt d uid ev) := by
  grind [opPreempt, wf_startCmd, wf_failBad, bytes_liveMap, wf_endCmd, bytes_setCmd, setCmd_mem, wf_endSlice]

@[simp] theorem bytes_moveRead (j : Nat) (d : Dev) (k sid : Nat) (ev : Upset) :
    (moveRead j d k sid ev).1.mem.bytes = d.mem.bytes := by
  unfold moveRead; split <;> simp

@[simp] theorem wf_saveGran (j : Nat) (x : Moving) (k : Nat) (h : Canonical x.1) : Canonical (saveGran j x k).1 := by
  unfold saveGran
  split
  · exact h
  · next src _ =>
    split
    next d1 bad e1 =>
    have h1 : Canonical d1 := canonical_of_fst e1 (by simp [h])
    split
    next d2 s e2 =>
    have h2 : Canonical d2 := canonical_of_fst e2 (by simp [h1])
    extract_lets d3 d4
    have h3 : Canonical d3 := wf_copyGran _ _ h2
    have h4 : Canonical d4 := by unfold d4; split <;> simp [h3]
    simp [h4]

@[simp] theorem wf_saveT1 (j : Nat) (x : Moving) (oid : Nat) (h : Canonical x.1) : Canonical (saveT1 j x oid).1 := by
  unfold saveT1
  split
  · exact h
  · next o _ =>
    extract_lets y q a d2
    have hy : Canonical y.1 := canonical_foldl_fst (fun x k hx => wf_saveGran j x k hx) _ _ h
    exact wf_freeGrans _ _ (by simp [d2, hy])

@[simp] theorem bytes_unmarkT0 (d : Dev) (j : Nat) : (unmarkT0 d j).mem.bytes = d.mem.bytes := by
  simp [unmarkT0]

@[simp] theorem wf_victimGoes {d : Dev} (p : Pre) (ev : Upset) (h : Canonical d) : Canonical (victimGoes d p ev).1 := by
  unfold victimGoes
  extract_lets cores j t1 arenas x1 x2 x3 d4
  have h1 : Canonical x1.1 := by
    unfold x1
    split
    · exact h
    · exact canonical_foldl_fst (fun x k hx => wf_saveGran j x k hx) _ _ h
  have h2 : Canonical x2.1 := canonical_foldl_fst (fun x k hx => wf_saveGran j x k hx) _ _ h1
  have h3 : Canonical x3.1 := by
    unfold x3
    split
    · exact wf_foldl _ (fun _ _ ht => by simp [ht]) _ h2
    · exact canonical_foldl_fst (fun x k hx => wf_saveT1 j x k hx) _ _ h2
  have h4 : Canonical d4 := wf_foldl _ (fun _ _ ht => by simp [ht]) _ (by simp [h3])
  simp [h4]

@[simp] theorem wf_restoreGran {d : Dev} (g : SaveGran) (h : Canonical d) : Canonical (restoreGran d g) := by
  grind [restoreGran, wf_copyGran, bytes_newGran, bytes_setRoot]

@[simp] theorem bytes_reallocT1 (j : Nat) (d : Dev) (oid : Nat) : (reallocT1 j d oid).mem.bytes = d.mem.bytes := by
  unfold reallocT1; repeat' split
  all_goals simp

@[simp] theorem bytes_readSave (j : Nat) (l : List SaveGran) (x : Moving) : (readSave j l x).1.mem.bytes = x.1.mem.bytes := by
  induction l generalizing x with
  | nil => rfl
  | cons g r ih =>
    have hr := bytes_moveRead j x.1 (gKey 11 j 0) g.sid (evHere x.2)
    simp only [readSave]
    split
    · next e => rwa [e] at hr
    · next d1 e => rw [e] at hr; exact (ih _).trans hr

@[simp] theorem wf_restoreJob {d : Dev} (j : Nat) (ev : Upset) (h : Canonical d) : Canonical (restoreJob d j ev) := by
  unfold restoreJob
  split
  · exact h
  · next a _ =>
    have hr := bytes_readSave j a.grans (d, ev)
    split
    · next d1 e =>
      rw [e] at hr
      have h1 : Canonical d1 := by exact canonical_of_bytes hr h
      simp [h1]
    · next d1 e =>
      rw [e] at hr
      have h1 : Canonical d1 := by exact canonical_of_bytes hr h
      have h2 := wf_foldl (reallocT1 j) (fun _ _ ht => by simp [ht]) a.t1oids h1
      have h3 := wf_foldl restoreGran (fun _ _ ht => wf_restoreGran _ ht) a.grans h2
      simp [h3]

@[simp] theorem wf_opVictimOut {d : Dev} (uid : Nat) (ev : Upset) (h : Canonical d) : Canonical (opVictimOut d uid ev) := by
  grind [opVictimOut, wf_victimGoes, mem_dropPre, wf_failBad, mem_requestCommit, bytes_becomeResident, wf_restoreJob]

@[simp] theorem wf_opListSet {d : Dev} (a : Acc) (j v : Nat) (h : Canonical d) : Canonical (opListSet d a j v) := by
  grind [opListSet, mem_plainWrite, wf_dropPrefetch, bytes_markEligible, mem_bar0Error]

@[simp] theorem mem_setPf (d : Dev) (j i : Nat) (p : PfState) : (setPf d j i p).mem = d.mem := by
  simp [setPf]

@[simp] theorem bytes_poisonKey (d : Dev) (k : Nat) : (poisonKey d k).mem.bytes = d.mem.bytes := by
  unfold poisonKey; dsimp only; repeat' split
  all_goals simp

@[simp] theorem bytes_unmarkAll (d : Dev) (j i : Nat) (e : List Nat) : (unmarkAll d j i e).mem.bytes = d.mem.bytes := by
  simp [unmarkAll]

@[simp] theorem bytes_pfFail (d : Dev) (md j i : Nat) (e : List Nat) : (pfFail d md j i e).mem.bytes = d.mem.bytes := by
  simp +contextual [pfFail, mem_latch]

@[simp] theorem wf_opPfIssue {d : Dev} (md j i : Nat) (ev : Upset) (h : Canonical d) : Canonical (opPfIssue d md j i ev) := by
  grind [opPfIssue, bytes_pfFail, bytes_holdCopy, mem_setPf, wf_sendGets, bytes_gather, mem_touchReads, wf_sendPuts]

@[simp] theorem wf_pfMove (j : Nat) {d : Dev} (p : (Nat × Nat) × Upset) (h : Canonical d) : Canonical (pfMove j d p) := by
  grind [pfMove, wf_writeRoot, bytes_checkRead, bytes_poisonKey]

@[simp] theorem wf_opPfDone {d : Dev} (md j i : Nat) (ev : Upset) (h : Canonical d) : Canonical (opPfDone d md j i ev) := by
  unfold opPfDone
  extract_lets e n unhold pairs d1 d1b
  have hu (src : Option (Nat × Nat)) {t : Dev} (ht : Canonical t) : Canonical (unhold src t) := by
    unfold unhold
    split
    · simp [ht]
    · exact ht
  split
  · next g src _ =>
    split
    · exact h
    · extract_lets d2
      have h1 : Canonical d1 := by
        unfold d1
        exact canonical_foldl (fun _ _ ht => wf_pfMove _ _ ht) _ (canonical_of_mem (mem_touchReads _ _) h)
      have h1b : Canonical d1b := by
        unfold d1b
        split
        · exact canonical_foldl (fun _ _ ht => by simp [ht]) _ (canonical_of_mem (mem_latch _ _ _ _ _) h1)
        · exact h1
      have h2 : Canonical d2 := hu src (by simp [h1b])
      simp [h2]
  · next g src _ =>
    split
    · exact h
    · exact hu src (by simp [h])
  · exact h

/-! ### Machine/Micro.lean -/

@[simp] theorem mem_holdMicro (d : Dev) (n j : Nat) (x : Ctx) : (holdMicro d n j x).mem = d.mem := by
  simp [holdMicro]

@[simp] theorem mem_holdPending (d : Dev) (n j : Nat) (x : Ctx) : (holdPending d n j x).mem = d.mem := by
  simp [holdPending]

theorem wf_microIssue {d : Dev} {n j id : Nat} {kind : EngKind} {gr : Dev → Ctx → Item → List Nat × List Nat}
    {f : Dev → Ctx → Item → Dev × MicroEnd} (hf : ∀ x it, Canonical (f d x it).1) (h : Canonical d) :
    Canonical (microIssue d n j id kind gr f) := by
  unfold microIssue
  split
  · exact h
  · next x it _ =>
    extract_lets a
    split
    · exact h
    · split
      · simp [h]
      · split
        · split
          · simp [h]
          · exact h
        · split
          · simp [h]
          · have hd := hf x it
            split
            · next e => exact canonical_of_fst e hd
            · next d1 e => have h1 : Canonical d1 := canonical_of_fst e hd; simp [h1]
            · next d1 e => have h1 : Canonical d1 := canonical_of_fst e hd; simp [h1]
            · next d1 k e => have h1 : Canonical d1 := canonical_of_fst e hd; simp [h1]

@[simp] theorem wf_freeRegion {d : Dev} (n off len : Nat) (h : Canonical d) : Canonical (freeRegion d n off len) := by
  grind [freeRegion, wf_writeT0]

@[simp] theorem mem_freeBanks (d : Dev) (n j : Nat) : (freeBanks d n j).mem = d.mem := by
  simp [freeBanks]

@[simp] theorem mem_freeDetail (d : Dev) : (freeDetail d).1.mem = d.mem := by
  simp [freeDetail]

@[simp] theorem wf_putRow {d : Dev} (n base : Nat) (f : ElemFmt) (r : Nat) (elts scales : List Nat) (sl : Bool) (h : Canonical d)
    :
    Canonical (putRow d n base f r elts scales sl) := by
  refine wf_foldl _ (fun t k ht => ?_) _ h
  extract_lets b d1
  have h1 : Canonical d1 := wf_writeRowBits _ _ _ _ _ ht
  split
  · exact wf_writeT0 _ _ _ _ h1
  · exact h1

theorem sliceRun_keeps {P : Dev → Prop} {d : Dev} {n j : Nat} {x : Ctx} {it : Item} {ev : Upset}
    (hbad : ∀ t, P t → P (badAct t x it))
    (hfail : ∀ t rs, P t → P (failOwned t x.uid j n (itemAi it) rs))
    (hread : ∀ t rs, P t → P (engineReads t x.uid j n (itemAi it) true rs ev).1)
    (hup : ∀ t, P t → P (arrayUpset t x.uid j n ev).1) (hw : ∀ t off bs b, P t → P (writeT0 t n off bs b))
    (hctr : ∀ (t : Dev) k, P t → P { t with freeCtr := k }) (hbank : ∀ t, P t → P (freeBanks t n j)) (h : P d) :
    P (sliceRun d n j x it ev).1 := by
  unfold sliceRun
  extract_lets im a s col k lines nt ws src dst
  split
  · exact hbad _ h
  · split
    · exact hfail _ _ h
    · have h0 := hread d (sliceRanges (opAddr im it (aw a 1)) col lines k) h
      split
      · next e0 => rwa [e0] at h0
      · next d0 e0 =>
        rw [e0] at h0
        have h1 := hup d0 h0
        split
        · next e1 => rwa [e1] at h1
        · next d1 e1 =>
          rw [e1] at h1
          extract_lets sl line d2
          refine hbank _ (foldl_keeps (fun t i ht => hw _ _ _ _ (hctr _ _ ?_)) _ _ h1)
          exact foldl_keeps (fun _ _ hu => foldl_keeps (fun _ _ hv => hw _ _ _ _ hv) _ _ hu) _ _ ht

@[simp] theorem wf_sliceRun {d : Dev} (n j : Nat) (x : Ctx) (it : Item) (ev : Upset) (h : Canonical d) :
    Canonical (sliceRun d n j x it ev).1 :=
  sliceRun_keeps (P := Canonical) (fun _ ht => by simp [ht]) (fun _ _ ht => wf_failOwned _ _ _ _ _ ht)
    (fun _ _ ht => wf_engineReads _ _ _ _ _ _ _ ht) (fun _ ht => wf_arrayUpset _ _ _ _ ht)
      (fun _ _ _ _ ht => wf_writeT0 _ _ _ _ ht)
    (fun _ _ ht => ht) (fun _ ht => by simp [ht]) h

@[simp] theorem wf_opSlicing {d : Dev} (n j : Nat) (ev : Upset) (h : Canonical d) : Canonical (opSlicing d n j ev) :=
  wf_microIssue (fun _ _ => wf_sliceRun _ _ _ _ _ h) h

@[simp] theorem wf_recombRun {d : Dev} (n j : Nat) (x : Ctx) (it : Item) (ev : Upset) (h : Canonical d) :
    Canonical (recombRun d n j x it ev).1 := by
  unfold recombRun
  extract_lets im a s ws p0 ex pairs
  split
  · simp [h]
  · split
    · exact wf_failOwned _ _ _ _ _ h
    · split
      · next d0 e0 => exact canonical_of_fst e0 (wf_engineReads _ _ _ _ _ _ _ h)
      · next d0 e0 =>
        have h0 : Canonical d0 := canonical_of_fst e0 (wf_engineReads _ _ _ _ _ _ _ h)
        split
        · next d1 e1 => exact canonical_of_fst e1 (wf_arrayUpset _ _ _ _ h0)
        · next d1 e1 =>
          have h1 : Canonical d1 := canonical_of_fst e1 (wf_arrayUpset _ _ _ _ h0)
          extract_lets sl prod er ec out d2
          have h2 : Canonical d2 := wf_foldl _ (fun _ _ ht => wf_writeT0 _ _ _ _ ht) _ h1
          simp [h2]

@[simp] theorem wf_opRecombination {d : Dev} (n j : Nat) (ev : Upset) (h : Canonical d) : Canonical (opRecombination d n j ev) :=
  wf_microIssue (fun _ _ => wf_recombRun _ _ _ _ _ h) h

/-! ### Machine/Attn.lean -/

@[simp] theorem wf_putPage {d : Dev} (pid off n v : Nat) (h : Canonical d) : Canonical (putPage d pid off n v) := by
  grind [putPage, wf_writeRoot]

theorem writeSummary_keeps {P : Dev → Prop} (hP : ∀ t pid off n v, P t → P (putPage t pid off n v)) {d : Dev} (pc pid : Nat)
    (h : P d) :
    P (writeSummary d pc pid) := by
  unfold writeSummary
  refine foldl_keeps (fun t k ht => ?_) _ _ h
  exact hP _ _ _ _ _ (foldl_keeps (fun _ _ hu => hP _ _ _ _ _ hu) _ _ ht)

@[simp] theorem wf_writeSummary {d : Dev} (pc pid : Nat) (h : Canonical d) : Canonical (writeSummary d pc pid) :=
  writeSummary_keeps (P := Canonical) (fun _ _ _ _ _ ht => wf_putPage _ _ _ _ ht) pc pid h

theorem mem_allocPage {d t : Dev} {uid : Nat} {j : Nat} {pool : Nat} {x : Nat} (e : allocPage d uid j pool = .ok (t, x)) :
    t.mem = d.mem := by
  grind [allocPage, setPst_mem, bytes_setCmd, setCmd_mem]

@[simp] theorem mem_putSnap (d : Dev) (uid key n : Nat) (ents : List PEnt) : (putSnap d uid key n ents).mem = d.mem := by
  unfold putSnap; split <;> simp

@[simp] theorem bytes_readPages (uid j : Nat) (l : List Nat) (d : Dev) (ev : Upset) :
    (readPages uid j l d ev).1.mem.bytes = d.mem.bytes := by
  induction l generalizing d ev with
  | nil => rfl
  | cons p r ih =>
    have hc := bytes_checkReads uid (qmCap d j 0 1 4096) ((pageKeys d j p).map (fun k => (0, k))) (touchReads d (pageKeys d j p))
      ev
    rw [mem_touchReads] at hc
    rw [readPages]
    split
    · exact congrArg Mem.bytes (mem_freeDetail d)
    · split
      · next e => rw [e] at hc; exact (ih _ _).trans hc
      · next d1 st _ e => rw [e] at hc; exact (congrArg Mem.bytes (mem_freeDetail d1)).trans hc

@[simp] theorem wf_appendPage {d : Dev} (uid j pool key n : Nat) (ev : Upset) (h : Canonical d) :
    Canonical (appendPage d uid j pool key n ev).1 := by
  unfold appendPage
  split
  · exact h
  · next c _ =>
    extract_lets s fresh init
    have hf : Canonical fresh.1 := by
      unfold fresh
      split
      · exact h
      · split
        · exact h
        · next d1 p e => exact canonical_of_mem ((mem_putSnap _ _ _ _ _).trans (mem_allocPage e)) h
    split
    · exact hf
    · next en _ =>
      split
      · exact hf
      · split
        · exact canonical_of_mem (mem_putSnap _ _ _ _ _) h
        · split
          · exact h
          · next d0 p e =>
            have h0 : Canonical d0 := canonical_of_mem (mem_allocPage e) h
            have hr := bytes_readPages uid j [en.pid] d0 ev
            split
            · next e1 => rw [e1] at hr; exact canonical_of_bytes hr h0
            · next d1 ev1 e1 =>
              rw [e1] at hr
              have h1 : Canonical d1 := canonical_of_bytes hr h0
              extract_lets src d2
              have h2 : Canonical d2 := by
                refine canonical_foldl (fun t r ht => ?_) _ h1
                split
                next da k hn =>
                have ha : Canonical da := canonical_of_fst hn (by simp [ht])
                exact wf_copyGran _ _ (by simp [ha])
              exact canonical_of_mem (mem_putSnap _ _ _ _ _) h2

theorem rowFold_keeps {P : Dev → Prop} (hP : ∀ t pid off n v, P t → P (putPage t pid off n v)) {d : Dev} (h : P d)
    (n kbase vbase pc pid p r : Nat) : P ((List.range (poolG pc)).foldl (fun d h =>
      (List.range (poolD pc)).foldl (fun d i =>
        let kb := kbase + (h * ceilDiv (poolD pc) 128 + i / 128) * storedBytes (kFmt pc)
        let vb := vbase + (h * ceilDiv (poolD pc) 128 + i / 128) * storedBytes (vFmt pc)
        let d1 := putPage d pid (kOff pc h i p) (eBytes (kFmt pc)) (eltAt d n (kb + tileRowAt (kFmt pc) r) (kFmt pc) (i % 128))
        let d2 := if isMX (kFmt pc) && i % 32 = 0 then
            putPage d1 pid (kScaleOff pc h i p) 1 (numT0 d1 n (kb + tileScaleAt (kFmt pc) r + i % 128 / 32) 1) else d1
        putPage d2 pid (vOff pc h p i) 2 (eltAt d2 n (vb + tileRowAt (vFmt pc) r) (vFmt pc) (i % 128))) d) d) := by
  refine foldl_keeps (fun t k ht => foldl_keeps (fun u i hu => hP _ _ _ _ _ ?_) _ _ ht) _ _ h
  split
  · exact hP _ _ _ _ _ (hP _ _ _ _ _ hu)
  · exact hP _ _ _ _ _ hu

@[simp] theorem wf_appendRow {d : Dev} (uid j n key kbase vbase pc pool r : Nat) (ev : Upset) (h : Canonical d) :
    Canonical (appendRow d uid j n key kbase vbase pc pool r ev).1 := by
  unfold appendRow
  split
  · next e => exact canonical_of_fst e (wf_appendPage _ _ _ _ _ _ h)
  · next d1 ev1 pid p e =>
    have h1 : Canonical d1 := canonical_of_fst e (wf_appendPage _ _ _ _ _ _ h)
    extract_lets nt d2
    have h2 : Canonical d2 := rowFold_keeps (P := Canonical) (fun _ _ _ _ _ ht => wf_putPage _ _ _ _ ht) h1 _ _ _ _ _ _ _
    split
    · exact h2
    · have hr := bytes_readPages uid j [pid] d2 ev1
      split
      · next e3 => rw [e3] at hr; exact canonical_of_bytes hr h2
      · next e3 => rw [e3] at hr; exact wf_writeSummary _ _ (canonical_of_bytes hr h2)

@[simp] theorem wf_appendRows (uid j n kbase vbase pc pool : Nat) (x : List (Nat × Nat)) {d : Dev} (ev : Upset) (h : Canonical d)
    :
    Canonical (appendRows uid j n kbase vbase pc pool x d ev).1 := by
  induction x generalizing d ev with
  | nil => exact h
  | cons p r ih =>
    obtain ⟨key, k⟩ := p
    have hr := wf_appendRow uid j n key kbase vbase pc pool k ev h
    rw [appendRows]
    split
    · next d1 ev1 _ e => exact ih _ (canonical_of_fst e hr)
    · exact hr

theorem attWrite_keeps {P : Dev → Prop} {n : Nat} (hP : ∀ t off bs b, P t → P (writeT0 t n off bs b))
    (hR : ∀ t base f r es ss b, P t → P (putRow t n base f r es ss b)) {d : Dev} (f : ElemFmt) (dd out stats status : Nat)
    (partialRec wantStats : Bool) (rows : List AttOut) (sl : Bool) (h : P d) :
    P (attWrite d n f dd out stats status partialRec wantStats rows sl) := by
  unfold attWrite
  refine foldl_keeps (fun t r ht => hP _ _ _ _ ?_) _ _ h
  split
  · refine hP _ _ _ _ ?_
    split
    · exact hP _ _ _ _ ht
    · exact hR _ _ _ _ _ _ _ ht
  · split
    · exact hP _ _ _ _ ht
    · exact hR _ _ _ _ _ _ _ ht

@[simp] theorem wf_attWrite {d : Dev} (n : Nat) (f : ElemFmt) (dd out stats status : Nat) (partialRec wantStats : Bool)
    (rows : List AttOut)
    (sl : Bool) (h : Canonical d) : Canonical (attWrite d n f dd out stats status partialRec wantStats rows sl) :=
  attWrite_keeps (P := Canonical) (fun _ _ _ _ ht => wf_writeT0 _ _ _ _ ht) (fun _ _ _ _ _ _ _ ht => wf_putRow _ _ _ _ _ _ _ ht)
    f dd out stats status partialRec wantStats rows sl h

@[simp] theorem wf_attend {d : Dev} (n j : Nat) (decode : Bool) (x : Ctx) (it : Item) (w : List Nat) (c : Cmd) (ss : List Nat)
    (ev : Upset) (h : Canonical d) : Canonical (attend d n j decode x it w c ss ev).1 := by
  grind [attend, wf_badAct, wf_endCmd, bytes_readPages, bump_mem, wf_freeRegion, mem_freeBanks, wf_attWrite]

@[simp] theorem wf_appendAttend {d : Dev} (n j : Nat) (decode : Bool) (x : Ctx) (it : Item) (w ss : List Nat) (ev : Upset)
    (h : Canonical d) :
    Canonical (appendAttend d n j decode x it w ss ev).1 := by
  unfold appendAttend
  extract_lets im pc rows
  have ha : Canonical (if acbAppend w then
      appendRows x.uid j n (opAddr im it (cw w 13)).toNat (opAddr im it (cw w 14)).toNat pc (acbPool w) rows d ev
    else (d, .ok (ev, ()))).1 := by
    split
    · exact wf_appendRows _ _ _ _ _ _ _ _ _ h
    · exact h
  split
  · next d1 st det e =>
    have h1 : Canonical d1 := canonical_of_fst e ha
    exact wf_endCmd _ _ _ _ h1
  · next d1 ev1 _ e =>
    have h1 : Canonical d1 := canonical_of_fst e ha
    split
    · exact h1
    · split
      · exact h
      · exact wf_attend _ _ _ _ _ _ _ _ _ h1

@[simp] theorem wf_attentionRun {d : Dev} (n j : Nat) (decode : Bool) (x : Ctx) (it : Item) (ev : Upset) (h : Canonical d) :
    Canonical (attentionRun d n j decode x it ev).1 := by
  unfold attentionRun
  extract_lets im a w pc all out
  split
  · exact wf_badAct _ _ h
  · split
    · next e => exact canonical_of_fst e (wf_engineReads _ _ _ _ _ _ _ h)
    · next d0 e =>
      have h0 : Canonical d0 := canonical_of_fst e (wf_engineReads _ _ _ _ _ _ _ h)
      split
      · exact wf_badAct _ _ h0
      · split
        · exact wf_failOwned _ _ _ _ _ h0
        · split
          · next e => exact canonical_of_fst e (wf_engineReads _ _ _ _ _ _ _ h0)
          · next d1 e =>
            have h1 : Canonical d1 := canonical_of_fst e (wf_engineReads _ _ _ _ _ _ _ h0)
            extract_lets ss
            split
            · exact h1
            · split
              · exact wf_badAct _ _ h1
              · split
                · next e => exact canonical_of_fst e (wf_engineReads _ _ _ _ _ _ _ h1)
                · next d2 e =>
                  have h2 : Canonical d2 := canonical_of_fst e (wf_engineReads _ _ _ _ _ _ _ h1)
                  split
                  · next e => exact canonical_of_fst e (wf_arrayUpset _ _ _ _ h2)
                  · next d3 e => exact wf_appendAttend _ _ _ _ _ _ _ _ (canonical_of_fst e (wf_arrayUpset _ _ _ _ h2))

@[simp] theorem wf_opPrefill {d : Dev} (n j : Nat) (ev : Upset) (h : Canonical d) : Canonical (opPrefill d n j ev) :=
  wf_microIssue (fun _ _ => wf_attentionRun _ _ _ _ _ _ h) h

@[simp] theorem wf_opDecode {d : Dev} (n j : Nat) (ev : Upset) (h : Canonical d) : Canonical (opDecode d n j ev) :=
  wf_microIssue (fun _ _ => wf_attentionRun _ _ _ _ _ _ h) h

@[simp] theorem wf_mergeRun {d : Dev} (n j : Nat) (x : Ctx) (it : Item) (ev : Upset) (h : Canonical d) :
    Canonical (mergeRun d n j x it ev).1 := by
  grind [mergeRun, wf_badAct, wf_failOwned, wf_engineReads, wf_arrayUpset, wf_attWrite, mem_freeBanks]

@[simp] theorem wf_opMerge {d : Dev} (n j : Nat) (ev : Upset) (h : Canonical d) : Canonical (opMerge d n j ev) :=
  wf_microIssue (fun _ _ => wf_mergeRun _ _ _ _ _ h) h

/-! ### Machine/Comet.lean -/

theorem mem_allocSlot {d t : Dev} {uid : Nat} {j : Nat} {s : Nat} {layer : Nat} {x : Nat}
    (e : allocSlot d uid j s layer = some (t, x)) : t.mem = d.mem := by
  grind [allocSlot, setSlot_mem, bytes_setCmd, setCmd_mem]

theorem mem_slotsFor {d t : Dev} {uid : Nat} {j : Nat} {layer : Nat} {l : List Nat} {x : List Nat}
    (e : slotsFor uid j layer l d = some (t, x)) :
    t.mem = d.mem := by
  induction l generalizing d x with
  | nil => cases e; rfl
  | cons s r ih =>
    rw [slotsFor] at e
    split at e
    · cases e
    · next c _ =>
      extract_lets here at e
      have hh : ∀ p, here = some p → p.1.mem = d.mem := by
        intro p hp
        unfold here at hp
        split at hp
        · cases hp; rfl
        · exact mem_allocSlot hp
      clear_value here
      split at e
      · cases e
      · next d1 k =>
        split at e
        · next hs => cases e; exact (ih hs).trans (hh _ rfl)
        · cases e

theorem mem_wakeSlots {d t : Dev} {l : List Nat} (e : wakeSlots l d = some t) : t.mem = d.mem := by
  induction l generalizing d with
  | nil => cases e; rfl
  | cons k r ih =>
    rw [wakeSlots] at e
    split at e
    · exact ih e
    · split at e
      · next hs => exact (ih e).trans (mem_swapIn hs)
      · cases e

theorem tailFold_keeps {P : Dev → Prop} {n : Nat} (hP : ∀ t off bs b, P t → P (writeT0 t n off bs b)) {d : Dev} (h : P d)
    (k1 first : Nat) (half : Bool) (tails : List (List Cpx)) : P (tails.zipIdx.foldl (fun d p =>
      (List.range 64).foldl (fun d m =>
        let z := (p.1[m]?).getD (0, 0)
        writeT0 d n (tailAt d k1 half (first + p.2) m) (leBytes 4 z.1 ++ leBytes 4 z.2) false) d) d) :=
  foldl_keeps (fun _ _ ht => foldl_keeps (fun _ _ hu => hP _ _ _ _ hu) _ _ ht) _ _ h

theorem wf_putTail {d t : Dev} {uid : Nat} {n : Nat} {j : Nat} {cd : CometDecl} {w : List Nat} {s : Nat} {k : Nat}
    {tails : List (List Cpx)}
    (e : putTail d uid n j cd w s k tails = some t) (h : Canonical d) : Canonical t := by
  unfold putTail at e
  extract_lets layer old dest at e
  have hd : ∀ p, dest = some p → p.1.mem = d.mem := by
    intro p hp
    unfold dest at hp
    split at hp
    · obtain ⟨x, hx, rfl⟩ := Option.map_eq_some_iff.mp hp
      exact mem_allocSlot hx
    · cases hp; rfl
  clear_value dest
  split at e
  · cases e
  · next d1 k1 isNew =>
    have h1 : Canonical d1 := canonical_of_mem (hd _ rfl) h
    extract_lets half d2 d3 at e
    have h2 : Canonical d2 := by
      unfold d2
      split
      · exact h1
      · exact wf_freeRegion _ _ _ h1
    have h3 : Canonical d3 := tailFold_keeps (P := Canonical) (fun _ _ _ _ ht => wf_writeT0 _ _ _ _ ht) h2 _ _ _ _
    split at e
    · cases e
    · cases e
      simp [h3]

theorem wf_putTails {d t : Dev} {uid : Nat} {n : Nat} {j : Nat} {cd : CometDecl} {w : List Nat}
    {x : List (Nat × Nat × List (List Cpx))}
    (e : putTails uid n j cd w x d = some t) (h : Canonical d) : Canonical t := by
  induction x generalizing d with
  | nil => cases e; exact h
  | cons p r ih =>
    obtain ⟨s, k, ts⟩ := p
    rw [putTails] at e
    split at e
    · next hp => exact ih e (wf_putTail hp h)
    · cases e

@[simp] theorem mem_cometCount (d : Dev) (n : Nat) (cd : CometDecl) (w : List Nat) (t : Nat) (marks : List (Option Nat)) :
    (cometCount d n cd w t marks).mem = d.mem := by
  simp [cometCount]

@[simp] theorem wf_cometData {d : Dev} (n j : Nat) (x : Ctx) (it : Item) (w : List Nat) (cd : CometDecl) (ss slots : List Nat)
    (h : Canonical d) :
    Canonical (cometData d n j x it w cd ss slots).1 := by
  unfold cometData
  extract_lets im a t xf yf xb yb qs prec modes marks xin stream res d1 rows d2 a0 status d3 work wait len d4 ups
  clear_value ups len wait work status a0 rows res stream xin marks modes prec qs yb xb yf xf t a im
  have h1 : Canonical d1 := wf_freeRegion _ _ _ (canonical_of_mem (mem_freeBanks _ _ _) h)
  have h2 :
    Canonical d2 := foldl_keeps (P := Canonical)
      (fun _ _ ht => foldl_keeps (P := Canonical) (fun _ _ hu => foldl_keeps (P := Canonical)
    (fun _ _ hv => wf_putRow _ _ _ _ _ _ _ hv) _ _ hu) _ _ ht) _ _ h1
  have h3 : Canonical d3 := wf_writeT0 _ _ _ _ h2
  have h4 : Canonical d4 := canonical_of_mem ((bump_mem _ _ _ _ _).trans (mem_cometCount _ _ _ _ _ _)) h3
  split
  · split
    · next e => exact wf_putTails e h4
    · exact wf_endCmd _ _ _ _ h4
  · exact h4

@[simp] theorem wf_cometGo {d : Dev} (n j : Nat) (x : Ctx) (it : Item) (ev : Upset) (w : List Nat) (cd : CometDecl)
    (ss : List Nat) (marks : List (Option Nat)) (h : Canonical d) : Canonical (cometGo d n j x it ev w cd ss marks).1 := by
  grind [cometGo, mem_slotsFor, wf_endCmd, mem_wakeSlots, mem_setCtx, bump_mem, wf_engineReads, wf_failFault, mem_latch,
    wf_arrayUpset, wf_cometData]

@[simp] theorem wf_cometRun {d : Dev} (n j : Nat) (x : Ctx) (it : Item) (ev : Upset) (h : Canonical d) :
    Canonical (cometRun d n j x it ev).1 := by
  unfold cometRun
  extract_lets im a w cd all
  split
  · exact wf_badAct _ _ h
  · split
    · next e => exact canonical_of_fst e (wf_engineReads _ _ _ _ _ _ _ h)
    · next d0 e =>
      have h0 : Canonical d0 := canonical_of_fst e (wf_engineReads _ _ _ _ _ _ _ h)
      split
      · exact wf_badAct _ _ h0
      · split
        · exact wf_failOwned _ _ _ _ _ h0
        · split
          · next e => exact canonical_of_fst e (wf_engineReads _ _ _ _ _ _ _ h0)
          · next d1 e =>
            have h1 : Canonical d1 := canonical_of_fst e (wf_engineReads _ _ _ _ _ _ _ h0)
            split
            · next e => exact canonical_of_fst e (wf_engineReads _ _ _ _ _ _ _ h1)
            · next d2 e =>
              have h2 : Canonical d2 := canonical_of_fst e (wf_engineReads _ _ _ _ _ _ _ h1)
              extract_lets ss marks modesBad
              split
              · exact h2
              · split
                · exact wf_badAct _ _ h2
                · split
                  · next e => exact canonical_of_fst e (wf_engineReads _ _ _ _ _ _ _ h2)
                  · next d3 e => exact wf_cometGo _ _ _ _ _ _ _ _ _ (canonical_of_fst e (wf_engineReads _ _ _ _ _ _ _ h2))

@[simp] theorem wf_opComet {d : Dev} (n j : Nat) (ev : Upset) (h : Canonical d) : Canonical (opComet d n j ev) :=
  wf_microIssue (fun _ _ => wf_cometRun _ _ _ _ _ h) h

/-! ### Machine/Conv.lean -/

@[simp] theorem wf_putPixel {d : Dev} (n base sbase : Nat) (f : ElemFmt) (r : List Nat × List Nat) (sl : Bool) (h : Canonical d) :
    Canonical (putPixel d n base sbase f r sl) := by
  grind [putPixel, wf_writeT0]

@[simp] theorem wf_convArgmax {d : Dev} (n j : Nat) (x : Ctx) (it : Item) (a : ActionD) (rows cols : Nat) (v32 : Nat → Nat → Nat)
    (h : Canonical d) : Canonical (convArgmax d n j x it a rows cols v32) := by
  grind [convArgmax, mem_setCtx, wf_writeT0]

@[simp] theorem wf_convData {d : Dev} (n j : Nat) (x : Ctx) (it : Item) (w : List Nat)
    (rows : List (List (Option (Nat × Nat × Nat))))
    (h : Canonical d) : Canonical (convData d n j x it w rows) := by
  unfold convData
  extract_lets im a f inB scB wB bB oB cols act sca one sums d1 d2 d3
  have h1 : Canonical d1 := canonical_of_mem (mem_freeBanks _ _ _) h
  have h2 : Canonical d2 := foldl_keeps (P := Canonical) (fun _ _ ht => wf_putPixel _ _ _ _ _ _ ht) _ _ h1
  have h3 : Canonical d3 := by simpa [d3] using h2
  split
  · split
    · exact wf_convArgmax _ _ _ _ _ _ _ _ h3
    · exact h3
  · exact h3

@[simp] theorem wf_convRun {d : Dev} (n j : Nat) (x : Ctx) (it : Item) (ev : Upset) (h : Canonical d) :
    Canonical (convRun d n j x it ev).1 := by
  grind [convRun, wf_badAct, wf_engineReads, wf_failOwned, wf_arrayUpset, wf_convData]

@[simp] theorem wf_opConv {d : Dev} (n j : Nat) (ev : Upset) (h : Canonical d) : Canonical (opConv d n j ev) :=
  wf_microIssue (fun _ _ => wf_convRun _ _ _ _ _ h) h

@[simp] theorem wf_poolData {d : Dev} (n j : Nat) (x : Ctx) (it : Item) (w : List Nat)
    (rows : List (List (Option (Nat × Nat × Nat)))) (sl : Bool)
    (h : Canonical d) : Canonical (poolData d n j x it w rows sl) := by
  unfold poolData
  extract_lets im a f inB scB oB elt out
  exact foldl_keeps (P := Canonical) (fun _ _ ht => wf_putPixel _ _ _ _ _ _ ht) _ _ (canonical_of_mem (mem_freeBanks _ _ _) h)

@[simp] theorem wf_poolRun {d : Dev} (n j : Nat) (x : Ctx) (it : Item) (ev : Upset) (h : Canonical d) :
    Canonical (poolRun d n j x it ev).1 := by
  grind [poolRun, wf_badAct, wf_engineReads, wf_failOwned, wf_arrayUpset, wf_poolData]

@[simp] theorem wf_opPool {d : Dev} (n j : Nat) (ev : Upset) (h : Canonical d) : Canonical (opPool d n j ev) :=
  wf_microIssue (fun _ _ => wf_poolRun _ _ _ _ _ h) h

theorem wf_writeMap {d t : Dev} {uid : Nat} {ad : DevAddr} {off : Nat} {bs : List Nat} (e : writeMap uid ad off bs d = .ok t)
    (h : Canonical d) :
    Canonical t := by
  unfold writeMap at e
  split at e
  · extract_lets a at e
    refine foldl_keeps (P := fun r : Except Nat Dev => ∀ u, r = .ok u → Canonical u) (fun r i hr u hu => ?_) _ _
      (fun u hu => by cases hu; exact h) t e
    split at hu
    · cases hu
    · extract_lets g lo hi at hu
      split at hu
      · cases hu; exact hr _ rfl
      · exact wf_writeView (hr _ rfl) hu
  · cases e; exact h

theorem wf_quillWriteAll {d t : Dev} {uid : Nat} {im : Image} {it : Item} {a : ActionD} {w : List Nat} {x : List (Nat × List Nat)}
    (e : quillWriteAll uid im it a w x d = .ok t) (h : Canonical d) : Canonical t := by
  induction x generalizing d with
  | nil => cases e; exact h
  | cons p r ih =>
    rw [quillWriteAll] at e
    split at e
    · next hp => exact ih e (wf_writeMap hp h)
    · cases e

@[simp] theorem wf_quillRun {d : Dev} (n j : Nat) (x : Ctx) (it : Item) (ev : Upset) (h : Canonical d) :
    Canonical (quillRun d n j x it ev).1 := by
  unfold quillRun
  extract_lets im a die base k0
  split
  · exact wf_badAct _ _ h
  · split
    · next e => exact canonical_of_fst e (wf_engineReads _ _ _ _ _ _ _ h)
    · next d0 e =>
      have h0 : Canonical d0 := canonical_of_fst e (wf_engineReads _ _ _ _ _ _ _ h)
      extract_lets w pix outB keys
      split
      · exact h0
      · split
        · exact wf_badAct _ _ h0
        · split
          · next e => exact canonical_of_fst e (wf_engineReads _ _ _ _ _ _ _ h0)
          · next d1 e =>
            have h1 : Canonical d1 := canonical_of_fst e (wf_engineReads _ _ _ _ _ _ _ h0)
            split
            · exact wf_endCmd _ _ _ _ h1
            · have hg := bytes_gather x.uid (coreCap n (some j) base 0 128) (keys.map (fun k => (base + 4096 * (k - k0), k)))
                (touchReads d1 keys) ev
              rw [mem_touchReads] at hg
              split
              · next e => rw [e] at hg; exact wf_endCmd _ _ _ _ (canonical_of_bytes hg h1)
              · next d2 _ e =>
                rw [e] at hg
                have h2 : Canonical d2 := canonical_of_bytes hg h1
                split
                · exact wf_failFault _ _ _ _ (canonical_of_mem (mem_latch _ _ _ _ _) h2)
                · split
                  · exact wf_failFault _ _ _ _ (canonical_of_mem (mem_latch _ _ _ _ _) h2)
                  · split
                    · exact wf_endCmd _ _ _ _ h2
                    · next d3 e3 =>
                      have h3 : Canonical d3 := wf_quillWriteAll e3 h2
                      extract_lets d4
                      have h4 : Canonical d4 := by simpa [d4] using h3
                      show Canonical (if _ then _ else _)
                      split
                      · simpa using h4
                      · exact h4

@[simp] theorem wf_opQuill {d : Dev} (n j : Nat) (ev : Upset) (h : Canonical d) : Canonical (opQuill d n j ev) :=
  wf_microIssue (fun _ _ => wf_quillRun _ _ _ _ _ h) h

/-! ### Machine/Sec.lean -/

@[simp] theorem mem_secBump (d : Dev) (reg : Nat) : (secBump d reg).mem = d.mem := by
  simp [secBump]

@[simp] theorem mem_sealHit (d : Dev) (addr path : Nat) : (sealHit d addr path).mem = d.mem := by
  grind [sealHit, mem_secBump, setRg_mem, setRg64_mem, mem_latch]

@[simp] theorem wf_eraseSlot {d : Dev} (j k status detail : Nat) (h : Canonical d) :
    Canonical (eraseSlot d j k status detail) := by
  grind [eraseSlot, secSet_mem, wf_endAll]

@[simp] theorem mem_keyResult (d : Dev) (r : Nat) : (keyResult d r).mem = d.mem := by
  simp [keyResult]

@[simp] theorem bytes_readBlob (d : Dev) (j addr : Nat) (ev : Upset) : (readBlob d j addr ev).1.mem.bytes = d.mem.bytes := by
  unfold readBlob
  split
  · next t oid o _ =>
    split
    · split
      · split
        · rfl
        · next sid _ =>
          split
          · rfl
          · have hc := bytes_checkRead d (gKey t oid (o / 4096)) sid addr ev (secCap 0 j addr 4096)
            split
            · next e => rwa [e] at hc
            · next e => rwa [e] at hc
      · rfl
    · rfl
  · rfl

@[simp] theorem bytes_opInstall (d : Dev) (a : Acc) (ev : Upset) : (opInstall d a ev).mem.bytes = d.mem.bytes := by
  grind [opInstall, mem_keyResult, bytes_readBlob, mem_latch, secSet_mem, mem_secBump]

@[simp] theorem wf_opErase {d : Dev} (a : Acc) (h : Canonical d) : Canonical (opErase d a) := by
  grind [opErase, mem_keyResult, wf_eraseSlot]

@[simp] theorem wf_lsWrite {d : Dev} (uid : Nat) (c : Cmd) (gs : List (List Nat)) (h : Canonical d) :
    Canonical (lsWrite d uid c gs) := by
  unfold lsWrite
  extract_lets dk
  split
  · cases e : t4WriteFault d uid with
    | none => exact h
    | some t => exact wf_t4WriteFault e h
  · split
    · exact wf_endCmd _ _ _ _ h
    · next d1 e =>
      have h1 : Canonical d1 := wf_scatter e h
      simp [h1]

@[simp] theorem wf_opLoadSealed {d : Dev} (uid : Nat) (ev : Upset) (h : Canonical d) : Canonical (opLoadSealed d uid ev) := by
  unfold opLoadSealed
  refine wf_startCmd (fun t c ht => ?_) h
  extract_lets n d0 m cp keys
  split
  · exact wf_failBad _ _ (canonical_of_mem (mem_isolation _ _ _ _) ht)
  · split
    · exact wf_endCmd _ _ _ _ ht
    · split
      · exact wf_endCmd _ _ _ _ ht
      · next slot _ =>
        split
        · exact wf_eraseSlot _ _ _ _ (canonical_of_mem (mem_latch _ _ _ _ _) ht)
        · have hg := bytes_gather uid cp ((granAddrs (lsSrc c) m).zip keys) (touchReads d0 keys) ev
          rw [mem_touchReads] at hg
          have h0 : Canonical d0 := by simp [d0, ht]
          split
          · next e => rw [e] at hg; exact wf_endCmd _ _ _ _ (canonical_of_bytes hg h0)
          · next d1 data e =>
            rw [e] at hg
            have h1 : Canonical d1 := canonical_of_bytes hg h0
            split
            · exact wf_endCmd _ _ _ _ h1
            · extract_lets hd num first total
              split
              · exact wf_endCmd _ _ _ _ h1
              · split
                · exact wf_failBad _ _ h1
                · split
                  · exact wf_endCmd _ _ _ _ (canonical_of_mem ((mem_latch _ _ _ _ _).trans (mem_secBump _ _)) h1)
                  · exact wf_lsWrite _ _ _ h1

@[simp] theorem mem_setSpdm (d : Dev) (p : HostPort) (n : Nat) : (setSpdm d p n).mem = d.mem := by
  unfold setSpdm; split <;> simp

@[simp] theorem mem_ideProgram (d : Dev) (p : HostPort) (protocol : Nat) (req : List Nat) (n : Nat) :
    (ideProgram d p protocol req n).mem = d.mem := by
  unfold ideProgram; repeat' split
  all_goals simp

@[simp] theorem mem_answerDoe (d : Dev) (p : HostPort) (protocol : Nat) (req : List Nat) :
    (answerDoe d p protocol req).mem = d.mem := by
  simp [answerDoe]

@[simp] theorem mem_opSpdm (d : Dev) (p : HostPort) (protocol len : Nat) (req : List Nat) :
    (opSpdm d p protocol len req).mem = d.mem := by
  simp [opSpdm]

@[simp] theorem mem_opDoeAbort (d : Dev) (p : HostPort) : (opDoeAbort d p).mem = d.mem := by
  simp [opDoeAbort]

/-! ### Machine/Host.lean -/

@[simp] theorem wf_endPublish {d : Dev} (p : HostPort) (js : List Nat) (h : Canonical d) : Canonical (endPublish d p js) :=
  canonical_foldl (fun _ _ ht => wf_failFault _ _ _ _ ht) _ h

@[simp] theorem wf_declareLost {d : Dev} (p : HostPort) (h : Canonical d) : Canonical (declareLost d p) := by
  unfold declareLost
  extract_lets js _ d1 d2 d3 _ d4
  split
  · exact h
  · have h2 : d2.mem = d.mem := (mem_latch _ _ _ _ _).trans (setPcie_mem _ _ _)
    have h3 : d3.mem = d2.mem := mem_foldl (fun _ _ => setJob_mem _ _ _) _ _
    have h4 : Canonical d4 := canonical_of_mem (d := d) (t := d4) (h3.trans h2) h
    exact canonical_foldl (fun _ _ ht => canonical_of_mem (mem_sendEventVec _ _) ht) _ (wf_endPublish _ _ h4)

@[simp] theorem wf_opHostLost {d : Dev} (p : HostPort) (h : Canonical d) : Canonical (opHostLost d p) := by
  grind [opHostLost, wf_declareLost]

@[simp] theorem wf_opHostRelease {d : Dev} (a : Acc) (h : Canonical d) : Canonical (opHostRelease d a) := by
  grind [opHostRelease, wf_declareLost]

@[simp] theorem mem_opMgmtClaim (d : Dev) (a : Acc) : (opMgmtClaim d a).mem = d.mem := by
  simp [opMgmtClaim]

@[simp] theorem mem_unassign (d : Dev) (j : Nat) : (unassign d j).mem = d.mem := by
  simp [unassign]

@[simp] theorem mem_renumber (d : Dev) (j : Nat) : (renumber d j).mem = d.mem := by
  unfold renumber
  extract_lets cs order d1
  rw [setJob_mem]
  refine mem_foldl (fun t u => ?_) _ _
  split
  · exact setCmd_mem _ _ _
  · rfl

@[simp] theorem mem_opAdopt (d : Dev) (p : HostPort) (j : Nat) : (opAdopt d p j).mem = d.mem := by
  simp [opAdopt]

@[simp] theorem mem_opVfJobs (d : Dev) (p : HostPort) (w v : Nat) (a : Acc) : (opVfJobs d p w v a).mem = d.mem := by
  simp +contextual [opVfJobs, mem_latch]

@[simp] theorem mem_bar2Reject (d : Dev) (p : HostPort) (c : Cap) : (bar2Reject d p c).mem = d.mem := by
  grind [bar2Reject, mem_latch, bump_mem]

@[simp] theorem mem_bar2Check (d : Dev) (k sid : Nat) (c : Cap) (ev : Upset) : (bar2Check d k sid c ev).mem = d.mem := by
  unfold bar2Check; (repeat' split) <;> simp +contextual [mem_latch, mem_lineRead]

@[simp] theorem mem_ideInsecure (d : Dev) (p : HostPort) (i : Nat) : (ideInsecure d p i).mem = d.mem := by
  unfold ideInsecure; split <;> simp

@[simp] theorem mem_sendData (d : Dev) (bs : List Nat) : (sendData d bs).mem = d.mem := by
  simp [sendData]

@[simp] theorem mem_opBar2Read (d : Dev) (a : Acc) (off n : Nat) (ev : Upset) : (opBar2Read d a off n ev).mem = d.mem := by
  unfold opBar2Read
  split
  · rfl
  · split
    · exact mem_ideInsecure _ _ _
    · split
      · exact mem_latch _ _ _ _ _
      · split
        · simp
        · next k addr o _ =>
          extract_lets d0
          split
          · simp [d0]
          · next sid _ =>
            extract_lets d1 bad d2 d3
            have h1 : d1.mem = d.mem := by unfold d1; split <;> simp [d0]
            have h2 : d2.mem = d.mem := by unfold d2; split <;> simp [h1]
            have h3 : d3.mem = d.mem := by unfold d3; split <;> simp [h2]
            split <;> simp [h3]

@[simp] theorem wf_hostStore {d : Dev} (k o : Nat) (bs : List Nat) (h : Canonical d) : Canonical (hostStore d k o bs) := by
  grind [hostStore, wf_writeRoot]

@[simp] theorem wf_opBar2Write {d : Dev} (a : Acc) (off : Nat) (bs : List Nat) (ev : Upset) (h : Canonical d) :
    Canonical (opBar2Write d a off bs ev) := by
  grind [opBar2Write, mem_ideInsecure, mem_latch, mem_bar2Reject, bump_mem, bytes_holdWrite, wf_hostStore]

@[simp] theorem mem_opUnmask (d : Dev) (a : Acc) (vec : Nat) : (opUnmask d a vec).mem = d.mem := by
  unfold opUnmask; split <;> simp

@[simp] theorem mem_opCplTimeout (d : Dev) (p : HostPort) (addr : Nat) : (opCplTimeout d p addr).mem = d.mem := by
  grind [opCplTimeout, mem_latch, bump_mem]

@[simp] theorem mem_resetPciePage (d : Dev) (p : HostPort) : (resetPciePage d p).mem = d.mem := by
  simp [resetPciePage]

@[simp] theorem mem_resetPortCfg (d : Dev) (p : HostPort) : (resetPortCfg d p).mem = d.mem := by
  simp [resetPortCfg]

@[simp] theorem wf_opPerst {d : Dev} (p : HostPort) (h : Canonical d) : Canonical (opPerst d p) := by
  unfold opPerst
  split
  · exact h
  · split
    · simpa using h
    · extract_lets d0
      have h0 : d0.mem = d.mem := by unfold d0; split <;> simp
      exact wf_declareLost _ (by simpa [h0] using h)

@[simp] theorem mem_opPerstEnd (d : Dev) (p : HostPort) : (opPerstEnd d p).mem = d.mem := by
  simp [opPerstEnd]

@[simp] theorem mem_opPcieDown (d : Dev) (p : HostPort) : (opPcieDown d p).mem = d.mem := by
  simp [opPcieDown]

@[simp] theorem mem_opPcieUp (d : Dev) (p : HostPort) (speed width : Nat) (flit : Bool) :
    (opPcieUp d p speed width flit).mem = d.mem := by
  simp [opPcieUp]

@[simp] theorem wf_opFlr {d : Dev} (a : Acc) (h : Canonical d) : Canonical (opFlr d a) := by
  unfold opFlr
  split
  · split
    · exact h
    · exact canonical_of_mem (setPcie_mem _ _ _) (canonical_foldl (fun _ j ht => wf_opDestroy j ht) _ h)
  · exact canonical_of_mem (setPcie_mem _ _ _) (canonical_foldl (fun _ j ht => wf_opDestroy j ht) _ h)
  · exact h

/-! ### Machine/Time.lean -/

@[simp] theorem mem_addTime (d : Dev) (i : Int) : (addTime d i).mem = d.mem := by
  simp [addTime]

@[simp] theorem mem_opTimeStep (d : Dev) (v : Word) : (opTimeStep d v).mem = d.mem := by
  simp [opTimeStep]

@[simp] theorem mem_ptpSyncNow (d : Dev) (p domain : Nat) (off : Int) : (ptpSyncNow d p domain off).mem = d.mem := by
  grind [ptpSyncNow, bump_mem, mem_latch, setRg_mem, mem_addTime, setTim_mem]

@[simp] theorem mem_sendPtp (d : Dev) (p n : Nat) : (sendPtp d p n).mem = d.mem := by
  simp [sendPtp]

@[simp] theorem mem_pdelayReqNow (d : Dev) (p domain : Nat) : (pdelayReqNow d p domain).mem = d.mem := by
  simp [pdelayReqNow]

@[simp] theorem mem_pdelayRespNow (d : Dev) (p domain : Nat) (delay : Int) : (pdelayRespNow d p domain delay).mem = d.mem := by
  simp [pdelayRespNow]

@[simp] theorem mem_announceNow (d : Dev) (p domain : Nat) : (announceNow d p domain).mem = d.mem := by
  simp [announceNow]

@[simp] theorem mem_discardNow (d : Dev) (p t : Nat) : (discardNow d p t).mem = d.mem := by
  simp [discardNow]

@[simp] theorem mem_ptpRx (d : Dev) (p stamp : Nat) (m : PtpMsg) : (ptpRx d p stamp m).mem = d.mem := by
  simp [ptpRx]

@[simp] theorem mem_ptpNow (d : Dev) (p : Nat) (m : PtpMsg) : (ptpNow d p m).mem = d.mem := by
  unfold ptpNow; split <;> simp

@[simp] theorem mem_opPtpSync (d : Dev) (p stamp domain : Nat) (off : Int) : (opPtpSync d p stamp domain off).mem = d.mem := by
  simp [opPtpSync]

@[simp] theorem mem_opPdelayReq (d : Dev) (p stamp domain : Nat) : (opPdelayReq d p stamp domain).mem = d.mem := by
  simp [opPdelayReq]

@[simp] theorem mem_opPdelayResp (d : Dev) (p stamp domain : Nat) (delay : Int) :
    (opPdelayResp d p stamp domain delay).mem = d.mem := by
  simp [opPdelayResp]

@[simp] theorem mem_opPtpAnnounce (d : Dev) (p stamp domain : Nat) : (opPtpAnnounce d p stamp domain).mem = d.mem := by
  simp [opPtpAnnounce]

@[simp] theorem mem_opPtpDiscard (d : Dev) (p stamp t : Nat) : (opPtpDiscard d p stamp t).mem = d.mem := by
  simp [opPtpDiscard]

@[simp] theorem mem_opPtpInterval (d : Dev) (p kind : Nat) : (opPtpInterval d p kind).mem = d.mem := by
  simp [opPtpInterval]

@[simp] theorem mem_opTimeSyncLost (d : Dev) : (opTimeSyncLost d).mem = d.mem := by
  grind [opTimeSyncLost, mem_latch, setTim_mem]

@[simp] theorem mem_opPpsEdge (d0 : Dev) : (opPpsEdge d0).mem = d0.mem := by
  simp [opPpsEdge]

@[simp] theorem mem_opTimePpsLost (d : Dev) : (opTimePpsLost d).mem = d.mem := by
  grind [opTimePpsLost, mem_latch, setTim_mem]

@[simp] theorem mem_opTimeRefLost (d : Dev) : (opTimeRefLost d).mem = d.mem := by
  grind [opTimeRefLost, mem_latch, setTim_mem]

@[simp] theorem mem_opRefRestored (d : Dev) : (opRefRestored d).mem = d.mem := by
  simp [opRefRestored]

/-! ### Machine/Clock.lean -/

@[simp] theorem wf_copyRead {d : Dev} (n j : Nat) (x : Ctx) (r : RunAct) (i : Nat) (h : Canonical d) :
    Canonical (copyRead d n j x r i).1 := by
  unfold copyRead
  extract_lets im a s g off fill at_
  split
  · exact h
  · split
    · exact h
    · split
      · exact h
      · next k _ =>
        split
        · exact h
        · next sid _ =>
          have hc := bytes_checkRead d k sid at_ (if off = 0 then evHere r.ev else .none) (coreCap n (some j) at_ 1 512)
          split
          · next e => rw [e] at hc; exact wf_endCmd _ _ _ _ (canonical_of_bytes hc h)
          · next d1 e =>
            rw [e] at hc
            have h1 : Canonical d1 := canonical_of_bytes hc h
            show Canonical (if _ then _ else _)
            split
            · exact canonical_of_mem (mem_setRun _ _ _ _ _) h1
            · exact h1

@[simp] theorem wf_flitLoad {d : Dev} (c : Nat) (p : PortJob) (h : Canonical d) : Canonical (flitLoad d c p).1 := by
  grind [flitLoad, wf_copyRead, mem_setRun]

@[simp] theorem wf_portCycle (c : Nat) {d : Dev} (np : Nat) (h : Canonical d) : Canonical (portCycle c d np) := by
  grind [portCycle, wf_flitLoad]

@[simp] theorem wf_copyLand {d : Dev} (c : Nat) (f : Flit) (n j uid id : Nat) (last : Bool) (addr : Nat) (bs : List Nat)
    (sl : Bool) (h : Canonical d) : Canonical (copyLand d c f n j uid id last addr bs sl) := by
  grind [copyLand, wf_landBytes, wf_endCmd, bytes_landEdge, wf_doneSem, mem_setRun]

@[simp] theorem wf_coreLand {d : Dev} (c : Nat) (f : Flit) (p : Packet) (h : Canonical d) : Canonical (coreLand d c f p) := by
  grind [coreLand, bytes_landEdge, wf_writeT0, bump_mem]

@[simp] theorem wf_flitLands (c : Nat) {d : Dev} (f : Flit) (h : Canonical d) : Canonical (flitLands c d f) := by
  grind [flitLands, bump_mem, mem_sendCopy, wf_copyLand, mem_setRun, mem_sendPort, mem_routeDrop, wf_coreLand]

@[simp] theorem wf_nocCycle {d : Dev} (c : Nat) (h : Canonical d) : Canonical (nocCycle d c) := by
  have hports := wf_foldl (portCycle c) (fun _ p => wf_portCycle c p) (d.ports.map (·.1)) h
  exact wf_foldl _ (fun _ f => wf_flitLands c f) _ (by simpa using hports)

@[simp] theorem wf_flyCycles (n id k : Nat) {d : Dev} (h : Canonical d) : Canonical (flyCycles n id k d) := by
  induction k generalizing d with
  | zero => exact h
  | succ k ih => grind [flyCycles, wf_passCycle, mem_setArr]

@[simp] theorem wf_runCycle (n : Nat) {d : Dev} (q : Nat × Nat) (h : Canonical d) : Canonical (runCycle n d q) := by
  grind [runCycle, wf_wbCycle, wf_vecCycle, mem_setRun]

@[simp] theorem mem_quillStall (n j : Nat) (d : Dev) : (quillStall n j d).mem = d.mem := by
  unfold quillStall; repeat' split
  all_goals simp

@[simp] theorem wf_coreCycle {d : Dev} (n : Nat) (h : Canonical d) : Canonical (coreCycle d n) := by
  unfold coreCycle
  extract_lets c d1 runs d2
  have h1 : Canonical d1 := canonical_foldl (fun _ _ ht => wf_flyCycles _ _ _ ht) _ h
  have h2 : Canonical d2 := canonical_foldl (fun _ _ ht => wf_runCycle _ _ ht) _ h1
  exact canonical_foldl (fun _ _ ht => canonical_of_mem ((mem_quillStall _ _ _).trans (mem_finishCore _ _ _)) ht) _ h2

@[simp] theorem mem_releaseLoad (d : Dev) (port : Nat) (r : RelLoad) : (releaseLoad d port r).mem = d.mem := by
  unfold releaseLoad; split <;> simp

@[simp] theorem mem_releaseAt (d : Dev) (port i : Nat) : (releaseAt d port i).mem = d.mem := by
  unfold releaseAt; dsimp only; split <;> simp

@[simp] theorem mem_opRelease (d : Dev) (port lateAt : Nat) : (opRelease d port lateAt).mem = d.mem := by
  unfold opRelease; repeat' split
  all_goals simp

@[simp] theorem mem_releasePort (n port : Nat) (d : Dev) : (releasePort n port d).mem = d.mem := by
  induction n generalizing d with
  | zero => rfl
  | succ n ih => grind [releasePort, mem_releaseAt]

@[simp] theorem mem_releaseAll (d : Dev) : (releaseAll d).mem = d.mem := by
  simp [releaseAll]

@[simp] theorem wf_retryHeld {d : Dev} (a : HeldAcc) (h : Canonical d) : Canonical (retryHeld d a) := by
  unfold retryHeld
  split
  · split
    · simpa using h
    · exact wf_hostStore _ _ _ h
  · split
    · exact wf_opPut _ _ _ h
    · exact wf_opGetReq _ _ _ h
    · exact wf_drainReqs (wf_opGetResp _ _ h)
    · exact wf_opAtomic _ _ _ h
    · exact h

@[simp] theorem wf_retryAll {d : Dev} (h : Canonical d) : Canonical (retryAll d) := by
  unfold retryAll
  split
  · exact h
  · exact wf_foldl _ (fun _ a => wf_retryHeld a) _ h

theorem workCycle_keeps {P : Dev → Prop} (hrel : ∀ t, P t → P (releaseAll t)) (hret : ∀ t, P t → P (retryAll t))
    (hnoc : ∀ t c, P t → P (nocCycle t c)) (hcore : ∀ t n, P t → P (coreCycle t n)) {d : Dev} (h : P d) : P (workCycle d) := by
  unfold workCycle
  extract_lets d0 d1
  exact foldl_keeps (fun t n ht => hcore t n ht) _ _ (hnoc _ _ (hnoc _ _ (hret _ (hrel _ h))))

@[simp] theorem wf_workCycle {d : Dev} (h : Canonical d) : Canonical (workCycle d) :=
  workCycle_keeps (P := Canonical) (fun _ ht => canonical_of_mem (mem_releaseAll _) ht) (fun _ ht => wf_retryAll ht)
    (fun _ _ ht => wf_nocCycle _ ht) (fun _ _ ht => wf_coreCycle _ ht) h

@[simp] theorem wf_tick {d : Dev} (h : Canonical d) : Canonical (tick d) := by
  unfold tick
  have h1 : Canonical (workCycle d) := wf_workCycle h
  generalize workCycle d = d1 at h1 ⊢
  split
  · exact h
  · exact h1

/-! ### Machine/Faults.lean -/

@[simp] theorem mem_opFltInject (d : Dev) (die page src : Nat) : (opFltInject d die page src).mem = d.mem := by
  grind [opFltInject, mem_latch]

@[simp] theorem mem_opFltClear (d : Dev) (die page v : Nat) : (opFltClear d die page v).mem = d.mem := by
  unfold opFltClear; split <;> simp

@[simp] theorem mem_raiseIrq (d : Dev) : (raiseIrq d).mem = d.mem := by
  simp [raiseIrq]

@[simp] theorem mem_opIrqClear (d : Dev) : (opIrqClear d).mem = d.mem := by
  simp [opIrqClear]

@[simp] theorem mem_opLogRd (d : Dev) (a : Acc) (v : Nat) : (opLogRd d a v).mem = d.mem := by
  simp [opLogRd]

@[simp] theorem mem_takeReport (d : Dev) (r : Rec) : (takeReport d r).mem = d.mem := by
  simp [takeReport]

@[simp] theorem mem_fltagUE (d : Dev) : (fltagUE d).mem = d.mem := by
  grind [fltagUE, mem_latch]

@[simp] theorem mem_opFltagReport (d : Dev) (die : Nat) (ev : Upset) : (opFltagReport d die ev).mem = d.mem := by
  unfold opFltagReport; split <;> simp

@[simp] theorem mem_pollDie (answered : Nat) (d : Dev) (die : Nat) : (pollDie answered d die).mem = d.mem := by
  grind [pollDie, mem_latch]

@[simp] theorem mem_opCollectorPoll (d : Dev) (answered : Nat) : (opCollectorPoll d answered).mem = d.mem := by
  simp [opCollectorPoll]

@[simp] theorem mem_opCpWatchdog (d : Dev) (hc cp : Nat) : (opCpWatchdog d hc cp).mem = d.mem := by
  grind [opCpWatchdog, mem_latch]

@[simp] theorem mem_opOriginClose (d : Dev) (k : Nat) (ev : Upset) : (opOriginClose d k ev).mem = d.mem := by
  unfold opOriginClose; split <;> simp

@[simp] theorem mem_receiveReport (d : Dev) (p : Packet) : (receiveReport d p).mem = d.mem := by
  grind [receiveReport, mem_originTake, mem_latch]

@[simp] theorem mem_opFaultReport (d : Dev) (port : Nat) (p : Packet) : (opFaultReport d port p).mem = d.mem := by
  grind [opFaultReport, mem_dropMalformed, mem_latch, bump_mem, setPort_mem, mem_receiveReport]

@[simp] theorem mem_opRegRead (d : Dev) (a : Acc) (off : Nat) : (opRegRead d a off).mem = d.mem := by
  simp [opRegRead]

@[simp] theorem mem_opOrgRead (d : Dev) (a : Acc) : (opOrgRead d a).mem = d.mem := by
  simp [opOrgRead]

/-! ### Machine/Reset.lean -/

@[simp] theorem wf_inkTo (cache : Bool) {d : Dev} (md : Nat) (h : Canonical d) : Canonical (inkTo cache d md) := by
  grind [inkTo, wf_inkChangeEnd, setInk_mem]

@[simp] theorem wf_allInk {d : Dev} (cache : Bool) (h : Canonical d) : Canonical (allInk d cache) :=
  canonical_foldl (fun _ _ ht => wf_inkTo _ _ ht) _ h

@[simp] theorem mem_enterState (d : Dev) (st : DevState) : (enterState d st).mem = d.mem := by
  simp [enterState]

@[simp] theorem mem_sendReady (d : Dev) : (sendReady d).mem = d.mem := by
  simp [sendReady]

@[simp] theorem wf_opTestEnter {d : Dev} (h : Canonical d) : Canonical (opTestEnter d) := by
  grind [opTestEnter, mem_enterState, wf_allInk]

@[simp] theorem wf_opTestLeave {d : Dev} (h : Canonical d) : Canonical (opTestLeave d) := by
  grind [opTestLeave, mem_sendReady, mem_enterState, wf_allInk]

@[simp] theorem wf_opRecover {d : Dev} (h : Canonical d) : Canonical (opRecover d) := by
  grind [opRecover, mem_enterState, wf_allInk]

@[simp] theorem wf_clearVolatile {d : Dev} (h : Canonical d) : Canonical (clearVolatile d) := wf_keepT4 h

@[simp] theorem mem_romBoot (d : Dev) : (romBoot d).mem = d.mem := by
  grind [romBoot, mem_latch, setBoot_mem, setRg_mem, mem_enterState]

@[simp] theorem mem_requestReset (d : Dev) (kind : Nat) : (requestReset d kind).mem = d.mem := by
  unfold requestReset; split <;> simp

@[simp] theorem mem_opDevReset (d : Dev) : (opDevReset d).mem = d.mem := by
  unfold opDevReset; split <;> simp

@[simp] theorem mem_flushReports (d : Dev) : (flushReports d).mem = d.mem := by
  simp [flushReports]

@[simp] theorem wf_afterReset {d : Dev} (r : RstReq) (h : Canonical d) : Canonical (afterReset d r) := by
  unfold afterReset
  have h1 : Canonical (clearVolatile d) := wf_clearVolatile h
  generalize clearVolatile d = d1 at h1 ⊢
  simpa using h1

@[simp] theorem wf_opDeviceReset {d : Dev} (h : Canonical d) : Canonical (opDeviceReset d) := by
  unfold opDeviceReset
  split
  · exact h
  · split
    · exact wf_endAll _ _ _ _ h
    · split
      · exact h
      · exact canonical_of_mem (mem_romBoot _) (wf_afterReset _ (canonical_of_mem (mem_flushReports _) h))

@[simp] theorem mem_setFtls (d : Dev) (f : Ftl → Ftl) : (setFtls d f).mem = d.mem := by
  simp [setFtls]

@[simp] theorem wf_loseState {d : Dev} (h : Canonical d) : Canonical (loseState d) := wf_clearVolatile h

@[simp] theorem wf_powerOn {d : Dev} (kind : Nat) (strap okA okB fuseOk : Bool) (h : Canonical d) :
    Canonical (powerOn d kind strap okA okB fuseOk) := by
  unfold powerOn
  have h1 : Canonical (loseState d) := wf_loseState h
  generalize loseState d = d1 at h1 ⊢
  simpa using h1

@[simp] theorem wf_opPowerOn {d : Dev} (byModRst strap okA okB fuseOk : Bool) (h : Canonical d) :
    Canonical (opPowerOn d byModRst strap okA okB fuseOk) := by
  unfold opPowerOn
  split
  · split
    · exact h
    · split
      · exact h
      · exact wf_powerOn _ _ _ _ _ h
  · split
    · exact h
    · split
      · exact h
      · exact wf_powerOn _ _ _ _ _ h

@[simp] theorem wf_opModRst {d : Dev} (h : Canonical d) : Canonical (opModRst d) := by
  unfold opModRst
  split
  · exact h
  · split
    · exact h
    · have h1 : Canonical (loseState d) := wf_loseState h
      generalize loseState d = d1 at h1 ⊢
      exact canonical_of_mem (mem_setFtls _ _) h1

@[simp] theorem mem_opPowerLoss (d : Dev) : (opPowerLoss d).mem = d.mem := by
  grind [opPowerLoss, mem_setFtls, mem_latch]

@[simp] theorem wf_opSeqEnd {d : Dev} (above46 : Bool) (h : Canonical d) : Canonical (opSeqEnd d above46) := by
  unfold opSeqEnd
  extract_lets d0 d1 d2
  split
  · exact h
  · have h0 : d0.mem = d.mem := mem_foldl (fun t sd => mem_foldl (fun u op => mem_progDone u sd op) _ _) _ _
    have h1 : Canonical d1 := canonical_of_mem ((mem_setFtls _ _).trans h0) h
    clear_value d1
    split
    · exact h1
    · split
      · exact wf_powerOn _ _ _ _ _ h1
      · have h2 : Canonical d2 := wf_loseState h1
        clear_value d2
        exact canonical_of_mem (setPwr_mem _ _) h2

@[simp] theorem mem_trainOnfi (d : Dev) : (trainOnfi d).mem = d.mem := by
  simp [trainOnfi]

@[simp] theorem mem_trainGddr (d : Dev) (ok : Nat → Bool) : (trainGddr d ok).mem = d.mem := by
  simp [trainGddr]

@[simp] theorem mem_mountFtl (d : Dev) (clean : Bool) : (mountFtl d clean).mem = d.mem := by
  grind [mountFtl, mem_setFtls, mem_trainOnfi, mem_ftlWear, mem_setFtlBoth, mem_latch]

@[simp] theorem wf_opBootReady {d : Dev} (clean : Bool) (h : Canonical d) : Canonical (opBootReady d clean) := by
  grind [opBootReady, mem_mountFtl, mem_trainGddr, mem_powerSave, mem_enterState, wf_allInk, mem_sendReady]

@[simp] theorem mem_opTrainFail (d : Dev) (ch : Nat) : (opTrainFail d ch).mem = d.mem := by
  grind [opTrainFail, mem_trainGddr, mem_enterState, mem_latch]

@[simp] theorem wf_failCores {d : Dev} (cores : List Nat) (blk : Nat) (h : Canonical d) : Canonical (failCores d cores blk) := by
  grind [failCores, wf_endAll]

@[simp] theorem wf_opDieReset {d : Dev} (die : Nat) (h : Canonical d) : Canonical (opDieReset d die) := by
  unfold opDieReset
  extract_lets _ d0 d1 _ _ d2 d3 d4 d5 _
  have h0 : Canonical d0 := h
  split
  · exact h0
  · have h1 : Canonical d1 := wf_failCores _ _ h0
    have h2 : Canonical d2 := canonical_of_mem ((secSet_mem _ _).trans (setPwr_mem _ _)) h1
    have h3 : Canonical d3 := canonical_of_mem (mem_foldl (fun _ _ => setCore_mem _ _ _) _ _) h2
    have h4 : Canonical d4 := wf_clearScratch _ h3
    have h5 : Canonical d5 := canonical_of_mem (mem_foldl (fun _ _ => mem_resetPage _ _ _) _ _) h4
    exact h5

theorem wf_writeDieRst {d : Dev} {err : Dev → Dev} (die : Nat) (go : Bool) (herr : ∀ t, Canonical t → Canonical (err t))
    (h : Canonical d) :
    Canonical (writeDieRst d err die go) := by
  unfold writeDieRst
  extract_lets d1
  have h1 : Canonical d1 := canonical_of_mem (setRg_mem _ _ _ _ _) h
  split
  · exact h1
  · split
    · exact herr _ h1
    · exact wf_opDieReset _ h1

@[simp] theorem wf_opDieRst {d : Dev} (a : Acc) (die : Nat) (h : Canonical d) : Canonical (opDieRst d a die) := by
  unfold opDieRst
  split
  · exact wf_opDieReset _ h
  · extract_lets off
    exact wf_withReg (fun _ ht => wf_writeDieRst _ _ (fun _ hu => canonical_of_mem (mem_bar0Error _ _ _) hu) ht) h

@[simp] theorem bytes_opDieResetEnd (d : Dev) (die : Nat) : (opDieResetEnd d die).mem.bytes = d.mem.bytes := by
  unfold opDieResetEnd; split <;> simp

@[simp] theorem mem_opDieTimeout (d : Dev) (die : Nat) : (opDieTimeout d die).mem = d.mem := by
  grind [opDieTimeout, mem_latch, setPwr_mem]

@[simp] theorem mem_resetWords (d : Dev) (b : Blk) (die page : Nat) : (resetWords d b die page).mem = d.mem := by
  simp [resetWords]

@[simp] theorem mem_blockEffect.setTimHold (d : Dev) : (blockEffect.setTimHold d).mem = d.mem := by
  simp [blockEffect.setTimHold]

@[simp] theorem wf_blockEffect {d : Dev} (b : Blk) (die page : Nat) (h : Canonical d) : Canonical (blockEffect d b die page) := by
  unfold blockEffect
  split
  · exact canonical_of_mem (setCore_mem _ _ _) h
  · exact wf_wcbFlushAll _ _ _ h
  · exact wf_wcbFlushAll _ _ _ h
  · exact canonical_of_mem (mem_retrainPort _ _) h
  · extract_lets d1 d2
    have h1 : Canonical d1 := by
      unfold d1
      split
      · exact canonical_of_mem (mem_finishMailbox _ _) h
      · exact h
    have h2 : Canonical d2 := by
      unfold d2
      split
      · exact canonical_of_mem (mem_finishRop _ _) h1
      · exact h1
    exact h2
  · exact h
  · exact h

@[simp] theorem wf_opBlockReset {d : Dev} (die0 page : Nat) (h : Canonical d) : Canonical (opBlockReset d die0 page) := by
  grind [opBlockReset, wf_opDieReset, wf_endAll, mem_resetWords, wf_blockEffect]

@[simp] theorem wf_opBlkRst {d : Dev} (a : Acc) (die page : Nat) (h : Canonical d) : Canonical (opBlkRst d a die page) := by
  unfold opBlkRst
  split
  · exact wf_opBlockReset _ _ h
  · refine wf_withReg (fun t ht => ?_) h
    split
    · exact ht
    · exact wf_opBlockReset _ _ ht

/-! ### Machine/Boot.lean -/

@[simp] theorem mem_bootResult (d : Dev) (r : Nat) : (bootResult d r).mem = d.mem := by
  simp [bootResult]

@[simp] theorem mem_stageFails (d : Dev) (r : Nat) : (stageFails d r).mem = d.mem := by
  grind [stageFails, mem_latch, mem_bootResult]

@[simp] theorem mem_unstage (d : Dev) : (unstage d).mem = d.mem := by
  simp [unstage]

@[simp] theorem mem_opBootStage (d : Dev) (a : Acc) : (opBootStage d a).mem = d.mem := by
  simp [opBootStage]

@[simp] theorem mem_opBootStageEnd (d : Dev) (r version svn : Nat) : (opBootStageEnd d r version svn).mem = d.mem := by
  simp [opBootStageEnd]

@[simp] theorem mem_opDiscard (d : Dev) : (opDiscard d).mem = d.mem := by
  simp [opDiscard]

@[simp] theorem mem_opBootActivate (d : Dev) : (opBootActivate d).mem = d.mem := by
  simp [opBootActivate]

@[simp] theorem mem_opWindowEnd (d : Dev) (digestOk : Bool) : (opWindowEnd d digestOk).mem = d.mem := by
  grind [opWindowEnd, secSet_mem, setBoot_mem, mem_bootResult, bump_mem, mem_requestReset, mem_latch]

@[simp] theorem mem_opConfirm (d : Dev) : (opConfirm d).mem = d.mem := by
  simp [opConfirm]

/-! ### Machine/Power.lean -/

@[simp] theorem mem_startWake (d : Dev) (die : Nat) : (startWake d die).mem = d.mem := by
  simp [startWake]

@[simp] theorem mem_opPwrReq (d : Dev) (die : Nat) (on : Bool) : (opPwrReq d die on).mem = d.mem := by
  simp [opPwrReq]

@[simp] theorem bytes_opDieWake (d : Dev) (die : Nat) : (opDieWake d die).mem.bytes = d.mem.bytes := by
  unfold opDieWake; split <;> simp

@[simp] theorem mem_opInOv (d : Dev) : (opInOv d).mem = d.mem := by
  grind [opInOv, mem_latch]

@[simp] theorem mem_opPmbus (d : Dev) (vin iin rails : Nat) : (opPmbus d vin iin rails).mem = d.mem := by
  grind [opPmbus, setPwr_mem, setRg_mem, mem_requestReset, mem_latch]

@[simp] theorem mem_addEnergy (d : Dev) (p : Nat) : (addEnergy d p).mem = d.mem := by
  simp [addEnergy]

@[simp] theorem mem_hardLimit (d : Dev) (p : Nat) : (hardLimit d p).1.mem = d.mem := by
  unfold hardLimit; dsimp only; repeat' split
  all_goals simp

@[simp] theorem mem_takeG (d : Dev) (new : Nat) : (takeG d new).mem = d.mem := by
  grind [takeG, setPwr_mem, pageEvent_mem, mem_latch, bump_mem]

@[simp] theorem mem_opPowerEval (d : Dev) (p : Nat) : (opPowerEval d p).mem = d.mem := by
  grind [opPowerEval, mem_hardLimit, mem_addEnergy, setPwr_mem, mem_takeG, mem_latch, bump_mem]

@[simp] theorem mem_thermWarn (d : Dev) (die : Nat) (t : Int) : (thermWarn d die t).mem = d.mem := by
  grind [thermWarn, mem_latch, bump_mem, setPwr_mem]

@[simp] theorem mem_critEnds (d : Dev) (die : Nat) : (critEnds d die).mem = d.mem := by
  simp [critEnds]

@[simp] theorem wf_critStarts {d : Dev} (die : Nat) (h : Canonical d) : Canonical (critStarts d die) := by
  grind [critStarts, mem_latch, setPwr_mem, wf_failCores]

@[simp] theorem wf_thermDie {d : Dev} (x : BitVec 8 × Nat) (h : Canonical d) : Canonical (thermDie d x) := by
  grind [thermDie, wf_critStarts, mem_critEnds, mem_requestReset, mem_latch, setPwr_mem]

@[simp] theorem wf_opDieTemps {d : Dev} (ts : List (BitVec 8)) (h : Canonical d) : Canonical (opDieTemps d ts) := by
  unfold opDieTemps
  extract_lets temps hot _ d1 d2 _
  have h1 : Canonical d1 := canonical_of_mem ((setRg_mem _ _ _ _ _).trans (setPwr_mem _ _)) h
  have h2 : Canonical d2 := canonical_foldl (fun _ _ ht => wf_thermDie _ ht) _
    (canonical_of_mem (mem_foldl (fun _ _ => mem_thermWarn _ _ _) _ _) h1)
  split
  · exact canonical_of_mem (setPwr_mem _ _) h2
  · exact h2

@[simp] theorem mem_opBusRead (d : Dev) (target off n : Nat) : (opBusRead d target off n).mem = d.mem := by
  simp [opBusRead]

/-! ### Machine/BusOps.lean -/

theorem wf_onBit {d : Dev} {f : Dev → Dev} (v i : Nat) (hf : ∀ t, Canonical t → Canonical (f t)) (h : Canonical d) :
    Canonical (onBit v i f d) := by
  unfold onBit
  split
  · exact hf _ h
  · exact h

@[simp] theorem mem_onBit {d : Dev} {f : Dev → Dev} (v i : Nat) (hf : ∀ t, (f t).mem = t.mem) : (onBit v i f d).mem = d.mem := by
  unfold onBit
  split
  · exact hf d
  · rfl

@[simp] theorem wf_onBit_opCntClr {d : Dev} (v i die page : Nat) (h : Canonical d) :
    Canonical (onBit v i (fun d => opCntClr d die page) d) :=
  wf_onBit v i (fun _ ht => canonical_of_mem (mem_opCntClr _ _ _) ht) h

theorem wf_plainErr {d : Dev} {err : Dev → Dev} (off v : Nat) (herr : ∀ t, Canonical t → Canonical (err t)) (h : Canonical d) :
    Canonical (plainErr err off v d) := by
  have h1 : Canonical (plainWrite d off v).1 := canonical_of_mem (mem_plainWrite _ _ _) h
  unfold plainErr
  extract_lets r
  split
  · exact herr _ h1
  · exact h1

@[simp] theorem mem_setPortEn (d : Dev) (p : Nat) (en : Bool) : (setPortEn d p en).mem = d.mem := by
  simp [setPortEn]

@[simp] theorem mem_writeFabpCtrl (d : Dev) (p v : Nat) : (writeFabpCtrl d p v).mem = d.mem := by
  grind [writeFabpCtrl, mem_setPortEn, setRp_mem, mem_onBit, mem_opCntClr, mem_opCalReq, mem_retrainPort]

@[simp] theorem wf_writeBlkCtrl {d : Dev} (b : Blk) (die page v : Nat) (h : Canonical d) :
    Canonical (writeBlkCtrl d b die page v) := by
  unfold writeBlkCtrl
  extract_lets d1
  have h1 : Canonical d1 := by
    unfold d1
    split
    · exact canonical_of_mem (mem_opPwrReq _ _ _) h
    · exact canonical_of_mem (mem_setPortEn _ _ _) h
    · exact h
  split
  · exact wf_opBlockReset _ _ h1
  · exact h1

theorem wf_writeHdr {d : Dev} {err : Dev → Dev} (b : Blk) (die page reg v : Nat) (herr : ∀ t, Canonical t → Canonical (err t))
    (h : Canonical d) : Canonical (writeHdr d err b die page reg v) := by
  unfold writeHdr
  split
  · exact wf_writeBlkCtrl _ _ _ _ h
  · split
    · simp [h]
    · split
      · exact wf_onBit _ _ (fun t ht => by simp [ht]) h
      · exact wf_plainErr _ _ herr h

theorem wf_writeTimeCtrl {d : Dev} {err : Dev → Dev} (v : Nat) (herr : ∀ t, Canonical t → Canonical (err t)) (h : Canonical d) :
    Canonical (writeTimeCtrl d err v) := by
  unfold writeTimeCtrl
  extract_lets old d1 _ d2 _ d3
  have h1 : Canonical d1 := wf_plainErr _ _ herr h
  have h2 : Canonical d2 := by
    unfold d2
    split
    · exact canonical_of_mem (setTim_mem _ _) h1
    · exact h1
  have h3 : Canonical d3 := by
    unfold d3
    split
    · exact canonical_of_mem (setTim_mem _ _) h2
    · exact h2
  exact wf_onBit_opCntClr _ _ _ _ h3

@[simp] theorem mem_writeOrbCtrl (d : Dev) (v : Nat) : (writeOrbCtrl d v).mem = d.mem := by
  grind [writeOrbCtrl, mem_onBit, mem_opDisband, mem_opRunOrbit, mem_opOrbStart, mem_opLockReq]

@[simp] theorem wf_writePcieCtrl {d : Dev} (a : Acc) (p : HostPort) (v : Nat) (h : Canonical d) :
    Canonical (writePcieCtrl d a p v) := by
  unfold writePcieCtrl
  extract_lets d1 d2 d3
  have h1 : Canonical d1 := canonical_of_mem (setRg_mem _ _ _ _ _) h
  have h2 : Canonical d2 := by
    refine wf_onBit _ _ (fun t ht => ?_) h1
    split
    · exact wf_declareLost _ ht
    · exact ht
  have h3 : Canonical d3 := by
    refine wf_onBit _ _ (fun t ht => ?_) h2
    split
    · simp [ht]
    · exact ht
  exact wf_onBit_opCntClr _ _ _ _ h3

@[simp] theorem mem_freeRecord (d : Dev) : (freeRecord d).1.mem = d.mem := by
  simp [freeRecord]

@[simp] theorem wf_writeJobCtrl {d : Dev} (a : Acc) (j v : Nat) (h : Canonical d) : Canonical (writeJobCtrl d a j v) := by
  unfold writeJobCtrl
  extract_lets d1 d2
  have h1 : Canonical d1 := by
    unfold d1
    split
    · exact canonical_of_mem (setRj_mem _ _ _ _) h
    · exact h
  have h2 : Canonical d2 := wf_onBit _ _ (fun t ht => by simp [ht]) h1
  exact wf_onBit_opCntClr _ _ _ _ (wf_onBit _ _ (fun _ ht => wf_opDestroy _ ht) h2)

theorem wf_writeJobReg {d : Dev} {err : Dev → Dev} (a : Acc) (j reg v : Nat) (herr : ∀ t, Canonical t → Canonical (err t))
    (h : Canonical d) : Canonical (writeJobReg d a err j reg v) := by
  unfold writeJobReg
  split
  · exact wf_writeJobCtrl _ _ _ h
  · split
    · exact wf_onBit _ _ (fun t ht => by simp [ht]) (wf_onBit _ _ (fun t ht => by simp [ht]) h)
    · split
      · exact wf_opListSet _ _ _ h
      · split
        · simp [h]
        · split
          · split
            · simp [h]
            · split
              · simp [h]
              · exact h
          · exact wf_plainErr _ _ herr h

theorem wf_writeSecReg {d : Dev} {err : Dev → Dev} (a : Acc) (reg v : Nat) (herr : ∀ t, Canonical t → Canonical (err t))
    (h : Canonical d) : Canonical (writeSecReg d a err reg v) := by
  unfold writeSecReg
  split
  · exact wf_onBit_opCntClr _ _ _ _ h
  · split
    · exact h
    · split
      · split
        · simp [h]
        · split
          · simp [h]
          · exact h
      · split
        · exact h
        · exact wf_plainErr _ _ herr h

theorem wf_writePcieReg {d : Dev} {err : Dev → Dev} (a : Acc) (p : HostPort) (reg v : Nat)
    (herr : ∀ t, Canonical t → Canonical (err t))
    (h : Canonical d) : Canonical (writePcieReg d a err p reg v) := by
  unfold writePcieReg
  split
  · exact wf_writePcieCtrl _ _ _ h
  · split
    · simp [h]
    · split
      · simp [h]
      · exact wf_plainErr _ _ herr h

theorem wf_writeFabrReg {d : Dev} {err : Dev → Dev} (reg v : Nat) (herr : ∀ t, Canonical t → Canonical (err t)) (h : Canonical d)
    :
    Canonical (writeFabrReg d err reg v) := by
  unfold writeFabrReg
  split
  · exact wf_onBit_opCntClr _ _ _ _ h
  · split
    · split
      · simp [h]
      · split
        · simp [h]
        · exact h
    · split
      · exact wf_opMailbox _ herr h
      · split
        · exact wf_opRop _ _ h
        · split
          · simp [h]
          · exact wf_plainErr _ _ herr h

@[simp] theorem mem_writeBootCtrl (d : Dev) (a : Acc) (v : Nat) : (writeBootCtrl d a v).mem = d.mem := by
  grind [writeBootCtrl, mem_onBit, mem_opCntClr, mem_opConfirm, mem_opBootActivate, mem_opDiscard, mem_opBootStage]

@[simp] theorem wf_writeDevCtrl {d : Dev} (v : Nat) (h : Canonical d) : Canonical (writeDevCtrl d v) := by
  unfold writeDevCtrl
  refine wf_onBit_opCntClr _ _ _ _ (wf_onBit _ _ (fun t ht => by simp [ht]) (wf_onBit _ _ (fun t ht => by simp [ht]) ?_))
  split
  · simp [h]
  · simp [h]

@[simp] theorem mem_writeSeqCtrl (d : Dev) (n v : Nat) : (writeSeqCtrl d n v).mem = d.mem := by
  grind [writeSeqCtrl, mem_onBit, mem_opCntClr, mem_opStep, mem_opHalt]

theorem wf_busWrite {d : Dev} {err : Dev → Dev} (a : Acc) (t v : Nat) (herr : ∀ t, Canonical t → Canonical (err t))
    (h : Canonical d) :
    Canonical (busWrite d a err t v) := by
  have hplain (off : Nat) : Canonical (plainErr err off v d) := wf_plainErr off v herr h
  have hclr (die page : Nat) : Canonical (onBit v 0 (fun d => opCntClr d die page) d) := wf_onBit_opCntClr v 0 die page h
  unfold busWrite
  extract_lets die page reg
  split
  · exact h
  · next b _ =>
    split
    · exact wf_writeHdr _ _ _ _ _ herr h
    · split
      · split
        · simp [h]
        · exact hplain _
      · split
        · exact canonical_of_mem (mem_opInkMode _ _ _) (hclr _ _)
        · exact hplain _
      · split
        · simp [h]
        · exact hplain _
      · exact wf_writeFabrReg _ _ herr h
      · split
        · exact wf_writeTimeCtrl _ herr h
        · split
          · simp [h]
          · exact hplain _
      · exact wf_writePcieReg _ _ _ _ herr h
      · exact wf_writeJobReg _ _ _ _ herr h
      · exact wf_writeSecReg _ _ _ herr h
      · split
        · simp [h]
        · exact hplain _
      · split
        · exact hclr _ _
        · split
          · exact wf_onBit _ _ (fun t ht => by simp [ht]) h
          · split
            · simp [h]
            · exact hplain _
      · split
        · exact wf_writeDevCtrl _ h
        · split
          · exact wf_writeDieRst _ _ herr h
          · exact hplain _
      · split
        · exact hclr _ _
        · exact hplain _

@[simp] theorem wf_opRegWrite {d : Dev} (a : Acc) (off be v : Nat) (h : Canonical d) : Canonical (opRegWrite d a off be v) := by
  unfold opRegWrite
  split
  · exact h
  · split
    · exact h
    · have ha := mem_accWrite d a off
      split
      · next e => rw [e] at ha; exact canonical_of_mem ha h
      · next d1 t' e =>
        rw [e] at ha
        have h1 : Canonical d1 := canonical_of_mem ha h
        split
        · exact canonical_of_mem ((mem_latch _ _ _ _ _).trans (mem_countBar0Err _)) h1
        · exact wf_busWrite _ _ _ (fun _ ht => canonical_of_mem (mem_bar0Error _ _ _) ht) h1

@[simp] theorem mem_mgmtResp (d : Dev) (port : Nat) (p : Packet) (status data : Nat) :
    (mgmtResp d port p status data).mem = d.mem := by
  simp [mgmtResp]

@[simp] theorem mem_mgmtReject (d : Dev) (port : Nat) (p : Packet) : (mgmtReject d port p).mem = d.mem := by
  grind [mgmtReject, mem_mgmtResp, mem_latch, bump_mem]

@[simp] theorem mem_mgmtErr (p : Packet) (d : Dev) : (mgmtErr p d).mem = d.mem := by
  grind [mgmtErr, mem_latch, mem_countBar0Err]

@[simp] theorem wf_mgmtAccess {d : Dev} (port : Nat) (p : Packet) (h : Canonical d) : Canonical (mgmtAccess d port p) := by
  unfold mgmtAccess
  split
  · exact canonical_of_mem (mem_mgmtReject _ _ _) h
  · next t _ =>
    extract_lets r
    split
    · split
      · simp [r, h]
      · exact canonical_of_mem (mem_mgmtReject _ _ _) h
    · split
      · refine canonical_of_mem (mem_mgmtResp _ _ _ _ _) ?_
        split
        · exact wf_busWrite _ _ _ (fun _ ht => canonical_of_mem (mem_mgmtErr _ _) ht) h
        · exact h
      · exact canonical_of_mem (mem_mgmtReject _ _ _) h

@[simp] theorem wf_opMgmt {d : Dev} (port typ : Nat) (p : Packet) (h : Canonical d) : Canonical (opMgmt d port typ p) := by
  grind [opMgmt, mem_dropMalformed, wf_mgmtAccess]

@[simp] theorem wf_opMgmtWr {d : Dev} (port : Nat) (p : Packet) (h : Canonical d) : Canonical (opMgmtWr d port p) := by
  grind [opMgmtWr, wf_opMgmt]

@[simp] theorem wf_deliverGroup {d : Dev} (port : Nat) (p : Packet) (h : Canonical d) : Canonical (deliverGroup d port p) := by
  grind [deliverGroup, mem_opHaltRx, wf_mgmtAccess, mem_opFaultReport]

@[simp] theorem wf_forwardGroup {d : Dev} (port : Nat) (p : Packet) (h : Canonical d) : Canonical (forwardGroup d port p) := by
  unfold forwardGroup
  split
  · exact canonical_of_mem (mem_routeDrop _ _ _ _) h
  · next e _ =>
    split
    · exact canonical_of_mem (mem_routeDrop _ _ _ _) h
    · extract_lets named outs d1
      have h1 : Canonical d1 := by
        unfold d1
        split
        · exact h
        · split
          · exact canonical_of_mem (mem_routeDrop _ _ _ _) h
          · split
            · exact canonical_of_mem (mem_routeDrop _ _ _ _) h
            · exact canonical_of_mem (mem_foldl (fun _ _ => mem_sendPort _ _ _) _ _) h
      split
      · exact wf_deliverGroup _ _ h1
      · exact h1

@[simp] theorem wf_opForward {d : Dev} (port : Nat) (p : Packet) (ev : Upset) (h : Canonical d) :
    Canonical (opForward d port p ev) := by
  have hdrop (t : Dev) (r : Nat) (ht : Canonical t) :
    Canonical (routeDrop t port p r) := canonical_of_mem (mem_routeDrop _ _ _ _) ht
  have htab (drop : Fab → Fab) : Canonical (if ev = .tableUE then tableUE d drop else d) := by
    split
    · exact canonical_of_mem (mem_tableUE _ _) h
    · exact h
  have halt (t : Dev) (alt : Bool) (ht : Canonical t) : Canonical (if alt then bump t 56 16 0x204 1 else t) :=
    canonical_ite (fun _ => canonical_of_mem (bump_mem _ _ _ _ _) ht) (fun _ => ht)
  unfold opForward
  refine canonical_ite (fun _ => h) (fun _ => ?_)
  refine canonical_ite (fun _ => canonical_of_mem (mem_portUE _ _) h) (fun _ => ?_)
  refine canonical_ite (fun _ => canonical_of_mem (mem_dropMalformed _ _ _) h) (fun _ => ?_)
  refine canonical_ite (fun _ => canonical_of_mem (mem_holdWord _ _ _) h) (fun _ => ?_)
  refine canonical_ite (fun _ => h) (fun _ => ?_)
  refine canonical_ite (fun _ => hdrop _ _ h) (fun _ => ?_)
  refine canonical_ite (fun _ => wf_forwardGroup _ _ (htab _)) (fun _ => ?_)
  refine canonical_ite (fun _ => hdrop _ _ h) (fun _ => ?_)
  refine canonical_ite (fun _ => hdrop _ _ h) (fun _ => ?_)
  extract_lets d1
  have h1 : Canonical d1 := htab _
  split
  · exact hdrop _ _ h1
  · exact canonical_of_mem (mem_sendPort _ _ _) (halt _ _ h1)

@[simp] theorem mem_debugRead (d : Dev) (a n : Nat) : (debugRead d a n).1.mem = d.mem := by
  unfold debugRead; dsimp only; split <;> simp

@[simp] theorem wf_opJtag {d : Dev} (r : JtagReq) (h : Canonical d) : Canonical (opJtag d r) := by
  unfold opJtag
  split
  · exact h
  · split
    · exact h
    · next a n => exact canonical_of_mem (mem_debugRead d a.toNat n) h
    · next n i =>
      extract_lets c
      split
      · exact canonical_of_mem ((emit_mem _ _).trans (mem_sealHit _ _ _)) h
      · exact h
    · next off => exact canonical_of_mem (mem_accRead d .jtag off.toNat) h
    · exact wf_opRegWrite _ _ _ _ h

/-! ### Every command -/

/-- The answer `o` of a meaning at `s` has a byte memory in the canonical form when `s` has. -/
def KeepsForm (s : State) (o : Host.Outcome State Fault Refusal) : Prop :=
  memCanonical s → ∀ t, o = .next t → memCanonical t

theorem keepsForm_next {s t : State} (h : memCanonical s → memCanonical t) : KeepsForm s (.next t) := by
  intro hs u hu
  cases hu
  exact h hs

theorem okDev_keepsForm {s : State} {d : Dev} (h : Canonical s.dev → Canonical d) : KeepsForm s (okDev s d) :=
  keepsForm_next fun hs => canonical_ite (fun _ => hs) (fun _ => h hs)

theorem okAny_keepsForm {s : State} {d : Dev} (h : Canonical s.dev → Canonical d) : KeepsForm s (okAny s d) :=
  keepsForm_next h

theorem guardWf_keepsForm {s : State} {o : Host.Outcome State Fault Refusal} (ok : Bool) (h : KeepsForm s o) :
    KeepsForm s (guardWf ok s o) := by
  unfold guardWf
  split
  · exact h
  · exact keepsForm_next id

theorem withReg_keepsForm {s : State} {a : Acc} {off : Nat} {f : Dev → Dev} (hf : ∀ t, Canonical t → Canonical (f t)) :
    KeepsForm s (okDev s (withReg s.dev a off f)) := okDev_keepsForm (wf_withReg hf)

theorem execCntClr_keepsForm (acc : Acc) (die : Fin 64) (page : Fin 1024) (s : State) :
    KeepsForm s (execCntClr acc die page s) := by
  unfold execCntClr
  split
  · exact okDev_keepsForm id
  · exact withReg_keepsForm fun _ ht => canonical_of_mem (mem_opCntClr _ _ _) ht

theorem exec_keepsForm (c : Instr) (s : State) : KeepsForm s (exec c s) := by
  cases c with
  | forward | put | getReq | atomic | orbitData | orbitSignal | cal | calEcho | startRx | heartbeat | haltRx | mgmtRd | mgmtWr
  | faultReport | linkFrameRx | bar2Read | bar2Write | dieTempRead =>
    exact guardWf_keepsForm _ (okDev_keepsForm fun h => by simp [h])
  | putAck | getResp | atomicResp | nack | mgmtResp =>
    exact guardWf_keepsForm _ (okDev_keepsForm fun h => wf_responseRx (fun t ht => by simp [ht]) h)
  | perstAssert | perstDeassert | powerOnReset | modRstNAssert | powerLoss | powerLossSequenceEnd | mgmtBusRead | jtagAccess =>
    exact okAny_keepsForm fun h => by simp [h]
  | cntClr acc die page => exact execCntClr_keepsForm acc die page s
  | sqDoorbell | cqDoorbell => exact okDev_keepsForm fun h => canonical_ite (fun _ => by simp [h]) (fun _ => h)
  | inkwellModeWrite | retrain | handleOpen | handleFree | remoteAtomic | calReq | lockReq | orbStart | runOrbit | disband
  | sqErrClear | coreHalt | coreStep | bind | unbind | declarationWrite | activate | destroy | prefetchListSet | install | erase
  | release | mgmtClaim | pcieAdopt | pcieVfJobs | timeStep | fltInject | fltStatClear | irqPendClear | fltagLogRdWrite
  | testEnter | testLeave | recover | devReset | bootStage | bootDiscard | bootActivate | bootConfirm | pwrReq =>
    exact withReg_keepsForm fun t ht => by simp [ht]
  | mailboxStart =>
    exact withReg_keepsForm fun t ht => wf_opMailbox _ (fun u hu => canonical_of_mem (mem_bar0Error _ _ _) hu) ht
  | _ => exact okDev_keepsForm fun h => by simp [h]

/-- Settles O8: the form is kept by the cycle of an idle module and, operation by operation, by every command. -/
theorem memoryStaysCanonical : Obligations.MemoryStaysCanonical := by
  rintro ⟨q, d⟩ t hs ht
  cases q with
  | nil =>
    cases ht
    exact wf_tick hs
  | cons c rest => exact exec_keepsForm c ⟨rest, d⟩ hs t ht

end Sys2Proof.Machine

/-! SUPPORT. The copies of objects that ALLOC, CLAIM and EVICT work on (08 R239 to R248). -/

namespace Sys2Proof.Machine
open Sys2Proof

/-! ### Objects and their copies -/

theorem copyOf_setCopy (o : Obj) (tier : Nat) (x : CopySt) : copyOf (setCopy o tier x) tier = x := by
  unfold setCopy
  split
  · rfl
  · rfl
  · next h1 h2 =>
    unfold copyOf
    split
    · exact absurd rfl h1
    · exact absurd rfl h2
    · rfl

@[simp] theorem obj_setObj_same (d : Dev) (oid : Nat) (o : Obj) : obj (setObj d oid o) oid = some o :=
  SMap.get?_insert_same _ _ _

/-- What setting a copy leaves of the object's entry. -/
theorem setCopy_entry (o : Obj) (tier : Nat) (x : CopySt) :
    (setCopy o tier x).size = o.size ∧ (setCopy o tier x).creator = o.creator ∧ (setCopy o tier x).newBy = o.newBy := by
  unfold setCopy
  split <;> exact ⟨rfl, rfl, rfl⟩

/-- A copy that exists for the command belongs to a listed object. -/
theorem copyFor_listed {d : Dev} {uid oid tier : Nat} {o : Obj} {x : CopySt} (h : copyFor d uid oid tier = some (o, x)) :
    obj d oid = some o ∧ copyOf o tier = x := by
  unfold copyFor at h
  split at h
  · next o' ho =>
    dsimp only at h
    split at h
    · cases h
      exact ⟨ho, rfl⟩
    · cases h
  · cases h

/-! ### The pages of a copy that has none -/

/-- The FTL's unmapping changes the flash alone. -/
theorem ftlUnmap_ext (d : Dev) (kind id : Nat) : ftlUnmap d kind id = { d with ext := (ftlUnmap d kind id).ext } := by
  unfold ftlUnmap
  refine foldl_keeps (P := fun t : Dev => t = { d with ext := t.ext }) (fun t sd ht => ?_) [0, 1] d rfl
  extract_lets x us
  split
  · exact ht
  · rw [ht]
    rfl

/-- The granules of a copy that has none are freed by unmapping its flash pages alone. -/
theorem freeGrans_unlisted {d : Dev} {kind id : Nat} (h : ∀ e ∈ d.mem.roots, e.1 / 2 ^ 32 ≠ kind * 2 ^ 32 + id) :
    freeGrans d kind id = if kind = 4 then ftlUnmap d kind id else d := by
  have hnone : d.mem.roots.filter (fun e => e.1 / 2 ^ 32 == kind * 2 ^ 32 + id) = [] :=
    List.filter_eq_nil_iff.mpr fun e he => by simpa using h e he
  have hkeep : SMap.keep d.mem.roots (fun k _ => k / 2 ^ 32 != kind * 2 ^ 32 + id) = d.mem.roots :=
    List.filter_eq_self.mpr fun e he => bne_iff_ne.mpr (h e he)
  have hmem : (if kind = 4 then ftlUnmap d kind id else d).mem = d.mem := by
    split
    · exact mem_ftlUnmap d kind id
    · rfl
  unfold freeGrans
  rw [hnone]
  dsimp only [List.foldl_nil]
  generalize (if kind = 4 then ftlUnmap d kind id else d) = d1 at hmem
  rw [hmem, hkeep, ← hmem]

/-! ### The hold of a command -/

/-- The record of a command that has begun. -/
def begun (c : Cmd) : Cmd := { c with phase := .running }

/-- The record of a command that has taken a hold on one more copy (08 R246). -/
def holding (c : Cmd) (tier oid : Nat) : Cmd := { c with held := c.held ++ [(tier, oid)] }

/-- The object when the copy in `tier` has one more hold. -/
def heldCopy (o : Obj) (tier : Nat) : Obj := setCopy o tier { copyOf o tier with holds := (copyOf o tier).holds + 1 }

theorem startCopyOp_begun {d : Dev} {uid k : Nat} {c : Cmd} {ready : Cmd → Bool} (f : Dev → Cmd → Dev)
    (h : MayStart d uid 0x02 c) (hk : dBits c.desc 8 3 0 = k) (hr : ready c = true) :
    startCopyOp d uid k ready f = f (setCmd d uid (begun c)) (begun c) := startCopyOp_start f h hk hr

/-- The hold that a command takes on a copy it does not hold yet. -/
theorem takeHold_first {d : Dev} {uid tier oid : Nat} {c : Cmd} {o : Obj} (hc : cmd d uid = some c)
    (hh : c.held.contains (tier, oid) = false) (ho : obj d oid = some o) :
    takeHold d uid tier oid = setObj (setCmd d uid (holding c tier oid)) oid (heldCopy o tier) := by
  unfold takeHold
  rw [hc]
  dsimp only
  rw [hh]
  unfold holdCopy
  rw [if_neg Bool.false_ne_true, obj_setCmd, ho]
  rfl

/-- The module when the command has taken its hold on the copy in `tier` of the object `o`, its record being `c`, and requested
the token. -/
def heldAndRequested (d : Dev) (uid tier oid : Nat) (c : Cmd) (o : Obj) : Dev :=
  requested (setObj d oid (heldCopy o tier)) uid (holding c tier oid)

theorem takeHold_requestCommit {d : Dev} {uid tier oid : Nat} {c : Cmd} {o : Obj} (hc : cmd d uid = some c)
    (hp : c.phase = .running) (hl : c.coresLeft = []) (ht : c.t4left = 0) (hh : c.held.contains (tier, oid) = false)
    (ho : obj d oid = some o) :
    requestCommit (takeHold d uid tier oid) uid = heldAndRequested d uid tier oid c o := by
  have hrec : cmd (setObj (setCmd d uid (holding c tier oid)) oid (heldCopy o tier)) uid = some (holding c tier oid) :=
    cmd_setCmd_same d uid _
  rw [takeHold_first hc hh ho, requestCommit_running hrec hp hl ht]
  exact requested_setCmd (setObj d oid _) uid _ _

/-- What the hold and the request change (08 R246; 10 R317). -/
theorem heldAndRequested_spec (d : Dev) (uid tier oid : Nat) (c : Cmd) (o : Obj) :
    (∃ o', obj (heldAndRequested d uid tier oid c o) oid = some o' ∧
      copyOf o' tier = { copyOf o tier with holds := (copyOf o tier).holds + 1 }) ∧
    (∃ c', cmd (heldAndRequested d uid tier oid c o) uid = some c' ∧ c'.phase = .worked ∧ c'.newCopies = c.newCopies ∧
      c'.held = c.held ++ [(tier, oid)]) ∧
    (heldAndRequested d uid tier oid c o).qm.commitQ = d.qm.commitQ ++ [uid] :=
  ⟨⟨_, obj_setObj_same d oid _, copyOf_setCopy o tier _⟩, ⟨_, cmd_requested _ uid _, rfl, rfl, rfl⟩, rfl⟩

/-! ### CLAIM and EVICT -/

section Started
variable {d : Dev} {uid : Nat} {c : Cmd}

/-- A command that has just begun holds a copy and requests the token. -/
theorem begun_holds {o : Obj} (h : MayStart d uid 0x02 c) (hh : c.held.contains (cTier c, cOid c) = false)
    (ho : obj d (cOid c) = some o) :
    requestCommit (takeHold (setCmd d uid (begun c)) uid (cTier c) (cOid c)) uid
      = heldAndRequested d uid (cTier c) (cOid c) c o := by
  have hl : (begun c).coresLeft = [] := congrArg Cmd.coresLeft h.fresh.own
  have ht : (begun c).t4left = 0 := congrArg Cmd.t4left h.fresh.own
  rw [takeHold_requestCommit (cmd_setCmd_same d uid _) rfl hl ht hh ho]
  exact requested_setCmd (setObj d (cOid c) _) uid _ _

theorem opClaim_holds {o : Obj} {x : CopySt} (h : MayStart d uid 0x02 c) (ht : okTier (cTier c) = true)
    (hop : dBits c.desc 8 3 0 = 2) (hh : c.held.contains (cTier c, cOid c) = false)
    (hcopy : copyFor d uid (cOid c) (cTier c) = some (o, x)) (hmay : mayClaim d o c.job = true) :
    opClaim d uid = heldAndRequested d uid (cTier c) (cOid c) c o := by
  refine (startCopyOp_begun _ h hop rfl).trans ?_
  have htier : (!okTier (cTier (begun c))) = false := by rw [show cTier (begun c) = cTier c from rfl, ht]; rfl
  have hfor : copyFor (setCmd d uid (begun c)) uid (cOid (begun c)) (cTier (begun c)) = some (o, x) := hcopy
  rw [htier, hfor, if_neg Bool.false_ne_true]
  exact (if_pos hmay).trans (begun_holds h hh (copyFor_listed hcopy).1)

theorem opEvict_holds {o : Obj} {x : CopySt} (h : MayStart d uid 0x02 c) (ht : okTier (cTier c) = true)
    (hop : dBits c.desc 8 3 0 = 3) (hh : c.held.contains (cTier c, cOid c) = false)
    (hcopy : copyFor d uid (cOid c) (cTier c) = some (o, x)) :
    opEvict d uid = heldAndRequested d uid (cTier c) (cOid c) c o := by
  refine (startCopyOp_begun _ h hop rfl).trans ?_
  have htier : (!okTier (cTier (begun c))) = false := by rw [show cTier (begun c) = cTier c from rfl, ht]; rfl
  have hfor : copyFor (setCmd d uid (begun c)) uid (cOid (begun c)) (cTier (begun c)) = some (o, x) := hcopy
  rw [htier, hfor, if_neg Bool.false_ne_true]
  exact begun_holds h hh (copyFor_listed hcopy).1

/-! ### ALLOC -/

/-- The entry that ALLOC makes of its descriptor (08 R239, R242). -/
def allocObj (uid : Nat) (c : Cmd) : Obj :=
  let w := dBits c.desc 8 31 0
  { size := dBytes c.desc 32 4, shared := w.testBit 20, ro := w.testBit 21, mirror := w.testBit 22, t1die := bitsOf w 18 16,
    creator := c.job, shareTag := dBytes c.desc 36 2, c1 := noCopy, c2 := noCopy, c4 := noCopy, newBy := uid }

/-- The record of a command that has created a copy. -/
def creating (c : Cmd) (tier oid : Nat) : Cmd := { c with newCopies := c.newCopies ++ [(tier, oid)] }

/-- A copy that fits and that no granule is listed of: the table entry, the command's record, and in tier 4 the flash. -/
theorem createCopy_fits {d : Dev} {uid j oid tier : Nat} {o : Obj} {c : Cmd} (hc : cmd d uid = some c)
    (hroots : ∀ e ∈ d.mem.roots, e.1 / 2 ^ 32 ≠ tier * 2 ^ 32 + oid) (hfits : fits d j tier (chargeOf o tier) o.t1die = true) :
    ∃ e, createCopy d uid j oid tier o
        = .ok (setCmd (setObj { d with ext := e } oid (setCopy o tier (newCopy uid j))) uid (creating c tier oid)) ∧
      (tier ≠ 4 → e = d.ext) := by
  have hfree : ∃ e, freeGrans d tier oid = { d with ext := e } ∧ (tier ≠ 4 → e = d.ext) := by
    rw [freeGrans_unlisted hroots]
    split
    · next h4 => exact ⟨_, ftlUnmap_ext d tier oid, fun hne => absurd h4 hne⟩
    · exact ⟨d.ext, rfl, fun _ => rfl⟩
  obtain ⟨e, he, hext⟩ := hfree
  refine ⟨e, ?_, hext⟩
  have hrec : cmd (setObj { d with ext := e } oid (setCopy o tier (newCopy uid j))) uid = some c := hc
  unfold createCopy
  rw [hfits, he, if_pos rfl]
  dsimp only
  rw [hrec]
  rfl

/-- The field of the charge in the descriptor's word (08 R239). -/
theorem dBits_t1die (w : BitVec 512) : bitsOf (dBits w 8 31 0) 18 16 = dBits w 8 18 16 := by
  unfold dBits bitsOf
  simp only [Nat.shiftRight_eq_div_pow]
  omega

/-- A copy that fits its tier fits its inkwell (08 R239). -/
theorem inkFree_of_fits {d : Dev} {j tier : Nat} {o : Obj} (h : fits d j tier (chargeOf o tier) o.t1die = true) :
    (tier == 1 && decide (inkFree d o.t1die < o.size)) = false := by
  unfold fits at h
  obtain ⟨-, hroom⟩ := Bool.and_eq_true_iff.mp h
  by_cases h1 : tier = 1
  · subst h1
    rw [if_pos rfl] at hroom
    have hle : o.size ≤ inkFree d o.t1die := of_decide_eq_true hroom
    simpa using hle
  · rw [beq_false_of_ne h1]
    rfl

theorem heldAndRequested_created (e : Ext) (o : Obj) :
    heldAndRequested (setCmd (setObj { setCmd d uid (begun c) with ext := e } (cOid c) o) uid (creating (begun c) (cTier c) (cOid c)))
      uid (cTier c) (cOid c) (creating (begun c) (cTier c) (cOid c)) o
      = heldAndRequested { d with ext := e } uid (cTier c) (cOid c) (creating c (cTier c) (cOid c)) o := by
  unfold heldAndRequested requested setObj setCmd
  simp only [SMap.insert_insert]
  rfl

theorem opAlloc_creates (h : MayStart d uid 0x02 c) (ht : okTier (cTier c) = true) (hop : dBits c.desc 8 3 0 = 1)
    (hh : c.held.contains (cTier c, cOid c) = false) (hnew : obj d (cOid c) = none)
    (hroots : ∀ e ∈ d.mem.roots, e.1 / 2 ^ 32 ≠ cTier c * 2 ^ 32 + cOid c) (hpos : 1 ≤ dBytes c.desc 32 4)
    (hmax : dBytes c.desc 32 4 ≤ 0x10000000)
    (hfits : fits (setCmd d uid (begun c)) c.job (cTier c) (chargeOf (allocObj uid c) (cTier c)) (allocObj uid c).t1die = true) :
    ∃ e, opAlloc d uid = heldAndRequested { d with ext := e } uid (cTier c) (cOid c) (creating c (cTier c) (cOid c))
        (setCopy (allocObj uid c) (cTier c) (newCopy uid c.job)) ∧ (cTier c ≠ 4 → e = d.ext) := by
  obtain ⟨e, he, hext⟩ := createCopy_fits (d := setCmd d uid (begun c)) (cmd_setCmd_same d uid _) hroots hfits
  refine ⟨e, ?_, hext⟩
  have hsize : (!okTier (cTier (begun c)) || decide (dBytes (begun c).desc 32 4 = 0)
      || decide (dBytes (begun c).desc 32 4 > 0x10000000)) = false := by
    have hok : okTier (cTier (begun c)) = true := ht
    have hne : dBytes (begun c).desc 32 4 ≠ 0 := Nat.ne_of_gt hpos
    have hle : ¬ dBytes (begun c).desc 32 4 > 0x10000000 := Nat.not_lt.mpr hmax
    rw [hok, decide_eq_false hne, decide_eq_false hle]
    rfl
  have hnone : obj (setCmd d uid (begun c)) (cOid (begun c)) = none := hnew
  have hbig : (cTier (begun c) == 1 && decide (inkFree (setCmd d uid (begun c)) (allocObj uid c).t1die < (allocObj uid c).size))
      = false := inkFree_of_fits hfits
  have hcopy : createCopy (setCmd d uid (begun c)) uid (begun c).job (cOid (begun c)) (cTier (begun c)) (allocObj uid c) = _ := he
  refine (startCopyOp_begun _ h hop rfl).trans ?_
  dsimp only
  rw [hsize, if_neg Bool.false_ne_true, hnone]
  dsimp only
  refine (if_neg (show ¬ _ = true from hbig ▸ Bool.false_ne_true)).trans ?_
  generalize hr : createCopy _ _ _ _ _ _ = r
  obtain rfl := hr.symm.trans he
  have hl : (creating (begun c) (cTier c) (cOid c)).coresLeft = [] := congrArg Cmd.coresLeft h.fresh.own
  have ht4 : (creating (begun c) (cTier c) (cOid c)).t4left = 0 := congrArg Cmd.t4left h.fresh.own
  exact (takeHold_requestCommit (cmd_setCmd_same _ uid _) rfl hl ht4 hh
    ((obj_setCmd _ _ _ _).trans (obj_setObj_same _ _ _))).trans
    (heldAndRequested_created e _)

end Started

/-- The new copy is claimed by the job that created it, if it is one of the 256 (08 R245). -/
theorem claims_newCopy (uid j : Nat) : claims (newCopy uid j) j = decide (j < 256) := by
  simp [claims, newCopy]

/-- The copy that ALLOC leaves: present, paid and claimed by its job, seen by its command alone, held once. -/
theorem allocated_copy (uid : Nat) (c : Cmd) :
    copyOf (heldCopy (setCopy (allocObj uid c) (cTier c) (newCopy uid c.job)) (cTier c)) (cTier c)
      = { newCopy uid c.job with holds := 1 } := by
  rw [heldCopy, copyOf_setCopy, copyOf_setCopy]
  rfl

/-- The entry that ALLOC leaves. -/
theorem allocated_entry (uid : Nat) (c : Cmd) :
    let o := heldCopy (setCopy (allocObj uid c) (cTier c) (newCopy uid c.job)) (cTier c)
    o.size = dBytes c.desc 32 4 ∧ o.creator = c.job ∧ o.newBy = uid := by
  obtain ⟨hs, hc, hn⟩ := setCopy_entry (allocObj uid c) (cTier c) (newCopy uid c.job)
  obtain ⟨hs', hc', hn'⟩ := setCopy_entry (setCopy (allocObj uid c) (cTier c) (newCopy uid c.job)) (cTier c) _
  exact ⟨hs'.trans hs, hc'.trans hc, hn'.trans hn⟩

/-- Settles O20: ALLOC's checks pass and the copy is created (`createCopy_fits`); each of the three then takes one hold and requests
the token (`heldAndRequested`). -/
theorem objectsAreAllocatedClaimedAndEvicted : Obligations.ObjectsAreAllocatedClaimedAndEvicted := by
  unfold Obligations.ObjectsAreAllocatedClaimedAndEvicted
  intro s uid c hlive hm ht hh
  refine ⟨fun hop hnew hroots hpos hmax hfits => ?alloc, fun o cp hcopy i _ hi => ?hold⟩
  case alloc =>
    have hfits' : fits (setCmd s.dev uid (begun c)) c.job (cTier c) (chargeOf (allocObj uid c) (cTier c)) (allocObj uid c).t1die
        = true := by
      rw [show (allocObj uid c).t1die = dBits c.desc 8 18 16 from dBits_t1die c.desc]
      exact hfits
    obtain ⟨e, he, hext⟩ := opAlloc_creates hm ht hop hh hnew hroots hpos hmax hfits'
    refine completes_okDev hlive (congrArg (okDev s) he) ?_
    obtain ⟨hsize, hcreator, hby⟩ := allocated_entry uid c
    have hcp := allocated_copy uid c
    refine ⟨⟨_, obj_setObj_same _ _ _, hsize, hcreator, hby, ?_, ?_, ?_, ?_, ?_⟩,
      ⟨_, cmd_requested _ uid _, rfl, rfl⟩, rfl, hext, rfl⟩
    · exact congrArg CopySt.present hcp
    · exact congrArg CopySt.payer hcp
    · exact (congrArg (claims · c.job) hcp).trans (claims_newCopy uid c.job)
    · exact congrArg CopySt.newBy hcp
    · exact congrArg CopySt.holds hcp
  case hold =>
    obtain ⟨⟨o', ho', hcp⟩, ⟨c', hc', hphase, -, hheld⟩, hq⟩ := heldAndRequested_spec s.dev uid (cTier c) (cOid c) c o
    rw [(copyFor_listed hcopy).2] at hcp
    obtain ⟨rfl, hop, hmay⟩ | ⟨rfl, hop⟩ := hi
    · exact completes_okDev hlive (congrArg (okDev s) (opClaim_holds hm ht hop hh hcopy hmay))
        ⟨⟨o', ho', hcp⟩, ⟨c', hc', hphase, hheld⟩, hq, rfl⟩
    · exact completes_okDev hlive (congrArg (okDev s) (opEvict_holds hm ht hop hh hcopy))
        ⟨⟨o', ho', hcp⟩, ⟨c', hc', hphase, hheld⟩, hq, rfl⟩

end Sys2Proof.Machine

/-! SUPPORT. The words of a prefetch list's register (08 R252; 10 R331). -/

namespace Sys2Proof.Machine
open Sys2Proof

/-! ### Masks -/

/-- A field of a word, as a mask leaves it. -/
theorem and_field (x n lo : Nat) : x &&& ((2 ^ n - 1) * 2 ^ lo) = x / 2 ^ lo % 2 ^ n * 2 ^ lo := by
  refine Nat.eq_of_testBit_eq fun i => ?_
  simp only [Nat.testBit_and, Nat.testBit_mul_two_pow, Nat.testBit_two_pow_sub_one, Nat.testBit_mod_two_pow,
    Nat.testBit_div_two_pow]
  by_cases hi : lo ≤ i
  · simp only [hi, decide_true, Bool.true_and, Nat.sub_add_cancel hi]
    exact Bool.and_comm _ _
  · simp [hi]

/-- The reserved field of PREFETCH_CTRL, and the two that a write stores. -/
theorem and_reserved (x : Nat) : x &&& 0x00E00000 = x / 2 ^ 21 % 8 * 2 ^ 21 := and_field x 3 21

theorem and_stored (x : Nat) : x &&& 0xFF1FFFFF = x / 2 ^ 24 % 256 * 2 ^ 24 + x % 2 ^ 21 := by
  have hlow : x &&& 0x1FFFFF = x % 2 ^ 21 := Nat.and_two_pow_sub_one_eq_mod x 21
  have hhigh : x &&& 0xFF000000 = x / 2 ^ 24 % 256 * 2 ^ 24 := and_field x 8 24
  have hsplit : (0xFF1FFFFF : Nat) = 0xFF000000 ||| 0x1FFFFF := by decide
  rw [hsplit, Nat.and_or_distrib_left, hlow, hhigh, Nat.mul_comm _ (2 ^ 24)]
  exact (Nat.two_pow_add_eq_or_of_lt (by omega) _).symm

/-- The word that a write of `v` leaves in PREFETCH_CTRL, `old` having been shown there. -/
def listWord (old v : Nat) : Nat := (old &&& 0x00E00000) + (v &&& 0xFF1FFFFF)

theorem listWord_fields (old v : Nat) :
    bitsOf (listWord old v) 20 0 = bitsOf v 20 0 ∧ bitsOf (listWord old v) 31 24 = bitsOf v 31 24 ∧
      listWord old v < 2 ^ 32 := by
  unfold listWord bitsOf
  rw [and_reserved, and_stored]
  simp only [Nat.shiftRight_eq_div_pow]
  omega

/-! ### The write -/

section Page
variable {d : Dev} {j : Nat}

/-- A count that the register takes is stored (10 R331). -/
theorem plainWrite_list (hj : j < 256) {v : Nat} (hv : bitsOf v 20 0 ≤ 1048576) :
    ∃ old, plainWrite d (regOff 60 (jPage j) 0x188) v = (setRj d j 0x188 (listWord old v), false) := by
  have hp : jPage j < 1024 := by unfold jPage; omega
  have hrow : findRow .qmgrJ 0x188 = some ⟨0x188, 0xFF1FFFFF, 0x00000000, 0x01000000, false⟩ := by decide
  have hcount : bitsOf (v &&& 0xFF1FFFFF) 20 0 = bitsOf v 20 0 := by
    rw [and_stored]
    unfold bitsOf
    simp only [Nat.shiftRight_eq_div_pow]
    omega
  have hfix (old : Nat) : rangeFix .qmgrJ 0x188 old (v &&& 0xFF1FFFFF) = (v &&& 0xFF1FFFFF, false) := by
    have hok : ¬ bitsOf (v &&& 0xFF1FFFFF) 20 0 > 1048576 := by rw [hcount]; exact Nat.not_lt.mpr hv
    simp [rangeFix, hok]
  have hall (x : Nat) (hx : x < 2 ^ 32) : x &&& 0xFFFFFFFF = x :=
    (Nat.and_two_pow_sub_one_eq_mod x 32).trans (Nat.mod_eq_of_lt hx)
  refine ⟨regVal d (regOff 60 (jPage j) 0x188), ?_⟩
  unfold plainWrite
  simp only [offDie_regOff (show 60 < 64 by decide) hp (show 0x188 < 4096 by decide),
    offPage_regOff 60 hp (show 0x188 < 4096 by decide), offReg_regOff 60 (jPage j) (show 0x188 < 4096 by decide),
    blkAt_jobPage hj, hrow]
  simp only [Nat.reduceEqDiff, decide_false, Bool.false_and, Bool.false_eq_true, if_false, Nat.reduceLT, Nat.reduceSub, hfix,
    Nat.and_zero, Nat.sub_zero]
  exact congrArg (fun w => (setRj d j 0x188 w, false)) (hall _ (listWord_fields _ v).2.2)

/-! ### The entries that the count makes eligible (08 R252) -/

theorem readRoot_congr {t : Dev} (hbytes : t.mem.bytes = d.mem.bytes) (hroots : t.mem.roots = d.mem.roots) (hext : t.ext = d.ext)
    (k off n : Nat) : readRoot t k off n = readRoot d k off n := by
  unfold readRoot
  rw [rootOf_of_roots hroots]
  cases rootOf d k with
  | none => rfl
  | some s => exact List.map_congr_left fun _ _ => stByte_congr hbytes hext _ _

/-- Bytes read the same where the stored bytes, the roots and the buffered lines are the same. -/
theorem rawBytes_congr {t : Dev} (hbytes : t.mem.bytes = d.mem.bytes) (hroots : t.mem.roots = d.mem.roots) (hext : t.ext = d.ext)
    (a : DevAddr) (n : Nat) : rawBytes t a n = rawBytes d a n := by
  cases a with
  | t0 c o => exact readT0_congr hbytes hext c o n
  | obj t' oid o => exact readRoot_congr hbytes hroots hext _ _ n
  | t3 h o => rfl
  | bad => rfl

theorem pfBytes_congr {t : Dev} (hbase : rj64 t j 0x180 = rj64 d j 0x180) (hbytes : t.mem.bytes = d.mem.bytes)
    (hroots : t.mem.roots = d.mem.roots) (hext : t.ext = d.ext) (i : Nat) : pfBytes t j i = pfBytes d j i := by
  unfold pfBytes
  rw [hbase, rawBytes_congr hbytes hroots hext]

theorem rj_of_regs {t : Dev} (h : t.regs = d.regs) (reg : Nat) : rj t j reg = rj d j reg :=
  rg_of_regs h _ _ _

theorem rj64_of_regs {t : Dev} (h : t.regs = d.regs) (reg : Nat) : rj64 t j reg = rj64 d j reg := by
  unfold rj64 rg64
  rw [rg_of_regs h, rg_of_regs h]

theorem pfLook_of_regs {t : Dev} (h : t.regs = d.regs) : pfLook t j = pfLook d j := by
  unfold pfLook
  rw [rj_of_regs h]

theorem job_setPf (h : SMap.sorted d.qm.jobs = true) (j i : Nat) (p : PfState) :
    job (setPf d j i p) j = { job d j with pf := SMap.insert (job d j).pf i p } := job_setJob_sorted h j _

theorem sorted_setPf (h : SMap.sorted d.qm.jobs = true) (j i : Nat) (p : PfState) :
    SMap.sorted (setPf d j i p).qm.jobs = true := sorted_setJob h j _

/-- The entry waits for no step and its step lies within the look-ahead. -/
def Reached (d : Dev) (j i : Nat) : Prop := pfWait (pfBytes d j i) = 0 ∧ pfStepOf (pfBytes d j i) ≤ pfLook d j

/-- Of the entries, those of which `P` holds are eligible and no other is listed. -/
def EligibleAre (t : Dev) (j : Nat) (P : Nat → Prop) : Prop :=
  ∀ i, (P i → SMap.get? (job t j).pf i = some .eligible) ∧ (¬ P i → SMap.get? (job t j).pf i = none)

/-- What the entries before `k` leave: the marks, and the eligible entries. -/
structure Eligibles (d : Dev) (j k : Nat) (t : Dev) : Prop where
  side : MarkSide j d t
  listed : EligibleAre t j (fun i => i < k ∧ Reached d j i)

theorem eligibles_markEligible (hj : SMap.sorted d.qm.jobs = true) (hstep : (job d j).pfStep = 0) (hpf : (job d j).pf = []) :
    Eligibles d j (pfCount d j) (markEligible d j) := by
  unfold markEligible
  generalize pfCount d j = n
  induction n with
  | zero =>
    refine ⟨⟨rfl, hj, rfl⟩, fun i => ⟨fun h => absurd h.1 (Nat.not_lt_zero i), fun _ => ?_⟩⟩
    rw [List.range_zero, List.foldl_nil, hpf]
    rfl
  | succ n ih =>
    rw [List.range_succ, List.foldl_append, List.foldl_cons, List.foldl_nil]
    generalize List.foldl _ d (List.range n) = t at ih ⊢
    obtain ⟨side, listed⟩ := ih
    have hregs : t.regs = d.regs := (congrArg Dev.regs side.rest).trans rfl
    have hbytes : pfBytes t j n = pfBytes d j n :=
      pfBytes_congr (rj64_of_regs hregs _) (congrArg (fun x => x.mem.bytes) side.rest) (congrArg (fun x => x.mem.roots) side.rest)
        ((congrArg Dev.ext side.rest).trans rfl) n
    have hlook : pfLook t j = pfLook d j := pfLook_of_regs hregs
    have hnew : SMap.has (job t j).pf n = false := by
      have hn := (listed n).2 (fun h => Nat.lt_irrefl n h.1)
      simp [SMap.has, hn]
    change Eligibles d j (n + 1) (if (SMap.has (job t j).pf n || decide ((job t j).pfStep < pfWait (pfBytes t j n)) ||
        decide ((job t j).pfStep + pfLook t j < pfStepOf (pfBytes t j n))) = true then t
      else markEntry (setPf t j n .eligible) j n (pfBytes t j n))
    rw [hnew, hbytes, hlook, side.step, hstep, Bool.false_or, Nat.zero_add]
    by_cases hreach : Reached d j n
    · rw [if_neg (by unfold Reached at hreach; simp only [Bool.or_eq_true, decide_eq_true_eq]; omega)]
      obtain ⟨m, hm⟩ := marksOnly_markEntry (setPf t j n .eligible) j n (pfBytes d j n)
      have hjob := job_setPf side.canon j n .eligible
      rw [hm]
      refine ⟨⟨?_, sorted_setPf side.canon j n .eligible, (congrArg Job.pfStep hjob).trans side.step⟩, fun i => ?_⟩
      · rw [side.rest]
        rfl
      · change (i < n + 1 ∧ Reached d j i → SMap.get? (job (setPf t j n .eligible) j).pf i = some .eligible) ∧
          (¬ (i < n + 1 ∧ Reached d j i) → SMap.get? (job (setPf t j n .eligible) j).pf i = none)
        rw [hjob]
        by_cases hi : i = n
        · subst hi
          exact ⟨fun _ => SMap.get?_insert_same _ _ _, fun h => absurd ⟨Nat.lt_succ_self _, hreach⟩ h⟩
        · rw [SMap.get?_insert_other _ _ hi]
          exact ⟨fun h => (listed i).1 ⟨by omega, h.2⟩, fun h => (listed i).2 (fun hlt => h ⟨by omega, hlt.2⟩)⟩
    · rw [if_pos (by unfold Reached at hreach; simp only [Bool.or_eq_true, decide_eq_true_eq]; omega)]
      refine ⟨side, fun i => ⟨fun h => (listed i).1 ⟨?_, h.2⟩, fun h => (listed i).2 (fun hi => h ⟨by omega, hi.2⟩)⟩⟩
      have hne : i ≠ n := fun he => hreach (he ▸ h.2)
      omega

/-! ### PREFETCH_LIST_SET -/

/-- With no entry listed no copy is held, and the old list leaves the job and the marks. -/
theorem dropPrefetch_empty (h : (job d j).pf = []) : ∃ m f, dropPrefetch d j =
    { setJob d j { job d j with pf := [], pfStep := 0 } with mem := { d.mem with marks := m }, fab := f } := by
  unfold dropPrefetch
  dsimp only
  rw [h, List.foldl_nil]
  exact ⟨_, _, rfl⟩

/-- The state in which the new count's entries are marked: the list's word is written, and nothing of the old list is left. -/
structure Emptied (d t : Dev) (j w : Nat) : Prop where
  regs : t.regs = (setRj d j 0x188 w).regs
  jobs : SMap.sorted t.qm.jobs = true
  fresh : job t j = { job d j with pf := [], pfStep := 0 }
  cmds : t.qm.cmds = d.qm.cmds
  cores : t.cores = d.cores
  bytes : t.mem.bytes = d.mem.bytes
  roots : t.mem.roots = d.mem.roots
  ext : t.ext = d.ext

theorem emptied_dropPrefetch (hs : SMap.sorted d.qm.jobs = true) (h : (job d j).pf = []) (w : Nat) :
    Emptied d (dropPrefetch (setRj d j 0x188 w) j) j w := by
  obtain ⟨m, f, he⟩ := dropPrefetch_empty (d := setRj d j 0x188 w) (j := j) h
  rw [he]
  exact ⟨rfl, sorted_setJob (d := setRj d j 0x188 w) hs j _, job_setJob_sorted (d := setRj d j 0x188 w) hs j _, rfl, rfl, rfl,
    rfl, rfl⟩

theorem rj64_setRj_list (h : regsSorted d) (w : Nat) : rj64 (setRj d j 0x188 w) j 0x180 = rj64 d j 0x180 := by
  unfold rj64 rg64 setRj
  rw [rg_setRg_other w h (by unfold regOff; omega), rg_setRg_other w h (by unfold regOff; omega)]

/-- What the new count leaves of the job's list and of the module. -/
structure ListedAs (d t : Dev) (j v : Nat) : Prop where
  count : bitsOf (rj t j 0x188) 20 0 = bitsOf v 20 0
  step : (job t j).pfStep = 0
  listed : EligibleAre t j (fun i => i < bitsOf v 20 0 ∧ pfWait (pfBytes d j i) = 0 ∧
    pfStepOf (pfBytes d j i) ≤ max 1 (bitsOf v 31 24))
  cmds : t.qm.cmds = d.qm.cmds
  cores : t.cores = d.cores
  bytes : t.mem.bytes = d.mem.bytes

theorem listedAs_markEligible {e : Dev} {v old : Nat} (h : regsSorted d) (he : Emptied d e j (listWord old v)) :
    ListedAs d (markEligible e j) j v := by
  obtain ⟨hcount, hlook, hlt⟩ := listWord_fields old v
  have hword : rj e j 0x188 = listWord old v := by
    rw [rj_of_regs he.regs]
    exact (rg_setRg_same _ _ _ _ h).trans (Nat.mod_eq_of_lt hlt)
  have hpfCount : pfCount e j = bitsOf v 20 0 := by rw [pfCount, hword, hcount]
  have hpfLook : pfLook e j = max 1 (bitsOf v 31 24) := by rw [pfLook, hword, hlook]
  have hbase : rj64 e j 0x180 = rj64 d j 0x180 := (rj64_of_regs he.regs _).trans (rj64_setRj_list h _)
  have hbytes (i : Nat) : pfBytes e j i = pfBytes d j i := pfBytes_congr hbase he.bytes he.roots he.ext i
  obtain ⟨side, listed⟩ := eligibles_markEligible he.jobs (congrArg Job.pfStep he.fresh) (congrArg Job.pf he.fresh)
  have hregs : (markEligible e j).regs = e.regs := (congrArg Dev.regs side.rest).trans rfl
  refine ⟨?_, side.step.trans (congrArg Job.pfStep he.fresh), ?_, ?_, ?_, ?_⟩
  · rw [rj_of_regs hregs, hword, hcount]
  · simpa only [Reached, hpfCount, hbytes, hpfLook] using listed
  · exact ((congrArg (fun x => x.qm.cmds) side.rest).trans rfl).trans he.cmds
  · exact ((congrArg Dev.cores side.rest).trans rfl).trans he.cores
  · exact ((congrArg (fun x => x.mem.bytes) side.rest).trans rfl).trans he.bytes

theorem listedAs_opListSet (hs : TablesSorted d) (hj : j < 256) (hactive : (job d j).state = 1) (hpf : (job d j).pf = [])
    {v : Nat} (hv : bitsOf v 20 0 ≤ 1048576) (a : Acc) : ListedAs d (opListSet d a j v) j v := by
  obtain ⟨old, hw⟩ := plainWrite_list (d := d) hj hv
  have hempty := emptied_dropPrefetch hs.jobs hpf (listWord old v)
  have hact : isActive (dropPrefetch (setRj d j 0x188 (listWord old v)) j) j = true := by
    unfold isActive
    rw [hempty.fresh, hactive]
    rfl
  have heq : opListSet d a j v = markEligible (dropPrefetch (setRj d j 0x188 (listWord old v)) j) j := by
    unfold opListSet
    dsimp only
    rw [hw]
    dsimp only
    rw [if_pos hact, if_neg Bool.false_ne_true]
  rw [heq]
  exact listedAs_markEligible hs.regs hempty

/-! ### PREFETCH_ENTRY_ISSUE (08 R253, R254) -/

/-- A hold on a copy changes the objects' records alone. -/
theorem holdCopy_objs (d : Dev) (oid tier : Nat) : ∃ m, holdCopy d oid tier = { d with mem := { d.mem with objs := m } } := by
  unfold holdCopy
  split
  · exact ⟨d.mem.objs, rfl⟩
  · exact ⟨_, rfl⟩

/-- The copy that an entry's transfer reads, where it reads one. -/
def pfCopy (e : List Nat) : Option (Nat × Nat) :=
  match pfSrc e with
  | .obj t oid _ => some (t, oid)
  | _ => none

/-- The hold of an entry's transfer on its source. -/
def heldSrc (d : Dev) (e : List Nat) : Dev :=
  match pfCopy e with
  | some (t, oid) => holdCopy d oid t
  | none => d

theorem heldSrc_objs (d : Dev) (e : List Nat) : ∃ m, heldSrc d e = { d with mem := { d.mem with objs := m } } := by
  unfold heldSrc
  split
  · exact holdCopy_objs d _ _
  · exact ⟨d.mem.objs, rfl⟩

/-- An entry between the card's own memories goes on its engine. -/
theorem opPfIssue_transfer {md i : Nat} {ev : Upset} (hready : pfReady d md j i (pfBytes d j i) = true)
    (hbad : pfBad d j i (pfBytes d j i) = false) (hs : addrTier (pfSrc (pfBytes d j i)) ≠ 3)
    (hd : addrTier (pfDst (pfBytes d j i)) ≠ 3) :
    opPfIssue d md j i ev = setPf (heldSrc d (pfBytes d j i)) j i (.transfer md (pfCopy (pfBytes d j i))) := by
  unfold opPfIssue
  dsimp only
  rw [hready, hbad, Bool.not_true, if_neg Bool.false_ne_true, if_neg Bool.false_ne_true]
  unfold heldSrc pfCopy
  generalize pfBytes d j i = e at hs hd ⊢
  split
  case h_1 hsrc => exact absurd (by rw [hsrc]; rfl) hs
  case h_2 hdst _ => exact absurd (by rw [hdst]; rfl) hd
  case h_3 =>
    cases pfSrc e with
    | obj t oid o => rfl
    | t0 c o => rfl
    | t3 h o => rfl
    | bad => rfl

theorem opPfIssue_fails {md i : Nat} {ev : Upset} (hready : pfReady d md j i (pfBytes d j i) = true)
    (hbad : pfBad d j i (pfBytes d j i) = true) : opPfIssue d md j i ev = pfFail d md j i (pfBytes d j i) := by
  unfold opPfIssue
  dsimp only
  rw [hready, hbad, Bool.not_true, if_neg Bool.false_ne_true, if_pos rfl]

/-- Poison marks change memory's record alone, and neither its marks nor what is above it. -/
theorem poisonKey_mem (d : Dev) (k : Nat) : ∃ m, poisonKey d k = { d with mem := m } ∧ m.marks = d.mem.marks := by
  unfold poisonKey
  split
  · exact ⟨_, rfl, rfl⟩
  · split
    · split
      · exact ⟨_, rfl, rfl⟩
      · exact ⟨_, rfl, rfl⟩
    · exact ⟨_, rfl, rfl⟩

/-- Only memory's record differs, and not its marks. -/
structure MemSide (d t : Dev) : Prop where
  rest : t = { d with mem := t.mem }
  marks : t.mem.marks = d.mem.marks

theorem memSide_poisonKeys (l : List Nat) (d : Dev) : MemSide d (l.foldl poisonKey d) := by
  refine List.foldlRecOn l _ (motive := MemSide d) ⟨rfl, rfl⟩ (fun t ht k _ => ?_)
  obtain ⟨m, he, hm⟩ := poisonKey_mem t k
  rw [he]
  exact ⟨by rw [ht.rest], hm.trans ht.marks⟩

theorem unmarkAll_marks (d : Dev) (j i : Nat) (e : List Nat) :
    ∃ m, unmarkAll d j i e = { d with mem := { d.mem with marks := m } } := by
  unfold unmarkAll
  refine List.foldlRecOn _ _ (motive := fun t => ∃ m : SMap (List (Nat × Nat)), t = { d with mem := { d.mem with marks := m } })
    ⟨d.mem.marks, rfl⟩ (fun t ht k _ => ?_)
  obtain ⟨m, rfl⟩ := ht
  exact ⟨_, rfl⟩

theorem setPf_finishes (hs : TablesSorted d) {w : Dev} (hq : w.qm = d.qm) (i : Nat) (p : PfState) :
    SMap.get? (job (setPf w j i p) j).pf i = some p ∧ (setPf w j i p).qm.cmds = d.qm.cmds := by
  refine ⟨?_, (show (setPf w j i p).qm.cmds = w.qm.cmds from rfl).trans (by rw [hq])⟩
  rw [job_setPf (by rw [hq]; exact hs.jobs)]
  exact SMap.get?_insert_same _ _ _

theorem rg_setPf (d : Dev) (j i : Nat) (p : PfState) (die page reg : Nat) : rg (setPf d j i p) die page reg = rg d die page reg :=
  rg_of_regs rfl _ _ _

/-- An entry that is finished with its fault flagged. -/
theorem finished_flagged (hs : TablesSorted d) {u : Dev} (hregs : u.regs = d.regs) (hqm : u.qm = d.qm) (md i v : Nat)
    (cap : Cap) :
    SMap.get? (job (setPf (latch (setRg u (48 + md) 16 0x108 v) (48 + md) 16 0 cap) j i .finished) j).pf i = some .finished ∧
      (rg (setPf (latch (setRg u (48 + md) 16 0x108 v) (48 + md) 16 0 cap) j i .finished) (48 + md) 16 0x020).testBit 0 = true ∧
      (setPf (latch (setRg u (48 + md) 16 0x108 v) (48 + md) 16 0 cap) j i .finished).qm.cmds = d.qm.cmds := by
  have hsorted : regsSorted (setRg u (48 + md) 16 0x108 v) := regsSorted_setRg _ _ _ _ (regsSorted_of_regs hregs hs.regs)
  have hq : (latch (setRg u (48 + md) 16 0x108 v) (48 + md) 16 0 cap).qm = d.qm :=
    (latchSide_latch _ _ _ _ _).side.qm.trans ((setRg_qm _ _ _ _ _).trans hqm)
  obtain ⟨hfinished, hcmds⟩ := setPf_finishes (j := j) hs hq i .finished
  refine ⟨hfinished, ?_, hcmds⟩
  rw [rg_setPf]
  exact latch_flag cap hsorted (by decide)

/-- A failed entry is finished, source 0 of the engine's die is flagged, and no command changes. -/
theorem pfFail_finishes (hs : TablesSorted d) (md i : Nat) (e : List Nat) :
    SMap.get? (job (pfFail d md j i e) j).pf i = some .finished ∧
      (rg (pfFail d md j i e) (48 + md) 16 0x020).testBit 0 = true ∧ (pfFail d md j i e).qm.cmds = d.qm.cmds := by
  have hmem := memSide_poisonKeys ((rangeKeys (pfDst e) (pfGrans e)).filter (mayWriteGran d j)) d
  obtain ⟨m, hm⟩ := unmarkAll_marks (((rangeKeys (pfDst e) (pfGrans e)).filter (mayWriteGran d j)).foldl poisonKey d) j i e
  refine finished_flagged hs ?_ ?_ md i _ _
  · rw [hm, hmem.rest]
  · rw [hm, hmem.rest]

/-! ### PREFETCH_ENTRY_DONE (08 R255) -/

/-- Cores, queues and marks stay. -/
structure DataSide (d t : Dev) : Prop where
  cores : t.cores = d.cores
  qm : t.qm = d.qm
  marks : t.mem.marks = d.mem.marks

theorem DataSide.refl (d : Dev) : DataSide d d := ⟨rfl, rfl, rfl⟩
theorem DataSide.trans {a b c : Dev} (h : DataSide a b) (k : DataSide b c) : DataSide a c :=
  ⟨k.cores.trans h.cores, k.qm.trans h.qm, k.marks.trans h.marks⟩

theorem TouchSide.data {t : Dev} (h : TouchSide d t) : DataSide d t := by
  rw [h.rest]
  exact ⟨rfl, rfl, rfl⟩

theorem MemSide.data {t : Dev} (h : MemSide d t) : DataSide d t :=
  ⟨by rw [h.rest], by rw [h.rest], h.marks⟩

theorem dataSide_stWrite (d : Dev) (sid off : Nat) (bs : List Nat) : DataSide d (stWrite d sid off bs) := by
  unfold stWrite wcbDrop
  dsimp only
  split <;> exact ⟨rfl, rfl, rfl⟩

theorem dataSide_writeMarks (d : Dev) (sid off n : Nat) (b : Bool) : DataSide d (writeMarks d sid off n b) := by
  obtain ⟨s, p, h⟩ := writeMarks_bytes_only d sid off n b
  rw [h]
  exact ⟨rfl, rfl, rfl⟩

/-- A whole granule goes to its place at once: no line of it waits to be combined. -/
theorem dataSide_kWrite_granule (d : Dev) (k sid : Nat) {bs : List Nat} (hl : bs.length = 4096) :
    DataSide d (kWrite d k sid 0 bs) := by
  have hwhole : (decide (0 % 128 = 0) && decide (bs.length % 128 = 0)) = true := by rw [hl]; decide
  unfold kWrite
  split
  · unfold t2Write
    dsimp only
    split
    · exact (readSide_cacheLines _ _ _ _ _).toTouchSide.data.trans (dataSide_stWrite _ _ _ _)
    · exact dataSide_stWrite _ _ _ _
  · exact dataSide_stWrite _ _ _ _

theorem dataSide_writeRoot_granule (d : Dev) (k : Nat) {bs : List Nat} (b : Bool) (hl : bs.length = 4096) :
    DataSide d (writeRoot d k 0 bs b) := by
  unfold writeRoot
  split
  · exact (dataSide_kWrite_granule d k _ hl).trans (dataSide_writeMarks _ _ _ _ _)
  · have hroot : DataSide d (setRoot (newGran d).1 k (newGran d).2) := ⟨rfl, rfl, rfl⟩
    exact hroot.trans ((dataSide_kWrite_granule _ k _ hl).trans (dataSide_writeMarks _ _ _ _ _))

theorem dataSide_pfMove (j : Nat) (d : Dev) (p : Nat × Nat) : DataSide d (pfMove j d (p, .none)) := by
  unfold pfMove
  dsimp only
  split
  · exact dataSide_writeRoot_granule d _ _ List.length_replicate
  · rw [checkRead_none]
    have hwrite := fun s => dataSide_writeRoot_granule d p.2 (sealed d s) (length_stRead d s 0 4096)
    split
    · exact (hwrite _).trans (memSide_poisonKeys [p.2] _).data
    · exact hwrite _

theorem evAt_none (i : Nat) : evAt .none i = .none := ite_self _

/-- A transfer with no upset moves its granules and nothing else. -/
theorem dataSide_transfer (d : Dev) (j : Nat) (l : List (Nat × Nat)) :
    DataSide d ((l.zipIdx.map (fun p => (p.1, evAt .none p.2))).foldl (pfMove j) d) := by
  rw [List.foldl_map]
  refine List.foldlRecOn _ _ (motive := DataSide d) (DataSide.refl d) (fun t ht p _ => ht.trans ?_)
  rw [evAt_none]
  exact dataSide_pfMove j t p.1

/-- A key whose mark is cleared no longer has it, and no other mark appears. -/
theorem marks_unmarkGran {d : Dev} (h : SMap.sorted d.mem.marks = true) (j i k : Nat) :
    SMap.sorted (unmarkGran d j i k).mem.marks = true ∧ (j, i) ∉ SMap.getD (unmarkGran d j i k).mem.marks k [] ∧
      ∀ q, (j, i) ∉ SMap.getD d.mem.marks q [] → (j, i) ∉ SMap.getD (unmarkGran d j i k).mem.marks q [] := by
  unfold unmarkGran
  dsimp only
  have hno : (j, i) ∉ (SMap.getD d.mem.marks k []).filter (fun m => m != (j, i)) := by simp
  generalize (SMap.getD d.mem.marks k []).filter (fun m => m != (j, i)) = l at hno ⊢
  split
  · have hsame : SMap.getD (SMap.erase d.mem.marks k) k [] = [] := by
      unfold SMap.getD
      rw [SMap.get?_erase_same k h]
      rfl
    refine ⟨SMap.sorted_erase k h, by rw [hsame]; exact List.not_mem_nil, fun q hq => ?_⟩
    by_cases hqk : q = k
    · subst hqk
      rw [hsame]
      exact List.not_mem_nil
    · unfold SMap.getD at hq ⊢
      rwa [SMap.get?_erase_other h hqk]
  · have hsame : SMap.getD (SMap.insert d.mem.marks k l) k [] = l := by
      unfold SMap.getD
      rw [SMap.get?_insert_same]
      rfl
    refine ⟨SMap.sorted_insert _ _ h, by rw [hsame]; exact hno, fun q hq => ?_⟩
    by_cases hqk : q = k
    · subst hqk
      rwa [hsame]
    · unfold SMap.getD at hq ⊢
      rwa [SMap.get?_insert_other _ _ hqk]

theorem marks_unmarkGrans (j i : Nat) (l : List Nat) {d : Dev} (h : SMap.sorted d.mem.marks = true) :
    (∀ k ∈ l, (j, i) ∉ SMap.getD (l.foldl (fun d k => unmarkGran d j i k) d).mem.marks k []) ∧
      ∀ q, (j, i) ∉ SMap.getD d.mem.marks q [] →
        (j, i) ∉ SMap.getD (l.foldl (fun d k => unmarkGran d j i k) d).mem.marks q [] := by
  induction l generalizing d with
  | nil => exact ⟨fun k hk => absurd hk List.not_mem_nil, fun q hq => hq⟩
  | cons k r ih =>
    obtain ⟨hsorted, hgone, hkept⟩ := marks_unmarkGran h j i k
    obtain ⟨hr, hq⟩ := ih hsorted
    refine ⟨fun q hmem => ?_, fun q hno => hq q (hkept q hno)⟩
    rcases List.mem_cons.mp hmem with rfl | hmem
    · exact hq _ hgone
    · exact hr q hmem

/-- The end of an undisturbed transfer that holds no copy. -/
theorem opPfDone_moved {md i : Nat} (hpf : SMap.get? (job d j).pf i = some (.transfer md none)) (hw : pfWaits d j i = false) :
    ∃ t, DataSide d t ∧ opPfDone d md j i .none =
      bump (bump (setPf (unmarkAll t j i (pfBytes d j i)) j i .finished) (48 + md) 16 0x130 1) (48 + md) 16 0x134
        (pfGrans (pfBytes d j i)) := by
  have hkept : ¬ (decide (md ≠ md) || pfWaits d j i) = true := by simp [hw]
  refine ⟨_, (touchSide_touchReads d (rangeKeys (pfSrc (pfBytes d j i)) (pfGrans (pfBytes d j i)))).data.trans
    (dataSide_transfer _ j ((rangeKeys (pfSrc (pfBytes d j i)) (pfGrans (pfBytes d j i))).zip
      (rangeKeys (pfDst (pfBytes d j i)) (pfGrans (pfBytes d j i))))), ?_⟩
  unfold opPfDone
  rw [hpf]
  dsimp only
  rw [if_neg hkept, if_neg (show ¬ Upset.none = Upset.bufUE by simp)]

theorem opPfDone_ends (hs : TablesSorted d) {md i : Nat} (hpf : SMap.get? (job d j).pf i = some (.transfer md none))
    (hw : pfWaits d j i = false) :
    let t := opPfDone d md j i .none
    SMap.get? (job t j).pf i = some .finished ∧ t.qm.cmds = d.qm.cmds ∧ t.cores = d.cores ∧
      ∀ k ∈ rangeKeys (pfDst (pfBytes d j i)) (pfGrans (pfBytes d j i)), (j, i) ∉ SMap.getD t.mem.marks k [] := by
  obtain ⟨t, ht, he⟩ := opPfDone_moved hpf hw
  have hgone := (marks_unmarkGrans j i (rangeKeys (pfDst (pfBytes d j i)) (pfGrans (pfBytes d j i))) (d := t)
    (by rw [ht.marks]; exact hs.marks)).1
  obtain ⟨m, hm⟩ := unmarkAll_marks t j i (pfBytes d j i)
  have hq : (unmarkAll t j i (pfBytes d j i)).qm = d.qm := by rw [hm]; exact ht.qm
  have hcores : (unmarkAll t j i (pfBytes d j i)).cores = d.cores := by rw [hm]; exact ht.cores
  obtain ⟨hfinished, hcmds⟩ := setPf_finishes (j := j) hs hq i .finished
  dsimp only
  rw [he]
  simp only [job, bump_qm, bump_cores, bump_mem]
  exact ⟨hfinished, hcmds, hcores, hgone⟩

/-! ### PENDING_READ_RESUME (08 R256) -/

/-- A context that waited for a granule runs on, its cycles counted. -/
theorem opResume_resumes {n h : Nat} {x : Ctx} {it : Item} {r : List Item} (hx : ctxOf d n j = some x) (htodo : x.todo = it :: r)
    (hheld : x.heldFrom = some h) (ht : aType (actOf x.image it) ≠ 7) (hfree : (readGrans d n j x it).any (isPending d) = false) :
    ctxOf (opResume d n j) n j = some { x with heldFrom := none } ∧ SeqSide d (opResume d n j) n := by
  have he : opResume d n j = slipEnd (setCtx d n j { x with heldFrom := none }) n x := by
    unfold opResume
    rw [hx]
    dsimp only
    rw [hheld, htodo]
    dsimp only
    rw [hfree, if_neg (by simp [ht])]
  obtain ⟨g, hg⟩ := slipEnd_regs_only (setCtx d n j { x with heldFrom := none }) n x
  rw [he, hg]
  exact ⟨ctxOf_setCtx_same d n j _, seqSide_setCtx d g n j _⟩

end Page

/-- Settles O51: the list's count makes its reached entries eligible; an entry goes on its engine, or is finished and flagged;
its end clears its marks; and a context that waited for a granule runs on. -/
theorem prefetchListsRun : Obligations.PrefetchListsRun := by
  unfold Obligations.PrefetchListsRun
  intro s j hlive hs
  dsimp only
  refine ⟨fun acc v hperf hactive hpf hv => ?_, fun md i ev hready => ⟨fun hbad hsrc hdst => ?_, fun hbad => ?_⟩,
    fun md i hpf hw => ?_, fun n x it h r hx htodo hheld ht hfree => ?_⟩
  · refine completes_okDev hlive (congrArg (okDev s) (withReg_performed hperf _)) ?_
    obtain ⟨hcount, hstep, hlisted, hcmds, hcores, hbytes⟩ := listedAs_opListSet hs j.isLt hactive hpf hv acc
    refine ⟨hcount, hstep, fun i => ?_, hcmds, hcores, hbytes⟩
    split
    case isTrue hi => exact (hlisted i).1 hi
    case isFalse hi => exact (hlisted i).2 hi
  · refine completes_okDev hlive (congrArg (okDev s) (opPfIssue_transfer hready hbad hsrc hdst)) ?_
    obtain ⟨m, hm⟩ := heldSrc_objs s.dev (pfBytes s.dev j.val i)
    have hjobs : SMap.sorted (heldSrc s.dev (pfBytes s.dev j.val i)).qm.jobs = true := by
      rw [hm]
      exact hs.jobs
    refine ⟨⟨pfCopy (pfBytes s.dev j.val i), ?_⟩, ?_⟩
    · rw [job_setPf hjobs]
      exact SMap.get?_insert_same _ _ _
    · rw [hm]
      exact ⟨rfl, rfl, rfl, rfl, rfl⟩
  · refine completes_okDev hlive (congrArg (okDev s) (opPfIssue_fails hready hbad)) ?_
    exact pfFail_finishes hs md.val i _
  · exact completes_okDev hlive rfl (opPfDone_ends hs hpf hw)
  · exact completes_okDev hlive rfl (opResume_resumes hx htodo hheld ht hfree)

end Sys2Proof.Machine

/-! SUPPORT. O53: a STAGE of a sound copy that ends with the status of a poisoned one (08 R239, R258), and the refutation. -/

namespace Sys2Proof.Machine
open Sys2Proof

/-! ### A STAGE whose source is poisoned -/

/-- The source's address and the destination's, from the start of the object. -/
def stageSrc (c : Cmd) : DevAddr := .obj (dBits c.desc 8 15 12) (cOid c) 0
def stageDst (c : Cmd) : DevAddr := .obj (cTier c) (cOid c) 0

/-- The holds of a STAGE on its two copies (08 R246). -/
def stageHeld (d : Dev) (uid : Nat) (c : Cmd) : Dev :=
  takeHold (takeHold d uid (dBits c.desc 8 15 12) (cOid c)) uid (cTier c) (cOid c)

/-- A STAGE that may create its destination does so, holds both copies, and moves the object's granules. -/
theorem opStage_moves {d e : Dev} {uid : Nat} {c : Cmd} {o : Obj} {x : CopySt} {ev : Upset} {r : Dev × Bool}
    (h : MayStart d uid 0x02 c) (hop : dBits c.desc 8 3 0 = 4)
    (htiers : (!okTier (dBits c.desc 8 15 12) || !okTier (cTier c) || dBits c.desc 8 15 12 = cTier c) = false)
    (hcopy : copyFor d uid (cOid c) (dBits c.desc 8 15 12) = some (o, x))
    (hpend : movePending d (stageSrc c) (stageDst c) o.size = false) (hready : t0Ready d c.job (stageSrc c) = true)
    (hmay : (!mayRead o c.job || underCreation o uid (cTier c)) = false) (habsent : (copyOf o (cTier c)).present = false)
    (hnew : createCopy (setCmd d uid (begun c)) uid c.job (cOid c) (cTier c) o = .ok e)
    (hmove : moveAll (stageHeld e uid c) uid c.job (stageSrc c) (stageDst c) o.size ev = r) :
    opStage d uid ev = if r.2 then requestCommit r.1 uid else r.1 := by
  have hobj := (copyFor_listed hcopy).1
  have hidle : (match obj d (cOid c) with
      | some o => !movePending d (stageSrc c) (stageDst c) o.size && t0Ready d c.job (stageSrc c)
      | none => true) = true := by
    rw [hobj]
    dsimp only
    rw [hpend, hready]
    rfl
  have htiers' : (!okTier (dBits (begun c).desc 8 15 12) || !okTier (cTier (begun c))
      || decide (dBits (begun c).desc 8 15 12 = cTier (begun c))) = false := htiers
  have hcopy' : copyFor (setCmd d uid (begun c)) uid (cOid (begun c)) (dBits (begun c).desc 8 15 12) = some (o, x) := hcopy
  have hmay' : (!mayRead o (begun c).job || underCreation o uid (cTier (begun c))) = false := hmay
  have habsent' : (copyOf o (cTier (begun c))).present = false := habsent
  have hnew' : createCopy (setCmd d uid (begun c)) uid (begun c).job (cOid (begun c)) (cTier (begun c)) o = .ok e := hnew
  have hmove' : moveAll (takeHold (takeHold e uid (dBits (begun c).desc 8 15 12) (cOid (begun c))) uid (cTier (begun c))
      (cOid (begun c))) uid (begun c).job (.obj (dBits (begun c).desc 8 15 12) (cOid (begun c)) 0)
      (.obj (cTier (begun c)) (cOid (begun c)) 0) o.size ev = r := hmove
  unfold opStage
  rw [startCopyOp_begun _ h hop hidle]
  dsimp only
  rw [htiers', if_neg Bool.false_ne_true, hcopy']
  dsimp only
  rw [hmay', if_neg Bool.false_ne_true, habsent', if_neg Bool.false_ne_true, hnew']
  dsimp only
  rw [hmove']
  obtain ⟨t, b⟩ := r
  cases b <;> rfl

theorem checkRead_poisoned {d : Dev} {sid : Nat} (k addr : Nat) (ev : Upset) (cp : Cap) (h : poisoned d sid = true) :
    checkRead d k sid addr ev cp = (d, some stPoison) := by
  unfold checkRead
  rw [if_pos h]

theorem viewPoison_stored {d : Dev} {uid k : Nat} (h : viewPoison d uid k = true) :
    ∃ sid, viewSid d uid k = some sid ∧ poisoned d sid = true := by
  unfold viewPoison at h
  cases hsid : viewSid d uid k with
  | none =>
    rw [hsid] at h
    exact absurd h Bool.false_ne_true
  | some sid =>
    rw [hsid] at h
    exact ⟨sid, rfl, h⟩

/-- A read that begins with a poisoned granule ends there (08 R258). -/
theorem gather_poisoned {d : Dev} {uid addr k : Nat} (cp : Cap) (l : List (Nat × Nat)) (h : viewPoison d uid k = true) :
    gather uid cp ((addr, k) :: l) d .none = (d, .error (stPoison, addr)) := by
  obtain ⟨sid, hsid, hpois⟩ := viewPoison_stored h
  unfold gather
  simp only [hsid, checkRead_poisoned _ _ _ _ hpois]

/-- The granules of an object that a move reads, each with its address. -/
def movePairs (tier oid o n : Nat) : List (Nat × Nat) :=
  (granAddrs (.obj tier oid o) n).zip (rangeKeys (.obj tier oid o) n)

theorem movePairs_succ (tier oid o n : Nat) : ∃ addr l, movePairs tier oid o (n + 1) = (addr, gKey tier oid (o / 4096)) :: l := by
  unfold movePairs granAddrs rangeKeys
  dsimp only
  rw [List.range_succ_eq_map, List.map_cons, List.map_cons, List.zip_cons_cons, Nat.add_zero]
  exact ⟨_, _, rfl⟩

/-- A move whose reads fail ends the command. -/
theorem moveAll_unread {d d1 : Dev} {uid j tier oid o n st a : Nat} {dst : DevAddr}
    (h : gather uid (qmCap d j (encodeAddr (.obj tier oid o)) 1 (min (n * 4096) 0xFFFF)) (movePairs tier oid o n)
      (touchReads d ((movePairs tier oid o n).map (·.2))) .none = (d1, .error (st, a))) :
    moveAll d uid j (.obj tier oid o) dst n .none = (endCmd d1 uid st a false, false) := by
  unfold movePairs at h
  unfold moveAll moveGrans
  dsimp only
  rw [if_pos List.length_range, h]

/-- A move whose first granule is poisoned ends the command. -/
theorem moveAll_poisoned {d : Dev} {uid j tier oid o n : Nat} {c : Cmd} {dst : DevAddr} (hs : SMap.sorted d.qm.cmds = true)
    (hc : cmd d uid = some c) (hp : c.phase ≠ .ended) (h : viewPoison d uid (gKey tier oid (o / 4096)) = true) :
    ∃ t, moveAll d uid j (.obj tier oid o) dst (n + 1) .none = (t, false) ∧ EndedAs t uid c stPoison false := by
  obtain ⟨addr, l, hpairs⟩ := movePairs_succ tier oid o n
  have hside := touchSide_touchReads d ((movePairs tier oid o (n + 1)).map (·.2))
  have hread := gather_poisoned (addr := addr) (qmCap d j (encodeAddr (.obj tier oid o)) 1 (min ((n + 1) * 4096) 0xFFFF)) l
    ((hside.viewPoison_eq uid _).trans h)
  rw [← hpairs] at hread
  refine ⟨_, moveAll_unread hread, (endCmd_ends ?_ ?_ hp stPoison addr false).1⟩
  · rw [hside.rest]
    exact hs
  · rw [hside.rest]
    exact hc

/-! ### A module whose poison marks are out of order -/

/-- A STAGE of object 9 from T2 to T1, by job 3. -/
def stageCmd : Cmd :=
  { job := 3, queue := 0, ringIdx := 0, desc := BitVec.ofNat 512 (2 + (4 + 2 * 2 ^ 12 + 1 * 2 ^ 8) * 2 ^ 64 + 9 * 2 ^ 96),
    fetchedAt := 0, phase := .waiting, status := 0, detail := 0, retry := false, committed := false, cores := [],
    coresLeft := [], images := [], sess := [], objs := [], pinP := [], pinS := [], held := [], snap := [], gens := [],
    newCopies := [], newPages := [], newSlots := [], upds := [], t4left := 0, swaps := [], fenceUids := [], flushLeft := [],
    affected := false, orbit := false, tag := 7, slot := 0, reqAt := 0, doneAt := 0 }

/-- Object 9: one granule, its only copy in T2, job 3's. -/
def stageObj : Obj :=
  { size := 1, shared := false, ro := false, mirror := false, t1die := 0, creator := 3, shareTag := 0, c1 := noCopy,
    c2 := ⟨true, false, 3, 0, 8#256, 0⟩, c4 := noCopy, newBy := 0 }

/-- The storage of the copy in T2, and that of a granule still listed of the copy in T1 that is no more. -/
def soundGran : Nat := 2 ^ 32
def staleGran : Nat := 2 ^ 32 + 1

/-- The stale granule's mark stands before the sound one's, which no search of the marks therefore finds. -/
def stageState : State :=
  { pending := []
    dev := { resetDev with
      state := .ready
      mem := { emptyMem with
        poison := [(staleGran, ()), (soundGran, ())], roots := [(gKey 1 9 0, staleGran), (gKey 2 9 0, soundGran)]
        objs := [(9, stageObj)], granCtr := 2 }
      qm := { emptyQm with
        jobs := [(3, { freeJob with state := 1, resident := true, quota1 := 16, quota2 := 16 })]
        cmds := [(1, stageCmd)], uidCtr := 2 } } }

theorem stageState_sorted : TablesSorted stageState.dev := by constructor <;> decide +kernel

theorem stageCmd_mayStart : MayStart stageState.dev 1 0x02 stageCmd where
  listed := rfl
  waiting := rfl
  opcode := by decide +kernel
  queue := by decide +kernel
  saved := by decide +kernel
  fresh := ⟨rfl, by decide +kernel, by decide +kernel, by decide +kernel⟩

/-- Before the STAGE the copy in T2 shows no poison. -/
theorem stageState_source_sound : ∀ g < stageObj.size, ∀ k,
    rootOf stageState.dev (gKey (dBits stageCmd.desc 8 15 12) (cOid stageCmd) g) = some k → poisoned stageState.dev k = false := by
  have hroot : rootOf stageState.dev (gKey (dBits stageCmd.desc 8 15 12) (cOid stageCmd) 0) = some soundGran := by decide +kernel
  intro g hg k hk
  obtain rfl : g = 0 := Nat.lt_one_iff.mp hg
  rw [← Option.some.inj (hroot.symm.trans hk)]
  decide +kernel

/-- Once the stale granule of the T1 copy is freed, and its mark with it, the mark of the T2 copy's granule shows. -/
theorem poisoned_dropGran_staleGran : poisoned (dropGran stageState.dev staleGran) soundGran = true := by decide +kernel

/-- The module when the T1 copy has its entry again: what was still listed of it is freed. -/
def stageCreated : Dev :=
  setCmd (setObj (freeGrans (setCmd stageState.dev 1 (begun stageCmd)) (cTier stageCmd) (cOid stageCmd)) (cOid stageCmd)
      (setCopy stageObj (cTier stageCmd) (newCopy 1 stageCmd.job))) 1
    (creating (begun stageCmd) (cTier stageCmd) (cOid stageCmd))

theorem createCopy_stageState :
    createCopy (setCmd stageState.dev 1 (begun stageCmd)) 1 stageCmd.job (cOid stageCmd) (cTier stageCmd) stageObj =
      .ok stageCreated := by
  have hfits : fits (setCmd stageState.dev 1 (begun stageCmd)) stageCmd.job (cTier stageCmd) (chargeOf stageObj (cTier stageCmd))
      stageObj.t1die = true := by decide +kernel
  have hrec : cmd (setObj (freeGrans (setCmd stageState.dev 1 (begun stageCmd)) (cTier stageCmd) (cOid stageCmd)) (cOid stageCmd)
      (setCopy stageObj (cTier stageCmd) (newCopy 1 stageCmd.job))) 1 = some (begun stageCmd) := by decide +kernel
  unfold createCopy
  rw [hfits, if_pos rfl]
  dsimp only
  rw [hrec]
  rfl

theorem viewPoison_stageHeld : viewPoison (stageHeld stageCreated 1 stageCmd) 1
    (gKey (dBits stageCmd.desc 8 15 12) (cOid stageCmd) (0 / 4096)) = true := by decide +kernel

theorem stageHeld_running : (cmd (stageHeld stageCreated 1 stageCmd) 1).map (·.phase) = some .running := by decide +kernel

/-- The STAGE frees the T1 copy's granules before it reads the source, and the read ends it. -/
theorem opStage_stageState : ∃ c, EndedAs (opStage stageState.dev 1 .none) 1 c stPoison false := by
  obtain ⟨c, hc, hrun⟩ := Option.map_eq_some_iff.mp stageHeld_running
  obtain ⟨t, hmove, hended⟩ := moveAll_poisoned (j := stageCmd.job) (dst := stageDst stageCmd) (o := 0) (by decide +kernel) hc
    (by rw [hrun]; decide) viewPoison_stageHeld
  refine ⟨c, ?_⟩
  rw [opStage_moves (x := stageObj.c2) stageCmd_mayStart (by decide +kernel) (by decide +kernel) (by decide +kernel)
    (by decide +kernel) (by decide +kernel) (by decide +kernel) (by decide +kernel) createCopy_stageState hmove]
  exact hended

/-- Refutes O53, in the clause of STAGE: its premises leave the order of the poison marks open (`TablesSorted` does not name
them), and a mark out of order is found only once the mark before it is gone. Creating the destination copy frees what is still
listed of it, together with its marks; in `stageState` that uncovers the source granule's, and the read of the source then ends
the command with the status of poisoned data. -/
theorem not_dataIsCopiedStagedPublishedLoaded : ¬ Obligations.DataIsCopiedStagedPublishedLoaded := by
  unfold Obligations.DataIsCopiedStagedPublishedLoaded
  intro h
  obtain ⟨-, hstage, -⟩ := h stageState 1 stageCmd rfl stageState_sorted
  have hdone := hstage stageObj stageObj.c2 stageCmd_mayStart (by decide +kernel) (by decide +kernel) (by decide +kernel)
    (by decide +kernel) (by decide +kernel) (by decide +kernel) (by decide +kernel) (by decide +kernel) (by decide +kernel)
    (by decide +kernel) (by decide +kernel) (by decide +kernel) stageState_source_sound
  obtain ⟨⟨⟨c, hc, hworked⟩, -⟩, -⟩ := of_completes_okDev (s := stageState) rfl rfl hdone
  obtain ⟨-, c', hc', hended, -⟩ := opStage_stageState
  rw [Option.some.inj (hc.symm.trans hc'), hended] at hworked
  exact absurd hworked (by decide)

end Sys2Proof.Machine

/-! SUPPORT. The write-combining buffers: a partial line enters, waits, and is flushed (09 R272 to R276, R295). -/

namespace Sys2Proof.Machine
open Sys2Proof

/-! ### The entries of a memory die -/

theorem wcbOf_setWcb_same {d : Dev} (md : Nat) (l : List WcbEnt) (h : SMap.sorted d.ext.wcb = true) :
    wcbOf (setWcb d md l) md = l := SMap.getD_put_same _ _ _ h

theorem wcbHeldOf_setWcbHeld_same {d : Dev} (md : Nat) (l : List WcbHeld) (h : SMap.sorted d.ext.wcbHeld = true) :
    wcbHeldOf (setWcbHeld d md l) md = l := SMap.getD_put_same _ _ _ h

theorem bumpWcb_ext (d : Dev) (md reg n : Nat) : (bumpWcb d md reg n).ext = d.ext := bump_ext _ _ _ _ _
theorem bumpWcb_mem (d : Dev) (md reg n : Nat) : (bumpWcb d md reg n).mem = d.mem := bump_mem _ _ _ _ _

theorem wcbOf_of_ext {d t : Dev} (h : t.ext = d.ext) (md : Nat) : wcbOf t md = wcbOf d md := by
  unfold wcbOf
  rw [h]

/-- A line that is not held becomes the youngest entry while the buffer stays below its high-water mark (R272, R273). -/
theorem wcbEnter_room {d : Dev} {md line : Nat} (mask data : Nat) (ev : Upset) (hsorted : SMap.sorted d.ext.wcb = true)
    (habsent : (wcbOf d md).find? (fun e => e.line == line) = none) (hfree : (wcbOf d md).length < 1024)
    (hhigh : (wcbOf d md).length + 1 < rg d (48 + md) 17 0x108 % 2048) :
    wcbEnter d md line mask data ev = setWcb d md (wcbOf d md ++ [⟨line, mask, wcbMerge 0 data mask, d.now⟩]) := by
  unfold wcbEnter
  rw [habsent]
  dsimp only
  rw [if_neg (by omega), wcbOf_setWcb_same md _ hsorted, List.length_append, List.length_singleton, if_neg]
  exact Nat.not_le.mpr hhigh

/-- A line that is not held waits while the buffer is full (R276). -/
theorem wcbEnter_full {d : Dev} {md line : Nat} (mask data : Nat) (ev : Upset)
    (habsent : (wcbOf d md).find? (fun e => e.line == line) = none) (hfull : 1024 ≤ (wcbOf d md).length) :
    wcbEnter d md line mask data ev = setWcbHeld d md (wcbHeldOf d md ++ [⟨line, mask, data, d.now⟩]) := by
  unfold wcbEnter
  rw [habsent]
  exact if_pos hfull

/-- A partial write of a T2 line enters its die's buffer. -/
theorem opWcbWrite_enters {d : Dev} {md line : Nat} {mask : BitVec 128} (data : Nat) (ev : Upset)
    (hdie : granDie (line / 32) = md) (hsome : mask ≠ 0) (hpart : mask.toNat ≠ 2 ^ 128 - 1) (ht2 : isT2Gran d (line / 32) = true) :
    opWcbWrite d md line mask.toNat data ev = wcbEnter d md line mask.toNat data ev := by
  have hnat : mask.toNat ≠ 0 := fun h => hsome (BitVec.eq_of_toNat_eq h)
  unfold opWcbWrite
  rw [if_pos (by simp only [hdie, hnat, hpart, ht2, ne_eq, not_false_eq_true, decide_true, Bool.and_self])]

/-! ### A flush -/

/-- The first `n` bytes at an address, those under a mask replaced. -/
def maskedWrite (m : List Host.Cell) (base mask data n : Nat) : List Host.Cell :=
  (List.range n).foldl (fun m i => if mask.testBit i then memWrite m (base + i) [wcbByte data i] else m) m

theorem maskedWrite_succ (m : List Host.Cell) (base mask data n : Nat) :
    maskedWrite m base mask data (n + 1) =
      if mask.testBit n then memWrite (maskedWrite m base mask data n) (base + n) [wcbByte data n]
      else maskedWrite m base mask data n := by
  unfold maskedWrite
  rw [List.range_succ, List.foldl_append]
  rfl

theorem memByte_memWrite_byte (m : List Host.Cell) (a x data i : Nat) :
    memByte (memWrite m a [wcbByte data i]) x = if x = a then wcbByte data i else memByte m x := by
  split
  · rename_i h
    have hbyte : wcbByte data i % 256 = wcbByte data i := Nat.mod_mod _ _
    rw [h]
    exact (memByte_memWrite_in (a := a) (i := 0) (bs := [wcbByte data i]) m (by simp)).trans hbyte
  · exact memByte_memWrite_out m (by rw [List.length_singleton]; omega)

/-- A masked write changes exactly the bytes under its mask. -/
theorem memByte_maskedWrite (m : List Host.Cell) (base mask data n x : Nat) :
    memByte (maskedWrite m base mask data n) x =
      if base ≤ x ∧ x < base + n ∧ mask.testBit (x - base) = true then wcbByte data (x - base) else memByte m x := by
  induction n with
  | zero =>
    rw [if_neg (by omega)]
    rfl
  | succ n ih =>
    rw [maskedWrite_succ]
    by_cases hx : x = base + n
    · subst hx
      rw [Nat.add_sub_cancel_left] at ih ⊢
      rw [if_neg (by omega)] at ih
      cases hbit : mask.testBit n with
      | true => rw [if_pos rfl, memByte_memWrite_byte, if_pos rfl, if_pos ⟨by omega, by omega, rfl⟩]
      | false => rw [if_neg Bool.false_ne_true, ih, if_neg (fun h => Bool.false_ne_true h.2.2)]
    · have hstep : memByte (if mask.testBit n then memWrite (maskedWrite m base mask data n) (base + n) [wcbByte data n]
          else maskedWrite m base mask data n) x = memByte (maskedWrite m base mask data n) x := by
        split
        · rw [memByte_memWrite_byte, if_neg hx]
        · rfl
      rw [hstep, ih]
      exact if_congr (and_congr_right fun _ => and_congr_left fun _ => ⟨fun h => by omega, fun h => by omega⟩) rfl rfl

theorem wcbPut_eq (d : Dev) (md : Nat) (e : WcbEnt) :
    wcbPut d md e = setWcb (setBytes d (maskedWrite d.mem.bytes (e.line * 128) e.mask e.data 128)) md
      ((wcbOf d md).filter (fun x => x.line != e.line)) := rfl

/-- The entry that an uncorrectable error hits is discarded unwritten (R295). -/
theorem wcbFlush_bufUE (d : Dev) (md : Nat) (e : WcbEnt) :
    wcbFlush d md e .bufUE = latch (setPoison (setWcb d md ((wcbOf d md).filter (fun x => x.line != e.line))) (e.line / 32) true)
      (48 + md) 17 0 (lineCap (e.line / 32) (e.line % 32 * 128)) := rfl

/-- What the read of an entry's line by its flush finds. -/
def flushRead (d : Dev) (e : WcbEnt) (ev : Upset) : Dev × Bool :=
  lineRead d (channelOf (e.line / 32)) (lineCap (e.line / 32) (e.line % 32 * 128)) ev

/-- Any other entry is written, and its granule poisoned where the line is uncorrectable (R274). -/
theorem wcbFlush_written {ev : Upset} (d : Dev) (md : Nat) (e : WcbEnt) (h : ev ≠ .bufUE) :
    wcbFlush d md e ev =
      if (flushRead d e ev).2 then setPoison (wcbPut (flushRead d e ev).1 md e) (e.line / 32) true
      else wcbPut (flushRead d e ev).1 md e := by
  unfold wcbFlush flushRead
  dsimp only
  split
  · exact absurd rfl h
  · split <;> rename_i heq <;> rw [heq] <;> rfl

theorem latchSide_lineRead (d : Dev) (ch : Nat) (c : Cap) (ev : Upset) : LatchSide d (lineRead d ch c ev).1 := by
  have hcount : ∀ (e : Dev) (reg n : Nat), reg = 0x130 ∨ reg = 0x134 ∨ reg = 0x138 ∨ reg = 0x13C →
      LatchSide e (bump e (chDie ch) (chPage ch) reg n) := fun e reg n hreg => .bump n (by unfold regOff; omega)
  unfold lineRead
  dsimp only
  split
  · exact hcount _ _ _ (by decide)
  · exact (hcount _ _ _ (by decide)).trans (latchSide_latch _ _ _ _ _)
  · exact (hcount _ _ _ (by decide)).trans (latchSide_latch _ _ _ _ _)
  · have hcrc := fun n => hcount d 0x13C n (by decide)
    split
    · exact (hcrc _).trans ((latchSide_latch _ _ _ _ _).trans ((hcount _ _ _ (by decide)).trans (latchSide_latch _ _ _ _ _)))
    · exact hcrc _
  · exact .refl d

/-- What a flush leaves as it is: the queue managers, the cores, and of the external memories all but the write-combining
buffers. -/
structure FlushSide (d t : Dev) : Prop where
  ext : t.ext = { d.ext with wcb := t.ext.wcb }
  qm : t.qm = d.qm
  cores : t.cores = d.cores
  regs : regsSorted d → regsSorted t
  wcb : SMap.sorted d.ext.wcb = true → SMap.sorted t.ext.wcb = true

namespace FlushSide

theorem refl (d : Dev) : FlushSide d d := ⟨rfl, rfl, rfl, id, id⟩

theorem trans {a b c : Dev} (h : FlushSide a b) (k : FlushSide b c) : FlushSide a c :=
  ⟨by rw [k.ext, h.ext], k.qm.trans h.qm, k.cores.trans h.cores, k.regs ∘ h.regs, k.wcb ∘ h.wcb⟩

theorem of_latchSide {d t : Dev} (h : LatchSide d t) : FlushSide d t where
  ext := by rw [h.side.ext]
  qm := h.side.qm
  cores := h.side.cores
  regs := h.canon
  wcb := fun hs => by rw [h.side.ext]; exact hs

theorem count (d : Dev) (md reg n : Nat) : FlushSide d (Machine.bumpWcb d md reg n) where
  ext := by rw [bumpWcb_ext]
  qm := bump_qm _ _ _ _ _
  cores := bump_cores _ _ _ _ _
  regs := regsSorted_bump _ _ _ _
  wcb := fun h => by rw [bumpWcb_ext]; exact h

theorem setPoison (d : Dev) (sid : Nat) (b : Bool) : FlushSide d (setPoison d sid b) := ⟨rfl, rfl, rfl, id, id⟩

theorem setWcb (d : Dev) (md : Nat) (l : List WcbEnt) : FlushSide d (setWcb d md l) :=
  ⟨rfl, rfl, rfl, id, SMap.sorted_put _ _ _⟩

theorem wcbPut (d : Dev) (md : Nat) (e : WcbEnt) : FlushSide d (wcbPut d md e) := ⟨rfl, rfl, rfl, id, SMap.sorted_put _ _ _⟩

end FlushSide

theorem flushSide_flushRead (d : Dev) (e : WcbEnt) (ev : Upset) : FlushSide d (flushRead d e ev).1 :=
  .of_latchSide (latchSide_lineRead _ _ _ _)

theorem flushSide_wcbFlush (d : Dev) (md : Nat) (e : WcbEnt) (ev : Upset) : FlushSide d (wcbFlush d md e ev) := by
  by_cases hev : ev = .bufUE
  · rw [hev, wcbFlush_bufUE]
    exact ((FlushSide.setWcb d md _).trans (.setPoison _ _ _)).trans (.of_latchSide (latchSide_latch _ _ _ _ _))
  · have hput := (flushSide_flushRead d e ev).trans (.wcbPut _ md e)
    rw [wcbFlush_written d md e hev]
    split
    · exact hput.trans (.setPoison _ _ _)
    · exact hput

/-- A flush frees its entry, whatever it meets; the others stay. -/
theorem wcbOf_wcbFlush {d : Dev} (md : Nat) (e : WcbEnt) (ev : Upset) (h : SMap.sorted d.ext.wcb = true) :
    wcbOf (wcbFlush d md e ev) md = (wcbOf d md).filter (fun x => x.line != e.line) := by
  by_cases hev : ev = .bufUE
  · rw [hev, wcbFlush_bufUE, wcbOf_of_ext (latchSide_latch _ _ _ _ _).side.ext]
    exact wcbOf_setWcb_same md _ h
  · have hext := (latchSide_lineRead d (channelOf (e.line / 32)) (lineCap (e.line / 32) (e.line % 32 * 128)) ev).side.ext
    have hput : wcbOf (wcbPut (flushRead d e ev).1 md e) md = (wcbOf d md).filter (fun x => x.line != e.line) := by
      rw [wcbPut_eq, ← wcbOf_of_ext hext md]
      exact wcbOf_setWcb_same md _ ((flushSide_flushRead d e ev).wcb h)
    rw [wcbFlush_written d md e hev]
    split
    · exact hput
    · exact hput

theorem poisoned_setPoison_same (d : Dev) (sid : Nat) : poisoned (setPoison d sid true) sid = true := by
  unfold poisoned setPoison NSet.mem NSet.add SMap.has
  simp only [if_true, SMap.get?_insert_same, Option.isSome_some]

theorem poisoned_of_mem {d t : Dev} (h : t.mem = d.mem) (sid : Nat) : poisoned t sid = poisoned d sid := by
  unfold poisoned
  rw [h]

theorem setBytes_poison (d : Dev) (m : List Host.Cell) : (setBytes d m).mem.poison = d.mem.poison := rfl

theorem poison_wcbFlush_none (d : Dev) (md : Nat) (e : WcbEnt) : (wcbFlush d md e .none).mem.poison = d.mem.poison := by
  rw [show wcbFlush d md e .none = wcbPut d md e from rfl, wcbPut_eq, setWcb_mem, setBytes_poison]

theorem poisoned_wcbFlush_ue (d : Dev) (md : Nat) (e : WcbEnt) (n : Nat) :
    poisoned (wcbFlush d md e (.ue n)) (e.line / 32) = true := by
  rw [wcbFlush_written (ev := .ue n) d md e nofun, if_pos (show (flushRead d e (.ue n)).2 = true from rfl)]
  exact poisoned_setPoison_same _ _

/-! ### WCB_FLUSH_AGE -/

/-- The module when an entry has been flushed for its age, the flush counted (R273). -/
def flushedOld (d : Dev) (md : Nat) (e : WcbEnt) (ev : Upset) : Dev := bumpWcb (wcbFlush d md e ev) md 0x138 1

theorem flushedOld_mem (d : Dev) (md : Nat) (e : WcbEnt) (ev : Upset) :
    (flushedOld d md e ev).mem = (wcbFlush d md e ev).mem := bumpWcb_mem _ _ _ _

theorem flushSide_flushedOld (d : Dev) (md : Nat) (e : WcbEnt) (ev : Upset) : FlushSide d (flushedOld d md e ev) :=
  (flushSide_wcbFlush d md e ev).trans (.count _ md 0x138 1)

theorem wcbOf_flushedOld {d : Dev} (md : Nat) (e : WcbEnt) (ev : Upset) (h : SMap.sorted d.ext.wcb = true) :
    wcbOf (flushedOld d md e ev) md = (wcbOf d md).filter (fun x => x.line != e.line) :=
  (wcbOf_of_ext (bumpWcb_ext _ _ _ _) md).trans (wcbOf_wcbFlush md e ev h)

theorem mem_wcbFlush_bufUE (d : Dev) (md : Nat) (e : WcbEnt) :
    (wcbFlush d md e .bufUE).mem = (setPoison d (e.line / 32) true).mem := mem_latch _ _ _ _ _

theorem flag_flushedOld_bufUE {d : Dev} (md : Nat) (e : WcbEnt) (h : regsSorted d) :
    (rg (flushedOld d md e .bufUE) (48 + md) 17 0x020).testBit 0 = true := by
  have hkept : rg (flushedOld d md e .bufUE) (48 + md) 17 0x020 = rg (wcbFlush d md e .bufUE) (48 + md) 17 0x020 :=
    rg_bump_other 1 ((flushSide_wcbFlush d md e .bufUE).regs h) (by unfold regOff; omega)
  rw [hkept, wcbFlush_bufUE]
  exact latch_flag _ h (by decide)

theorem opWcbFlushAge_young {d : Dev} {md line : Nat} {e : WcbEnt} (ev : Upset)
    (hfind : (wcbOf d md).find? (fun x => x.line == line) = some e)
    (hage : (d.now - e.at_) * 1000 < rg d (48 + md) 17 0x104 % 4096 * 1050) : opWcbFlushAge d md line ev = d := by
  unfold opWcbFlushAge
  rw [hfind]
  exact if_neg (Nat.not_le.mpr hage)

theorem opWcbFlushAge_old {d : Dev} {md line : Nat} {e : WcbEnt} (ev : Upset)
    (hfind : (wcbOf d md).find? (fun x => x.line == line) = some e)
    (hage : rg d (48 + md) 17 0x104 % 4096 * 1050 ≤ (d.now - e.at_) * 1000) :
    opWcbFlushAge d md line ev = flushedOld d md e (evHere ev) := by
  unfold opWcbFlushAge
  rw [hfind]
  exact if_pos hage

theorem line_of_find? {l : List WcbEnt} {line : Nat} {e : WcbEnt} (h : l.find? (fun x => x.line == line) = some e) :
    e.line = line := by
  simpa using List.find?_some h

/-- A flush of a sound entry writes exactly the entry's bytes, whatever the read of its line finds (R274). -/
theorem bytes_wcbFlush {ev : Upset} (d : Dev) (md : Nat) (e : WcbEnt) (h : ev ≠ .bufUE) :
    (wcbFlush d md e ev).mem.bytes = maskedWrite d.mem.bytes (e.line * 128) e.mask e.data 128 := by
  have hmem : (flushRead d e ev).1.mem = d.mem := mem_lineRead _ _ _ _
  rw [wcbFlush_written d md e h, ← hmem]
  split <;> rfl

theorem memByte_wcbFlush_in {ev : Upset} {i : Nat} (d : Dev) (md : Nat) (e : WcbEnt) (h : ev ≠ .bufUE) (hi : i < 128) :
    memByte (wcbFlush d md e ev).mem.bytes (e.line * 128 + i) =
      if e.mask.testBit i then wcbByte e.data i else memByte d.mem.bytes (e.line * 128 + i) := by
  rw [bytes_wcbFlush d md e h, memByte_maskedWrite, Nat.add_sub_cancel_left]
  exact if_congr ⟨fun hx => hx.2.2, fun hbit => ⟨by omega, by omega, hbit⟩⟩ rfl rfl

theorem memByte_wcbFlush_out {ev : Upset} {a : Nat} (d : Dev) (md : Nat) (e : WcbEnt) (h : ev ≠ .bufUE)
    (ha : a < e.line * 128 ∨ e.line * 128 + 128 ≤ a) :
    memByte (wcbFlush d md e ev).mem.bytes a = memByte d.mem.bytes a := by
  rw [bytes_wcbFlush d md e h, memByte_maskedWrite, if_neg (by omega)]

/-! ### WCB_FULL_WAIT -/

theorem opWcbFullWait_full {d : Dev} {md : Nat} {h : WcbHeld} {r : List WcbHeld} (ev : Upset) (hheld : wcbHeldOf d md = h :: r)
    (hfull : 1024 ≤ (wcbOf d md).length) : opWcbFullWait d md ev = d := by
  unfold opWcbFullWait
  rw [hheld]
  exact if_neg (Nat.not_lt.mpr hfull)

/-- The module when the oldest waiting write has gone on. -/
def waitedOver (d : Dev) (md : Nat) (h : WcbHeld) (r : List WcbHeld) : Dev :=
  bumpWcb (setWcbHeld d md r) md 0x148 (2 * (d.now - h.since))

section WaitedOver
variable (d : Dev) (md : Nat) (h : WcbHeld) (r : List WcbHeld)

theorem waitedOver_ext : (waitedOver d md h r).ext = (setWcbHeld d md r).ext := bumpWcb_ext _ _ _ _
theorem waitedOver_now : (waitedOver d md h r).now = d.now := bump_now _ _ _ _ _
theorem wcbOf_waitedOver : wcbOf (waitedOver d md h r) md = wcbOf d md := by
  rw [wcbOf_of_ext (waitedOver_ext d md h r)]
  rfl
theorem wcbHeldOf_waitedOver : wcbHeldOf (waitedOver d md h r) md = wcbHeldOf (setWcbHeld d md r) md :=
  congrArg (fun x : Ext => SMap.getD x.wcbHeld md []) (waitedOver_ext d md h r)

end WaitedOver

/-- The oldest waiting write enters once there is room, its wait counted (R276). -/
theorem opWcbFullWait_room {d : Dev} {md : Nat} {h : WcbHeld} {r : List WcbHeld} (ev : Upset) (hregs : regsSorted d)
    (hsorted : SMap.sorted d.ext.wcb = true) (hheld : wcbHeldOf d md = h :: r)
    (habsent : (wcbOf d md).find? (fun e => e.line == h.line) = none) (hfree : (wcbOf d md).length < 1024)
    (hhigh : (wcbOf d md).length + 1 < rg d (48 + md) 17 0x108 % 2048) :
    opWcbFullWait d md ev =
      setWcb (waitedOver d md h r) md (wcbOf d md ++ [⟨h.line, h.mask, wcbMerge 0 h.data h.mask, d.now⟩]) := by
  have hmark : rg (waitedOver d md h r) (48 + md) 17 0x108 = rg d (48 + md) 17 0x108 :=
    rg_bump_other (d := setWcbHeld d md r) _ hregs (by unfold regOff; omega)
  have hentries := wcbOf_waitedOver d md h r
  have henter := wcbEnter_room (d := waitedOver d md h r) h.mask h.data ev (by rw [waitedOver_ext]; exact hsorted)
    (by rw [hentries]; exact habsent) (by rw [hentries]; exact hfree) (by rw [hentries, hmark]; exact hhigh)
  rw [hentries, waitedOver_now] at henter
  unfold opWcbFullWait
  rw [hheld]
  dsimp only
  rw [if_pos hfree]
  exact henter

theorem regSide_waitedOver (d : Dev) (md : Nat) (h : WcbHeld) (r : List WcbHeld) :
    RegSide (setWcbHeld d md r) (waitedOver d md h r) := regSide_bump _ _ _ _ _

/-- An entry that is added beside register words. -/
theorem RegSide.setWcb {d t : Dev} (h : RegSide d t) (md : Nat) (l : List WcbEnt) :
    RegSide { d with ext := (setWcb t md l).ext } (setWcb t md l) :=
  { h with ext := rfl }

theorem rg_waitedOver (d : Dev) (md : Nat) (h : WcbHeld) (r : List WcbHeld) (hregs : regsSorted d) :
    rg (waitedOver d md h r) (48 + md) 17 0x148 = min (rg d (48 + md) 17 0x148 + 2 * (d.now - h.since)) (2 ^ 32 - 1) :=
  rg_bump_same (d := setWcbHeld d md r) _ _ _ _ hregs

/-! ### The statement -/

/-- Settles O40: a partial line enters its buffer or waits, an entry that is old enough is written under its mask or discarded,
and a waiting write enters once there is room. -/
theorem partialLinesAreCombined : Obligations.PartialLinesAreCombined := by
  unfold Obligations.PartialLinesAreCombined
  intro s md line hlive hregs hwcb hheld
  refine ⟨fun mask bytes ev hdie hsome hpart ht2 habsent => ⟨?_, ?_⟩, fun e ev hfind => ⟨?_, ?_, ?_⟩,
    fun h r ev hlist => ⟨?_, ?_⟩⟩
  · rintro ⟨hhigh, hfree⟩
    refine completes_okDev hlive rfl ?_
    rw [opWcbWrite_enters _ _ hdie hsome hpart ht2, wcbEnter_room _ _ _ hwcb habsent hfree hhigh]
    exact ⟨wcbOf_setWcb_same _ _ hwcb, rfl⟩
  · intro hfull
    refine completes_okDev hlive rfl ?_
    rw [opWcbWrite_enters _ _ hdie hsome hpart ht2, wcbEnter_full _ _ _ habsent hfull]
    exact ⟨wcbHeldOf_setWcbHeld_same _ _ hheld, rfl⟩
  · exact fun hage => completes_okDev hlive rfl (opWcbFlushAge_young ev hfind hage)
  · intro hage hev
    obtain rfl := line_of_find? hfind
    have hhere : evHere ev = ev ∧ ev ≠ .bufUE := by rcases hev with rfl | rfl <;> exact ⟨rfl, nofun⟩
    have hside := flushSide_flushedOld s.dev md.val e ev
    refine completes_okDev hlive rfl ?_
    rw [opWcbFlushAge_old ev hfind hage, hhere.1, flushedOld_mem]
    refine ⟨wcbOf_flushedOld _ e ev hwcb, fun i hi => memByte_wcbFlush_in _ _ e hhere.2 hi,
      fun a ha => memByte_wcbFlush_out _ _ e hhere.2 ha, ?_, ?_, hside.qm, hside.cores⟩
    · rintro rfl
      exact (poisoned_of_mem (flushedOld_mem _ _ e _) _).trans (poisoned_wcbFlush_ue _ _ e 0)
    · rintro rfl
      exact poison_wcbFlush_none _ _ e
  · intro hage
    obtain rfl := line_of_find? hfind
    have hside := flushSide_flushedOld s.dev md.val e .bufUE
    have hmem := (flushedOld_mem s.dev md.val e .bufUE).trans (mem_wcbFlush_bufUE s.dev md.val e)
    refine completes_okDev hlive rfl ?_
    rw [opWcbFlushAge_old .bufUE hfind hage, show evHere .bufUE = .bufUE from rfl]
    exact ⟨wcbOf_flushedOld _ e .bufUE hwcb, (congrArg Mem.bytes hmem).trans (bytes_setPoison _ _ _),
      (poisoned_of_mem hmem _).trans (poisoned_setPoison_same _ _), flag_flushedOld_bufUE _ e hregs, hside.qm, hside.cores⟩
  · exact fun hfull => completes_okDev hlive rfl (opWcbFullWait_full ev hlist hfull)
  · rintro ⟨hhigh, hfree⟩ habsent
    refine completes_okDev hlive rfl ?_
    rw [opWcbFullWait_room ev hregs hwcb hlist habsent hfree hhigh]
    refine ⟨?_, wcbOf_setWcb_same _ _ (by rw [waitedOver_ext]; exact hwcb), rg_waitedOver _ _ h r hregs,
      (regSide_waitedOver s.dev md.val h r).setWcb _ _⟩
    exact (wcbHeldOf_waitedOver _ _ h r).trans (wcbHeldOf_setWcbHeld_same _ r hheld)

end Sys2Proof.Machine

/-! SUPPORT. The memory channels and the inkwells: readings, the scrubber, and the inkwell's mode (09 R267 to R271, R278 to R280). -/

namespace Sys2Proof.Machine
open Sys2Proof

/-! ### The word of a channel's temperature (R270, R271) -/

/-- The word that holds a throttle step and a reading. -/
def thermalWord (old step temp : Nat) : Nat := putBits (putBits old 18 17 step) 7 0 temp

theorem bitsOf_eq (x hi lo : Nat) : bitsOf x hi lo = x / 2 ^ lo % 2 ^ (hi + 1 - lo) := by
  unfold bitsOf
  rw [Nat.shiftRight_eq_div_pow]

/-- The word keeps its width, and shows the step and the reading. -/
theorem thermalWord_fields {old step temp : Nat} (hold : old < 2 ^ 32) (hstep : step < 4) (htemp : temp < 256) :
    thermalWord old step temp < 2 ^ 32 ∧ bitsOf (thermalWord old step temp) 18 17 = step ∧
      bitsOf (thermalWord old step temp) 7 0 = temp := by
  unfold thermalWord putBits
  simp only [bitsOf_eq, Nat.reduceAdd, Nat.reduceSub, Nat.reducePow, Nat.div_one, Nat.mul_one] at *
  omega

/-- The module when a channel has counted its missing readings. -/
def failsNoted (d : Dev) (ch fails : Nat) : Dev :=
  { d with ext := { d.ext with sensorFails := SMap.put d.ext.sensorFails ch fails 0 } }

/-- The module when the channel shows a step and a reading, too, and has counted a reading that throttles it. -/
def thermalShown (d : Dev) (ch fails new temp : Nat) : Dev :=
  let d1 := setRg (failsNoted d ch fails) (chDie ch) (chPage ch) 0x100 (thermalWord (rg d (chDie ch) (chPage ch) 0x100) new temp)
  if 1 ≤ new then bump d1 (chDie ch) (chPage ch) 0x144 1 else d1

/-- The module when the channel has taken a step and a reading: a step that is new, and not 0, latches its source. -/
def thermalTaken (d : Dev) (ch fails new temp : Nat) : Dev :=
  let step := bitsOf (rg d (chDie ch) (chPage ch) 0x100) 18 17
  if new ≠ step && new = 1 then latch (thermalShown d ch fails new temp) (chDie ch) (chPage ch) 3 noCap
  else if new ≠ step && new = 2 then latch (thermalShown d ch fails new temp) (chDie ch) (chPage ch) 4 noCap
  else thermalShown d ch fails new temp

theorem opGddrTemp_some (d : Dev) (ch t : Nat) :
    opGddrTemp d ch (some t) = thermalTaken d ch 0 (nextStep (bitsOf (rg d (chDie ch) (chPage ch) 0x100) 18 17) t) t := rfl

/-- The third missing reading in a row counts as 105 degrees. -/
theorem opGddrTemp_third_missing {d : Dev} {ch : Nat} (h : SMap.getD d.ext.sensorFails ch 0 = 2) :
    opGddrTemp d ch none = thermalTaken d ch 3 2 (bitsOf (rg d (chDie ch) (chPage ch) 0x100) 7 0) := by
  unfold opGddrTemp
  simp only [h]
  rfl

theorem nextStep_lt (step t : Nat) : nextStep step t < 4 := by
  unfold nextStep
  split_ifs <;> decide

theorem nextStep_hot {t : Nat} (step : Nat) (h : 105 ≤ t) : nextStep step t = 2 := if_pos h

theorem nextStep_cool {t : Nat} (step : Nat) (h : t ≤ 92) : nextStep step t = 0 := by
  unfold nextStep
  rw [if_neg (by omega), if_pos h, if_pos h, if_neg (by omega : ¬ 95 ≤ t)]
  split
  · rfl
  · split <;> rfl

theorem noLatchWord_chan {reg : Nat} (die page : Nat) (h : reg = 0x100 ∨ reg = 0x108 ∨ reg = 0x134) :
    NoLatchWord (regOff die page reg) := by
  unfold NoLatchWord regOff
  omega

section Thermal
variable (d : Dev) (ch fails new temp : Nat)

theorem latchSide_thermalShown : LatchSide (failsNoted d ch fails) (thermalShown d ch fails new temp) := by
  have hword : LatchSide (failsNoted d ch fails) (setRg (failsNoted d ch fails) (chDie ch) (chPage ch) 0x100
      (thermalWord (rg d (chDie ch) (chPage ch) 0x100) new temp)) := .setRg _ (by unfold regOff; omega)
  unfold thermalShown
  dsimp only
  split
  · exact hword.trans (.bump 1 (by unfold regOff; omega))
  · exact hword

theorem rg_thermalShown (h : regsSorted d) : rg (thermalShown d ch fails new temp) (chDie ch) (chPage ch) 0x100 =
    thermalWord (rg d (chDie ch) (chPage ch) 0x100) new temp % 2 ^ 32 := by
  have hnoted : regsSorted (failsNoted d ch fails) := h
  unfold thermalShown
  dsimp only
  split
  · rw [rg_bump_other 1 (regsSorted_setRg _ _ _ _ hnoted) (by unfold regOff; omega), rg_setRg_same _ _ _ _ hnoted]
  · exact rg_setRg_same _ _ _ _ hnoted

/-- What taking a reading adds latches at most one source, and the channel's word stays as shown. -/
theorem thermalTaken_after : LatchSide (thermalShown d ch fails new temp) (thermalTaken d ch fails new temp) ∧
    KeepsWord (regOff (chDie ch) (chPage ch) 0x100) (thermalShown d ch fails new temp) (thermalTaken d ch fails new temp) := by
  have hword := noLatchWord_chan (chDie ch) (chPage ch) (.inl rfl)
  unfold thermalTaken
  dsimp only
  split
  · exact ⟨latchSide_latch _ _ _ _ _, keepsWord_latch hword _ _ _ _ _⟩
  · split
    · exact ⟨latchSide_latch _ _ _ _ _, keepsWord_latch hword _ _ _ _ _⟩
    · exact ⟨.refl _, .refl _⟩

/-- Beside the table of missing readings a reading changes only what latching a source may change. -/
theorem faultSide_thermalTaken : FaultSide { d with ext := { d.ext with
    sensorFails := (thermalTaken d ch fails new temp).ext.sensorFails } } (thermalTaken d ch fails new temp) := by
  have hside := ((latchSide_thermalShown d ch fails new temp).trans (thermalTaken_after d ch fails new temp).1).side
  have hext : { d with ext := { d.ext with sensorFails := (thermalTaken d ch fails new temp).ext.sensorFails } } =
      failsNoted d ch fails := by
    rw [hside.ext]
    rfl
  rw [hext]
  exact hside

variable {d new temp}

/-- The channel shows the step and the reading that it has taken. -/
theorem thermalTaken_fields (h : regsSorted d) (hnew : new < 4) (htemp : temp < 256) :
    bitsOf (rg (thermalTaken d ch fails new temp) (chDie ch) (chPage ch) 0x100) 18 17 = new ∧
      bitsOf (rg (thermalTaken d ch fails new temp) (chDie ch) (chPage ch) 0x100) 7 0 = temp := by
  have hshown : regsSorted (thermalShown d ch fails new temp) := (latchSide_thermalShown d ch fails new temp).canon h
  have hkept : rg (thermalTaken d ch fails new temp) (chDie ch) (chPage ch) 0x100 =
      rg (thermalShown d ch fails new temp) (chDie ch) (chPage ch) 0x100 := (thermalTaken_after d ch fails new temp).2.same hshown
  obtain ⟨hlt, hfields⟩ := thermalWord_fields (rg_lt d (chDie ch) (chPage ch) 0x100) hnew htemp
  rw [hkept, rg_thermalShown d ch fails new temp h, Nat.mod_eq_of_lt hlt]
  exact hfields

/-- A channel that comes to step 2 flags source 4 (R271). -/
theorem flag_thermalTaken (h : regsSorted d) (hstep : bitsOf (rg d (chDie ch) (chPage ch) 0x100) 18 17 ≠ 2) :
    (rg (thermalTaken d ch fails 2 temp) (chDie ch) (chPage ch) 0x020).testBit 4 = true := by
  have hlatch : thermalTaken d ch fails 2 temp = latch (thermalShown d ch fails 2 temp) (chDie ch) (chPage ch) 4 noCap := by
    unfold thermalTaken
    dsimp only
    rw [if_neg (by simp), if_pos (by simpa using hstep.symm)]
  rw [hlatch]
  exact latch_flag _ ((latchSide_thermalShown d ch fails 2 temp).canon h) (by decide)

end Thermal

/-! ### The scrubber (R267, R269) -/

theorem opScrub_disabled {d : Dev} {ch : Nat} (r : LineRead) (h : (rg d (chDie ch) (chPage ch) 0x104).testBit 31 = false) :
    opScrub d ch r = d := by
  unfold opScrub
  exact if_pos (by rw [h]; rfl)

/-- What the scrubber does with the line that it reads. -/
def lineScrubbed (d : Dev) (ch : Nat) (r : LineRead) : Dev :=
  match r with
  | .clean => d
  | .corrected => bump d (chDie ch) (chPage ch) 0x130 1
  | .double => lineUE d ch (rg d (chDie ch) (chPage ch) 0x108) 0x134
  | .tagMismatch => lineUE d ch (rg d (chDie ch) (chPage ch) 0x108) 0x138

/-- Short of the last line the scrubber moves on by one. -/
theorem opScrub_moves_on {d : Dev} {ch : Nat} (r : LineRead) (hon : (rg d (chDie ch) (chPage ch) 0x104).testBit 31 = true)
    (hline : rg d (chDie ch) (chPage ch) 0x108 + 1 < chLines) :
    opScrub d ch r = setRg (lineScrubbed d ch r) (chDie ch) (chPage ch) 0x108 (rg d (chDie ch) (chPage ch) 0x108 + 1) := by
  unfold opScrub
  dsimp only
  rw [if_neg (by rw [hon]; decide), if_pos hline]
  rfl

theorem rg_scrub_line {d t : Dev} {ch : Nat} (ht : regsSorted t) (hline : rg d (chDie ch) (chPage ch) 0x108 + 1 < chLines) :
    rg (setRg t (chDie ch) (chPage ch) 0x108 (rg d (chDie ch) (chPage ch) 0x108 + 1)) (chDie ch) (chPage ch) 0x108 =
      rg d (chDie ch) (chPage ch) 0x108 + 1 := by
  rw [rg_setRg_same _ _ _ _ ht]
  unfold chLines at hline
  exact Nat.mod_eq_of_lt (by omega)

/-- A granule of the reserved region is marked POISON (R267). -/
def rsvdMarked (d : Dev) (g : Nat) : Dev := { d with ext := { d.ext with rsvdPoison := NSet.add d.ext.rsvdPoison g } }

/-- Only marks of storage and tables of the external memories differ. -/
structure LineSide (d t : Dev) : Prop where
  regs : t.regs = d.regs
  bytes : t.mem.bytes = d.mem.bytes
  qm : t.qm = d.qm
  cores : t.cores = d.cores

namespace LineSide

theorem refl (d : Dev) : LineSide d d := ⟨rfl, rfl, rfl, rfl⟩

theorem trans {a b c : Dev} (h : LineSide a b) (k : LineSide b c) : LineSide a c :=
  ⟨k.regs.trans h.regs, k.bytes.trans h.bytes, k.qm.trans h.qm, k.cores.trans h.cores⟩

theorem foldl {α : Type} (f : Dev → α → Dev) (h : ∀ d x, LineSide d (f d x)) (l : List α) (d : Dev) :
    LineSide d (l.foldl f d) := by
  induction l generalizing d with
  | nil => exact refl d
  | cons x r ih => exact (h d x).trans (ih _)

theorem poisonPhys (d : Dev) (g : Nat) : LineSide d (poisonPhys d g) := 
  foldl (fun d s => setPoison d s true) (fun _ _ => ⟨rfl, rfl, rfl, rfl⟩) _ d

theorem rsvdMarked (d : Dev) (g : Nat) : LineSide d (rsvdMarked d g) := ⟨rfl, rfl, rfl, rfl⟩

theorem rebuildMap (d : Dev) (g : Nat) : LineSide d (rebuildMap d g) := ⟨rfl, rfl, rfl, rfl⟩

end LineSide

/-- What a channel's source captures of a line by its number in the channel. -/
def chanLineCap (ch line : Nat) : Cap := ⟨(line / 64 * 64 + ch) * 64 + line % 64, 11, ch, none, 6, 64⟩

theorem lineUE_eq (d : Dev) (ch line reg : Nat) :
    lineUE d ch line reg =
      let e := bump d (chDie ch) (chPage ch) reg 1
      let g := line / 64 * 64 + ch
      if g < reservedGrans then
        if g < mapGrans then rebuildMap (latch (rsvdMarked e g) (chDie ch) (chPage ch) 1 (chanLineCap ch line)) g
        else latch (rsvdMarked e g) (chDie ch) (chPage ch) 1 (chanLineCap ch line)
      else latch (poisonPhys e g) (chDie ch) (chPage ch) 0 (chanLineCap ch line) := rfl

/-- An uncorrectable line is counted, marked, and latched as source 0 or 1 of its channel (R267, R269). -/
theorem lineUE_latches (d : Dev) (ch line reg : Nat) : ∃ e c src, src < 2 ∧
    LineSide (bump d (chDie ch) (chPage ch) reg 1) e ∧
    LineSide (latch e (chDie ch) (chPage ch) src c) (lineUE d ch line reg) := by
  rw [lineUE_eq]
  dsimp only
  split
  · refine ⟨_, chanLineCap ch line, 1, by decide, .rsvdMarked _ (line / 64 * 64 + ch), ?_⟩
    split
    · exact .rebuildMap _ _
    · exact .refl _
  · exact ⟨_, _, 0, by decide, .poisonPhys _ _, .refl _⟩

theorem regsSorted_lineUE {d : Dev} (ch line reg : Nat) (h : regsSorted d) : regsSorted (lineUE d ch line reg) := by
  obtain ⟨e, c, src, -, hcount, hlatch⟩ := lineUE_latches d ch line reg
  exact regsSorted_of_regs hlatch.regs ((latchSide_latch _ _ _ _ _).canon (regsSorted_of_regs hcount.regs (regsSorted_bump _ _ _ _ h)))

/-- What an uncorrectable line leaves as it is. -/
theorem lineUE_keeps (d : Dev) (ch line reg : Nat) :
    (lineUE d ch line reg).mem.bytes = d.mem.bytes ∧ (lineUE d ch line reg).qm = d.qm ∧ (lineUE d ch line reg).cores = d.cores := by
  obtain ⟨e, c, src, -, hcount, hlatch⟩ := lineUE_latches d ch line reg
  have hside := (latchSide_latch e (chDie ch) (chPage ch) src c).side
  have hbump : (bump d (chDie ch) (chPage ch) reg 1).mem.bytes = d.mem.bytes := by rw [bump_mem]
  exact ⟨hlatch.bytes.trans ((congrArg Mem.bytes hside.mem).trans (hcount.bytes.trans hbump)),
    hlatch.qm.trans (hside.qm.trans (hcount.qm.trans (bump_qm _ _ _ _ _))),
    hlatch.cores.trans (hside.cores.trans (hcount.cores.trans (bump_cores _ _ _ _ _)))⟩

theorem rg_lineUE_count {d : Dev} (ch line : Nat) (h : regsSorted d) :
    rg (lineUE d ch line 0x134) (chDie ch) (chPage ch) 0x134 = min (rg d (chDie ch) (chPage ch) 0x134 + 1) (2 ^ 32 - 1) := by
  obtain ⟨e, c, src, -, hcount, hlatch⟩ := lineUE_latches d ch line 0x134
  have he : regsSorted e := regsSorted_of_regs hcount.regs (regsSorted_bump _ _ _ _ h)
  have hword := noLatchWord_chan (chDie ch) (chPage ch) (reg := 0x134) (by decide)
  calc rg (lineUE d ch line 0x134) (chDie ch) (chPage ch) 0x134
      = rg (latch e (chDie ch) (chPage ch) src c) (chDie ch) (chPage ch) 0x134 := rg_of_regs hlatch.regs _ _ _
    _ = rg e (chDie ch) (chPage ch) 0x134 := (keepsWord_latch hword _ _ _ _ _).same he
    _ = rg (bump d (chDie ch) (chPage ch) 0x134 1) (chDie ch) (chPage ch) 0x134 := rg_of_regs hcount.regs _ _ _
    _ = min (rg d (chDie ch) (chPage ch) 0x134 + 1) (2 ^ 32 - 1) := rg_bump_same _ _ _ _ h

theorem lineUE_flag {d : Dev} (ch line reg : Nat) (h : regsSorted d) :
    (rg (lineUE d ch line reg) (chDie ch) (chPage ch) 0x020).testBit 0 = true ∨
      (rg (lineUE d ch line reg) (chDie ch) (chPage ch) 0x020).testBit 1 = true := by
  obtain ⟨e, c, src, hsrc, hcount, hlatch⟩ := lineUE_latches d ch line reg
  have he : regsSorted e := regsSorted_of_regs hcount.regs (regsSorted_bump _ _ _ _ h)
  have hflag := latch_flag (die := chDie ch) (page := chPage ch) (src := src) c he (by omega)
  rw [rg_of_regs hlatch.regs]
  obtain rfl | rfl : src = 0 ∨ src = 1 := by omega
  · exact .inl hflag
  · exact .inr hflag

/-! ### The inkwell's mode (R278, R280) -/

theorem inkCache_of_regs {d t : Dev} (h : t.regs = d.regs) (md : Nat) : inkCache t md = inkCache d md :=
  congrArg (Nat.testBit · 8) (rg_of_regs h _ _ _)

theorem ink_of_ext {d t : Dev} (h : t.ext = d.ext) (md : Nat) : ink t md = ink d md := by
  unfold ink
  rw [h]

theorem ink_setInk_same {d : Dev} (md : Nat) (x : Ink) (h : SMap.sorted d.ext.inks = true) : ink (setInk d md x) md = x :=
  SMap.getD_put_same _ _ _ h

theorem wcbOf_setInk (d : Dev) (md n : Nat) (x : Ink) : wcbOf (setInk d n x) md = wcbOf d md := rfl

/-- A write of the mode in force changes nothing. -/
theorem opInkMode_same (d : Dev) (md : Nat) : opInkMode d md (inkCache d md) = d := by
  unfold opInkMode
  dsimp only
  exact if_pos (by simp)

/-- The write of another mode is rejected. -/
def modeRejected (d : Dev) (md : Nat) : Dev := setRg d (48 + md) 18 0x104 (rg d (48 + md) 18 0x104 ||| 2 ^ 17)

theorem opInkMode_ready {d : Dev} {md : Nat} {cache : Bool} (hidle : (ink d md).changeTo = none) (hother : inkCache d md ≠ cache)
    (hready : d.state = .ready) : opInkMode d md cache = modeRejected d md := by
  unfold opInkMode
  dsimp only
  rw [if_neg (by simp [hidle, hother.symm]), hready]
  rfl

theorem rg_modeRejected {d : Dev} (md : Nat) (h : regsSorted d) :
    rg (modeRejected d md) (48 + md) 18 0x104 = (rg d (48 + md) 18 0x104 ||| 2 ^ 17) % 2 ^ 32 := rg_setRg_same _ _ _ _ h

theorem modeRejected_flag {d : Dev} (md : Nat) (h : regsSorted d) :
    (rg (modeRejected d md) (48 + md) 18 0x104).testBit 17 = true := by
  rw [rg_modeRejected md h, Nat.testBit_mod_two_pow, Nat.testBit_or, Nat.testBit_two_pow_self]
  simp

theorem inkCache_modeRejected {d : Dev} (md : Nat) (h : regsSorted d) : inkCache (modeRejected d md) md = inkCache d md := by
  unfold inkCache
  rw [rg_modeRejected md h, Nat.testBit_mod_two_pow, Nat.testBit_or, Nat.testBit_two_pow_of_ne (by decide)]
  simp

/-- INKWELL_CTRL asks for a mode. -/
def modeAsked (d : Dev) (md : Nat) (cache : Bool) : Dev := setRg d (48 + md) 18 0x100 (if cache then 256 else 0)

/-- The change to another mode begins. -/
def modeChanging (d : Dev) (md : Nat) (cache : Bool) : Dev :=
  setInk (modeAsked d md cache) md { ink (modeAsked d md cache) md with changeTo := some cache }

theorem opInkMode_starts {d : Dev} {md : Nat} {cache : Bool} (hidle : (ink d md).changeTo = none) (hother : inkCache d md ≠ cache)
    (hstate : d.state = .test ∨ d.state = .recovery) (hcopies : cache = true → inkHasCopy d md = false) :
    opInkMode d md cache = modeChanging d md cache := by
  have hfree : (cache && inkHasCopy d md) = false := by
    cases cache with
    | false => rfl
    | true => exact hcopies rfl
  have hnotReady : (d.state == .ready) = false ∧ (d.state == .boot) = false := by
    rcases hstate with h | h <;> rw [h] <;> decide
  unfold opInkMode
  dsimp only
  rw [if_neg (by simp [hidle, hother.symm]), hnotReady.1, hnotReady.2, hfree]
  rfl

theorem changeTo_modeChanging {d : Dev} (md : Nat) (cache : Bool) (h : SMap.sorted d.ext.inks = true) :
    (ink (modeChanging d md cache) md).changeTo = some cache := by
  have hasked : SMap.sorted (modeAsked d md cache).ext.inks = true := by
    unfold modeAsked
    rw [setRg_ext]
    exact h
  exact congrArg Ink.changeTo (ink_setInk_same md _ hasked)

theorem inkCache_modeChanging {d : Dev} (md : Nat) (cache : Bool) (h : regsSorted d) :
    inkCache (modeChanging d md cache) md = inkCache d md := by
  unfold modeChanging
  rw [inkCache_of_regs (setInk_regs _ _ _)]
  exact congrArg (Nat.testBit · 8) (rg_setRg_other _ h (by unfold regOff; omega))

/-- A write of a register beside register words. -/
theorem RegSide.setRaw {d t : Dev} (h : RegSide d t) (off v : Nat) : RegSide d (setRaw t off v) := { h with }

theorem RegSide.setRg {d t : Dev} (h : RegSide d t) (die page reg v : Nat) : RegSide d (setRg t die page reg v) := h.setRaw _ v

theorem setInk_ext (d : Dev) (md : Nat) (x : Ink) :
    (setInk d md x).ext = { d.ext with inks := (setInk d md x).ext.inks } := rfl

/-- An inkwell's entry that is written beside register words. -/
theorem RegSide.setInk {d t : Dev} (h : RegSide d t) (md : Nat) (x : Ink) :
    RegSide { d with ext := { d.ext with inks := (setInk t md x).ext.inks } } (setInk t md x) :=
  { h with ext := by rw [setInk_ext, h.ext] }

theorem regSide_modeChanging (d : Dev) (md : Nat) (cache : Bool) :
    RegSide { d with ext := { d.ext with inks := (modeChanging d md cache).ext.inks } } (modeChanging d md cache) := by
  have hasked : RegSide d (modeAsked d md cache) := (RegSide.refl d).setRg _ _ _ _
  unfold modeChanging
  exact hasked.setInk _ _

/-! ### The end of a change of mode (R273, R280) -/

theorem inkChangeEnd_idle {d : Dev} {md : Nat} (ev : Upset) (h : (ink d md).changeTo = none) : inkChangeEnd d md ev = d := by
  unfold inkChangeEnd
  rw [h]

theorem flushSide_wcbFlushList (md reg : Nat) (l : List WcbEnt) (ev : Upset) (d : Dev) :
    FlushSide d (wcbFlushList md reg l ev d) := by
  induction l generalizing d ev with
  | nil => exact .refl d
  | cons e r ih =>
    have hflush := flushSide_wcbFlush d md e (evHere ev)
    unfold wcbFlushList
    refine FlushSide.trans ?_ (ih _ _)
    split
    · exact hflush
    · exact hflush.trans (.count _ _ _ _)

/-- The flush of a list of entries leaves those of other lines. -/
theorem wcbOf_wcbFlushList {d : Dev} (md reg : Nat) (l : List WcbEnt) (ev : Upset) (h : SMap.sorted d.ext.wcb = true) :
    wcbOf (wcbFlushList md reg l ev d) md = (wcbOf d md).filter (fun x => l.all (fun e => x.line != e.line)) := by
  induction l generalizing d ev with
  | nil => exact (List.filter_eq_self.mpr fun _ _ => rfl).symm
  | cons e r ih =>
    have hflush := flushSide_wcbFlush d md e (evHere ev)
    have hstep : wcbOf (if reg = 0 then wcbFlush d md e (evHere ev) else bumpWcb (wcbFlush d md e (evHere ev)) md reg 1) md =
        (wcbOf d md).filter (fun x => x.line != e.line) := by
      split
      · exact wcbOf_wcbFlush md e _ h
      · exact (wcbOf_of_ext (bumpWcb_ext _ _ _ _) md).trans (wcbOf_wcbFlush md e _ h)
    have hsorted : SMap.sorted (if reg = 0 then wcbFlush d md e (evHere ev)
        else bumpWcb (wcbFlush d md e (evHere ev)) md reg 1).ext.wcb = true := by
      split
      · exact hflush.wcb h
      · exact (hflush.trans (.count _ _ _ _)).wcb h
    unfold wcbFlushList
    dsimp only
    rw [ih _ hsorted, hstep, List.filter_filter]
    exact List.filter_congr fun x _ => by rw [List.all_cons, Bool.and_comm]

/-- A flush of every entry of a memory die leaves none. -/
theorem wcbOf_wcbFlushAll {d : Dev} (md : Nat) (count : Bool) (ev : Upset) (h : SMap.sorted d.ext.wcb = true) :
    wcbOf (wcbFlushAll d md count ev) md = [] := by
  unfold wcbFlushAll
  rw [wcbOf_wcbFlushList md _ _ ev h, List.filter_eq_nil_iff]
  intro x hx hall
  exact absurd (List.all_eq_true.mp hall x hx) (by simp)

/-- The dirty lines of an inkwell's cache. -/
def dirtyLines (d : Dev) (md : Nat) : Nat := sumBy (ink d md).sets (fun e => (e.2.filter (·.dirty)).length)

/-- The module when the change's dirty lines are written back and the buffer is flushed. -/
def modeFlushed (d : Dev) (md : Nat) (cache : Bool) (ev : Upset) : Dev :=
  wcbFlushAll (if cache then d else bump d (48 + md) 18 0x138 (dirtyLines d md)) md false ev

/-- INKWELL_STAT and INKWELL_CTRL show the new mode. -/
def modeShown (d : Dev) (md : Nat) (cache : Bool) : Dev :=
  setRg (setRg d (48 + md) 18 0x104 (rg d (48 + md) 18 0x104 / 2 ^ 17 * 2 ^ 17 + (if cache then 256 else 0))) (48 + md) 18 0x100
    (if cache then 256 else 0)

theorem inkChangeEnd_changing {d : Dev} {md : Nat} {cache : Bool} (ev : Upset) (h : (ink d md).changeTo = some cache) :
    inkChangeEnd d md ev =
      pageEvent (modeShown (setInk (modeFlushed d md cache ev) md ⟨[], none⟩) md cache) (48 + md) 18 0 := by
  unfold inkChangeEnd
  rw [h]
  rfl

theorem flushSide_modeFlushed (d : Dev) (md : Nat) (cache : Bool) (ev : Upset) : FlushSide d (modeFlushed d md cache ev) := by
  unfold modeFlushed
  refine FlushSide.trans ?_ (flushSide_wcbFlushList md _ _ ev _)
  split
  · exact .refl d
  · exact .of_latchSide (.bump _ (by unfold regOff; omega))

theorem wcbOf_modeFlushed {d : Dev} (md : Nat) (cache : Bool) (ev : Upset) (h : SMap.sorted d.ext.wcb = true) :
    wcbOf (modeFlushed d md cache ev) md = [] := by
  unfold modeFlushed
  refine wcbOf_wcbFlushAll md false ev ?_
  split
  · exact h
  · rw [bump_ext]
    exact h

theorem modeShown_ext (d : Dev) (md : Nat) (cache : Bool) : (modeShown d md cache).ext = d.ext := by
  unfold modeShown
  rw [setRg_ext, setRg_ext]

theorem modeShown_qm (d : Dev) (md : Nat) (cache : Bool) : (modeShown d md cache).qm = d.qm := by
  unfold modeShown
  rw [setRg_qm, setRg_qm]

theorem modeShown_cores (d : Dev) (md : Nat) (cache : Bool) : (modeShown d md cache).cores = d.cores := by
  unfold modeShown
  rw [setRg_cores, setRg_cores]

theorem regsSorted_modeShown {d : Dev} (md : Nat) (cache : Bool) (h : regsSorted d) : regsSorted (modeShown d md cache) :=
  regsSorted_setRg _ _ _ _ (regsSorted_setRg _ _ _ _ h)

theorem inkCache_modeShown {d : Dev} (md : Nat) (cache : Bool) (h : regsSorted d) : inkCache (modeShown d md cache) md = cache := by
  have hword := rg_lt d (48 + md) 18 0x104
  unfold inkCache modeShown
  rw [rg_setRg_other _ (regsSorted_setRg _ _ _ _ h) (by unfold regOff; omega), rg_setRg_same _ _ _ _ h,
    Nat.testBit_eq_decide_div_mod_eq]
  cases cache with
  | false => simp only [Bool.false_eq_true, if_false, decide_eq_false_iff_not]; omega
  | true => simp only [if_true, decide_eq_true_eq]; omega

/-- The end of a change: the mode is in force, the cache and the die's buffer are empty, and the change is an event. -/
theorem inkChangeEnd_ends {d : Dev} {md : Nat} {cache : Bool} (ev : Upset) (hregs : regsSorted d)
    (hwcb : SMap.sorted d.ext.wcb = true) (hinks : SMap.sorted d.ext.inks = true) (h : (ink d md).changeTo = some cache) :
    inkCache (inkChangeEnd d md ev) md = cache ∧ ink (inkChangeEnd d md ev) md = ⟨[], none⟩ ∧ wcbOf (inkChangeEnd d md ev) md = [] ∧
      (rg (inkChangeEnd d md ev) (48 + md) 18 0x080).testBit 0 = true ∧ (inkChangeEnd d md ev).qm = d.qm ∧
      (inkChangeEnd d md ev).cores = d.cores := by
  have hflush := flushSide_modeFlushed d md cache ev
  have hinks' : SMap.sorted (modeFlushed d md cache ev).ext.inks = true := by rw [hflush.ext]; exact hinks
  have hset := regsSorted_of_regs (setInk_regs (modeFlushed d md cache ev) md ⟨[], none⟩) (hflush.regs hregs)
  have hshown := regsSorted_modeShown md cache hset
  have hext : (inkChangeEnd d md ev).ext = (setInk (modeFlushed d md cache ev) md ⟨[], none⟩).ext := by
    rw [inkChangeEnd_changing ev h, pageEvent_ext, modeShown_ext]
  refine ⟨?_, ?_, ?_, ?_, ?_, ?_⟩
  · rw [inkChangeEnd_changing ev h]
    refine Eq.trans ?_ (inkCache_modeShown md cache hset)
    exact congrArg (Nat.testBit · 8) (rg_pageEvent_other hshown (by unfold regOff; omega))
  · rw [ink_of_ext hext, ink_setInk_same md _ hinks']
  · rw [wcbOf_of_ext hext, wcbOf_setInk, wcbOf_modeFlushed md cache ev hwcb]
  · rw [inkChangeEnd_changing ev h, rg_pageEvent_same _ _ _ hshown, Nat.testBit_mod_two_pow, Nat.testBit_or,
      Nat.testBit_two_pow_self]
    simp
  · rw [inkChangeEnd_changing ev h, pageEvent_qm, modeShown_qm, setInk_qm, hflush.qm]
  · rw [inkChangeEnd_changing ev h, pageEvent_cores, modeShown_cores, setInk_cores, hflush.cores]

/-! ### The statement -/

/-- Settles O41: a reading sets its channel's word and step, a scrub step moves on and counts what it finds, and an inkwell's
mode changes as its state allows, the caches and buffers emptied at the end. -/
theorem memoryChannelsAreWatched : Obligations.MemoryChannelsAreWatched := by
  unfold Obligations.MemoryChannelsAreWatched
  intro s acc ch md hlive hregs hwcb hinks
  refine ⟨fun x => ?_, fun hmissing => ?_, fun hon hline => ⟨?_, ?_, ?_⟩, fun hoff r => ?_,
    fun cache hperf hidle hother => ⟨fun hready => ?_, fun hstate hcopies => ?_⟩, fun cache ev hchange => ?_, fun ev hidle => ?_,
    fun hperf => ?_⟩
  · refine completes_okDev hlive rfl ?_
    obtain ⟨hstep, htemp⟩ := thermalTaken_fields ch.val 0 hregs
      (nextStep_lt (bitsOf (rg s.dev (chDie ch.val) (chPage ch.val) 0x100) 18 17) x.toNat) x.isLt
    refine ⟨faultSide_thermalTaken _ _ _ _ _, htemp, fun hhot => ?_, fun hcool => hstep.trans (nextStep_cool _ hcool)⟩
    refine ⟨hstep.trans (nextStep_hot _ hhot), fun hold => ?_⟩
    rw [Option.map_some, opGddrTemp_some, nextStep_hot _ hhot]
    exact flag_thermalTaken _ _ hregs hold
  · refine completes_okDev hlive rfl ?_
    have hshown : bitsOf (rg s.dev (chDie ch.val) (chPage ch.val) 0x100) 7 0 < 256 := Nat.mod_lt _ (by decide)
    rw [Option.map_none, opGddrTemp_third_missing hmissing]
    exact ⟨faultSide_thermalTaken _ _ _ _ _, thermalTaken_fields _ _ hregs (by decide) hshown⟩
  · refine completes_okDev hlive rfl ?_
    rw [opScrub_moves_on _ hon hline]
    exact ⟨rg_scrub_line hregs hline, regSide_setRaw _ _ _⟩
  · refine completes_okDev hlive rfl ?_
    have hcount := regsSorted_bump (chDie ch.val) (chPage ch.val) 0x130 1 hregs
    rw [opScrub_moves_on _ hon hline]
    refine ⟨rg_scrub_line hcount hline, ?_, ?_⟩
    · exact (rg_setRg_other _ hcount (by unfold regOff; omega)).trans (rg_bump_same _ _ _ _ hregs)
    · exact (regSide_bump _ _ _ _ _).setRg _ _ _ _
  · refine completes_okDev hlive rfl ?_
    have hue := regsSorted_lineUE ch.val (rg s.dev (chDie ch.val) (chPage ch.val) 0x108) 0x134 hregs
    obtain ⟨hbytes, hqm, hcores⟩ := lineUE_keeps s.dev ch.val (rg s.dev (chDie ch.val) (chPage ch.val) 0x108) 0x134
    have hmoved : opScrub s.dev ch.val .double = setRg (lineUE s.dev ch.val (rg s.dev (chDie ch.val) (chPage ch.val) 0x108) 0x134)
      (chDie ch.val) (chPage ch.val) 0x108 (rg s.dev (chDie ch.val) (chPage ch.val) 0x108 + 1) := opScrub_moves_on _ hon hline
    rw [hmoved, setRg_mem, setRg_qm, setRg_cores, rg_setRg_other (reg' := 0x134) _ hue (by unfold regOff; omega),
      rg_setRg_other (reg' := 0x020) _ hue (by unfold regOff; omega)]
    exact ⟨rg_scrub_line hue hline, rg_lineUE_count _ _ hregs, lineUE_flag _ _ _ hregs, hbytes, hqm, hcores⟩
  · exact completes_okDev hlive rfl (opScrub_disabled r hoff)
  · refine completes_okDev hlive rfl ?_
    rw [withReg_performed hperf, opInkMode_ready hidle hother hready]
    exact ⟨modeRejected_flag _ hregs, inkCache_modeRejected _ hregs, regSide_setRaw _ _ _⟩
  · refine completes_okDev hlive rfl ?_
    rw [withReg_performed hperf, opInkMode_starts hidle hother hstate hcopies]
    exact ⟨changeTo_modeChanging _ _ hinks, inkCache_modeChanging _ _ hregs, regSide_modeChanging _ _ _⟩
  · obtain ⟨hmode, hink, hempty, hevent, hqm, hcores⟩ := inkChangeEnd_ends ev hregs hwcb hinks hchange
    exact completes_okDev hlive rfl
      ⟨hmode, congrArg Ink.changeTo hink, congrArg Ink.sets hink, hempty, hevent, hqm, hcores⟩
  · exact completes_okDev hlive rfl (inkChangeEnd_idle ev hidle)
  · refine completes_okDev hlive rfl ?_
    rw [withReg_performed hperf]
    exact opInkMode_same _ _

end Sys2Proof.Machine

/-! SUPPORT. O42: an erase whose number a later program takes (09 R286), and the refutation. -/

namespace Sys2Proof.Machine
open Sys2Proof

/-- Block 5 has been read to the limit and is already being erased, under number 0; block 6, whose units have all moved away, is
not erased yet. Number 0 is also the one that the next program or erase takes. -/
def clashFtl : Ftl :=
  { idleFtl with blks := [(5, ⟨2 ^ 32, 3, false, 2, false⟩), (6, ⟨0, 3, false, 2, true⟩)], erases := [(0, 5)], nextProg := 0 }

def clashState : State :=
  { pending := [], dev := { resetDev with state := .ready, ext := { emptyExt with ftl := [(0, clashFtl)] } } }

/-- The erase of block 6 takes the number of block 5's, which is then no longer under way. -/
theorem erases_opReadDisturb_clashState : (ftl (opReadDisturb clashState.dev 0 5) 0).erases = [(0, 6)] := by decide +kernel

/-- Refutes O42, in the clause of READ_DISTURB_RELOCATION: its premises do not keep the numbers of the erases under way below
`nextProg`, so that an erase that starts can take the number of one that is under way. In `clashState` block 5 holds no page in
use and is already being erased; relocating it starts the erase of block 6 under the same number, and no erase of block 5 is
left. -/
theorem not_flashIsKeptInOrder : ¬ Obligations.FlashIsKeptInOrder := by
  unfold Obligations.FlashIsKeptInOrder
  intro h
  obtain ⟨hdisturb, -⟩ := h clashState 0 rfl (by unfold regsSorted; decide +kernel) (by decide +kernel) (by decide +kernel)
    (by decide +kernel) (by decide +kernel)
  have hdone := (hdisturb 5).2 (by decide +kernel) (by decide +kernel) (by decide +kernel)
  obtain ⟨-, -, -, herase⟩ := of_completes_okDev (s := clashState) rfl rfl hdone
  obtain ⟨op, hop⟩ := herase (by decide +kernel) (by decide +kernel)
  have hlisted : (op, 5) ∈ (ftl (opReadDisturb clashState.dev 0 5) 0).erases := SMap.mem_of_get? hop
  rw [erases_opReadDisturb_clashState] at hlisted
  exact absurd hlisted (by simp)

end Sys2Proof.Machine

/-! SUPPORT. The words of a key/value pool's declaration (10 R333; 16 R494). -/

namespace Sys2Proof.Machine
open Sys2Proof

/-- Words that have no bit in common add without a carry. -/
theorem add_eq_or_of_disjoint {x y : Nat} (hx : x < 2 ^ 32) (hy : y < 2 ^ 32) (h : x &&& y = 0) : x + y = x ||| y := by
  have hbv : BitVec.ofNat 32 x &&& BitVec.ofNat 32 y = 0#32 := by
    rw [← BitVec.ofNat_and, h]
  have hsum := congrArg BitVec.toNat (BitVec.add_eq_or_of_and_eq_zero _ _ hbv)
  rw [BitVec.toNat_add_of_and_eq_zero hbv, BitVec.toNat_or, BitVec.toNat_ofNat, BitVec.toNat_ofNat,
    Nat.mod_eq_of_lt hx, Nat.mod_eq_of_lt hy] at hsum
  exact hsum

theorem testBit_bitsOf (x hi lo i : Nat) : (bitsOf x hi lo).testBit i = (decide (i < hi + 1 - lo) && x.testBit (i + lo)) := by
  rw [bitsOf_eq, Nat.testBit_mod_two_pow, Nat.testBit_div_two_pow]

/-- Bits `hi` to `lo` of a mask are set. -/
def fieldIn (mask hi lo : Nat) : Prop := ∀ i, i < hi + 1 - lo → mask.testBit (i + lo) = true

/-- The word that a write of `v` leaves where the bits of `mask` are written and `old` was shown. -/
def maskedWord (mask old v : Nat) : Nat := (old &&& (0xFFFFFFFF - mask)) + (v &&& mask)

/-- A written field reads as written. -/
theorem bitsOf_and_mask {mask hi lo : Nat} (h : fieldIn mask hi lo) (v : Nat) : bitsOf (v &&& mask) hi lo = bitsOf v hi lo := by
  refine Nat.eq_of_testBit_eq fun i => ?_
  rw [testBit_bitsOf, testBit_bitsOf, Nat.testBit_and]
  by_cases hi' : i < hi + 1 - lo
  · rw [h i hi', Bool.and_true]
  · simp [hi']

/-- The mask of the bits that a write leaves. -/
theorem compl_mask {mask : Nat} (h : mask < 2 ^ 32) (i : Nat) :
    (0xFFFFFFFF - mask).testBit i = (decide (i < 32) && !mask.testBit i) := by
  have hsub : 0xFFFFFFFF - mask = 2 ^ 32 - (mask + 1) := by omega
  rw [hsub, Nat.testBit_two_pow_sub_succ h]

theorem bitsOf_maskedWord {mask hi lo : Nat} (hm : mask < 2 ^ 32) (h : fieldIn mask hi lo) (old v : Nat) :
    bitsOf (maskedWord mask old v) hi lo = bitsOf v hi lo := by
  have hle : ∀ x y : Nat, y < 2 ^ 32 → x &&& y < 2 ^ 32 := fun x y hy => Nat.lt_of_le_of_lt Nat.and_le_right hy
  have hdis : (old &&& (0xFFFFFFFF - mask)) &&& (v &&& mask) = 0 := by
    refine Nat.eq_of_testBit_eq fun i => ?_
    simp only [Nat.testBit_and, compl_mask hm, Nat.zero_testBit]
    cases mask.testBit i <;> simp
  unfold maskedWord
  rw [add_eq_or_of_disjoint (hle _ _ (by omega)) (hle _ _ hm) hdis]
  refine Nat.eq_of_testBit_eq fun i => ?_
  rw [testBit_bitsOf, testBit_bitsOf, Nat.testBit_or, Nat.testBit_and, Nat.testBit_and, compl_mask hm]
  by_cases hi' : i < hi + 1 - lo
  · rw [h i hi']
    simp
  · simp [hi']

/-! ### The write of a pool's first word -/

/-- The bits of a pool's first word that software writes. -/
def poolMask : Nat := 0x8FF701FF

/-- The fields of a pool's first word are legal (16 R494). -/
structure PoolLegal (v : Nat) : Prop where
  dim : ∃ k, 1 ≤ k ∧ k ≤ 8 ∧ bitsOf v 8 0 = 32 * k
  keyType : bitsOf v 23 20 ∈ [3, 4, 6, 7]
  valueType : bitsOf v 27 24 ∈ [6, 7]

theorem fieldIn_poolMask : fieldIn poolMask 8 0 ∧ fieldIn poolMask 18 16 ∧ fieldIn poolMask 23 20 ∧ fieldIn poolMask 27 24 := by
  unfold fieldIn poolMask
  decide

theorem poolMask_lt : poolMask < 2 ^ 32 := by decide

/-- The registers that hold the first word of a pool. -/
def poolRegs : List Nat := [0x1A0, 0x1A8, 0x1B0, 0x1B8]

theorem poolRegs_bounds {reg : Nat} (h : reg ∈ poolRegs) : 0x1A0 ≤ reg ∧ reg < 0x1C0 := by
  have hall : ∀ x ∈ poolRegs, 0x1A0 ≤ x ∧ x < 0x1C0 := by decide
  exact hall reg h

theorem findRow_poolRegs {reg : Nat} (h : reg ∈ poolRegs) : findRow .qmgrJ reg = some ⟨reg, poolMask, 0, 0, false⟩ := by
  have hall : ∀ x ∈ poolRegs, findRow .qmgrJ x = some ⟨x, poolMask, 0, 0, false⟩ := by decide
  exact hall reg h

/-- Legal fields are taken as they are. -/
theorem rangeFix_pool {reg v : Nat} (h : reg ∈ poolRegs) (hv : PoolLegal v) (old : Nat) :
    rangeFix .qmgrJ reg old (v &&& poolMask) = (v &&& poolMask, false) := by
  obtain ⟨⟨k, hk1, hk8, hdim⟩, hkey, hval⟩ := hv
  obtain ⟨hd, -, hkt, hvt⟩ := fieldIn_poolMask
  obtain ⟨hlo, hhi⟩ := poolRegs_bounds h
  have hreg : (decide (reg = 0x1A0) || decide (reg = 0x1A8) || decide (reg = 0x1B0) || decide (reg = 0x1B8)) = true := by
    simpa [poolRegs, or_assoc] using h
  have hbad : (decide (32 * k % 32 ≠ 0) || decide (32 * k < 32) || decide (32 * k > 256)) = false := by
    simp; omega
  unfold rangeFix
  simp only [if_neg (show ¬ reg = 0x028 by omega), if_neg (show ¬ reg = 0x188 by omega), hreg, if_true,
    bitsOf_and_mask hd, bitsOf_and_mask hkt, bitsOf_and_mask hvt, hdim, hbad, hkey, hval, decide_true, Bool.not_true,
    Bool.false_eq_true, if_false]

variable {d : Dev} {j reg v : Nat}

/-- A pool word with legal fields is stored, and nothing is out of range. -/
theorem plainWrite_pool (hj : j < 256) (h : reg ∈ poolRegs) (hv : PoolLegal v) :
    ∃ old, plainWrite d (regOff 60 (jPage j) reg) v = (setRj d j reg (maskedWord poolMask old v), false) := by
  have hp : jPage j < 1024 := by unfold jPage; omega
  obtain ⟨hlo, hhi⟩ := poolRegs_bounds h
  have hall (x : Nat) (hx : x < 2 ^ 32) : x &&& 0xFFFFFFFF = x :=
    (Nat.and_two_pow_sub_one_eq_mod x 32).trans (Nat.mod_eq_of_lt hx)
  have hne : poolMask ≠ 0 := by decide
  refine ⟨regVal d (regOff 60 (jPage j) reg), ?_⟩
  unfold plainWrite
  simp only [offDie_regOff (show 60 < 64 by decide) hp (show reg < 4096 by omega),
    offPage_regOff 60 hp (show reg < 4096 by omega), offReg_regOff 60 (jPage j) (show reg < 4096 by omega),
    blkAt_jobPage hj, findRow_poolRegs h, hne, decide_false, Bool.false_and, Bool.false_eq_true, if_false,
    if_neg (show ¬ reg < 0x100 by omega), rangeFix_pool h hv, Nat.and_zero, Nat.sub_zero]
  exact congrArg (fun w => (setRj d j reg w, false)) (hall _ (rw_bits_lt _ v (Nat.le_of_lt_succ poolMask_lt)))

/-- The word that the write leaves shows the written fields. -/
theorem rj_pool (hs : regsSorted d) {mask hi lo : Nat} (hm : mask < 2 ^ 32) (h : fieldIn mask hi lo) (old : Nat) :
    bitsOf (rj (setRj d j reg (maskedWord mask old v)) j reg) hi lo = bitsOf v hi lo := by
  have hword : rj (setRj d j reg (maskedWord mask old v)) j reg = maskedWord mask old v :=
    (rg_setRg_same _ _ _ _ hs).trans (Nat.mod_eq_of_lt (rw_bits_lt old v (Nat.le_of_lt_succ hm)))
  rw [hword, bitsOf_maskedWord hm h]

end Sys2Proof.Machine

/-! SUPPORT. Binding of sessions (10 R304). -/

namespace Sys2Proof.Machine
open Sys2Proof
variable {d : Dev} {j n reg : Nat}

theorem isActive_of_state (h : (job d j).state = 1) : isActive d j = true := by
  unfold isActive
  rw [h]
  rfl

theorem isActive_false (h : (job d j).state ≠ 1) : isActive d j = false := by
  unfold isActive
  exact beq_false_of_ne h

theorem sess_setSess_same (h : SMap.sorted d.qm.sess = true) (n : Nat) (x : Sess) : sess (setSess d n x) n = x :=
  SMap.getD_put_same _ _ _ h

theorem sess_setSess_other (h : SMap.sorted d.qm.sess = true) {k : Nat} (x : Sess) (hk : k ≠ n) :
    sess (setSess d n x) k = sess d k := SMap.getD_put_other _ _ _ h hk

/-- The result that an active job's register shows. -/
theorem sessResult_setResult (h : (job d j).state = 1) (r : Nat) : (job (setResult d j r) j).sessResult = r := by
  have hx : ({ job d j with sessResult := r } : Job).state ≠ 0 := by
    change (job d j).state ≠ 0
    omega
  unfold setResult
  rw [job_setJob_active d j hx]

theorem setResult_rest (d : Dev) (j r : Nat) :
    setResult d j r = { d with qm := { d.qm with jobs := (setResult d j r).qm.jobs } } := rfl

/-- What BIND or UNBIND leaves of the session and of the job's result. -/
structure SessTo (d t : Dev) (j n : Nat) (x : Sess) (r : Nat) : Prop where
  same : sess t n = x
  result : (job t j).sessResult = r
  others : ∀ k, k ≠ n → sess t k = sess d k
  rest : t = { d with qm := { d.qm with jobs := t.qm.jobs, sess := t.qm.sess } }

theorem sessTo_setResult (hs : SMap.sorted d.qm.sess = true) (hj : (job d j).state = 1) (n : Nat) (x : Sess) (r : Nat) :
    SessTo d (setResult (setSess d n x) j r) j n x r :=
  ⟨sess_setSess_same hs n x, sessResult_setResult (d := setSess d n x) hj r, fun _ hk => sess_setSess_other hs x hk, rfl⟩

/-! BIND and UNBIND, case by case. -/

theorem opBind_unbound (hj : (job d j).state = 1) (hn : (sess d n).job = none) :
    opBind d j n = setResult (setSess d n { sess d n with job := some j }) j 0 := by
  unfold opBind
  simp [isActive_of_state hj, hn]

theorem opBind_bound (hj : (job d j).state = 1) (hn : (sess d n).job ≠ none) : opBind d j n = setResult d j 1 := by
  unfold opBind
  simp [isActive_of_state hj, Option.isSome_iff_ne_none.mpr hn]

theorem opBind_inactive (hj : (job d j).state ≠ 1) (n : Nat) : opBind d j n = d := by
  unfold opBind
  simp [isActive_false hj]

theorem opUnbind_free (hj : (job d j).state = 1) (hn : (sess d n).job = some j) (he : sessEmpty (sess d n) = true)
    (hc : (jobCmds d j).any (fun e => namesSess e.2 n) = false) :
    opUnbind d j n = setResult (setSess d n freeSess) j 0 := by
  unfold opUnbind
  simp only [isActive_of_state hj, hn, he, hc, Bool.not_true, Bool.or_false, Bool.false_eq_true, if_false, ne_eq,
    not_true_eq_false]

theorem opUnbind_used (hj : (job d j).state = 1) (hn : (sess d n).job = some j)
    (hc : sessEmpty (sess d n) = false ∨ (jobCmds d j).any (fun e => namesSess e.2 n) = true) :
    opUnbind d j n = setResult d j 2 := by
  have hused : (!sessEmpty (sess d n) || (jobCmds d j).any (fun e => namesSess e.2 n)) = true := by
    rcases hc with h | h
    · rw [h]; rfl
    · rw [h, Bool.or_true]
  unfold opUnbind
  simp only [isActive_of_state hj, hn, hused, Bool.not_true, Bool.false_eq_true, if_false, if_true, ne_eq, not_true_eq_false]

theorem opUnbind_other (hj : (job d j).state = 1) (hn : (sess d n).job ≠ some j) : opUnbind d j n = setResult d j 3 := by
  unfold opUnbind
  simp [isActive_of_state hj, hn]

theorem opUnbind_inactive (hj : (job d j).state ≠ 1) (n : Nat) : opUnbind d j n = d := by
  unfold opUnbind
  simp [isActive_false hj]

/-! ### Declarations (R333) -/

theorem opDecl_rejected (h : jobCmds d j ≠ [] ∨ declFree d j reg = false) (a : Acc) (v : Nat) :
    opDecl d a j reg v = setJob d j { job d j with declRej := true } := by
  have hbusy : (!(jobCmds d j).isEmpty || !declFree d j reg) = true := by
    rcases h with h | h
    · simp [h]
    · simp [h]
  unfold opDecl
  rw [if_pos hbusy]

theorem opDecl_pool {reg v : Nat} (hj : j < 256) (hc : jobCmds d j = []) (hf : declFree d j reg = true) (h : reg ∈ poolRegs)
    (hv : PoolLegal v) (a : Acc) : ∃ old, opDecl d a j reg v = setRj d j reg (maskedWord poolMask old v) := by
  obtain ⟨old, hw⟩ := plainWrite_pool (d := d) hj h hv
  obtain ⟨hlo, hhi⟩ := poolRegs_bounds h
  refine ⟨old, ?_⟩
  unfold opDecl
  simp [hc, hf, hhi, hw]

theorem declReg_pool {i : Nat} (h : i = 0 ∨ i = 2 ∨ i = 4 ∨ i = 6) : declReg i ∈ poolRegs := by
  rcases h with rfl | rfl | rfl | rfl <;> decide

/-- Settles O49: each case of BIND and UNBIND leaves its result; a declaration of a pool stores the fields that it takes. -/
theorem sessionsAreBoundAndPoolsDeclared : Obligations.SessionsAreBoundAndPoolsDeclared := by
  unfold Obligations.SessionsAreBoundAndPoolsDeclared
  intro s acc j hlive hs
  refine ⟨fun hperf n => ?sessions, fun reg v hperf => ?declarations⟩
  case sessions =>
    have hbind {t : Dev} {P : Dev → Prop} (he : opBind s.dev j.val n.val = t) (hP : P t) : Completes (.bind acc j n) s P :=
      completes_okDev hlive (congrArg (okDev s) ((withReg_performed hperf _).trans he)) hP
    have hunbind {t : Dev} {P : Dev → Prop} (he : opUnbind s.dev j.val n.val = t) (hP : P t) :
        Completes (.unbind acc j n) s P :=
      completes_okDev hlive (congrArg (okDev s) ((withReg_performed hperf _).trans he)) hP
    refine ⟨fun hj => ⟨fun hn => ?_, fun hn => ?_, fun hn he hc => ?_, fun hn hc => ?_, fun hn => ?_⟩,
      fun hj => ⟨hbind (opBind_inactive hj _) rfl, hunbind (opUnbind_inactive hj _) rfl⟩⟩
    · obtain ⟨same, result, others, rest⟩ := sessTo_setResult hs.sess hj n.val { sess s.dev n.val with job := some j.val } 0
      exact hbind (opBind_unbound hj hn) ⟨same, result, others, rest⟩
    · exact hbind (opBind_bound hj hn) ⟨sessResult_setResult hj 1, setResult_rest _ _ _⟩
    · obtain ⟨same, result, others, rest⟩ := sessTo_setResult hs.sess hj n.val freeSess 0
      exact hunbind (opUnbind_free hj hn he hc) ⟨same, result, others, rest⟩
    · exact hunbind (opUnbind_used hj hn hc) ⟨sessResult_setResult hj 2, setResult_rest _ _ _⟩
    · exact hunbind (opUnbind_other hj hn) ⟨sessResult_setResult hj 3, setResult_rest _ _ _⟩
  case declarations =>
    have hdecl {t : Dev} {P : Dev → Prop} (he : opDecl s.dev acc j.val (declReg reg.val) v.toNat = t) (hP : P t) :
        Completes (.declarationWrite acc j reg v) s P :=
      completes_okDev hlive (congrArg (okDev s) ((withReg_performed hperf _).trans he)) hP
    refine ⟨fun h => hdecl (opDecl_rejected h acc _) ⟨job_setJob_sorted hs.jobs _ _, rfl⟩, fun hc hf hpool hdim hkey hval => ?_⟩
    obtain ⟨old, hw⟩ := opDecl_pool j.isLt hc hf (declReg_pool hpool) ⟨hdim, hkey, hval⟩ acc
    obtain ⟨hd, hg, hk, hv⟩ := fieldIn_poolMask
    exact hdecl hw ⟨rj_pool hs.regs poolMask_lt hd old, rj_pool hs.regs poolMask_lt hg old, rj_pool hs.regs poolMask_lt hk old,
      rj_pool hs.regs poolMask_lt hv old, regSide_setRaw _ _ _⟩

end Sys2Proof.Machine

/-! SUPPORT. The queues of a job, their doorbells and SQ_ERR_CLEAR (10 R305, R306). -/

namespace Sys2Proof.Machine
open Sys2Proof

/-! ### The three submission queues of a job -/

@[simp] theorem sqOf_setSq_same (x : Job) (q : Nat) (sq : SQ) : sqOf (setSq x q sq) q = sq := by
  match q with
  | 0 => rfl
  | 1 => rfl
  | _ + 2 => rfl

theorem sqOf_setSq_other (x : Job) (sq : SQ) {q k : Fin 3} (h : k ≠ q) : sqOf (setSq x q.val sq) k.val = sqOf x k.val := by
  have hall : ∀ a b : Fin 3, b ≠ a → sqOf (setSq x a.val sq) b.val = sqOf x b.val := by
    intro a b hne
    match a, b with
    | 0, 0 | 1, 1 | 2, 2 => exact absurd rfl hne
    | 0, 1 | 0, 2 | 1, 0 | 1, 2 | 2, 0 | 2, 1 => rfl
  exact hall q k h

@[simp] theorem sqOf_sqErr (x : Job) (b : Bool) (q : Nat) : sqOf { x with sqErr := b } q = sqOf x q := by
  match q with
  | 0 => rfl
  | 1 => rfl
  | _ + 2 => rfl

/-- A queue's record is all that a change of the queue changes. -/
theorem setSq_keeps (x : Job) (q : Nat) (sq : SQ) :
    (setSq x q sq).state = x.state ∧ (setSq x q sq).sqErr = x.sqErr ∧ (setSq x q sq).port = x.port := by
  match q with
  | 0 => exact ⟨rfl, rfl, rfl⟩
  | 1 => exact ⟨rfl, rfl, rfl⟩
  | _ + 2 => exact ⟨rfl, rfl, rfl⟩

section Bells
variable {d : Dev} {j q tail : Nat}

/-- An active job's record after a change of one of its queues. -/
theorem job_setSq (h : (job d j).state = 1) (x : Job) (hx : x.state = (job d j).state) (q : Nat) (sq : SQ) :
    job (setJob d j (setSq x q sq)) j = setSq x q sq :=
  job_setJob_active d j (by rw [(setSq_keeps x q sq).1, hx, h]; decide)

/-! ### A doorbell (R306) -/

/-- The doorbells to serve after one that was accepted. -/
def rungBells (d : Dev) (j q tail : Nat) : List (Nat × Nat × Nat) :=
  if tail = (sqOf (job d j) q).fetch then d.qm.bells.filter (fun b => !(b.1 == j && b.2.1 == q))
  else if d.qm.bells.contains (j, q, tail) then d.qm.bells
  else d.qm.bells ++ [(j, q, tail)]

/-- The module when a queue's tail is recorded. -/
def tailRecorded (d : Dev) (j q tail : Nat) : Dev := setJob d j (setSq (job d j) q { sqOf (job d j) q with tail := tail })

theorem ringBell_inside (h : tail < sqSize d j q) :
    ringBell d j q tail =
      { tailRecorded d j q tail with qm := { (tailRecorded d j q tail).qm with bells := rungBells d j q tail } } := by
  unfold ringBell rungBells
  rw [if_neg (Nat.not_le.mpr h)]
  dsimp only
  by_cases hf : tail = (sqOf (job d j) q).fetch
  · rw [if_pos hf, if_pos hf]
    rfl
  · rw [if_neg hf, if_neg hf]
    change (if d.qm.bells.contains (j, q, tail) = true then _ else _) = _
    by_cases hc : d.qm.bells.contains (j, q, tail) = true
    · rw [if_pos hc, if_pos hc]
      rfl
    · rw [if_neg hc, if_neg hc]
      rfl

theorem ringBell_beyond (h : sqSize d j q ≤ tail) :
    ringBell d j q tail =
      setJob d j (setSq { job d j with sqErr := true } q { sqOf (job d j) q with tail := tail, stopped := true }) := by
  unfold ringBell
  exact if_pos h

/-- The job's record after a doorbell inside the ring. -/
theorem job_ringBell_inside (hj : (job d j).state = 1) (h : tail < sqSize d j q) :
    job (ringBell d j q tail) j = setSq (job d j) q { sqOf (job d j) q with tail := tail } := by
  rw [ringBell_inside h]
  exact job_setSq hj _ rfl q _

theorem job_ringBell_beyond (hj : (job d j).state = 1) (h : sqSize d j q ≤ tail) :
    job (ringBell d j q tail) j =
      setSq { job d j with sqErr := true } q { sqOf (job d j) q with tail := tail, stopped := true } := by
  rw [ringBell_beyond h]
  exact job_setSq hj { job d j with sqErr := true } rfl q _

theorem regs_ringBell (d : Dev) (j q tail : Nat) : (ringBell d j q tail).regs = d.regs := by
  by_cases h : sqSize d j q ≤ tail
  · rw [ringBell_beyond h]
    rfl
  · rw [ringBell_inside (Nat.lt_of_not_le h)]
    rfl

/-! SQ_DOORBELL, case by case. -/

theorem opSqDoorbell_running {v : Nat} (hj : (job d j).state = 1) (hr : (sqOf (job d j) q).stopped = false)
    (h : v % 65536 < sqSize d j q) (a : Acc) : opSqDoorbell d a j q v = ringBell d j q (v % 65536) := by
  unfold opSqDoorbell
  simp [hj, hr, h]

theorem opSqDoorbell_stopped {v : Nat} (hj : (job d j).state = 1) (hr : (sqOf (job d j) q).stopped = true) (a : Acc) :
    opSqDoorbell d a j q v = setJob d j (setSq (job d j) q { sqOf (job d j) q with tail := v % 65536 }) := by
  unfold opSqDoorbell
  simp [hj, hr]

theorem opSqDoorbell_beyond {v : Nat} (hj : (job d j).state = 1) (hr : (sqOf (job d j) q).stopped = false)
    (h : sqSize d j q ≤ v % 65536) (a : Acc) :
    opSqDoorbell d a j q v = latchQm (ringBell d j q (v % 65536)) j 1 (bellCap a j (4 * q)) := by
  unfold opSqDoorbell
  simp [hj, hr, h]

/-- A latched source of the queue manager shows, and the tables of the queue manager are as they were. -/
theorem latchQm_shows (h : regsSorted d) (c : Cap) :
    (rg (latchQm d j 1 c) (qmDie d j) 0x100 0x020).testBit 1 = true ∧ FaultSide d (latchQm d j 1 c) :=
  ⟨latch_flag c h (by decide), (latchSide_latch _ _ _ _ _).side⟩

/-- A tail beyond the ring stops the queue and flags the queue manager's source 1. -/
theorem sqDoorbell_beyond_stops {v : Nat} (hs : regsSorted d) (hj : (job d j).state = 1)
    (hr : (sqOf (job d j) q).stopped = false) (h : sqSize d j q ≤ v % 65536) (a : Acc) :
    let t := opSqDoorbell d a j q v
    (sqOf (job t j) q).stopped = true ∧ (job t j).sqErr = true ∧ (rg t (qmDie d j) 0x100 0x020).testBit 1 = true := by
  have hjob := job_ringBell_beyond hj h
  have hport : qmDie (ringBell d j q (v % 65536)) j = qmDie d j := by
    unfold qmDie
    rw [hjob, (setSq_keeps _ _ _).2.2]
  obtain ⟨hflag, hside⟩ := latchQm_shows (j := j) (regsSorted_of_regs (regs_ringBell d j q (v % 65536)) hs) (bellCap a j (4 * q))
  rw [hport] at hflag
  rw [opSqDoorbell_beyond hj hr h]
  intro t
  have hkept : job t j = job (ringBell d j q (v % 65536)) j := congrArg (fun m : Qm => SMap.getD m.jobs j freeJob) hside.qm
  rw [hkept, hjob]
  exact ⟨by rw [sqOf_setSq_same], (setSq_keeps _ _ _).2.1, hflag⟩

/-! ### CQ_DOORBELL -/

/-- The consumed count moves to the position that a head names. -/
theorem consumed_to_head {n h : Nat} (c : Nat) (hh : h < n) : (c + (h + n - c % n) % n) % n = h := by
  have hc : c % n < n := Nat.mod_lt c (Nat.lt_of_le_of_lt (Nat.zero_le h) hh)
  have hsum : c % n + (h + n - c % n) = h + n := by omega
  rw [Nat.add_mod_mod, ← Nat.mod_add_mod, hsum, Nat.add_mod_right, Nat.mod_eq_of_lt hh]

/-- The job after a completion doorbell whose head is inside the ring. -/
def consumedTo (d : Dev) (j h : Nat) : Job :=
  { job d j with cqHead := (job d j).cqHead + (h + cqSize d j - (job d j).cqHead % cqSize d j) % cqSize d j
                 cqWait := (job d j).cqWait && rj64 d j 0x148 == 0 }

theorem opCqDoorbell_inside {v : Nat} (hj : (job d j).state = 1) (h : v % 65536 < cqSize d j) (a : Acc) :
    opCqDoorbell d a j v = setJob d j (consumedTo d j (v % 65536)) := by
  unfold opCqDoorbell consumedTo
  dsimp only
  rw [if_neg (by simp [hj]), if_neg (Nat.not_le.mpr h)]

theorem opCqDoorbell_beyond {v : Nat} (hj : (job d j).state = 1) (h : cqSize d j ≤ v % 65536) (a : Acc) :
    opCqDoorbell d a j v = latchQm d j 1 (bellCap a j 16) := by
  unfold opCqDoorbell
  simp [hj, h]

/-! ### SQ_ERR_CLEAR -/

/-- The module when a stopped queue is stopped no more. -/
def released (d : Dev) (j q : Nat) : Dev :=
  dropBells (setJob d j (setSq (job d j) q { sqOf (job d j) q with stopped := false })) j q

theorem job_released (hj : (job d j).state = 1) (q : Nat) :
    job (released d j q) j = setSq (job d j) q { sqOf (job d j) q with stopped := false } := job_setSq hj _ rfl q _

/-- What SQ_ERR_CLEAR does with one queue: a stopped one goes on towards its recorded tail. -/
def resumeQueue (j : Nat) (d : Dev) (q : Nat) : Dev :=
  if (sqOf (job d j) q).stopped = true then ringBell (released d j q) j q (sqOf (job d j) q).tail else d

theorem opSqErrClear_resumes (h : (job d j).sqErr = true) :
    opSqErrClear d j = (List.range 3).foldl (resumeQueue j) (setJob d j { job d j with sqErr := false }) := by
  unfold opSqErrClear
  simp only [h, Bool.not_true, Bool.false_eq_true, if_false]
  rfl

theorem opSqErrClear_without (h : (job d j).sqErr = false) : opSqErrClear d j = d := by
  unfold opSqErrClear
  simp [h]

/-- Where no queue is stopped, none has to go on. -/
theorem foldl_resumeQueue_idle {d : Dev} (h : ∀ k : Fin 3, (sqOf (job d j) k.val).stopped = false) :
    (List.range 3).foldl (resumeQueue j) d = d := by
  have hstep (k : Fin 3) : resumeQueue j d k.val = d := if_neg (by simp [h k])
  change resumeQueue j (resumeQueue j (resumeQueue j d (0 : Fin 3).val) (1 : Fin 3).val) (2 : Fin 3).val = d
  rw [hstep, hstep, hstep]

/-- The queue of an active job has its tail inside the ring. -/
def TailInside (j : Nat) (k : Fin 3) (d : Dev) : Prop :=
  (job d j).state = 1 ∧ (sqOf (job d j) k.val).tail < sqSize d j k.val

/-- What resuming a queue leaves: the job is active, the ring sizes and the tails are as they were, and no other queue's record
changes. -/
theorem job_resumeQueue (hj : (job d j).state = 1) (q : Fin 3) :
    (job (resumeQueue j d q.val) j).state = 1 ∧
      (sqOf (job (resumeQueue j d q.val) j) q.val).tail = (sqOf (job d j) q.val).tail ∧
      (∀ k : Fin 3, k ≠ q → sqOf (job (resumeQueue j d q.val) j) k.val = sqOf (job d j) k.val) := by
  unfold resumeQueue
  by_cases hstop : (sqOf (job d j) q.val).stopped = true
  · rw [if_pos hstop]
    have hgo := job_released hj q.val
    generalize released d j q.val = e at hgo ⊢
    have he : (job e j).state = 1 := by rw [hgo, (setSq_keeps _ _ _).1, hj]
    by_cases hin : sqSize e j q.val ≤ (sqOf (job d j) q.val).tail
    · rw [job_ringBell_beyond he hin]
      refine ⟨(setSq_keeps _ _ _).1.trans he, by rw [sqOf_setSq_same], fun k hk => ?_⟩
      rw [sqOf_setSq_other _ _ hk, sqOf_sqErr, hgo, sqOf_setSq_other _ _ hk]
    · rw [job_ringBell_inside he (Nat.lt_of_not_le hin)]
      refine ⟨(setSq_keeps _ _ _).1.trans he, by rw [sqOf_setSq_same], fun k hk => ?_⟩
      rw [sqOf_setSq_other _ _ hk, hgo, sqOf_setSq_other _ _ hk]
  · rw [if_neg hstop]
    exact ⟨hj, rfl, fun _ _ => rfl⟩

theorem regs_resumeQueue (d : Dev) (j q : Nat) : (resumeQueue j d q).regs = d.regs := by
  unfold resumeQueue
  split
  · exact regs_ringBell _ _ _ _
  · rfl

theorem sqSize_of_regs {t : Dev} (h : t.regs = d.regs) (q : Nat) : sqSize t j q = sqSize d j q := by
  unfold sqSize
  rw [rj_of_regs h]

theorem tailInside_resumeQueue {k : Fin 3} (h : TailInside j k d) (q : Fin 3) : TailInside j k (resumeQueue j d q.val) := by
  obtain ⟨hj, htail⟩ := h
  obtain ⟨hstate, hown, hother⟩ := job_resumeQueue hj q
  refine ⟨hstate, ?_⟩
  rw [sqSize_of_regs (regs_resumeQueue d j q.val)]
  by_cases hk : k = q
  · subst hk
    rw [hown]
    exact htail
  · rw [hother k hk]
    exact htail

/-- The queue of an active job is not stopped. -/
def GoesOn (j : Nat) (k : Fin 3) (d : Dev) : Prop := (job d j).state = 1 ∧ (sqOf (job d j) k.val).stopped = false

theorem goesOn_resumeQueue {k : Fin 3} (h : GoesOn j k d) (q : Fin 3) : GoesOn j k (resumeQueue j d q.val) := by
  obtain ⟨hj, hgo⟩ := h
  obtain ⟨hstate, -, hother⟩ := job_resumeQueue hj q
  by_cases hk : k = q
  · subst hk
    rw [show resumeQueue j d k.val = d from if_neg (by simp [hgo])]
    exact ⟨hj, hgo⟩
  · exact ⟨hstate, by rw [hother k hk]; exact hgo⟩

/-- A queue whose tail is inside the ring goes on. -/
theorem goesOn_of_tailInside {k : Fin 3} (h : TailInside j k d) : GoesOn j k (resumeQueue j d k.val) := by
  obtain ⟨hj, htail⟩ := h
  refine ⟨(job_resumeQueue hj k).1, ?_⟩
  unfold resumeQueue
  by_cases hstop : (sqOf (job d j) k.val).stopped = true
  · rw [if_pos hstop]
    have hgo := job_released hj k.val
    have hsize : sqSize (released d j k.val) j k.val = sqSize d j k.val := rfl
    generalize released d j k.val = e at hgo hsize ⊢
    have he : (job e j).state = 1 := by rw [hgo, (setSq_keeps _ _ _).1, hj]
    rw [job_ringBell_inside he (by rw [hsize]; exact htail), sqOf_setSq_same, hgo, sqOf_setSq_same]
  · rw [if_neg hstop]
    simpa using hstop

/-- Of the queues that are resumed, one whose tail is inside the ring goes on. -/
theorem goesOn_foldl {k : Fin 3} (l : List (Fin 3)) (hk : k ∈ l) (h : TailInside j k d) :
    GoesOn j k ((l.map Fin.val).foldl (resumeQueue j) d) := by
  have hrest (l : List (Fin 3)) (e : Dev) (he : GoesOn j k e) : GoesOn j k ((l.map Fin.val).foldl (resumeQueue j) e) := by
    rw [List.foldl_map]
    exact foldl_keeps (P := GoesOn j k) (fun _ q hb => goesOn_resumeQueue hb q) l e he
  induction l generalizing d with
  | nil => exact absurd hk (by simp)
  | cons q r ih =>
    by_cases hq : k = q
    · subst hq
      exact hrest r _ (goesOn_of_tailInside h)
    · exact ih (List.mem_of_ne_of_mem hq hk) (tailInside_resumeQueue h q)

end Bells

/-- Settles O14: each case of the doorbells and of SQ_ERR_CLEAR has its equation; a queue that SQ_ERR_CLEAR resumes is not
touched by the resuming of the others. -/
theorem doorbellsMoveTheQueues : Obligations.DoorbellsMoveTheQueues := by
  unfold Obligations.DoorbellsMoveTheQueues
  intro s acc j q v hlive hj
  refine ⟨fun hallowed => ⟨fun hr hin => ?inside, fun hr => ?stopped, fun hs hr hout => ?beyond, fun hin => ?head,
    fun hs hout => ?headBeyond⟩, fun hperf => ⟨fun herr hidle => ?idle, fun herr _ k _ htail => ?resumed, fun herr => ?without⟩⟩
  case inside =>
    refine completes_okDev hlive (congrArg (okDev s) ((if_pos hallowed).trans (opSqDoorbell_running hj hr hin acc))) ?_
    rw [job_ringBell_inside hj hin, ringBell_inside hin, sqOf_setSq_same]
    exact ⟨rfl, rfl, rfl⟩
  case stopped =>
    refine completes_okDev hlive (congrArg (okDev s) ((if_pos hallowed).trans (opSqDoorbell_stopped hj hr acc))) ?_
    rw [job_setSq hj _ rfl, sqOf_setSq_same]
    exact ⟨rfl, hr, rfl⟩
  case beyond =>
    exact completes_okDev hlive (congrArg (okDev s) (if_pos hallowed)) (sqDoorbell_beyond_stops hs hj hr hout acc)
  case head =>
    refine completes_okDev hlive (congrArg (okDev s) ((if_pos hallowed).trans (opCqDoorbell_inside hj hin acc))) ?_
    have hjob : job (setJob s.dev j.val (consumedTo s.dev j.val (v.toNat % 65536))) j.val =
        consumedTo s.dev j.val (v.toNat % 65536) :=
      job_setJob_active _ _ (by change (job s.dev j.val).state ≠ 0; rw [hj]; decide)
    rw [hjob]
    exact ⟨consumed_to_head _ hin, Nat.le_add_right _ _, rfl⟩
  case headBeyond =>
    exact completes_okDev hlive (congrArg (okDev s) ((if_pos hallowed).trans (opCqDoorbell_beyond hj hout acc)))
      (latchQm_shows hs _)
  case idle =>
    have hx : job (setJob s.dev j.val { job s.dev j.val with sqErr := false }) j.val = { job s.dev j.val with sqErr := false } :=
      job_setJob_active _ _ (by change (job s.dev j.val).state ≠ 0; rw [hj]; decide)
    have hrest : opSqErrClear s.dev j.val = setJob s.dev j.val { job s.dev j.val with sqErr := false } := by
      refine (opSqErrClear_resumes herr).trans (foldl_resumeQueue_idle fun k => ?_)
      rw [hx, sqOf_sqErr]
      exact hidle k
    exact completes_okDev hlive (congrArg (okDev s) ((withReg_performed hperf _).trans hrest)) ⟨hx, rfl⟩
  case resumed =>
    have hx : job (setJob s.dev j.val { job s.dev j.val with sqErr := false }) j.val = { job s.dev j.val with sqErr := false } :=
      job_setJob_active _ _ (by change (job s.dev j.val).state ≠ 0; rw [hj]; decide)
    have hinside : TailInside j.val k (setJob s.dev j.val { job s.dev j.val with sqErr := false }) := by
      refine ⟨by rw [hx]; exact hj, ?_⟩
      rw [hx, sqOf_sqErr]
      exact htail
    exact completes_okDev hlive (congrArg (okDev s) ((withReg_performed hperf _).trans (opSqErrClear_resumes herr)))
      (goesOn_foldl [0, 1, 2] (List.mem_finRange k) hinside).2
  case without =>
    exact completes_okDev hlive (congrArg (okDev s) ((withReg_performed hperf _).trans (opSqErrClear_without herr))) rfl

end Sys2Proof.Machine

/-! SUPPORT. O19: a PREEMPT without its right whose victim's live map is PENDING (08 R256; 10 R324), and the refutation. -/

namespace Sys2Proof.Machine
open Sys2Proof

/-- PREEMPT of victim 3, of job 3, which is no management job: waiting to start. -/
def pendingPreempt : Cmd :=
  { stageCmd with desc := BitVec.ofNat 512 (0x08 + 3 * 2 ^ 64) }

/-- Job 3 has a live map of one entry in T0, and an entry of its prefetch list still has to fill the granule that holds it. -/
def pendingMapState : State :=
  { pending := []
    dev := { resetDev with
      regs := [(regOff 60 (jPage 3) 0x120, 1)]
      state := .ready
      mem := { emptyMem with marks := [(gT0 0 0, [(3, 0)])] }
      qm := { emptyQm with
        jobs := [(3, { freeJob with state := 1, resident := true })]
        cmds := [(1, pendingPreempt)], uidCtr := 2 } } }

theorem pendingPreempt_mayStart : MayStart pendingMapState.dev 1 0x08 pendingPreempt where
  listed := rfl
  waiting := rfl
  opcode := by decide +kernel
  queue := by decide +kernel
  saved := by decide +kernel
  fresh := ⟨rfl, by decide +kernel, by decide +kernel, by decide +kernel⟩

/-- The command does not start, for its live map cannot be read yet. -/
theorem opPreempt_pendingMap (ev : Upset) : opPreempt pendingMapState.dev 1 ev = pendingMapState.dev := by
  have hwaits : ctlPending pendingMapState.dev (rj64 pendingMapState.dev 3 0x118)
      (16 * bitsOf (rj pendingMapState.dev 3 0x120) 15 0) = true := by decide +kernel
  have hvictim : dBytes pendingPreempt.desc 8 1 = 3 := by decide +kernel
  have hlisted : cmd pendingMapState.dev 1 = some pendingPreempt := rfl
  unfold opPreempt startCmd
  rw [hlisted]
  simp only [hvictim, hwaits, Bool.not_true, Bool.and_false, Bool.false_eq_true, if_false]

/-- Refutes O19, in the clause of PREEMPT: that command reads its victim's live map and starts only when no granule of the map
is PENDING, whatever its job's rights are. In `pendingMapState` the command of a job without the right waits, and does not end. -/
theorem not_commandsWithoutTheirRightsFail : ¬ Obligations.CommandsWithoutTheirRightsFail := by
  unfold Obligations.CommandsWithoutTheirRightsFail
  intro h
  obtain ⟨-, hpreempt, -⟩ := h pendingMapState 1 pendingPreempt rfl
  have hdone := hpreempt .none pendingPreempt_mayStart (by decide +kernel)
  have hstep : exec (.preempt 1 .none) pendingMapState = okDev pendingMapState pendingMapState.dev :=
    congrArg (okDev pendingMapState) (opPreempt_pendingMap .none)
  obtain ⟨⟨c, hc, hended, -⟩, -⟩ := of_completes_okDev (s := pendingMapState) rfl hstep hdone
  have hwaiting : c = pendingPreempt := (Option.some.inj hc).symm
  rw [hwaiting] at hended
  exact absurd hended (by decide)

end Sys2Proof.Machine

/-! SUPPORT. What the release of granules, copies, pages and slots leaves as it is (05 R164; 06 R200; 08 R244, R245; 09 R281). -/

namespace Sys2Proof.Machine
open Sys2Proof

/-- Memory, the external memories' engines, and the records of pages and slots alone may differ: unlike `EndSide`, the tables of
jobs, commands and sessions and the queue manager's lists stay. -/
structure HeapSide (d t : Dev) : Prop where
  rest : t = { d with mem := t.mem, ext := t.ext, qm := { d.qm with pst := t.qm.pst, slots := t.qm.slots } }

namespace HeapSide

theorem refl (d : Dev) : HeapSide d d := ⟨rfl⟩

theorem trans {a b c : Dev} (h : HeapSide a b) (k : HeapSide b c) : HeapSide a c :=
  ⟨by rw [k.rest, h.rest]⟩

theorem foldl {α : Type} (f : Dev → α → Dev) (h : ∀ d x, HeapSide d (f d x)) (l : List α) (d : Dev) :
    HeapSide d (l.foldl f d) := by
  induction l generalizing d with
  | nil => exact refl d
  | cons x r ih => exact (h d x).trans (ih _)

end HeapSide

/-! ### Storage -/

theorem heapSide_mem (d : Dev) (m : Mem) : HeapSide d { d with mem := m } := ⟨rfl⟩

theorem heapSide_ext (d : Dev) (x : Ext) : HeapSide d { d with ext := x } := ⟨rfl⟩

theorem heapSide_setObj (d : Dev) (oid : Nat) (o : Obj) : HeapSide d (setObj d oid o) := ⟨rfl⟩

theorem heapSide_setPst (d : Dev) (p : Nat) (x : Pst) : HeapSide d (setPst d p x) := ⟨rfl⟩

theorem heapSide_setSlot (d : Dev) (s : Nat) (x : Slot) : HeapSide d (setSlot d s x) := ⟨rfl⟩

theorem heapSide_setFtl (d : Dev) (sd : Nat) (x : Ftl) : HeapSide d (setFtl d sd x) := ⟨rfl⟩

theorem heapSide_setRoot (d : Dev) (k sid : Nat) : HeapSide d (setRoot d k sid) := ⟨rfl⟩

theorem heapSide_newGran (d : Dev) : HeapSide d (newGran d).1 := ⟨rfl⟩

theorem heapSide_setPoison (d : Dev) (sid : Nat) (b : Bool) : HeapSide d (setPoison d sid b) := ⟨rfl⟩

theorem heapSide_stWrite (d : Dev) (sid off : Nat) (bs : List Nat) : HeapSide d (stWrite d sid off bs) := by
  unfold stWrite wcbDrop setBytes
  dsimp only
  split
  · exact heapSide_mem _ _
  · exact (heapSide_mem _ _).trans (heapSide_ext _ _)

theorem heapSide_copyGran (d : Dev) (src dst : Nat) : HeapSide d (copyGran d src dst) :=
  (heapSide_stWrite d dst 0 (stRead d src 0 4096)).trans ((heapSide_mem _ _).trans (heapSide_mem _ _))

theorem heapSide_dropGran (d : Dev) (sid : Nat) : HeapSide d (dropGran d sid) := by
  unfold dropGran
  exact (heapSide_stWrite _ _ _ _).trans ((heapSide_mem _ _).trans (heapSide_mem _ _))

theorem heapSide_dropGrans {α : Type} (g : α → Nat) (l : List α) (d : Dev) :
    HeapSide d (l.foldl (fun d e => dropGran d (g e)) d) :=
  HeapSide.foldl _ (fun d e => heapSide_dropGran d (g e)) l d

theorem heapSide_ftlUnmap (d : Dev) (kind id : Nat) : HeapSide d (ftlUnmap d kind id) := by
  unfold ftlUnmap
  refine HeapSide.foldl _ (fun d sd => ?_) _ d
  dsimp only
  split
  · exact .refl d
  · exact heapSide_setFtl _ _ _

theorem heapSide_ftlDrop (d : Dev) (uid : Nat) : HeapSide d (ftlDrop d uid) := by
  obtain ⟨x, hx⟩ := ftlDrop_ext d uid
  rw [hx]
  exact heapSide_ext d x

theorem heapSide_ftlCommit (d : Dev) (uid : Nat) : HeapSide d (ftlCommit d uid) := by
  unfold ftlCommit
  refine HeapSide.foldl _ (fun d sd => ?_) _ d
  dsimp only
  split
  · exact .refl d
  · exact heapSide_setFtl _ _ _

theorem heapSide_freeGrans (d : Dev) (kind id : Nat) : HeapSide d (freeGrans d kind id) := by
  have hunmap : HeapSide d (if kind = 4 then ftlUnmap d kind id else d) := by
    split
    · exact heapSide_ftlUnmap _ _ _
    · exact .refl d
  unfold freeGrans
  exact (hunmap.trans (heapSide_dropGrans _ _ _)).trans (heapSide_mem _ _)

/-- A granule of a new generation takes the place of the committed one (10 R317). -/
theorem heapSide_swapGen (d : Dev) (k sid : Nat) : HeapSide d (swapGen d k sid) := by
  unfold swapGen
  dsimp only
  split
  · exact (heapSide_setRoot _ _ _).trans (heapSide_dropGran _ _)
  · exact heapSide_setRoot _ _ _

/-! ### Copies -/

theorem heapSide_freeCopy (d : Dev) (oid tier : Nat) : HeapSide d (freeCopy d oid tier) := by
  unfold freeCopy
  split
  · exact .refl d
  · dsimp only
    split
    · exact (heapSide_freeGrans _ _ _).trans (heapSide_mem _ _)
    · exact (heapSide_freeGrans _ _ _).trans (heapSide_mem _ _)

theorem heapSide_unholdCopy (d : Dev) (oid tier : Nat) : HeapSide d (unholdCopy d oid tier) := by
  unfold unholdCopy
  split
  · exact .refl d
  · dsimp only
    split
    · exact (heapSide_mem _ _).trans (heapSide_freeCopy _ _ _)
    · exact heapSide_mem _ _

theorem heapSide_evictCopy (d : Dev) (oid tier j : Nat) : HeapSide d (evictCopy d oid tier j) := by
  unfold evictCopy
  split
  · exact .refl d
  · dsimp only
    split
    · exact .refl d
    · split
      · exact heapSide_setObj _ _ _
      · split
        · exact heapSide_freeCopy _ _ _
        · split
          · exact heapSide_setObj _ _ _
          · exact heapSide_setObj _ _ _

theorem heapSide_claimCopy (d : Dev) (oid tier j : Nat) : HeapSide d (claimCopy d oid tier j) := by
  unfold claimCopy
  split
  · exact .refl d
  · exact heapSide_setObj _ _ _

/-! ### Pages and slots -/

theorem heapSide_reclaimPage (d : Dev) (pid : Nat) : HeapSide d (reclaimPage d pid) := by
  unfold reclaimPage
  dsimp only
  split
  · exact (heapSide_freeGrans _ _ _).trans ((heapSide_freeGrans _ _ _).trans (heapSide_setPst _ _ _))
  · exact .refl d

theorem heapSide_reclaimSlot (d : Dev) (sid : Nat) : HeapSide d (reclaimSlot d sid) := by
  unfold reclaimSlot
  dsimp only
  split
  · exact (heapSide_freeGrans _ _ _).trans (heapSide_setSlot _ _ _)
  · exact .refl d

theorem heapSide_unpinPage (d : Dev) (pid : Nat) : HeapSide d (unpinPage d pid) := by
  unfold unpinPage
  exact (heapSide_setPst _ _ _).trans (heapSide_reclaimPage _ _)

theorem heapSide_unpinSlot (d : Dev) (sid : Nat) : HeapSide d (unpinSlot d sid) := by
  unfold unpinSlot
  exact (heapSide_setSlot _ _ _).trans (heapSide_reclaimSlot _ _)

theorem heapSide_addRefPage (d : Dev) (pid : Nat) : HeapSide d (addRefPage d pid) := heapSide_setPst _ _ _

theorem heapSide_addRefSlot (d : Dev) (sid : Nat) : HeapSide d (addRefSlot d sid) := heapSide_setSlot _ _ _

theorem heapSide_dropRefPage (d : Dev) (pid : Nat) : HeapSide d (dropRefPage d pid) :=
  (heapSide_setPst _ _ _).trans (heapSide_reclaimPage _ pid)

theorem heapSide_dropRefSlot (d : Dev) (sid : Nat) : HeapSide d (dropRefSlot d sid) :=
  (heapSide_setSlot _ _ _).trans (heapSide_reclaimSlot _ sid)

theorem heapSide_releaseCmd (d : Dev) (c : Cmd) : HeapSide d (releaseCmd d c) := by
  have hpages := HeapSide.foldl unpinPage heapSide_unpinPage
  have hslots := HeapSide.foldl (fun d (p : Nat × Nat) => unpinSlot d p.1) (fun d p => heapSide_unpinSlot d p.1)
  have hnew := HeapSide.foldl (fun d (p : Nat × Nat × Nat) => unpinSlot d p.1) (fun d p => heapSide_unpinSlot d p.1)
  have hcopies := HeapSide.foldl (fun d (h : Nat × Nat) => unholdCopy d h.2 h.1) (fun d h => heapSide_unholdCopy d h.2 h.1)
  unfold releaseCmd
  exact ((((hpages c.pinP d).trans (hpages c.newPages _)).trans (hslots c.pinS _)).trans (hnew c.newSlots _)).trans
    (hcopies c.held _)

end Sys2Proof.Machine

/-! SUPPORT. What the end of a command leaves of the module and of the other commands (10 R311, R312, R319, R323). -/

namespace Sys2Proof.Machine
open Sys2Proof

/-! ### The record of another command -/

/-- A command goes on: it may have requested the token, a fence may wait for less, and a slice end that treated it may be
called off. -/
structure StaysOn (c c' : Cmd) : Prop where
  rest : c' = { c with phase := c'.phase, reqAt := c'.reqAt, fenceUids := c'.fenceUids, affected := c'.affected }
  phase : c'.phase = c.phase ∨ (c.phase = .running ∧ c'.phase = .worked)

namespace StaysOn
variable {a b c : Cmd}

theorem refl (c : Cmd) : StaysOn c c := ⟨rfl, .inl rfl⟩

theorem trans (h : StaysOn a b) (k : StaysOn b c) : StaysOn a c := by
  refine ⟨by rw [k.rest, h.rest], ?_⟩
  rcases h.phase with hp | ⟨hrun, hwork⟩
  · rcases k.phase with kp | ⟨krun, kwork⟩
    · exact .inl (kp.trans hp)
    · exact .inr ⟨hp ▸ krun, kwork⟩
  · rcases k.phase with kp | ⟨krun, -⟩
    · exact .inr ⟨hrun, kp.trans hwork⟩
    · exact absurd (hwork.symm.trans krun) (by decide)

/-- A command that does not run keeps its phase. -/
theorem idle (h : StaysOn a b) (hp : a.phase ≠ .running) : b.phase = a.phase :=
  h.phase.resolve_right fun k => hp k.1

theorem ended_iff (h : StaysOn a b) : b.phase = .ended ↔ a.phase = .ended := by
  rcases h.phase with hp | ⟨hrun, hwork⟩
  · rw [hp]
  · rw [hrun, hwork]
    decide

end StaysOn

/-- Every command of `d` goes on in `t`, save those that `P` names. -/
def GoOn (P : Nat → Prop) (d t : Dev) : Prop := ∀ u, ¬ P u → ∀ c, cmd d u = some c → ∃ c', cmd t u = some c' ∧ StaysOn c c'

theorem GoOn.refl (P : Nat → Prop) (d : Dev) : GoOn P d d := fun _ _ c hc => ⟨c, hc, .refl c⟩

theorem GoOn.trans {P : Nat → Prop} {a b c : Dev} (h : GoOn P a b) (k : GoOn P b c) : GoOn P a c := fun u hu x hx => by
  obtain ⟨y, hy, hxy⟩ := h u hu x hx
  obtain ⟨z, hz, hyz⟩ := k u hu y hy
  exact ⟨z, hz, hxy.trans hyz⟩

theorem GoOn.of_cmds {P : Nat → Prop} {d t : Dev} (h : t.qm.cmds = d.qm.cmds) : GoOn P d t := fun u _ c hc =>
  ⟨c, by unfold cmd at hc ⊢; rw [h]; exact hc, .refl c⟩

/-! ### What waits for a command goes on (R311) -/

/-- Commands may have gone on to request the token; nothing else differs. -/
structure Woken (d t : Dev) : Prop where
  rest : t = { d with qm := { d.qm with cmds := t.qm.cmds, commitQ := t.qm.commitQ } }
  canon : SMap.sorted d.qm.cmds = true → SMap.sorted t.qm.cmds = true
  goOn : GoOn (fun _ => False) d t
  asks : ∀ u c, cmd d u = some c → c.phase ≠ .running → u ∈ t.qm.commitQ → u ∈ d.qm.commitQ

namespace Woken
variable {a b c : Dev}

theorem refl (d : Dev) : Woken d d := ⟨rfl, id, .refl _ d, fun _ _ _ _ h => h⟩

theorem trans (h : Woken a b) (k : Woken b c) : Woken a c := by
  refine ⟨by rw [k.rest, h.rest], k.canon ∘ h.canon, h.goOn.trans k.goOn, fun u x hx hp hu => ?_⟩
  obtain ⟨y, hy, hxy⟩ := h.goOn u id x hx
  exact h.asks u x hx hp (k.asks u y hy (by rw [hxy.idle hp]; exact hp) hu)

end Woken

/-- Writing a record that goes on from the one listed. -/
theorem woken_setCmd {d : Dev} {v : Nat} {c c' : Cmd} (hc : cmd d v = some c) (h : StaysOn c c') : Woken d (setCmd d v c') := by
  refine ⟨rfl, SMap.sorted_insert v c', fun u _ x hx => ?_, fun _ _ _ _ hu => hu⟩
  by_cases hu : u = v
  · subst hu
    obtain rfl : c = x := Option.some.inj (hc.symm.trans hx)
    exact ⟨c', cmd_setCmd_same d u c', h⟩
  · exact ⟨x, (cmd_setCmd_other d c' hu).trans hx, .refl x⟩

/-- A request for the token is made by a running command, or not at all. -/
theorem woken_requestCommit (d : Dev) (v : Nat) : Woken d (requestCommit d v) := by
  unfold requestCommit
  split
  · exact .refl d
  · rename_i c hc
    split
    · rename_i hfires
      simp only [Bool.and_eq_true, decide_eq_true_eq] at hfires
      have hrun : c.phase = .running := hfires.1.1
      have hset := woken_setCmd hc (c' := { c with phase := .worked, reqAt := d.now }) ⟨rfl, .inr ⟨hrun, rfl⟩⟩
      refine ⟨rfl, hset.canon, hset.goOn, fun u x hx hp hu => ?_⟩
      rcases List.mem_append.mp hu with hu | hu
      · exact hu
      · obtain rfl := List.mem_singleton.mp hu
        obtain rfl : c = x := Option.some.inj (hc.symm.trans hx)
        exact absurd hrun hp
    · exact .refl d

/-- What wakes the commands of a table one by one wakes them all: each step finds the record it was listed with. -/
theorem woken_foldl {f : Dev → Nat × Cmd → Dev}
    (hf : ∀ d e, cmd d e.1 = some e.2 → Woken d (f d e) ∧ ∀ u, u ≠ e.1 → cmd (f d e) u = cmd d u)
    {l : SMap Cmd} {lo : Nat} (hl : SMap.sortedFrom lo l = true) {d : Dev} (hd : ∀ e ∈ l, cmd d e.1 = some e.2) :
    Woken d (l.foldl f d) := by
  induction l generalizing lo d with
  | nil => exact .refl d
  | cons e r ih =>
    simp only [SMap.sortedFrom, Bool.and_eq_true, decide_eq_true_eq] at hl
    obtain ⟨hwoken, hother⟩ := hf d e (hd e List.mem_cons_self)
    refine hwoken.trans (ih hl.2 fun x hx => ?_)
    have hlt := SMap.sortedFrom_le hl.2 hx
    rw [hother x.1 (by omega)]
    exact hd x (List.mem_cons_of_mem _ hx)

theorem woken_wakeFences {d : Dev} (hs : SMap.sorted d.qm.cmds = true) (v : Nat) : Woken d (wakeFences d v) := by
  unfold wakeFences
  refine woken_foldl (fun d e hc => ?_) hs (fun e he => SMap.get?_of_mem hs he)
  dsimp only
  split
  · have hset : Woken d (setCmd d e.1 { e.2 with fenceUids := e.2.fenceUids.filter (· != v) }) :=
      woken_setCmd hc ⟨rfl, .inl rfl⟩
    split
    · exact ⟨hset.trans (woken_requestCommit _ _), fun u hu => (wakeSide_requestCommit _ hu).same.trans (cmd_setCmd_other d _ hu)⟩
    · exact ⟨hset, fun u hu => cmd_setCmd_other d _ hu⟩
  · exact ⟨.refl d, fun _ _ => rfl⟩

theorem woken_wakeSwaps {d : Dev} (hs : SMap.sorted d.qm.cmds = true) : Woken d (wakeSwaps d) := by
  unfold wakeSwaps
  refine woken_foldl (fun d e _ => ?_) hs (fun e he => SMap.get?_of_mem hs he)
  split
  · exact ⟨woken_requestCommit d e.1, fun u hu => (wakeSide_requestCommit d hu).same⟩
  · exact ⟨.refl d, fun _ _ => rfl⟩

/-! ### The end of a command -/

/-- What the end of the commands that `P` names leaves: registers, cores, memory, the requests on their way and the queue
manager's tables may differ, but not the sessions; a job's slice may begin anew, and every other command goes on. -/
structure EndStep (P : Nat → Prop) (d t : Dev) : Prop where
  rest : t = { d with
    regs := t.regs, cores := t.cores, freeCtr := t.freeCtr, mem := t.mem, ext := t.ext, fab := t.fab
    qm := { d.qm with jobs := t.qm.jobs, cmds := t.qm.cmds, commitQ := t.qm.commitQ, doneQ := t.qm.doneQ, pres := t.qm.pres
                      pst := t.qm.pst, slots := t.qm.slots } }
  cmds : SMap.sorted d.qm.cmds = true → SMap.sorted t.qm.cmds = true
  jobs : SMap.sorted d.qm.jobs = true → SMap.sorted t.qm.jobs = true ∧
    ∀ k, job t k = { job d k with sliceStart := (job t k).sliceStart }
  calm : (∀ p ∈ d.qm.pres, ¬ P p.uid) → t.qm.jobs = d.qm.jobs ∧ t.qm.pres = d.qm.pres
  goOn : SMap.sorted d.qm.cmds = true → GoOn P d t

namespace EndStep
variable {P Q : Nat → Prop} {a b c d t : Dev}

/-- What changes neither commands nor jobs. -/
theorem of_kept (hr : t = { d with
      regs := t.regs, cores := t.cores, freeCtr := t.freeCtr, mem := t.mem, ext := t.ext, fab := t.fab
      qm := { d.qm with commitQ := t.qm.commitQ, doneQ := t.qm.doneQ, pst := t.qm.pst, slots := t.qm.slots } }) :
    EndStep P d t := by
  rw [hr]
  exact ⟨rfl, id, fun h => ⟨h, fun _ => rfl⟩, fun _ => ⟨rfl, rfl⟩, fun _ => .of_cmds rfl⟩

theorem refl (P : Nat → Prop) (d : Dev) : EndStep P d d := .of_kept rfl

theorem trans (h : EndStep P a b) (k : EndStep P b c) : EndStep P a c where
  rest := by rw [k.rest, h.rest]
  cmds := k.cmds ∘ h.cmds
  jobs hs := by
    obtain ⟨hb, hjobs⟩ := h.jobs hs
    obtain ⟨hc, kjobs⟩ := k.jobs hb
    exact ⟨hc, fun j => by rw [kjobs j, hjobs j]⟩
  calm hp := by
    obtain ⟨hj, hpres⟩ := h.calm hp
    obtain ⟨kj, kpres⟩ := k.calm (by rw [hpres]; exact hp)
    exact ⟨kj.trans hj, kpres.trans hpres⟩
  goOn hs := (h.goOn hs).trans (k.goOn (h.cmds hs))

/-- More commands may be named. -/
theorem mono (h : EndStep P d t) (hPQ : ∀ u, P u → Q u) : EndStep Q d t :=
  ⟨h.rest, h.cmds, h.jobs, fun hq => h.calm fun p hp hP => hq p hp (hPQ _ hP), fun hs u hu => h.goOn hs u fun hP => hu (hPQ u hP)⟩

end EndStep

section End
variable {d t : Dev} {uid : Nat} {c : Cmd}

theorem HeapSide.endStep (h : HeapSide d t) (P : Nat → Prop) : EndStep P d t := by
  rw [h.rest]
  exact .of_kept rfl

theorem endStep_setCmd (d : Dev) (uid : Nat) (c : Cmd) : EndStep (· = uid) d (setCmd d uid c) :=
  ⟨rfl, SMap.sorted_insert uid c, fun h => ⟨h, fun _ => rfl⟩, fun _ => ⟨rfl, rfl⟩,
    fun _ _ hu x hx => ⟨x, (cmd_setCmd_other d c hu).trans hx, .refl x⟩⟩

theorem Woken.endStep (h : Woken d t) (P : Nat → Prop) : EndStep P d t where
  rest := by rw [h.rest]
  cmds := h.canon
  jobs hs := by
    rw [h.rest]
    exact ⟨hs, fun _ => rfl⟩
  calm _ := by
    rw [h.rest]
    exact ⟨rfl, rfl⟩
  goOn _ u _ x hx := h.goOn u id x hx

/-- Taking a command's work off the cores. -/
theorem dropWork_cores (d : Dev) (uid : Nat) (killed : Bool) :
    ∃ g l k, dropWork d uid killed = { d with regs := g, cores := l, freeCtr := k } := by
  have hfold : ∃ g, d.cores.foldl (fun d e =>
      e.2.ctxs.foldl (fun d x => if x.2.uid = uid then slipEnd d e.1 x.2 else d) d) d = { d with regs := g } := by
    refine List.foldlRecOn _ _ (motive := fun t : Dev => ∃ g, t = { d with regs := g }) ⟨d.regs, rfl⟩ fun t ht e _ => ?_
    refine List.foldlRecOn _ _ (motive := fun t : Dev => ∃ g, t = { d with regs := g }) ht fun t ht x _ => ?_
    obtain ⟨g, rfl⟩ := ht
    split
    · obtain ⟨g', hg'⟩ := slipEnd_regs_only { d with regs := g } e.1 x.2
      exact ⟨g', hg'⟩
    · exact ⟨g, rfl⟩
  obtain ⟨g, hg⟩ := hfold
  unfold dropWork
  dsimp only
  rw [hg]
  split
  · exact ⟨_, _, _, rfl⟩
  · exact ⟨g, d.cores, d.freeCtr, rfl⟩

theorem endStep_dropWork (d : Dev) (uid : Nat) (killed : Bool) : EndStep (· = uid) d (dropWork d uid killed) := by
  obtain ⟨g, l, k, h⟩ := dropWork_cores d uid killed
  rw [h]
  exact .of_kept rfl

theorem endStep_stopped (d : Dev) (uid : Nat) (c : Cmd) : EndStep (· = uid) d (stopped d uid c) :=
  (endStep_setCmd d uid c).trans (.of_kept rfl)

/-- A command of the victim of a PREEMPT that is called off is one that no slice end has treated. -/
def spared (p : Pre) (c : Cmd) : Cmd := if c.job = p.victim then { c with affected := false } else c

theorem staysOn_spared (p : Pre) (c : Cmd) : StaysOn c (spared p c) := by
  unfold spared
  split
  · exact ⟨rfl, .inl rfl⟩
  · exact .refl c

/-- The PREEMPT `p` of a command is called off: it is listed no more, and the slice end has treated no command of its victim. -/
def calledOff (d : Dev) (uid : Nat) (p : Pre) : Dev :=
  { d with qm := { d.qm with
      pres := d.qm.pres.filter (fun q => q.uid != uid)
      cmds := SMap.mapVals d.qm.cmds (fun _ => spared p) } }

theorem endStep_calledOff {p : Pre} (hp : p ∈ d.qm.pres) (hu : p.uid = uid) : EndStep (· = uid) d (calledOff d uid p) where
  rest := rfl
  cmds := SMap.sorted_mapVals d.qm.cmds (fun _ => spared p)
  jobs h := ⟨h, fun _ => rfl⟩
  calm h := absurd hu (h p hp)
  goOn _ u _ c hc := by
    refine ⟨spared p c, ?_, staysOn_spared p c⟩
    unfold cmd at hc ⊢
    exact (SMap.get?_mapVals d.qm.cmds (fun _ => spared p) u).trans (by rw [hc]; rfl)

/-- The victim's slice begins anew. -/
theorem endStep_sliceStart {p : Pre} (j n : Nat) (hp : p ∈ d.qm.pres) (hu : p.uid = uid) :
    EndStep (· = uid) d (setJob (calledOff d uid p) j { job (calledOff d uid p) j with sliceStart := n }) where
  rest := rfl
  cmds := (endStep_calledOff hp hu).cmds
  jobs h := by
    refine ⟨sorted_setJob (d := calledOff d uid p) h _ _, fun k => ?_⟩
    by_cases hk : k = j
    · subst hk
      rw [job_setJob_sorted (d := calledOff d uid p) h]
      rfl
    · have hother : job (setJob (calledOff d uid p) j { job (calledOff d uid p) j with sliceStart := n }) k = job d k :=
        SMap.getD_put_other _ _ _ h hk
      rw [hother]
  calm h := absurd hu (h p hp)
  goOn := (endStep_calledOff hp hu).goOn

/-- A committed command leaves nothing to undo. -/
theorem undoCmd_committed (h : c.committed = true) : undoCmd d uid c = d := by
  unfold undoCmd
  rw [if_pos h]

theorem endStep_undoCmd (d : Dev) (uid : Nat) (c : Cmd) : EndStep (· = uid) d (undoCmd d uid c) := by
  by_cases hcom : c.committed = true
  · rw [undoCmd_committed hcom]
    exact .refl _ d
  unfold undoCmd
  rw [if_neg hcom]
  have hfreed : HeapSide d (c.newCopies.foldl (fun d t => freeCopy d t.2 t.1) (c.gens.foldl (fun d e => dropGran d e.2)
      (ftlDrop d uid))) :=
    ((heapSide_ftlDrop d uid).trans (heapSide_dropGrans _ _ _)).trans
      (HeapSide.foldl (fun d (t : Nat × Nat) => freeCopy d t.2 t.1) (fun d t => heapSide_freeCopy d t.2 t.1) _ _)
  refine (hfreed.endStep _).trans ?_
  dsimp only
  split
  · exact .refl _ _
  · rename_i p hfind
    have hp := List.mem_of_find?_eq_some hfind
    have hu : p.uid = uid := by simpa using List.find?_some hfind
    split
    · exact endStep_sliceStart _ _ hp hu
    · exact endStep_calledOff hp hu

theorem endStep_finished (d : Dev) (uid : Nat) (c : Cmd) : EndStep (· = uid) d (finished d uid c) :=
  (((endStep_undoCmd d uid c).trans ((heapSide_releaseCmd _ c).endStep _)).trans (endStep_setCmd _ uid (doneCmd d.now c))).trans
    (.of_kept rfl)

theorem woken_completeCmd (hs : SMap.sorted d.qm.cmds = true) (hc : cmd d uid = some c) :
    Woken (finished d uid c) (completeCmd d uid) := by
  have hfences := woken_wakeFences ((endStep_finished d uid c).cmds hs) uid
  rw [completeCmd_eq hc]
  exact hfences.trans (woken_wakeSwaps (hfences.canon ((endStep_finished d uid c).cmds hs)))

theorem endStep_completeCmd (hs : SMap.sorted d.qm.cmds = true) (hc : cmd d uid = some c) :
    EndStep (· = uid) d (completeCmd d uid) :=
  (endStep_finished d uid c).trans ((woken_completeCmd hs hc).endStep _)

/-- The end of a command, as a whole. -/
theorem endStep_endCmd (hs : SMap.sorted d.qm.cmds = true) (uid status detail : Nat) (retry : Bool) :
    EndStep (· = uid) d (endCmd d uid status detail retry) := by
  cases hc : cmd d uid with
  | none =>
    unfold endCmd
    rw [hc]
    exact .refl _ d
  | some c =>
    by_cases hp : c.phase = .ended
    · unfold endCmd
      rw [hc]
      dsimp only
      rw [if_pos hp]
      exact .refl _ d
    · rw [endCmd_eq hc hp]
      have hstop := (endStep_stopped d uid (endedCmd c status detail retry)).trans (endStep_dropWork _ uid true)
      refine hstop.trans (endStep_completeCmd (c := endedCmd c status detail retry) (hstop.cmds hs) ?_)
      obtain ⟨g, l, k, hdrop⟩ := dropWork_cores (stopped d uid (endedCmd c status detail retry)) uid true
      rw [hdrop]
      exact cmd_setCmd_same d uid _

end End

end Sys2Proof.Machine

/-! SUPPORT. COMMIT: what a commit publishes leaves the table of commands, and how a commit ends (10 R317 to R319). -/

namespace Sys2Proof.Machine
open Sys2Proof

/-! ### The record of a command that has completed -/

section Record
variable {d t : Dev} {uid : Nat} {c : Cmd}

theorem HeapSide.commitQ (h : HeapSide d t) : t.qm.commitQ = d.qm.commitQ := by
  rw [h.rest]

theorem HeapSide.cmds (h : HeapSide d t) : t.qm.cmds = d.qm.cmds := by
  rw [h.rest]

theorem commitQ_undoCmd (d : Dev) (uid : Nat) (c : Cmd) : (undoCmd d uid c).qm.commitQ = d.qm.commitQ := by
  have hfreed : HeapSide d (c.newCopies.foldl (fun d t => freeCopy d t.2 t.1) (c.gens.foldl (fun d e => dropGran d e.2)
      (ftlDrop d uid))) :=
    ((heapSide_ftlDrop d uid).trans (heapSide_dropGrans _ _ _)).trans
      (HeapSide.foldl (fun d (t : Nat × Nat) => freeCopy d t.2 t.1) (fun d t => heapSide_freeCopy d t.2 t.1) _ _)
  unfold undoCmd
  split
  · rfl
  · dsimp only
    split
    · exact hfreed.commitQ
    · split
      · exact hfreed.commitQ
      · exact hfreed.commitQ

theorem commitQ_finished (d : Dev) (uid : Nat) (c : Cmd) : (finished d uid c).qm.commitQ = d.qm.commitQ :=
  (heapSide_releaseCmd (undoCmd d uid c) c).commitQ.trans (commitQ_undoCmd d uid c)

/-- A command that is ended and requests nothing has completed with its record, and requests nothing. -/
theorem completeCmd_record (hs : SMap.sorted d.qm.cmds = true) (hc : cmd d uid = some c) (hp : c.phase = .ended)
    (hq : uid ∉ d.qm.commitQ) :
    cmd (completeCmd d uid) uid = some (doneCmd d.now c) ∧ uid ∉ (completeCmd d uid).qm.commitQ := by
  have hfin := cmd_finished d uid c
  refine ⟨(completeCmd_ended hs hc hp).same.trans hfin, fun hu => hq ?_⟩
  have hidle : (doneCmd d.now c).phase ≠ .running := by
    change c.phase ≠ .running
    rw [hp]
    decide
  have hask := (woken_completeCmd hs hc).asks uid _ hfin hidle hu
  rwa [commitQ_finished] at hask

/-- The record of a command that has ended, and its place among the requests. -/
theorem endCmd_record (hs : SMap.sorted d.qm.cmds = true) (hc : cmd d uid = some c) (hp : c.phase ≠ .ended)
    (status detail : Nat) (retry : Bool) :
    cmd (endCmd d uid status detail retry) uid = some (doneCmd d.now (endedCmd c status detail retry)) ∧
      uid ∉ (endCmd d uid status detail retry).qm.commitQ := by
  rw [endCmd_eq hc hp]
  obtain ⟨g, l, k, hdrop⟩ := dropWork_cores (stopped d uid (endedCmd c status detail retry)) uid true
  have hq : uid ∉ (stopped d uid (endedCmd c status detail retry)).qm.commitQ := by
    change uid ∉ d.qm.commitQ.filter (· != uid)
    simp
  rw [hdrop]
  exact completeCmd_record (c := endedCmd c status detail retry) (SMap.sorted_insert (m := d.qm.cmds) _ _ hs)
    (cmd_setCmd_same d uid _) rfl hq

end Record

/-! ### What a commit publishes -/

/-- The table of commands is as it was. -/
structure KeepsCmds (d t : Dev) : Prop where
  cmds : t.qm.cmds = d.qm.cmds

namespace KeepsCmds

theorem refl (d : Dev) : KeepsCmds d d := ⟨rfl⟩

theorem trans {a b c : Dev} (h : KeepsCmds a b) (k : KeepsCmds b c) : KeepsCmds a c :=
  ⟨k.cmds.trans h.cmds⟩

theorem foldl {α : Type} (f : Dev → α → Dev) (h : ∀ d x, KeepsCmds d (f d x)) (l : List α) (d : Dev) :
    KeepsCmds d (l.foldl f d) := by
  induction l generalizing d with
  | nil => exact refl d
  | cons x r ih => exact (h d x).trans (ih _)

end KeepsCmds

theorem HeapSide.keepsCmds {d t : Dev} (h : HeapSide d t) : KeepsCmds d t := ⟨h.cmds⟩

theorem keepsCmds_setSess (d : Dev) (n : Nat) (x : Sess) : KeepsCmds d (setSess d n x) := ⟨rfl⟩

theorem keepsCmds_commitList (d : Dev) (key : Nat) (s : SnapList) : KeepsCmds d (commitList d key s) := by
  have hadd (l : List PEnt) (d : Dev) : KeepsCmds d (l.foldl (fun d e => addRefPage d e.pid) d) :=
    KeepsCmds.foldl (fun d (e : PEnt) => addRefPage d e.pid) (fun d e => (heapSide_addRefPage d e.pid).keepsCmds) l d
  have hdrop (l : List PEnt) (d : Dev) : KeepsCmds d (l.foldl (fun d e => dropRefPage d e.pid) d) :=
    KeepsCmds.foldl (fun d (e : PEnt) => dropRefPage d e.pid) (fun d e => (heapSide_dropRefPage d e.pid).keepsCmds) l d
  unfold commitList
  dsimp only
  refine KeepsCmds.trans ?_ (hdrop _ _)
  refine KeepsCmds.trans ?_ (KeepsCmds.foldl _ (fun d e => ?_) s.ents _)
  · exact (keepsCmds_setSess d _ _).trans (hadd _ _)
  · split
    · exact (heapSide_setPst d _ _).keepsCmds
    · exact .refl d

theorem keepsCmds_commitTail (d : Dev) (u : TailUpd) : KeepsCmds d (commitTail d u) := by
  unfold commitTail
  dsimp only
  split
  · have hlisted (x : Slot) (y : Sess) : KeepsCmds d (addRefSlot (setSess (setSlot d u.sid x) u.sess y) u.sid) := ⟨rfl⟩
    split
    · exact (hlisted _ _).trans (heapSide_dropRefSlot _ _).keepsCmds
    · exact hlisted _ _
  · exact (heapSide_setSlot _ _ _).keepsCmds

theorem heapSide_commitNew (d : Dev) (uid : Nat) (c : Cmd) : HeapSide d (commitNew d uid c) := by
  unfold commitNew
  refine HeapSide.foldl _ (fun d t => ?_) _ d
  split
  · exact heapSide_setObj _ _ _
  · exact .refl d

theorem keepsCmds_freeSession (d : Dev) (sid pos : Nat) (selP : Nat → Nat → Bool) (selT : Nat → Bool) (pages tails : Bool) :
    KeepsCmds d (freeSession d sid pos selP selT pages tails) := by
  have hpages (l : List PEnt) (d : Dev) : KeepsCmds d (l.foldl (fun d e => dropRefPage d e.pid) d) :=
    KeepsCmds.foldl (fun d (e : PEnt) => dropRefPage d e.pid) (fun d e => (heapSide_dropRefPage d e.pid).keepsCmds) l d
  have hslots (l : SMap (Nat × Nat)) (d : Dev) : KeepsCmds d (l.foldl (fun d t => dropRefSlot d t.2.1) d) :=
    KeepsCmds.foldl (fun d (t : Nat × Nat × Nat) => dropRefSlot d t.2.1)
      (fun d t => (heapSide_dropRefSlot d t.2.1).keepsCmds) l d
  unfold freeSession
  dsimp only
  exact (keepsCmds_setSess d sid _).trans ((hpages _ _).trans (hslots _ _))

theorem keepsCmds_commitFork (d : Dev) (w : BitVec 512) : KeepsCmds d (commitFork d w) := by
  have hpages (l : List PEnt) (d : Dev) : KeepsCmds d (l.foldl (fun d e => addRefPage d e.pid) d) :=
    KeepsCmds.foldl (fun d (e : PEnt) => addRefPage d e.pid) (fun d e => (heapSide_addRefPage d e.pid).keepsCmds) l d
  have hslots (l : SMap (Nat × Nat)) (d : Dev) : KeepsCmds d (l.foldl (fun d t => addRefSlot d t.2.1) d) :=
    KeepsCmds.foldl (fun d (t : Nat × Nat × Nat) => addRefSlot d t.2.1)
      (fun d t => (heapSide_addRefSlot d t.2.1).keepsCmds) l d
  unfold commitFork
  dsimp only
  exact (keepsCmds_setSess d _ _).trans ((hpages _ _).trans (hslots _ _))

theorem heapSide_commitUnstage (d : Dev) (pids : List Nat) : HeapSide d (commitUnstage d pids) := by
  unfold commitUnstage
  refine HeapSide.foldl _ (fun d x => ?_) _ d
  dsimp only
  split
  · exact (heapSide_setPst _ _ _).trans (heapSide_freeGrans _ _ _)
  · exact .refl d

theorem heapSide_commitStage (d : Dev) (pids : List Nat) : HeapSide d (commitStage d pids) := by
  unfold commitStage
  refine HeapSide.foldl _ (fun d x => ?_) _ d
  dsimp only
  split
  · exact (heapSide_setPst _ _ _).trans (HeapSide.foldl _
      (fun d e => (heapSide_newGran d).trans ((heapSide_setRoot _ _ _).trans (heapSide_copyGran _ _ _))) _ _)
  · exact .refl d

/-- What COPY_TILES does at its commit. -/
theorem heapSide_commitCopyOp {d : Dev} {uid : Nat} {c : Cmd} (h : dOpcode c.desc = 0x02) : HeapSide d (commitOp d uid c) := by
  unfold commitOp
  simp only [h]
  split
  · split
    · exact .refl d
    · exact heapSide_claimCopy _ _ _ _
  · exact heapSide_claimCopy _ _ _ _
  · exact heapSide_evictCopy _ _ _ _
  · split
    · exact .refl d
    · exact heapSide_claimCopy _ _ _ _
  · exact heapSide_commitStage _ _
  · exact heapSide_commitUnstage _ _
  · exact .refl d

theorem keepsCmds_commitOp (d : Dev) (uid : Nat) (c : Cmd) : KeepsCmds d (commitOp d uid c) := by
  by_cases hcopy : dOpcode c.desc = 0x02
  · exact (heapSide_commitCopyOp hcopy).keepsCmds
  · unfold commitOp
    dsimp only
    split
    · rename_i h
      exact absurd h hcopy
    · exact keepsCmds_commitFork _ _
    · exact keepsCmds_freeSession _ _ _ _ _ _ _
    · exact ⟨rfl⟩
    · exact .refl d

/-- A commit is counted, and its length is noted (R317). -/
def counted (d : Dev) (j ns : Nat) : Dev :=
  let t := bump d (qmDie d j) qPage 0x130 1
  setRg t (qmDie d j) qPage 0x134 (max (rg t (qmDie d j) qPage 0x134) (min ns 2000))

theorem keepsCmds_counted (d : Dev) (j ns : Nat) : KeepsCmds d (counted d j ns) :=
  ⟨by unfold counted; simp only [setRg_qm, bump_qm]⟩

/-- The lists, of those that a command has read, to which it has appended. -/
def commitLists (d : Dev) (c : Cmd) : Dev :=
  c.snap.foldl (fun d e => if e.2.appended then commitList d e.1 e.2 else d) d

theorem keepsCmds_commitLists (d : Dev) (c : Cmd) : KeepsCmds d (commitLists d c) := by
  refine .foldl _ (fun d e => ?_) _ d
  split
  · exact keepsCmds_commitList _ _ _
  · exact .refl d

/-- The module when a commit has published what its command did (R317). -/
def published (d : Dev) (uid : Nat) (c : Cmd) : Dev :=
  commitOp (commitNew (c.upds.foldl commitTail (commitLists (c.gens.foldl (fun d e => swapGen d e.1 e.2) (ftlCommit d uid)) c))
    uid c) uid c

theorem keepsCmds_published (d : Dev) (uid : Nat) (c : Cmd) : KeepsCmds d (published d uid c) := by
  have hgens (l : SMap Nat) (d : Dev) : KeepsCmds d (l.foldl (fun d e => swapGen d e.1 e.2) d) :=
    .foldl _ (fun d e => (heapSide_swapGen d e.1 e.2).keepsCmds) l d
  have htails (l : List TailUpd) (d : Dev) : KeepsCmds d (l.foldl commitTail d) := .foldl _ keepsCmds_commitTail l d
  unfold published
  exact (heapSide_ftlCommit d uid).keepsCmds.trans ((hgens _ _).trans ((keepsCmds_commitLists _ c).trans
    ((htails _ _).trans ((heapSide_commitNew _ uid c).keepsCmds.trans (keepsCmds_commitOp _ uid c)))))

/-! ### How a commit ends (R318) -/

/-- The record of a command whose commit has been made. -/
def committedCmd (c : Cmd) : Cmd := { c with phase := .ended, status := stOK, committed := true, gens := [] }

/-- The module when a committed command's record is written and its request is no more. -/
def recorded (d : Dev) (uid : Nat) (c : Cmd) : Dev :=
  let e := setCmd d uid c
  { e with qm := { e.qm with commitQ := e.qm.commitQ.filter (· != uid) } }

section Commit
variable {d : Dev} {uid : Nat} {c : Cmd}

theorem opCommit_moved (hnext : nextCommit d = some uid) (hc : cmd d uid = some c) (hv : versionsOk d c = false) (ns : Nat) :
    opCommit d uid ns = endCmd d uid stKilled 1 false := by
  unfold opCommit
  rw [hnext, hc]
  simp [hv]

theorem opCommit_barred (hnext : nextCommit d = some uid) (hc : cmd d uid = some c) (hv : versionsOk d c = true)
    (hf : forkBarred d c = true) (ns : Nat) : opCommit d uid ns = failBad d uid none := by
  unfold opCommit
  rw [hnext, hc]
  simp [hv, hf]

theorem opCommit_made (hnext : nextCommit d = some uid) (hc : cmd d uid = some c) (hv : versionsOk d c = true)
    (hf : forkBarred d c = false) (ns : Nat) :
    opCommit d uid ns =
      completeCmd (dropWork (recorded (counted (published d uid c) c.job ns) uid (committedCmd c)) uid false) uid := by
  unfold opCommit
  rw [hnext, hc]
  unfold recorded counted published commitLists committedCmd
  dsimp only
  rw [if_neg (not_not_intro rfl), if_neg (by simp [hv]), if_neg (by simp [hf])]

/-- A committed command's record stays as it was written, and it requests nothing any more. -/
theorem completeCmd_recorded {e : Dev} (hs : SMap.sorted e.qm.cmds = true) (uid : Nat) (c : Cmd) :
    (∃ now, cmd (completeCmd (dropWork (recorded e uid (committedCmd c)) uid false) uid) uid =
      some (doneCmd now (committedCmd c))) ∧
      uid ∉ (completeCmd (dropWork (recorded e uid (committedCmd c)) uid false) uid).qm.commitQ := by
  obtain ⟨g, l, k, hdrop⟩ := dropWork_cores (recorded e uid (committedCmd c)) uid false
  have hq : uid ∉ (recorded e uid (committedCmd c)).qm.commitQ := by
    change uid ∉ e.qm.commitQ.filter (· != uid)
    simp
  rw [hdrop]
  obtain ⟨hrec, hout⟩ := completeCmd_record (c := committedCmd c) (d := { recorded e uid (committedCmd c) with
      regs := g, cores := l, freeCtr := k }) (SMap.sorted_insert (m := e.qm.cmds) _ _ hs) (cmd_setCmd_same e uid _) rfl hq
  exact ⟨⟨_, hrec⟩, hout⟩

theorem opCommit_made_record (hs : SMap.sorted d.qm.cmds = true) (hnext : nextCommit d = some uid) (hc : cmd d uid = some c)
    (hv : versionsOk d c = true) (hf : forkBarred d c = false) (ns : Nat) :
    (∃ now, cmd (opCommit d uid ns) uid = some (doneCmd now (committedCmd c))) ∧ uid ∉ (opCommit d uid ns).qm.commitQ := by
  have hcmds : KeepsCmds d (counted (published d uid c) c.job ns) :=
    (keepsCmds_published d uid c).trans (keepsCmds_counted _ _ _)
  rw [opCommit_made hnext hc hv hf]
  exact completeCmd_recorded (by rw [hcmds.cmds]; exact hs) uid c

/-- The end of a command changes no session. -/
theorem sess_endCmd (hs : SMap.sorted d.qm.cmds = true) (status detail : Nat) (retry : Bool) :
    (endCmd d uid status detail retry).qm.sess = d.qm.sess := by
  rw [(endStep_endCmd hs uid status detail retry).rest]

end Commit

/-- Settles O16: a commit writes its command's record after all that it publishes, and a commit that is not made ends the
command. -/
theorem commitPublishesTheOldestRequest : Obligations.CommitPublishesTheOldestRequest := by
  unfold Obligations.CommitPublishesTheOldestRequest
  intro s uid ns c hlive hs hnext hc
  refine ⟨fun hv hf => ?made, fun hv hp => ?moved, fun hv hf hp => ?barred⟩
  case made =>
    obtain ⟨⟨now, hrec⟩, hq⟩ := opCommit_made_record hs.cmds hnext hc hv hf ns
    exact completes_okDev hlive rfl ⟨⟨_, hrec, rfl, rfl, rfl⟩, hq⟩
  case moved =>
    obtain ⟨hrec, hq⟩ := endCmd_record hs.cmds hc hp stKilled 1 false
    exact completes_okDev hlive (congrArg (okDev s) (opCommit_moved hnext hc hv ns))
      ⟨⟨_, hrec, rfl, rfl, rfl, rfl⟩, hq, sess_endCmd hs.cmds _ _ _⟩
  case barred =>
    obtain ⟨hrec, hq⟩ := endCmd_record hs.cmds hc hp stBad (badDetail uid none) false
    exact completes_okDev hlive (congrArg (okDev s) (opCommit_barred hnext hc hv hf ns))
      ⟨⟨_, hrec, rfl, rfl, rfl⟩, hq, sess_endCmd hs.cmds _ _ _⟩

end Sys2Proof.Machine

/-! SUPPORT. The end of several commands, one after the other (10 R325, R331). -/

namespace Sys2Proof.Machine
open Sys2Proof

/-- The record of a command that has ended with a status. -/
structure EndedLike (c c' : Cmd) (status : Nat) (retry : Bool) : Prop where
  phase : c'.phase = .ended
  status : c'.status = status
  retry : c'.retry = retry
  committed : c'.committed = c.committed
  job : c'.job = c.job

theorem EndedLike.staysOn {c a b : Cmd} {status : Nat} {retry : Bool} (h : EndedLike c a status retry) (k : StaysOn a b) :
    EndedLike c b status retry := by
  have hphase : b.phase = .ended := (k.idle (by rw [h.phase]; decide)).trans h.phase
  rw [k.rest] at hphase ⊢
  exact ⟨hphase, h.status, h.retry, h.committed, h.job⟩

theorem EndedLike.of_staysOn {c a b : Cmd} {status : Nat} {retry : Bool} (h : EndedLike a b status retry) (k : StaysOn c a) :
    EndedLike c b status retry := by
  have hcom : a.committed = c.committed := by rw [k.rest]
  have hjob : a.job = c.job := by rw [k.rest]
  exact ⟨h.phase, h.status, h.retry, h.committed.trans hcom, h.job.trans hjob⟩

/-- The command listed with a record has ended. -/
def EndedIn (t : Dev) (uid : Nat) (c : Cmd) (status : Nat) (retry : Bool) : Prop :=
  ∃ c', cmd t uid = some c' ∧ EndedLike c c' status retry

theorem EndedIn.endedAs {t : Dev} {uid : Nat} {c : Cmd} {status : Nat} {retry : Bool} (h : EndedIn t uid c status retry) :
    EndedAs t uid c status retry := by
  obtain ⟨c', hc', hended⟩ := h
  exact ⟨c', hc', hended.phase, hended.status, hended.retry, hended.committed⟩

section Kill
variable {d : Dev} {uid : Nat} {c : Cmd} (status detail : Nat) (retry : Bool)

theorem endCmd_ended (hc : cmd d uid = some c) (hp : c.phase = .ended) : endCmd d uid status detail retry = d := by
  unfold endCmd
  rw [hc]
  exact if_pos hp

theorem endedIn_endCmd (hs : SMap.sorted d.qm.cmds = true) (hc : cmd d uid = some c) (hp : c.phase ≠ .ended) :
    EndedIn (endCmd d uid status detail retry) uid c status retry :=
  ⟨_, (endCmd_record hs hc hp status detail retry).1, rfl, rfl, rfl, rfl, rfl⟩

/-- A command that has ended stays as it is when another one, or itself once more, is ended. -/
theorem endedIn_keep {st : Nat} {rt : Bool} (hs : SMap.sorted d.qm.cmds = true) (h : EndedIn d uid c st rt) (u : Nat) :
    EndedIn (endCmd d u status detail retry) uid c st rt := by
  obtain ⟨c', hc', hended⟩ := h
  by_cases hu : uid = u
  · subst hu
    rw [endCmd_ended status detail retry hc' hended.phase]
    exact ⟨c', hc', hended⟩
  · obtain ⟨c'', hc'', hstays⟩ := (endStep_endCmd hs u status detail retry).goOn hs uid hu c' hc'
    exact ⟨c'', hc'', hended.staysOn hstays⟩

/-- The commands of a list are ended, one after the other. -/
def endList (d : Dev) (l : List Nat) : Dev := l.foldl (fun d u => endCmd d u status detail retry) d

theorem endAll_eq (p : Nat → Cmd → Bool) :
    endAll d p status detail retry = endList status detail retry d ((d.qm.cmds.filter (fun e => p e.1 e.2)).map (·.1)) := by
  unfold endAll endList
  rw [List.foldl_map]

theorem endStep_endList (hs : SMap.sorted d.qm.cmds = true) (l : List Nat) :
    EndStep (· ∈ l) d (endList status detail retry d l) := by
  induction l generalizing d with
  | nil => exact .refl _ d
  | cons u r ih =>
    have hstep := endStep_endCmd hs u status detail retry
    have hhead : EndStep (· ∈ u :: r) d (endCmd d u status detail retry) :=
      hstep.mono fun _ hx => List.mem_cons.mpr (.inl hx)
    exact hhead.trans ((ih (hstep.cmds hs)).mono fun _ hx => List.mem_cons_of_mem u hx)

theorem endedIn_endList_keep {st : Nat} {rt : Bool} (hs : SMap.sorted d.qm.cmds = true) (h : EndedIn d uid c st rt)
    (l : List Nat) : EndedIn (endList status detail retry d l) uid c st rt := by
  induction l generalizing d with
  | nil => exact h
  | cons u r ih => exact ih ((endStep_endCmd hs u status detail retry).cmds hs) (endedIn_keep status detail retry hs h u)

/-- Every command of the list that had not ended has the status. -/
theorem endedIn_endList (hs : SMap.sorted d.qm.cmds = true) {l : List Nat} (hl : uid ∈ l) (hc : cmd d uid = some c)
    (hp : c.phase ≠ .ended) : EndedIn (endList status detail retry d l) uid c status retry := by
  induction l generalizing d c with
  | nil => exact absurd hl (by simp)
  | cons u r ih =>
    have hstep := endStep_endCmd hs u status detail retry
    by_cases hu : uid = u
    · subst hu
      exact endedIn_endList_keep status detail retry (hstep.cmds hs) (endedIn_endCmd status detail retry hs hc hp) r
    · obtain ⟨a, ha, hstays⟩ := hstep.goOn hs uid hu c hc
      obtain ⟨b, hb, hended⟩ := ih (hstep.cmds hs) (List.mem_of_ne_of_mem hu hl) ha (fun h => hp (hstays.ended_iff.mp h))
      exact ⟨b, hb, hended.of_staysOn hstays⟩

end Kill

/-- A command that a predicate holds of is among those that it picks of a canonical table. -/
theorem mem_picked {d : Dev} (hs : SMap.sorted d.qm.cmds = true) (p : Nat → Cmd → Bool) (uid : Nat) :
    uid ∈ (d.qm.cmds.filter (fun e => p e.1 e.2)).map (·.1) ↔ ∃ c, cmd d uid = some c ∧ p uid c = true := by
  simp only [List.mem_map, List.mem_filter]
  constructor
  · rintro ⟨e, ⟨he, hp⟩, rfl⟩
    exact ⟨e.2, SMap.get?_of_mem hs he, hp⟩
  · rintro ⟨c, hc, hp⟩
    exact ⟨(uid, c), ⟨SMap.mem_of_get? hc, hp⟩, rfl⟩

end Sys2Proof.Machine

/-! SUPPORT. ACTIVATE: what a job that becomes resident, or that waits for its dies, leaves (10 R300, R302, R323; 15 R470). -/

namespace Sys2Proof.Machine
open Sys2Proof

theorem job_setJob_other {d : Dev} {j k : Nat} (h : SMap.sorted d.qm.jobs = true) (x : Job) (hk : k ≠ j) :
    job (setJob d j x) k = job d k := SMap.getD_put_other _ _ _ h hk

/-! ### Eligible prefetch entries (08 R252) -/

/-- A job's prefetch entries and the marks may differ. -/
structure PfSide (j : Nat) (d t : Dev) : Prop where
  rest : t = { d with mem := { d.mem with marks := t.mem.marks }, qm := { d.qm with jobs := t.qm.jobs } }
  canon : SMap.sorted t.qm.jobs = true
  own : job t j = { job d j with pf := (job t j).pf }
  others : ∀ k, k ≠ j → job t k = job d k

theorem PfSide.trans {j : Nat} {a b c : Dev} (h : PfSide j a b) (k : PfSide j b c) : PfSide j a c :=
  ⟨by rw [k.rest, h.rest], k.canon, by rw [k.own, h.own], fun i hi => (k.others i hi).trans (h.others i hi)⟩

theorem PfSide.keeps {j : Nat} {d t : Dev} (h : PfSide j d t) : t.cores = d.cores ∧ t.regs = d.regs ∧ t.pwr = d.pwr := by
  rw [h.rest]
  exact ⟨rfl, rfl, rfl⟩

theorem pfSide_mark {j : Nat} {d : Dev} (h : SMap.sorted d.qm.jobs = true) (i : Nat) (e : List Nat) :
    PfSide j d (markEntry d j i e) := by
  obtain ⟨m, hm⟩ := marksOnly_markEntry d j i e
  rw [hm]
  exact ⟨rfl, h, rfl, fun _ _ => rfl⟩

theorem pfSide_setPf {j : Nat} {d : Dev} (h : SMap.sorted d.qm.jobs = true) (i : Nat) (p : PfState) :
    PfSide j d (setPf d j i p) :=
  ⟨rfl, sorted_setPf h j i p, by rw [job_setPf h], fun _ hk => job_setJob_other h _ hk⟩

theorem pfSide_markEligible {d : Dev} (j : Nat) (h : SMap.sorted d.qm.jobs = true) : PfSide j d (markEligible d j) := by
  unfold markEligible
  refine List.foldlRecOn _ _ (motive := PfSide j d) ⟨rfl, h, rfl, fun _ _ => rfl⟩ (fun t ht i _ => ?_)
  dsimp only
  split
  · exact ht
  · exact ht.trans ((pfSide_setPf ht.canon i .eligible).trans (pfSide_mark (sorted_setPf ht.canon j i .eligible) i _))

/-! ### Cleared cores (03 R100) -/

/-- Only cores that a list of entries names may differ. -/
structure CoresSide (l : List CoreEnt) (d t : Dev) : Prop where
  rest : t = { d with cores := t.cores }
  canon : SMap.sorted t.cores = true
  others : ∀ n, (∀ e ∈ l, e.core ≠ n) → core t n = core d n

theorem coresSide_clearCores {d : Dev} (h : SMap.sorted d.cores = true) (j : Nat) (l : List CoreEnt) :
    CoresSide l d (l.foldl (fun d e => clearCore d j e) d) := by
  refine List.foldlRecOn l _ (motive := CoresSide l d) ⟨rfl, h, fun _ _ => rfl⟩ (fun t ht e he => ?_)
  obtain ⟨k, hk⟩ := clearCore_core t j e
  rw [hk]
  exact ⟨by rw [ht.rest]; rfl, SMap.sorted_put _ k idleCore ht.canon,
    fun n hn => (core_setCore_other k ht.canon (hn e he).symm).trans (ht.others n hn)⟩

/-! ### A job becomes resident (R323) -/

/-- The record of a job that becomes resident at a time. -/
def admitted (x : Job) (now : Nat) : Job := { x with resident := true, awaits := false, sliceStart := now }

/-- What a job that becomes resident leaves. -/
structure Admitted (j : Nat) (d t : Dev) : Prop where
  rest : t = { d with mem := { d.mem with marks := t.mem.marks }, cores := t.cores, qm := { d.qm with jobs := t.qm.jobs } }
  canon : SMap.sorted t.qm.jobs = true
  own : job t j = { admitted (job d j) d.now with pf := (job t j).pf }
  others : ∀ k, k ≠ j → job t k = job d k
  cores : ∀ n, (∀ e ∈ (job d j).place.cores, e.core ≠ n) → core t n = core d n

theorem admitted_becomeResident {d : Dev} (hj : SMap.sorted d.qm.jobs = true) (hc : SMap.sorted d.cores = true) (j : Nat) :
    Admitted j d (becomeResident d j) := by
  have hjob : job (setJob d j (admitted (job d j) d.now)) j = admitted (job d j) d.now := job_setJob_sorted hj j _
  have hclear := coresSide_clearCores (d := setJob d j (admitted (job d j) d.now)) hc j (job d j).place.cores
  have hstart : Admitted j d ((job d j).place.cores.foldl (fun d e => clearCore d j e)
      (setJob d j (admitted (job d j) d.now))) := by
    generalize (job d j).place.cores.foldl (fun d e => clearCore d j e) (setJob d j (admitted (job d j) d.now)) = t at hclear ⊢
    have hqm : t.qm = (setJob d j (admitted (job d j) d.now)).qm := by rw [hclear.rest]
    have hsame (k : Nat) : job t k = job (setJob d j (admitted (job d j) d.now)) k :=
      congrArg (fun q : Qm => SMap.getD q.jobs k freeJob) hqm
    refine ⟨by rw [hclear.rest]; rfl, by rw [hqm]; exact sorted_setJob hj _ _, ?_, fun k hk => ?_, fun n hn => hclear.others n hn⟩
    · rw [hsame, hjob]
    · rw [hsame, job_setJob_other hj _ hk]
  unfold becomeResident
  refine List.foldlRecOn _ _ (motive := Admitted j d) hstart (fun t ht e _ => ?_)
  split
  · obtain ⟨m, hm⟩ := marksOnly_markEntry t j e.1 (pfBytes t j e.1)
    rw [hm]
    exact ⟨by rw [ht.rest], ht.canon, ht.own, ht.others, ht.cores⟩
  · exact ht

/-! ### Dies that sleep (15 R470) -/

/-- A die of a placement that is awake is not kept off. -/
theorem awake_of_sleepingDies {d : Dev} {p : Placement} (h : sleepingDies d p = []) {die : Nat}
    (hd : die ∈ (p.cores.map (fun e => coreDie e.core)).dedup) : SMap.get? d.pwr.retained die = none := by
  have hawake := List.filter_eq_nil_iff.mp h die hd
  simp only [Bool.or_eq_true, not_or] at hawake
  have hkept : dieRetained d die = false := by simpa using hawake.1
  unfold dieRetained SMap.has at hkept
  simpa using hkept

theorem wakeFor_awake {d : Dev} {p : Placement} (h : sleepingDies d p = []) : wakeFor d p = d := by
  have hnone : ((p.cores.map (fun e => coreDie e.core)).dedup).filter (fun die => SMap.get? d.pwr.retained die == some 0) = [] :=
    List.filter_eq_nil_iff.mpr fun die hd => by rw [awake_of_sleepingDies h hd]; decide
  unfold wakeFor
  rw [hnone]
  rfl

/-- A job's own record is no conflict of it. -/
theorem noConflict_setJob {d : Dev} {j : Nat} {p : Placement} (hs : SMap.sorted d.qm.jobs = true) (h : noConflict d j p = true)
    (x : Job) : noConflict (setJob d j x) j p = true := by
  unfold noConflict at h ⊢
  rw [List.all_eq_true] at h ⊢
  intro e he
  by_cases hj : e.1 = j
  · simp [hj]
  · have hget : SMap.get? (setJob d j x).qm.jobs e.1 = some e.2 := SMap.get?_of_mem (sorted_setJob hs j x) he
    have hold : SMap.get? d.qm.jobs e.1 = some e.2 := by
      rw [← hget]
      change _ = SMap.get? (SMap.put d.qm.jobs j x freeJob) e.1
      unfold SMap.put
      split
      · exact (SMap.get?_erase_other hs hj).symm
      · exact (SMap.get?_insert_other _ _ hj).symm
    exact h e (SMap.mem_of_get? hold)

/-! ### The dies that are waked -/

/-- Each listed die is taken from those kept off. -/
theorem get?_eraseAll {m : SMap Nat} (hs : SMap.sorted m = true) (l : List Nat) :
    SMap.sorted (l.foldl (fun s i => SMap.erase s i) m) = true ∧
      (∀ i ∈ l, SMap.get? (l.foldl (fun s i => SMap.erase s i) m) i = none) ∧
      (∀ i, i ∉ l → SMap.get? (l.foldl (fun s i => SMap.erase s i) m) i = SMap.get? m i) := by
  induction l generalizing m with
  | nil => exact ⟨hs, fun _ h => absurd h (by simp), fun _ _ => rfl⟩
  | cons a r ih =>
    obtain ⟨hsorted, hin, hout⟩ := ih (SMap.sorted_erase a hs)
    refine ⟨hsorted, fun i hi => ?_, fun i hi => ?_⟩
    · by_cases hr : i ∈ r
      · exact hin i hr
      · obtain rfl : i = a := by simpa [hr] using hi
        exact (hout i hr).trans (SMap.get?_erase_same i hs)
    · rw [List.mem_cons, not_or] at hi
      exact (hout i hi.2).trans (SMap.get?_erase_other hs hi.1)

/-- What is in a set stays, and what is added is in it. -/
theorem mem_addAll (l : List Nat) (s : NSet) (i : Nat) :
    NSet.mem (l.foldl NSet.add s) i = (NSet.mem s i || l.contains i) := by
  induction l generalizing s with
  | nil => simp
  | cons a r ih =>
    have hadd : NSet.mem (NSet.add s a) i = (i == a || NSet.mem s i) := by
      unfold NSet.mem NSet.add SMap.has
      by_cases hi : i = a
      · subst hi
        rw [SMap.get?_insert_same]
        simp
      · rw [SMap.get?_insert_other _ _ hi]
        simp [hi]
    rw [List.foldl_cons, ih, hadd, List.contains_cons]
    cases i == a <;> simp

section Wake
variable {d : Dev} {p : Placement}

/-- A die that the power manager kept off is on its way. -/
theorem wakeFor_wakes (hs : SMap.sorted d.pwr.retained = true) {e : CoreEnt} (he : e ∈ p.cores)
    (h : SMap.get? d.pwr.retained (coreDie e.core) = some 0) :
    NSet.mem (wakeFor d p).pwr.waking (coreDie e.core) = true ∧ dieRetained (wakeFor d p) (coreDie e.core) = false := by
  have hlisted : coreDie e.core ∈ ((p.cores.map (fun e => coreDie e.core)).dedup).filter
      (fun die => SMap.get? d.pwr.retained die == some 0) := by
    rw [List.mem_filter, List.mem_dedup]
    exact ⟨List.mem_map_of_mem he, by rw [h]; rfl⟩
  unfold wakeFor
  refine ⟨?_, ?_⟩
  · refine (mem_addAll _ _ _).trans ?_
    rw [List.contains_iff_mem.mpr hlisted, Bool.or_true]
  · unfold dieRetained SMap.has
    rw [(get?_eraseAll hs _).2.1 _ hlisted]
    rfl

/-- A die that is waked is not awake yet. -/
theorem sleepingDies_wakeFor (hs : SMap.sorted d.pwr.retained = true) (h : sleepingDies d p ≠ []) :
    sleepingDies (wakeFor d p) p ≠ [] := by
  obtain ⟨die, hdie⟩ := List.exists_mem_of_ne_nil _ h
  unfold sleepingDies at hdie
  rw [List.mem_filter] at hdie
  obtain ⟨hnamed, hasleep⟩ := hdie
  refine List.ne_nil_of_mem (a := die) (List.mem_filter.mpr ⟨hnamed, ?_⟩)
  rw [Bool.or_eq_true] at hasleep ⊢
  have hwaking : NSet.mem (wakeFor d p).pwr.waking die = (NSet.mem d.pwr.waking die ||
      (((p.cores.map (fun e => coreDie e.core)).dedup).filter
        (fun die => SMap.get? d.pwr.retained die == some 0)).contains die) := mem_addAll _ _ _
  by_cases hoff : SMap.get? d.pwr.retained die = some 0
  · have hlisted : die ∈ ((p.cores.map (fun e => coreDie e.core)).dedup).filter
        (fun die => SMap.get? d.pwr.retained die == some 0) := List.mem_filter.mpr ⟨hnamed, by rw [hoff]; rfl⟩
    right
    rw [hwaking, List.contains_iff_mem.mpr hlisted, Bool.or_true]
  · have hunlisted : die ∉ ((p.cores.map (fun e => coreDie e.core)).dedup).filter
        (fun die => SMap.get? d.pwr.retained die == some 0) := fun hin => hoff (by simpa using (List.mem_filter.mp hin).2)
    refine hasleep.imp (fun hret => ?_) (fun hwake => by rw [hwaking, hwake, Bool.true_or])
    unfold dieRetained SMap.has at hret ⊢
    refine Eq.trans (congrArg Option.isSome ?_) hret
    exact (get?_eraseAll hs _).2.2 die hunlisted

end Wake

/-! ### ACTIVATE, case by case -/

/-- The record of a job that is activated with a placement. -/
def activated (d : Dev) (a : Acc) (j : Nat) (p : Placement) : Job :=
  { freeJob with state := 1, port := accPort a, place := p, comets := (job d j).comets, declRej := (job d j).declRej
                 sessResult := (job d j).sessResult, sliceStart := d.now }

section Activate
variable {d : Dev} {a : Acc} {j : Nat} {bs : List Nat} {p : Placement}

theorem opActivate_listed (h : (job d j).state ≠ 0) (r : Option (List Nat)) : opActivate d a j r = d := by
  unfold opActivate
  exact if_pos h

theorem opActivate_unread (h : (job d j).state = 0) : opActivate d a j none = setJob d j { job d j with err := 1 } := by
  unfold opActivate
  exact if_neg (not_not_intro h)

theorem opActivate_undecoded (h : (job d j).state = 0) (hp : decodePlacement bs = none) :
    opActivate d a j (some bs) = setJob d j { job d j with err := 2 } := by
  unfold opActivate
  dsimp only
  rw [if_neg (not_not_intro h), hp]

theorem opActivate_awake (hs : SMap.sorted d.qm.jobs = true) (h : (job d j).state = 0) (hp : decodePlacement bs = some p)
    (hc : noConflict d j p = true) (hd : sleepingDies d p = []) :
    opActivate d a j (some bs) = markEligible (becomeResident (setJob d j (activated d a j p)) j) j := by
  have hnone : noConflict (setJob d j (activated d a j p)) j p = true := noConflict_setJob hs hc _
  have hawake : (sleepingDies (setJob d j (activated d a j p)) p).isEmpty = true := List.isEmpty_iff.mpr hd
  unfold opActivate
  dsimp only
  rw [if_neg (not_not_intro h), hp]
  dsimp only
  rw [wakeFor_awake hd]
  change markEligible (if (!noConflict (setJob d j (activated d a j p)) j p) = true then _
    else if (sleepingDies (setJob d j (activated d a j p)) p).isEmpty = true then _ else _) j = _
  rw [hnone, hawake, if_neg (by decide), if_pos rfl]
  rfl

theorem opActivate_asleep (hs : TablesSorted d) (h : (job d j).state = 0) (hp : decodePlacement bs = some p)
    (hc : noConflict d j p = true) (hd : sleepingDies d p ≠ []) :
    opActivate d a j (some bs) = markEligible (setJob (setJob (wakeFor d p) j (activated d a j p)) j
      { activated d a j p with awaits := true }) j := by
  have hnone : noConflict (setJob (wakeFor d p) j (activated d a j p)) j p = true :=
    noConflict_setJob (d := wakeFor d p) hs.jobs hc _
  have hasleep : (sleepingDies (setJob (wakeFor d p) j (activated d a j p)) p).isEmpty = false := by
    have hne : sleepingDies (setJob (wakeFor d p) j (activated d a j p)) p ≠ [] := sleepingDies_wakeFor hs.retained hd
    simpa using hne
  unfold opActivate
  dsimp only
  rw [if_neg (not_not_intro h), hp]
  change markEligible (if (!noConflict (setJob (wakeFor d p) j (activated d a j p)) j p) = true then _
    else if (sleepingDies (setJob (wakeFor d p) j (activated d a j p)) p).isEmpty = true then _ else _) j = _
  rw [hnone, hasleep, if_neg (by decide), if_neg (by decide)]
  rfl

/-- A job that is resident at once (R300, R302). -/
theorem activated_resident (hs : TablesSorted d) (p : Placement) :
    let t := markEligible (becomeResident (setJob d j (activated d a j p)) j) j
    job t j = { activated d a j p with resident := true, pf := (job t j).pf } ∧ (∀ k, k ≠ j → job t k = job d k) ∧
      (∀ n, (∀ e ∈ p.cores, e.core ≠ n) → core t n = core d n) ∧
      t = { d with qm := { d.qm with jobs := t.qm.jobs }, mem := { d.mem with marks := t.mem.marks }, cores := t.cores } := by
  have hjob : job (setJob d j (activated d a j p)) j = activated d a j p := job_setJob_sorted hs.jobs j _
  have hres := admitted_becomeResident (d := setJob d j (activated d a j p)) (sorted_setJob hs.jobs j _) hs.cores j
  have hpf := pfSide_markEligible j hres.canon
  generalize becomeResident (setJob d j (activated d a j p)) j = r at hres hpf ⊢
  intro t
  refine ⟨?_, fun k hk => ?_, fun n hn => ?_, ?_⟩
  · rw [hpf.own, hres.own, hjob]
    rfl
  · rw [hpf.others k hk, hres.others k hk, job_setJob_other hs.jobs _ hk]
  · have hcores : core t n = core r n := by
      unfold core
      rw [hpf.keeps.1]
    exact hcores.trans (hres.cores n (by rw [hjob]; exact hn))
  · rw [show t = _ from hpf.rest, hres.rest]
    rfl

/-- A job that waits for its dies. -/
theorem activated_waiting (hs : TablesSorted d) (p : Placement) :
    let t := markEligible (setJob (setJob (wakeFor d p) j (activated d a j p)) j { activated d a j p with awaits := true }) j
    job t j = { activated d a j p with awaits := true, pf := (job t j).pf } ∧ t.cores = d.cores ∧ t.regs = d.regs ∧
      t.pwr = (wakeFor d p).pwr := by
  have hjobs : SMap.sorted (setJob (wakeFor d p) j (activated d a j p)).qm.jobs = true :=
    sorted_setJob (d := wakeFor d p) hs.jobs j _
  have hpf := pfSide_markEligible j (sorted_setJob hjobs j { activated d a j p with awaits := true })
  intro t
  obtain ⟨hcores, hregs, hpwr⟩ := hpf.keeps
  refine ⟨?_, hcores, hregs, hpwr⟩
  rw [hpf.own, job_setJob_sorted hjobs]

end Activate

end Sys2Proof.Machine

/-! SUPPORT. DESTROY: the job's commands are killed, and with none left its sessions, keys and memory are given back (10 R331). -/

namespace Sys2Proof.Machine
open Sys2Proof

/-! ### What the end of a destruction leaves -/

/-- Memory, the requests on their way, the key slots, the dies that are kept off, and the jobs, sessions, pages and slots may
differ. -/
structure DestroySide (d t : Dev) : Prop where
  rest : t = { d with mem := t.mem, ext := t.ext, fab := t.fab, sec := t.sec, pwr := t.pwr,
                      qm := { d.qm with jobs := t.qm.jobs, sess := t.qm.sess, pst := t.qm.pst, slots := t.qm.slots } }
  jobs : SMap.sorted d.qm.jobs = true → SMap.sorted t.qm.jobs = true

theorem DestroySide.trans {a b c : Dev} (h : DestroySide a b) (k : DestroySide b c) : DestroySide a c :=
  ⟨by rw [k.rest, h.rest], k.jobs ∘ h.jobs⟩

theorem HeapSide.destroySide {d t : Dev} (h : HeapSide d t) : DestroySide d t := by
  rw [h.rest]
  exact ⟨rfl, id⟩

theorem HeapSide.sess {d t : Dev} (h : HeapSide d t) : t.qm.sess = d.qm.sess := by
  rw [h.rest]

/-! ### Sessions (05 R163; 06 R199) -/

theorem sorted_setSess {d : Dev} (h : SMap.sorted d.qm.sess = true) (n : Nat) (x : Sess) :
    SMap.sorted (setSess d n x).qm.sess = true := SMap.sorted_put n x freeSess h

/-- Freeing the pages and tails of a session writes its record once, and binds or unbinds none. -/
theorem freeSession_unbinds (d : Dev) (sid pos : Nat) (selP : Nat → Nat → Bool) (selT : Nat → Bool) (pages tails : Bool) :
    ∃ x : Sess, x.job = (sess d sid).job ∧ HeapSide (setSess d sid x) (freeSession d sid pos selP selT pages tails) := by
  have hpages (l : List PEnt) (d : Dev) : HeapSide d (l.foldl (fun d e => dropRefPage d e.pid) d) :=
    HeapSide.foldl (fun d (e : PEnt) => dropRefPage d e.pid) (fun d e => heapSide_dropRefPage d e.pid) l d
  have hslots (l : SMap (Nat × Nat)) (d : Dev) : HeapSide d (l.foldl (fun d t => dropRefSlot d t.2.1) d) :=
    HeapSide.foldl (fun d (t : Nat × Nat × Nat) => dropRefSlot d t.2.1) (fun d t => heapSide_dropRefSlot d t.2.1) l d
  unfold freeSession
  dsimp only
  refine ⟨_, ?_, (hpages _ _).trans (hslots _ _)⟩
  rfl

/-- A session of a destroyed job is emptied and unbound. -/
def unbindSess (d : Dev) (n : Nat) : Dev :=
  setSess (freeSession d n 0 (fun _ _ => true) (fun _ => true) true true) n freeSess

theorem destroySide_unbindSess (d : Dev) (n : Nat) : DestroySide d (unbindSess d n) := by
  obtain ⟨x, -, hx⟩ := freeSession_unbinds d n 0 (fun _ _ => true) (fun _ => true) true true
  have hset (d : Dev) (n : Nat) (y : Sess) : DestroySide d (setSess d n y) := ⟨rfl, id⟩
  exact (hset d n x).trans (hx.destroySide.trans (hset _ n freeSess))

/-- The session is unbound; no other is touched. -/
theorem sess_unbindSess {d : Dev} (h : SMap.sorted d.qm.sess = true) (n k : Nat) :
    SMap.sorted (unbindSess d n).qm.sess = true ∧
      (sess (unbindSess d n) k).job = if k = n then none else (sess d k).job := by
  obtain ⟨x, -, hx⟩ := freeSession_unbinds d n 0 (fun _ _ => true) (fun _ => true) true true
  unfold unbindSess
  generalize freeSession d n 0 (fun _ _ => true) (fun _ => true) true true = t at hx ⊢
  have ht : SMap.sorted t.qm.sess = true := by
    rw [hx.sess]
    exact sorted_setSess h n x
  refine ⟨sorted_setSess ht n freeSess, ?_⟩
  by_cases hk : k = n
  · subst hk
    rw [sess_setSess_same ht, if_pos rfl]
    rfl
  · have hsame : sess t k = sess (setSess d n x) k := congrArg (fun m => SMap.getD m k freeSess) hx.sess
    rw [sess_setSess_other ht _ hk, if_neg hk, hsame, sess_setSess_other h _ hk]

/-- The sessions of a list are unbound. -/
theorem sess_unbindAll {d : Dev} (h : SMap.sorted d.qm.sess = true) (l : List Nat) (k : Nat) :
    (sess (l.foldl unbindSess d) k).job = if k ∈ l then none else (sess d k).job := by
  induction l generalizing d with
  | nil => simp
  | cons n r ih =>
    obtain ⟨hsorted, hjob⟩ := sess_unbindSess h n k
    rw [List.foldl_cons, ih hsorted, hjob]
    by_cases hr : k ∈ r
    · simp [hr]
    · by_cases hk : k = n <;> simp [hr, hk]

/-- A session that is bound to a job is listed as such. -/
theorem mem_boundSessions {d : Dev} {j k : Nat} (h : (sess d k).job = some j) :
    k ∈ (d.qm.sess.filter (fun e => e.2.job == some j)).map (·.1) := by
  unfold sess SMap.getD at h
  cases hx : SMap.get? d.qm.sess k with
  | none =>
    rw [hx] at h
    exact absurd h (by simp [freeSess])
  | some x =>
    rw [hx] at h
    exact List.mem_map.mpr ⟨(k, x), List.mem_filter.mpr ⟨SMap.mem_of_get? hx, by simpa using h⟩, rfl⟩

/-! ### Steps 2 to 4 of R331 -/

theorem DestroySide.foldl {α : Type} (f : Dev → α → Dev) (h : ∀ d x, DestroySide d (f d x)) (l : List α) (d : Dev) :
    DestroySide d (l.foldl f d) := by
  induction l generalizing d with
  | nil => exact ⟨rfl, id⟩
  | cons x r ih => exact (h d x).trans (ih _)

theorem destroySide_setJob (d : Dev) (j : Nat) (x : Job) : DestroySide d (setJob d j x) := ⟨rfl, fun h => sorted_setJob h j x⟩

/-- What a destruction frees keeps the sessions and the key slots. -/
structure FreedSide (d t : Dev) : Prop where
  side : DestroySide d t
  sess : t.qm.sess = d.qm.sess
  sec : t.sec = d.sec

theorem FreedSide.trans {a b c : Dev} (h : FreedSide a b) (k : FreedSide b c) : FreedSide a c :=
  ⟨h.side.trans k.side, k.sess.trans h.sess, k.sec.trans h.sec⟩

theorem HeapSide.freedSide {d t : Dev} (h : HeapSide d t) : FreedSide d t :=
  ⟨h.destroySide, h.sess, by rw [h.rest]⟩

theorem freedSide_setJob (d : Dev) (j : Nat) (x : Job) : FreedSide d (setJob d j x) := ⟨destroySide_setJob d j x, rfl, rfl⟩

theorem freedSide_freeSave (d : Dev) (j : Nat) : FreedSide d (freeSave d j) := by
  unfold freeSave
  split
  · rename_i a _
    exact (heapSide_dropGrans (fun g : SaveGran => g.sid) a.grans d).freedSide.trans (freedSide_setJob _ _ _)
  · exact (HeapSide.refl d).freedSide

theorem freedSide_dropPrefetch (d : Dev) (j : Nat) : FreedSide d (dropPrefetch d j) := by
  have hheld (l : SMap PfState) (d : Dev) : HeapSide d (l.foldl (fun d e => match e.2 with
      | .transfer _ (some (t, o)) | .broken _ (some (t, o)) => unholdCopy d o t
      | _ => d) d) := by
    refine HeapSide.foldl _ (fun d e => ?_) l d
    split
    · exact heapSide_unholdCopy _ _ _
    · exact heapSide_unholdCopy _ _ _
    · exact .refl d
  have hmarks (d : Dev) (m : Mem) (f : Fab) : FreedSide d { d with mem := m, fab := f } := ⟨⟨rfl, id⟩, rfl, rfl⟩
  unfold dropPrefetch
  exact ((freedSide_setJob d j _).trans (hheld _ _).freedSide).trans (hmarks _ _ _)

/-- The objects of the module lose the claims of a job. -/
def evictAll (d : Dev) (j : Nat) : Dev :=
  (d.mem.objs.map (·.1)).foldl (fun d o => [1, 2, 4].foldl (fun d t => evictCopy d o t j) d) d

theorem heapSide_evictAll (d : Dev) (j : Nat) : HeapSide d (evictAll d j) :=
  HeapSide.foldl _ (fun d o => HeapSide.foldl _ (fun d t => heapSide_evictCopy d o t j) _ d) _ d

/-- A job's key slots are erased (13 R418). -/
def eraseKeys (d : Dev) (j : Nat) : Dev := { d with sec := { d.sec with keys := SMap.keep d.sec.keys (fun k _ => k / 16 != j) } }

theorem eraseKeys_erases (d : Dev) {j k : Nat} (hk : k / 16 = j) : SMap.get? (eraseKeys d j).sec.keys k = none := by
  cases hget : SMap.get? (eraseKeys d j).sec.keys k with
  | none => rfl
  | some v =>
    have hmem : (k, v) ∈ SMap.keep d.sec.keys (fun k _ => k / 16 != j) := SMap.mem_of_get? hget
    have hkept := (List.mem_filter.mp hmem).2
    simp [hk] at hkept

/-- The sessions that are bound to a job. -/
def boundSessions (d : Dev) (j : Nat) : List Nat := (d.qm.sess.filter (fun e => e.2.job == some j)).map (·.1)

/-- The record that a destroyed job leaves. -/
def destroyedJob (x : Job) : Job :=
  { freeJob with port := x.port, err := x.err, declRej := x.declRej, sessResult := x.sessResult }

theorem finishDestroy_eq (d : Dev) (j : Nat) :
    finishDestroy d j =
      let t := dropPrefetch (freeSave (eraseKeys (evictAll ((boundSessions d j).foldl unbindSess d) j) j) j) j
      powerSave (setJob t j (destroyedJob (job t j))) := rfl

section Destroy
variable {d : Dev} {j : Nat}

/-- A job without commands is FREE, its sessions unbound and its key slots empty. -/
theorem finishDestroy_frees (hjobs : SMap.sorted d.qm.jobs = true) (hsess : SMap.sorted d.qm.sess = true) :
    let t := finishDestroy d j
    (job t j).state = 0 ∧ (job t j).resident = false ∧ (∀ n, (sess t n).job ≠ some j) ∧
      (∀ k, k / 16 = j → SMap.get? t.sec.keys k = none) ∧ t.qm.cmds = d.qm.cmds ∧ t.orb = d.orb ∧ t.boot = d.boot := by
  rw [finishDestroy_eq]
  have hunbound : DestroySide d ((boundSessions d j).foldl unbindSess d) := .foldl _ destroySide_unbindSess _ d
  have hkeys (e : Dev) : DestroySide e (eraseKeys e j) := ⟨rfl, id⟩
  have hevict := heapSide_evictAll ((boundSessions d j).foldl unbindSess d) j
  have hjob (n : Nat) : (sess ((boundSessions d j).foldl unbindSess d) n).job ≠ some j := by
    rw [sess_unbindAll hsess]
    by_cases hn : n ∈ boundSessions d j
    · rw [if_pos hn]
      exact nofun
    · rw [if_neg hn]
      exact fun h => hn (mem_boundSessions h)
  generalize (boundSessions d j).foldl unbindSess d = e at hunbound hevict hjob ⊢
  generalize evictAll e j = f at hevict ⊢
  have hfreed : FreedSide (eraseKeys f j) (dropPrefetch (freeSave (eraseKeys f j) j) j) :=
    (freedSide_freeSave _ _).trans (freedSide_dropPrefetch _ _)
  have hall : DestroySide d (dropPrefetch (freeSave (eraseKeys f j) j) j) :=
    (hunbound.trans hevict.destroySide).trans ((hkeys f).trans hfreed.side)
  have hsec := hfreed.sec
  have hsame : (dropPrefetch (freeSave (eraseKeys f j) j) j).qm.sess = e.qm.sess := hfreed.sess.trans hevict.sess
  generalize dropPrefetch (freeSave (eraseKeys f j) j) j = t at hall hsec hsame ⊢
  have hrec : job (setJob t j (destroyedJob (job t j))) j = destroyedJob (job t j) := job_setJob_sorted (hall.jobs hjobs) j _
  refine ⟨congrArg Job.state hrec, congrArg Job.resident hrec, fun n => ?_, fun k hk => ?_, ?_, ?_, ?_⟩
  · have hn : sess t n = sess e n := congrArg (fun m => SMap.getD m n freeSess) hsame
    change (sess t n).job ≠ some j
    rw [hn]
    exact hjob n
  · change SMap.get? t.sec.keys k = none
    rw [hsec]
    exact eraseKeys_erases f hk
  · change t.qm.cmds = d.qm.cmds
    rw [hall.rest]
  · change t.orb = d.orb
    rw [hall.rest]
  · change t.boot = d.boot
    rw [hall.rest]

/-! ### DESTROY -/

/-- The record of a job that is being destroyed since a time. -/
def destroyingJob (x : Job) (now : Nat) : Job := { x with state := 2, destroyAt := some now }

/-- The module when a job is being destroyed and its doorbells are taken away. -/
def destroying (d : Dev) (j : Nat) : Dev :=
  let e := setJob d j (destroyingJob (job d j) d.now)
  { e with qm := { e.qm with bells := e.qm.bells.filter (fun b => b.1 != j) } }

theorem opDestroy_inactive (h : (job d j).state ≠ 1) : opDestroy d j = d := by
  unfold opDestroy
  exact if_pos h

theorem opDestroy_active (h : (job d j).state = 1) :
    opDestroy d j = checkDestroy (endList stKilled 0 false (destroying d j) ((jobCmds d j).map (·.1))) j := by
  unfold opDestroy
  rw [if_neg (not_not_intro h)]
  exact congrArg (checkDestroy · j) (endAll_eq stKilled 0 false (fun _ c => c.job == j))

theorem job_destroying (hs : SMap.sorted d.qm.jobs = true) :
    job (destroying d j) j = destroyingJob (job d j) d.now :=
  job_setJob_sorted hs j (destroyingJob (job d j) d.now)

theorem sorted_destroying (hs : SMap.sorted d.qm.jobs = true) : SMap.sorted (destroying d j).qm.jobs = true :=
  sorted_setJob hs j (destroyingJob (job d j) d.now)

/-- A job with no command in flight is destroyed at once. -/
theorem opDestroy_idle (hs : SMap.sorted d.qm.jobs = true) (h : (job d j).state = 1) (hc : jobCmds d j = []) :
    opDestroy d j = finishDestroy (destroying d j) j := by
  have hstate : (job (destroying d j) j).state = 2 := by
    rw [job_destroying hs]
    rfl
  have hnone : jobCmds (destroying d j) j = [] := hc
  rw [opDestroy_active h, hc]
  change checkDestroy (destroying d j) j = _
  unfold checkDestroy
  rw [hstate, hnone]
  rfl

/-- While a command of the job is listed, its destruction is not finished. -/
theorem checkDestroy_waits {uid : Nat} {c : Cmd} (hc : cmd d uid = some c) (hj : c.job = j) : checkDestroy d j = d := by
  have hne : (jobCmds d j).isEmpty = false := by
    have hmem : (uid, c) ∈ jobCmds d j := List.mem_filter.mpr ⟨SMap.mem_of_get? hc, by simp [hj]⟩
    simpa using List.ne_nil_of_mem hmem
  unfold checkDestroy
  rw [hne, Bool.and_false, if_neg Bool.false_ne_true]

/-- With commands in flight the job is DESTROYING, and they are killed. -/
theorem opDestroy_kills (hs : TablesSorted d) (h : (job d j).state = 1) {uid : Nat} {c : Cmd} (hc : cmd d uid = some c)
    (hj : c.job = j) (hp : c.phase ≠ .ended) :
    let t := opDestroy d j
    (job t j).state = 2 ∧ (job t j).destroyAt = some d.now ∧ (∀ b ∈ t.qm.bells, b.1 ≠ j) ∧ EndedAs t uid c 0x20 false ∧
      t.out = d.out := by
  have hcmds : SMap.sorted (destroying d j).qm.cmds = true := hs.cmds
  have hlisted : uid ∈ (jobCmds d j).map (·.1) := (mem_picked hs.cmds (fun _ c => c.job == j) uid).mpr ⟨c, hc, by simp [hj]⟩
  have hended := endedIn_endList stKilled 0 false hcmds hlisted hc hp
  have hside := endStep_endList stKilled 0 false hcmds ((jobCmds d j).map (·.1))
  obtain ⟨-, hjobs⟩ := hside.jobs (sorted_destroying hs.jobs)
  obtain ⟨c', hc', hlike⟩ := hended
  rw [opDestroy_active h, checkDestroy_waits hc' (hlike.job.trans hj)]
  generalize endList stKilled 0 false (destroying d j) ((jobCmds d j).map (·.1)) = t at *
  refine ⟨by rw [hjobs j, job_destroying hs.jobs]; rfl, by rw [hjobs j, job_destroying hs.jobs]; rfl, ?_,
    EndedIn.endedAs ⟨c', hc', hlike⟩, by rw [hside.rest]; rfl⟩
  have hbells : t.qm.bells = d.qm.bells.filter (fun b => b.1 != j) := by
    rw [hside.rest]
    rfl
  rw [hbells]
  intro b hb
  simpa using (List.mem_filter.mp hb).2

end Destroy

/-- Settles O48: ACTIVATE and DESTROY case by case; an end of a job's commands leaves the job's state, and the release of what a
job holds leaves the commands. -/
theorem jobsAreActivatedAndDestroyed : Obligations.JobsAreActivatedAndDestroyed := by
  unfold Obligations.JobsAreActivatedAndDestroyed
  intro s acc j hlive hperf hs
  have hactivate {t : Dev} {P : Dev → Prop} {r : Option (List Byte)}
      (he : opActivate s.dev acc j.val (r.map (fun l => l.map BitVec.toNat)) = t) (hP : P t) :
      Completes (.activate acc j r) s P :=
    completes_okDev hlive (congrArg (okDev s) ((withReg_performed hperf _).trans he)) hP
  have hdestroy {t : Dev} {P : Dev → Prop} (he : opDestroy s.dev j.val = t) (hP : P t) : Completes (.destroy acc j) s P :=
    completes_okDev hlive (congrArg (okDev s) ((withReg_performed hperf _).trans he)) hP
  refine ⟨fun hx => ⟨?unread, fun bs hp => ?undecoded, fun bs p hp hc => ⟨fun hd => ?resident, fun hd => ?waiting⟩⟩,
    fun hx r => ?listed, fun hx => ⟨fun hc => ?finished, fun uid c hc hj hp => ?killed⟩, fun hx => ?inactive⟩
  case unread => exact hactivate (r := none) (opActivate_unread hx) ⟨job_setJob_sorted hs.jobs _ _, rfl⟩
  case undecoded => exact hactivate (r := some bs) (opActivate_undecoded hx hp) ⟨job_setJob_sorted hs.jobs _ _, rfl⟩
  case resident =>
    obtain ⟨hown, hothers, hcores, hrest⟩ := activated_resident (a := acc) (j := j.val) hs p
    refine hactivate (r := some bs) (opActivate_awake hs.jobs hx hp hc hd) ?_
    rw [hown]
    exact ⟨rfl, rfl, rfl, rfl, rfl, rfl, rfl, hothers, hcores, hrest⟩
  case waiting =>
    obtain ⟨hown, hcores, hregs, hpwr⟩ := activated_waiting (a := acc) (j := j.val) hs p
    refine hactivate (r := some bs) (opActivate_asleep hs hx hp hc hd) ?_
    rw [hown]
    refine ⟨rfl, rfl, rfl, rfl, hcores, hregs, fun e he hoff => ?_⟩
    obtain ⟨hwaking, hawake⟩ := wakeFor_wakes (p := p) hs.retained he hoff
    unfold dieRetained at hawake ⊢
    rw [hpwr]
    exact ⟨hwaking, hawake⟩
  case listed => exact hactivate (opActivate_listed hx _) rfl
  case finished =>
    exact hdestroy (opDestroy_idle hs.jobs hx hc)
      (finishDestroy_frees (d := destroying s.dev j.val) (sorted_destroying hs.jobs) hs.sess)
  case killed => exact hdestroy rfl (opDestroy_kills hs hx hc hj hp)
  case inactive => exact hdestroy (opDestroy_inactive hx) rfl

end Sys2Proof.Machine

/-! SUPPORT. The end of a slice, an overrun, and the start of a PREEMPT (10 R323 to R325). -/

namespace Sys2Proof.Machine
open Sys2Proof

/-! ### A new slice (R323) -/

/-- The slice that holds a cycle, slices of `n` cycles following each other from `s` on. -/
theorem slice_holds {s now n : Nat} (hn : 0 < n) (h : s + n ≤ now) :
    s + (now - s) / n * n ≤ now ∧ now < s + (now - s) / n * n + n := by
  have hle := Nat.div_mul_le_self (now - s) n
  have hlt := Nat.lt_div_mul_add (a := now - s) hn
  omega

section Slice
variable {d : Dev} {j : Nat} {p : Pre}

/-- The module when job j's next slice has started. -/
def nextSlice (d : Dev) (j : Nat) : Dev :=
  let n := rj d j 0x108 * 1050
  setJob d j { job d j with sliceStart := (job d j).sliceStart + (d.now - (job d j).sliceStart) / n * n }

/-- The slice of job j has passed. -/
structure SlicePassed (d : Dev) (j : Nat) : Prop where
  active : (job d j).state = 1
  resident : (job d j).resident = true
  length : rj d j 0x108 ≠ 0
  passed : (job d j).sliceStart + rj d j 0x108 * 1050 ≤ d.now

theorem SlicePassed.ends (h : SlicePassed d j) : ((job d j).state = 1 && (job d j).resident && decide (rj d j 0x108 ≠ 0) &&
    decide ((job d j).sliceStart + rj d j 0x108 * 1050 ≤ d.now)) = true := by
  obtain ⟨hactive, hresident, hlength, hpassed⟩ := h
  simp [hactive, hresident, hlength, hpassed]

theorem opSliceEnd_alone (h : SlicePassed d j) (hp : d.qm.pres = []) : opSliceEnd d j = nextSlice d j := by
  unfold opSliceEnd
  dsimp only
  rw [if_pos h.ends, hp]
  rfl

theorem opSliceEnd_preempted (h : SlicePassed d j) (hp : d.qm.pres = [p]) (hv : p.victim = j) (he : p.endedAt = none) :
    opSliceEnd d j = endSlice d p := by
  have hfind : d.qm.pres.find? (fun p => p.victim == j && p.endedAt.isNone) = some p := by
    rw [hp]
    simp [hv, he]
  unfold opSliceEnd
  dsimp only
  rw [if_pos h.ends, hfind]

theorem nextSlice_holds (h : SlicePassed d j) :
    let t := nextSlice d j
    (job t j).sliceStart ≤ d.now ∧ d.now < (job t j).sliceStart + rj d j 0x108 * 1050 ∧
      job t j = { job d j with sliceStart := (job t j).sliceStart } := by
  have hn : 0 < rj d j 0x108 * 1050 := Nat.mul_pos (Nat.pos_of_ne_zero h.length) (by decide)
  obtain ⟨hstart, hend⟩ := slice_holds hn h.passed
  intro t
  have hjob : job t j = { job d j with sliceStart := (job d j).sliceStart +
      (d.now - (job d j).sliceStart) / (rj d j 0x108 * 1050) * (rj d j 0x108 * 1050) } := by
    refine job_setJob_active d j ?_
    change (job d j).state ≠ 0
    rw [h.active]
    decide
  rw [hjob]
  exact ⟨hstart, hend, rfl⟩

/-! ### The commands that a slice's end treats (R325) -/

/-- A command that goes on is treated as it would have been before. -/
theorem affectedBy_staysOn {t : Dev} {c c' : Cmd} (hjobs : t.qm.jobs = d.qm.jobs) (p : Pre) (h : StaysOn c c') :
    affectedBy t p c' = affectedBy d p c := by
  have hcores : preCores t p = preCores d p := by
    unfold preCores job
    rw [hjobs]
  have htouch : touchesCores c' (preCores d p) = touchesCores c (preCores d p) := by
    rw [h.rest]
    rfl
  have hjob : c'.job = c.job := by rw [h.rest]
  have hphase : (c'.phase == .running || c'.phase == .worked) = (c.phase == .running || c.phase == .worked) := by
    rcases h.phase with hp | ⟨hrun, hwork⟩
    · rw [hp]
    · rw [hrun, hwork]
      rfl
  unfold affectedBy
  rw [hcores, htouch, hjob, hphase]

/-- A command that has ended is not treated. -/
theorem affectedBy_ended {c : Cmd} (h : c.phase = .ended) : affectedBy d p c = false := by
  unfold affectedBy
  rw [h]
  simp

theorem phase_of_affectedBy {c : Cmd} (h : affectedBy d p c = true) : c.phase ≠ .ended := fun hp => by
  rw [affectedBy_ended hp] at h
  exact absurd h (by decide)

/-- The commands of a list have outlived the slice. -/
def markAffected (d : Dev) (l : List (Nat × Cmd)) : Dev := l.foldl (fun d e => setCmd d e.1 { e.2 with affected := true }) d

theorem markAffected_rest (d : Dev) (l : List (Nat × Cmd)) :
    markAffected d l = { d with qm := { d.qm with cmds := (markAffected d l).qm.cmds } } := by
  induction l generalizing d with
  | nil => rfl
  | cons e r ih =>
    have hset := ih (setCmd d e.1 { e.2 with affected := true })
    exact hset

/-- The record of a command is marked where the list names it, and is as it was elsewhere. -/
theorem cmd_markAffected {u : Nat} {c : Cmd} (l : List (Nat × Cmd)) (d : Dev) (hl : ∀ e ∈ l, e.1 = u → e.2 = c) :
    cmd (markAffected d l) u = if u ∈ l.map (·.1) then some { c with affected := true } else cmd d u := by
  induction l generalizing d with
  | nil => simp [markAffected]
  | cons e r ih =>
    have hrest := ih (setCmd d e.1 { e.2 with affected := true }) (fun x hx => hl x (List.mem_cons_of_mem e hx))
    change cmd (markAffected (setCmd d e.1 { e.2 with affected := true }) r) u = _
    rw [hrest]
    by_cases hr : u ∈ r.map (·.1)
    · rw [if_pos hr, if_pos (by simp [hr])]
    · rw [if_neg hr]
      by_cases hu : u = e.1
      · subst hu
        rw [cmd_setCmd_same, if_pos (by simp), hl e List.mem_cons_self rfl]
      · rw [cmd_setCmd_other _ _ hu, if_neg (by simpa [hu] using hr)]

/-! ### The end of the victim's slice (R325) -/

/-- The PREEMPT whose slice has ended now. -/
def sliceOver (d : Dev) (p : Pre) : Pre := { p with endedAt := some d.now }

/-- The commands that the slice's end kills. -/
def killedBySlice (d : Dev) (p : Pre) : List Nat :=
  (d.qm.cmds.filter (fun e => affectedBy d p e.2 && !dRTC e.2.desc)).map (·.1)

/-- The module when the commands without RTC have been killed. -/
def sliceKilled (d : Dev) (p : Pre) : Dev := endList stKilled 0 false (setPre d (sliceOver d p)) (killedBySlice d p)

/-- The commands of the victim that are left run on, marked. -/
def outlived (d : Dev) (p : Pre) : Dev := markAffected d (d.qm.cmds.filter (fun e => affectedBy d p e.2))

theorem endSlice_eq (d : Dev) (p : Pre) : endSlice d p = outlived (sliceKilled d p) p := by
  have hkill : endAll (setPre d (sliceOver d p)) (fun _ c => affectedBy (setPre d (sliceOver d p)) p c && !dRTC c.desc)
      stKilled 0 false = sliceKilled d p := endAll_eq stKilled 0 false _
  rw [← hkill]
  rfl

theorem mem_killedBySlice (hs : SMap.sorted d.qm.cmds = true) {u : Nat} :
    u ∈ killedBySlice d p ↔ ∃ c, cmd d u = some c ∧ (affectedBy d p c && !dRTC c.desc) = true :=
  mem_picked hs (fun _ c => affectedBy d p c && !dRTC c.desc) u

/-- The slice's end spares the PREEMPT's own command. -/
def SparesOwn (d : Dev) (p : Pre) : Prop := ∀ c, cmd d p.uid = some c → affectedBy d p c = false

theorem sliceKilled_side (hs : TablesSorted d) (hp : d.qm.pres = [p]) (hown : SparesOwn d p) :
    EndStep (· ∈ killedBySlice d p) (setPre d (sliceOver d p)) (sliceKilled d p) ∧
      (sliceKilled d p).qm.jobs = d.qm.jobs ∧ (sliceKilled d p).qm.pres = [sliceOver d p] := by
  have hpre : (setPre d (sliceOver d p)).qm.pres = [sliceOver d p] := by
    unfold setPre
    rw [hp]
    simp [sliceOver]
  have hside : EndStep (· ∈ killedBySlice d p) (setPre d (sliceOver d p)) (sliceKilled d p) :=
    endStep_endList (d := setPre d (sliceOver d p)) stKilled 0 false hs.cmds _
  obtain ⟨hjobs, hpres⟩ := hside.calm fun q hq hu => by
    rw [hpre, List.mem_singleton] at hq
    subst hq
    obtain ⟨c, hc, haff⟩ := (mem_killedBySlice hs.cmds).mp hu
    rw [hown c hc] at haff
    exact absurd haff (by simp)
  exact ⟨hside, hjobs, hpres.trans hpre⟩

/-- What the slice's end leaves beside the commands. -/
theorem endSlice_side (hs : TablesSorted d) (hp : d.qm.pres = [p]) (hown : SparesOwn d p) :
    (endSlice d p).qm.pres = [sliceOver d p] ∧ (endSlice d p).qm.jobs = d.qm.jobs ∧ (endSlice d p).out = d.out := by
  obtain ⟨hside, hjobs, hpres⟩ := sliceKilled_side hs hp hown
  have hout : (sliceKilled d p).out = d.out := by
    rw [hside.rest]
    rfl
  rw [endSlice_eq, outlived, markAffected_rest]
  exact ⟨hpres, hjobs, hout⟩

/-- A record after the slice's end: it is marked where it is one that the slice's end treats. -/
theorem cmd_endSlice (hs : TablesSorted d) {u : Nat} {c : Cmd} (hc : cmd (sliceKilled d p) u = some c) :
    cmd (endSlice d p) u = some (if affectedBy (sliceKilled d p) p c then { c with affected := true } else c) := by
  have hsorted : SMap.sorted (sliceKilled d p).qm.cmds = true := by
    have hside : EndStep (· ∈ killedBySlice d p) (setPre d (sliceOver d p)) (sliceKilled d p) :=
      endStep_endList (d := setPre d (sliceOver d p)) stKilled 0 false hs.cmds _
    exact hside.cmds hs.cmds
  have hown : ∀ e ∈ (sliceKilled d p).qm.cmds.filter (fun e => affectedBy (sliceKilled d p) p e.2), e.1 = u → e.2 = c :=
    fun e he hu => by
      subst hu
      have hget := SMap.get?_of_mem hsorted (List.mem_filter.mp he).1
      exact Option.some.inj (hget.symm.trans hc)
  have hmem := mem_picked hsorted (fun _ c => affectedBy (sliceKilled d p) p c) u
  rw [endSlice_eq, outlived, cmd_markAffected _ _ hown]
  by_cases haff : affectedBy (sliceKilled d p) p c = true
  · rw [if_pos (hmem.mpr ⟨c, hc, haff⟩), if_pos haff]
  · have hnot : u ∉ ((sliceKilled d p).qm.cmds.filter (fun e => affectedBy (sliceKilled d p) p e.2)).map (·.1) := fun h => by
      obtain ⟨x, hx, hxaff⟩ := hmem.mp h
      obtain rfl : c = x := Option.some.inj (hc.symm.trans hx)
      exact haff hxaff
    rw [if_neg hnot, if_neg haff, hc]

/-- How a command comes out of the slice's end. -/
theorem endSlice_treats (hs : TablesSorted d) (hp : d.qm.pres = [p]) (hown : SparesOwn d p) {u : Nat} {c : Cmd}
    (hc : cmd d u = some c) :
    (affectedBy d p c = false → ∃ c', cmd (endSlice d p) u = some c' ∧ c'.status = c.status ∧ c'.committed = c.committed ∧
      (c'.phase = .ended ↔ c.phase = .ended)) ∧
    (affectedBy d p c = true → dRTC c.desc = false → EndedAs (endSlice d p) u c stKilled false) ∧
    (affectedBy d p c = true → dRTC c.desc = true → ∃ c', cmd (endSlice d p) u = some c' ∧ c'.affected = true ∧
      c'.phase ≠ .ended) := by
  obtain ⟨hside, hjobs, -⟩ := sliceKilled_side hs hp hown
  have hgoes (hnot : (affectedBy d p c && !dRTC c.desc) = false) :
      ∃ c', cmd (sliceKilled d p) u = some c' ∧ StaysOn c c' := by
    refine hside.goOn hs.cmds u (fun hu => ?_) c hc
    obtain ⟨x, hx, hkill⟩ := (mem_killedBySlice hs.cmds).mp hu
    obtain rfl : c = x := Option.some.inj (hc.symm.trans hx)
    rw [hnot] at hkill
    exact absurd hkill (by decide)
  refine ⟨fun haff => ?spared, fun haff hrtc => ?killed, fun haff hrtc => ?outlives⟩
  case spared =>
    obtain ⟨c', hc', hstays⟩ := hgoes (by rw [haff]; rfl)
    have hcmd := cmd_endSlice hs hc'
    rw [affectedBy_staysOn hjobs p hstays, haff] at hcmd
    exact ⟨c', hcmd, by rw [hstays.rest], by rw [hstays.rest], hstays.ended_iff⟩
  case killed =>
    have hlisted : u ∈ killedBySlice d p := (mem_killedBySlice hs.cmds).mpr ⟨c, hc, by rw [haff, hrtc]; rfl⟩
    obtain ⟨c', hc', hended⟩ :=
      endedIn_endList stKilled 0 false (d := setPre d (sliceOver d p)) hs.cmds hlisted hc (phase_of_affectedBy haff)
    have hcmd := cmd_endSlice hs hc'
    rw [affectedBy_ended hended.phase] at hcmd
    exact EndedIn.endedAs ⟨c', hcmd, hended⟩
  case outlives =>
    obtain ⟨c', hc', hstays⟩ := hgoes (by rw [haff, hrtc]; rfl)
    have hcmd := cmd_endSlice hs hc'
    rw [affectedBy_staysOn hjobs p hstays, haff] at hcmd
    exact ⟨_, hcmd, rfl, fun h => phase_of_affectedBy haff (hstays.ended_iff.mp h)⟩

/-! ### OVERRUN_EXPIRY -/

theorem opOverrun_unaffected {uid : Nat} {c : Cmd} (hc : cmd d uid = some c) (ha : c.affected = false) : opOverrun d uid = d := by
  unfold opOverrun
  rw [hc]
  simp [ha]

theorem opOverrun_due {uid t0 : Nat} {c : Cmd} (hc : cmd d uid = some c) (ha : c.affected = true)
    (hp : c.phase = .running ∨ c.phase = .worked) (hmem : p ∈ d.qm.pres) (hv : p.victim = c.job) (he : p.endedAt = some t0)
    (hdue : t0 + max 1 (rg d (qmDie d c.job) qPage 0x108) * 1050 ≤ d.now) :
    opOverrun d uid = endCmd d uid stKilled 0 false := by
  have hphase : (decide (c.phase = .running) || decide (c.phase = .worked)) = true := by
    rcases hp with h | h <;> rw [h] <;> rfl
  unfold opOverrun
  rw [hc]
  refine if_pos ?_
  rw [Bool.and_eq_true, Bool.and_eq_true]
  refine ⟨⟨ha, hphase⟩, List.any_eq_true.mpr ⟨p, hmem, ?_⟩⟩
  simp [hv, he, hdue]

/-! ### PREEMPT (R324) -/

/-- A PREEMPT of a victim without a live map, for a job without a save, whose slice does not end yet. -/
structure PreemptWaits (d : Dev) (c : Cmd) : Prop where
  priv : isPriv d c.job = true
  now : dBits c.desc 10 1 1 = 0
  victim : isActive d (dBytes c.desc 8 1) = true
  incoming : isActive d (dBytes c.desc 9 1) = true
  resident : (job d (dBytes c.desc 8 1)).resident = true
  away : (job d (dBytes c.desc 9 1)).resident = false
  idle : (job d (dBytes c.desc 9 1)).awaits = false
  save : (job d (dBytes c.desc 9 1)).save = none
  noMap : bitsOf (rj d (dBytes c.desc 8 1) 0x120) 15 0 = 0
  endless : rj d (dBytes c.desc 8 1) 0x108 = 0

/-- The T2 quota of a PREEMPT's victim has no room for the save. -/
def noRoom (d : Dev) (c : Cmd) : Bool :=
  !(dBits c.desc 10 0 0 == 1) && decide ((job d (dBytes c.desc 8 1)).quota2 < usage d (dBytes c.desc 8 1) 2)

/-- The PREEMPT that a command makes. -/
def preOf (d : Dev) (uid : Nat) (c : Cmd) : Pre :=
  ⟨uid, dBytes c.desc 8 1, dBytes c.desc 9 1, dBits c.desc 10 0 0 == 1 || noRoom d c, none, []⟩

/-- The module when a PREEMPT waits for the end of the slice. -/
def preempting (d : Dev) (uid : Nat) (c : Cmd) : Dev :=
  setCmd { d with qm := { d.qm with pres := d.qm.pres ++ [preOf d uid c] } } uid { c with detail := b2n (noRoom d c) }

theorem opPreempt_waits {uid : Nat} {c : Cmd} (hm : MayStart d uid 0x08 c) (h : PreemptWaits d c) (ev : Upset) :
    opPreempt d uid ev = preempting (setCmd d uid { c with phase := .running }) uid { c with phase := .running } := by
  obtain ⟨hpriv, hnow, hvictim, hincoming, hresident, haway, hidle, hsave, hmap, hendless⟩ := h
  have hready : (!ctlPending d (rj64 d (dBytes c.desc 8 1) 0x118)
      (16 * bitsOf (rj d (dBytes c.desc 8 1) 0x120) 15 0)) = true := by
    rw [hmap]
    rfl
  have hlive (e : Dev) (he : bitsOf (rj e (dBytes c.desc 8 1) 0x120) 15 0 = 0) :
      liveMap e uid (dBytes c.desc 8 1) ev = (e, .ok []) := by
    unfold liveMap
    exact if_pos he
  have hfits (e : Dev) (he : (job e (dBytes c.desc 9 1)).save = none) (v : Nat) :
      restoreFits e (dBytes c.desc 9 1) v [] = true := by
    unfold restoreFits
    rw [he]
  unfold opPreempt
  rw [startCmd_start _ hm hready]
  generalize he : setCmd d uid { c with phase := .running } = e
  have hjob (j : Nat) : job e j = job d j := by rw [← he]; rfl
  have hrj (j reg : Nat) : rj e j reg = rj d j reg := by rw [← he]; rfl
  have hpass : (!isPriv e c.job || !isActive e (dBytes c.desc 8 1) || !isActive e (dBytes c.desc 9 1) ||
      !(job e (dBytes c.desc 8 1)).resident || (job e (dBytes c.desc 9 1)).resident ||
      (job e (dBytes c.desc 9 1)).awaits) = false := by
    have hact (j : Nat) : isActive e j = isActive d j := by unfold isActive; rw [hjob]
    have hpr : isPriv e c.job = isPriv d c.job := by unfold isPriv; rw [hact, hrj]
    rw [hpr, hact, hact, hjob, hjob, hpriv, hvictim, hincoming, hresident, haway, hidle]
    rfl
  dsimp only
  rw [if_neg (by rw [hpass]; decide), hlive e (by rw [hrj]; exact hmap)]
  dsimp only
  rw [hfits e (by rw [hjob]; exact hsave), if_neg (by decide)]
  have hus : rj (preempting e uid { c with phase := .running }) (dBytes c.desc 8 1) 0x108 = 0 := (hrj _ _).trans hendless
  have hstay : ((dBits c.desc 10 1 1 == 1) || (decide (rj (preempting e uid { c with phase := .running })
      (dBytes c.desc 8 1) 0x108 ≠ 0) && decide ((job (preempting e uid { c with phase := .running })
        (dBytes c.desc 8 1)).sliceStart + rj (preempting e uid { c with phase := .running }) (dBytes c.desc 8 1) 0x108 * 1050 ≤
          (preempting e uid { c with phase := .running }).now))) = false := by
    rw [hus, hnow]
    rfl
  exact if_neg (by rw [Bool.eq_false_iff] at hstay; exact hstay)

end Slice

end Sys2Proof.Machine

/-! SUPPORT. The switch of two jobs: what saving the victim and restoring the incoming job leaves (08 R257; 10 R326 to R330). -/

namespace Sys2Proof.Machine
open Sys2Proof

/-! ### Reads of a save or a restore -/

/-- Time, the orbit, the boot state, the cores, the jobs, the commands and their requests, and the PREEMPTs are as they were. -/
structure QueueSide (d t : Dev) : Prop where
  now : t.now = d.now
  orb : t.orb = d.orb
  boot : t.boot = d.boot
  cores : t.cores = d.cores
  jobs : t.qm.jobs = d.qm.jobs
  cmds : t.qm.cmds = d.qm.cmds
  commitQ : t.qm.commitQ = d.qm.commitQ
  pres : t.qm.pres = d.qm.pres

namespace QueueSide
variable {a b c : Dev}

theorem refl (d : Dev) : QueueSide d d := ⟨rfl, rfl, rfl, rfl, rfl, rfl, rfl, rfl⟩

theorem trans (h : QueueSide a b) (k : QueueSide b c) : QueueSide a c :=
  ⟨k.now.trans h.now, k.orb.trans h.orb, k.boot.trans h.boot, k.cores.trans h.cores, k.jobs.trans h.jobs, k.cmds.trans h.cmds,
    k.commitQ.trans h.commitQ, k.pres.trans h.pres⟩

end QueueSide

theorem HeapSide.queueSide {d t : Dev} (h : HeapSide d t) : QueueSide d t := by
  rw [h.rest]
  exact ⟨rfl, rfl, rfl, rfl, rfl, rfl, rfl, rfl⟩

theorem TouchSide.queueSide {d t : Dev} (h : TouchSide d t) : QueueSide d t := by
  rw [h.rest]
  exact ⟨rfl, rfl, rfl, rfl, rfl, rfl, rfl, rfl⟩

theorem LatchSide.queueSide {d t : Dev} (h : LatchSide d t) : QueueSide d t := by
  have hqm := h.side.qm
  exact ⟨h.side.now, h.side.orb, h.side.boot, h.side.cores, by rw [hqm], by rw [hqm], by rw [hqm], by rw [hqm]⟩

theorem queueSide_bump (d : Dev) (die page reg n : Nat) : QueueSide d (bump d die page reg n) :=
  (touchSide_bump d die page reg n).queueSide

theorem queueSide_bump64 (d : Dev) (die page reg n : Nat) : QueueSide d (bump64 d die page reg n) := by
  obtain ⟨g, hg⟩ := bump64_regs_only d die page reg n
  rw [hg]
  exact ⟨rfl, rfl, rfl, rfl, rfl, rfl, rfl, rfl⟩

theorem queueSide_latch (d : Dev) (die page src : Nat) (c : Cap) : QueueSide d (latch d die page src c) :=
  (latchSide_latch d die page src c).queueSide

theorem queueSide_lineRead (d : Dev) (ch : Nat) (c : Cap) (ev : Upset) : QueueSide d (lineRead d ch c ev).1 :=
  (latchSide_lineRead d ch c ev).queueSide

theorem queueSide_setFtl (d : Dev) (sd : Nat) (x : Ftl) : QueueSide d (setFtl d sd x) := (heapSide_setFtl d sd x).queueSide

theorem queueSide_poisonGran (d : Dev) (k sid : Nat) : QueueSide d (poisonGran d k sid) := by
  unfold poisonGran
  dsimp only
  split
  · exact ((heapSide_setPoison _ _ _).trans (heapSide_setPst _ _ _)).queueSide
  · exact (heapSide_setPoison _ _ _).queueSide

theorem queueSide_countCE (d : Dev) (k sid : Nat) : QueueSide d (countCE d k sid) := by
  unfold countCE
  dsimp only
  split
  · exact queueSide_bump _ _ _ _ _
  · split
    · exact queueSide_bump _ _ _ _ _
    · split
      · exact queueSide_bump _ _ _ _ _
      · exact queueSide_bump _ _ _ _ _

theorem queueSide_readUE (d : Dev) (k sid : Nat) (c : Cap) : QueueSide d (readUE d k sid c) := by
  have hretries (d : Dev) (sd : Nat) : QueueSide d (countRetries d sd 4) := queueSide_bump _ _ _ _ _
  have hflash (d : Dev) : QueueSide d (if mirrored d k then countRetries (countRetries d (sdOf k) 4) (1 - sdOf k) 4
      else countRetries d (sdOf k) 4) := by
    split
    · exact (hretries _ _).trans (hretries _ _)
    · exact hretries _ _
  unfold readUE
  split
  · exact queueSide_latch _ _ _ _ _
  · split
    · exact queueSide_latch _ _ _ _ _
    · split
      · exact (hflash d).trans ((queueSide_bump _ _ _ _ _).trans ((queueSide_poisonGran _ _ _).trans (queueSide_latch _ _ _ _ _)))
      · split
        · exact (queueSide_poisonGran _ _ _).trans (queueSide_latch _ _ _ _ _)
        · exact (queueSide_lineRead _ _ _ _).trans (queueSide_poisonGran _ _ _)

theorem queueSide_readErr (d : Dev) (k sid : Nat) (c : Cap) (e : ReadErr) : QueueSide d (readErr d k sid c e).1 := by
  unfold readErr
  split
  · dsimp only
    split
    · exact queueSide_bump _ _ _ _ _
    · exact (queueSide_bump _ _ _ _ _).trans (queueSide_latch _ _ _ _ _)
    · exact queueSide_latch _ _ _ _ _
    · exact .refl d
  · split
    · have hline := queueSide_lineRead d (channelOf sid) c (.at e 0)
      split
      · rename_i h
        rw [h] at hline
        exact hline.trans (queueSide_poisonGran _ _ _)
      · exact hline
    · exact .refl d

/-! ### The other flash die serves a read (09 R285) -/

theorem queueSide_pickBlk (d : Dev) (sd : Nat) : QueueSide d (pickBlk d sd).1 := by
  have hwear (d : Dev) : QueueSide d (ftlWear d) := by
    unfold ftlWear setFtlBoth setRg setRaw
    exact ⟨rfl, rfl, rfl, rfl, rfl, rfl, rfl, rfl⟩
  unfold pickBlk
  dsimp only
  split
  · exact .refl d
  · split
    · exact (queueSide_setFtl _ _ _).trans ((queueSide_bump _ _ _ _ _).trans (hwear _))
    · exact .refl d

theorem queueSide_startProg (d : Dev) (uid sd u : Nat) (mirror : Bool) (move : Option Nat) :
    QueueSide d (startProg d uid sd u mirror move) := by
  have hinto (d : Dev) (b : Nat) : QueueSide d (progInto d uid sd u b mirror move) := by
    unfold progInto
    exact (queueSide_setFtl _ _ _).trans ((queueSide_bump64 _ _ _ _ _).trans (queueSide_bump _ _ _ _ _))
  unfold startProg
  exact (queueSide_pickBlk d sd).trans (hinto _ _)

/-- The proof speaks of any `f` that is the model's function: Lean's equation for `mirrorRepair` itself is too deep to check. -/
theorem queueSide_mirrorRepair (d : Dev) (k : Nat) (c : Cap) : QueueSide d (mirrorRepair d k c) := by
  suffices h : ∀ f : Dev → Nat → Cap → Dev, f = mirrorRepair → ∀ P : Dev → Prop, (∀ t, QueueSide d t → P t) → P (f d k c) from
    h _ rfl _ (fun _ h => h)
  intro f hf P hP
  delta mirrorRepair at hf
  subst hf
  beta_reduce
  extract_lets sd d0 d1
  have hread : QueueSide d d0 := by
    unfold d0
    split
    · exact (touchSide_readPage _ _ _).queueSide
    · exact .refl d
  have hlatch : QueueSide d0 d1 := (queueSide_bump _ _ _ _ _).trans (queueSide_latch _ _ _ _ _)
  split
  · exact hP _ ((hread.trans hlatch).trans (queueSide_startProg _ _ _ _ _ _))
  · exact hP _ (hread.trans hlatch)

theorem queueSide_checkRead (d : Dev) (k sid addr : Nat) (ev : Upset) (c : Cap) :
    QueueSide d (checkRead d k sid addr ev c).1 := by
  have hserve (d : Dev) (c : Cap) : QueueSide d (mirrorRepair (countRetries d (sdOf k) 4) k c) :=
    (queueSide_bump _ _ _ _ _).trans (queueSide_mirrorRepair _ _ _)
  unfold checkRead
  split
  · exact .refl d
  · split
    · exact queueSide_countCE _ _ _
    · exact queueSide_readUE _ _ _ _
    · rename_i e _
      have herr := queueSide_readErr d k sid { c with addr := addr } e
      split
      · rename_i h
        rw [h] at herr
        exact herr
      · rename_i h
        rw [h] at herr
        split
        · exact herr.trans (hserve _ _)
        · split
          · exact herr.trans (queueSide_readUE _ _ _ _)
          · exact herr
    · split
      · exact hserve _ _
      · split
        · exact queueSide_readUE _ _ _ _
        · exact .refl d
    · exact .refl d

theorem queueSide_moveRead (j : Nat) (d : Dev) (k sid : Nat) (ev : Upset) : QueueSide d (moveRead j d k sid ev).1 := by
  have hlines : QueueSide d (readLines d sid 0 4096) := (readSide_readLines d sid 0 4096).toTouchSide.queueSide
  unfold moveRead
  dsimp only
  split
  · exact hlines
  · exact hlines.trans (queueSide_checkRead _ _ _ _ _ _)

end Sys2Proof.Machine

/-! SUPPORT. VICTIM_OUT: the victim's save, the incoming job's restore, and the end of the PREEMPT (08 R257; 10 R326 to R330). -/

namespace Sys2Proof.Machine
open Sys2Proof

/-! ### What the move of one job leaves -/

/-- Time, the orbit, the boot state, the commands and their requests, the PREEMPTs, and every job but `j` are as they were. -/
structure Moved (j : Nat) (d t : Dev) : Prop where
  now : t.now = d.now
  orb : t.orb = d.orb
  boot : t.boot = d.boot
  cmds : t.qm.cmds = d.qm.cmds
  commitQ : t.qm.commitQ = d.qm.commitQ
  pres : t.qm.pres = d.qm.pres
  cores : SMap.sorted d.cores = true → SMap.sorted t.cores = true
  jobs : SMap.sorted d.qm.jobs = true → SMap.sorted t.qm.jobs = true
  others : SMap.sorted d.qm.jobs = true → ∀ k, k ≠ j → job t k = job d k

namespace Moved
variable {j : Nat} {a b c : Dev}

theorem refl (j : Nat) (d : Dev) : Moved j d d := ⟨rfl, rfl, rfl, rfl, rfl, rfl, id, id, fun _ _ _ => rfl⟩

theorem trans (h : Moved j a b) (k : Moved j b c) : Moved j a c :=
  ⟨k.now.trans h.now, k.orb.trans h.orb, k.boot.trans h.boot, k.cmds.trans h.cmds, k.commitQ.trans h.commitQ, k.pres.trans h.pres,
    k.cores ∘ h.cores, k.jobs ∘ h.jobs, fun hs i hi => (k.others (h.jobs hs) i hi).trans (h.others hs i hi)⟩

theorem foldl {α : Type} (f : Dev → α → Dev) (h : ∀ d x, Moved j d (f d x)) (l : List α) (d : Dev) : Moved j d (l.foldl f d) := by
  induction l generalizing d with
  | nil => exact refl j d
  | cons x r ih => exact (h d x).trans (ih _)

/-- Steps that hand on what is left of an upset. -/
theorem foldl_moving {α : Type} (f : Moving → α → Moving) (h : ∀ x a, Moved j x.1 (f x a).1) (l : List α) (x : Moving) :
    Moved j x.1 (l.foldl f x).1 := by
  induction l generalizing x with
  | nil => exact refl j x.1
  | cons a r ih => exact (h x a).trans (ih _)

end Moved

theorem QueueSide.moved {d t : Dev} (h : QueueSide d t) (j : Nat) : Moved j d t :=
  ⟨h.now, h.orb, h.boot, h.cmds, h.commitQ, h.pres, fun hs => by rw [h.cores]; exact hs, fun hs => by rw [h.jobs]; exact hs,
    fun _ k _ => by unfold job; rw [h.jobs]⟩

theorem HeapSide.moved {d t : Dev} (h : HeapSide d t) (j : Nat) : Moved j d t := h.queueSide.moved j

theorem moved_setJob (d : Dev) (j : Nat) (x : Job) : Moved j d (setJob d j x) :=
  ⟨rfl, rfl, rfl, rfl, rfl, rfl, id, fun hs => sorted_setJob hs j x, fun hs _ hk => job_setJob_other hs x hk⟩

/-! ### The victim (R326, R329) -/

theorem moved_saveGran (j : Nat) (x : Moving) (k : Nat) : Moved j x.1 (saveGran j x k).1 := by
  have hpoison (d : Dev) (s : Nat) (b : Bool) : HeapSide d (if b then setPoison d s true else d) := by
    split
    · exact heapSide_setPoison _ _ _
    · exact .refl d
  unfold saveGran
  split
  · exact .refl j x.1
  · rename_i src _
    exact ((queueSide_moveRead j x.1 k src (evHere x.2)).moved j).trans
      (((((heapSide_newGran _).trans (heapSide_copyGran _ _ _)).trans (hpoison _ _ _)).moved j).trans (moved_setJob _ j _))

theorem moved_saveT1 (j : Nat) (x : Moving) (oid : Nat) : Moved j x.1 (saveT1 j x oid).1 := by
  unfold saveT1
  split
  · exact .refl j x.1
  · exact (Moved.foldl_moving (saveGran j) (moved_saveGran j) _ x).trans ((moved_setJob _ j _).trans
      (((heapSide_setObj _ _ _).trans (heapSide_freeGrans _ _ _)).moved j))

theorem moved_clearCores (j : Nat) (l : List CoreEnt) (d : Dev) : Moved j d (l.foldl (fun d e => clearCore d j e) d) := by
  refine Moved.foldl _ (fun d e => ?_) l d
  obtain ⟨k, hk⟩ := clearCore_core d j e
  rw [hk]
  exact ⟨rfl, rfl, rfl, rfl, rfl, rfl, SMap.sorted_put e.core k idleCore, id, fun _ _ _ => rfl⟩

theorem moved_unmarkT0 (d : Dev) (j : Nat) : Moved j d (unmarkT0 d j) := ⟨rfl, rfl, rfl, rfl, rfl, rfl, id, id, fun _ _ _ => rfl⟩

/-- The victim's data in T0 and T1, saved or given up. -/
def victimSaved (d : Dev) (p : Pre) (ev : Upset) : Moving :=
  let x1 := if p.kill then (d, ev) else (liveT0 p.live).foldl (saveGran p.victim) (d, ev)
  let x2 := (if p.kill then arenaGrans d p.victim (preCores d p) else (arenaGrans d p.victim (preCores d p)).filter
    (fun k => !(liveT0 p.live).contains k)).foldl (saveGran p.victim) x1
  if p.kill then ((liveT1 d p.victim p.live).foldl (fun d o => evictCopy d o 1 p.victim) x2.1, x2.2)
  else (liveT1 d p.victim p.live).foldl (saveT1 p.victim) x2

theorem moved_victimSaved (d : Dev) (p : Pre) (ev : Upset) : Moved p.victim d (victimSaved d p ev).1 := by
  have hsave (l : List Nat) (x : Moving) : Moved p.victim x.1 (l.foldl (saveGran p.victim) x).1 :=
    .foldl_moving _ (moved_saveGran p.victim) l x
  unfold victimSaved
  dsimp only
  cases p.kill with
  | true =>
    exact (hsave _ (d, ev)).trans ((HeapSide.foldl _ (fun d o => heapSide_evictCopy d o 1 p.victim) _ _).moved _)
  | false =>
    exact ((hsave _ (d, ev)).trans (hsave _ _)).trans (.foldl_moving _ (moved_saveT1 p.victim) _ _)

/-- The module when the victim's cores are cleared. -/
def victimCleared (d : Dev) (p : Pre) (ev : Upset) : Dev :=
  ((job (victimSaved d p ev).1 p.victim).place.cores.filter (fun e => (preCores d p).contains e.core)).foldl
    (fun d e => clearCore d p.victim e) (unmarkT0 (victimSaved d p ev).1 p.victim)

theorem moved_victimCleared (d : Dev) (p : Pre) (ev : Upset) : Moved p.victim d (victimCleared d p ev) :=
  (moved_victimSaved d p ev).trans ((moved_unmarkT0 _ _).trans (moved_clearCores _ _ _))

theorem victimGoes_eq (d : Dev) (p : Pre) (ev : Upset) : victimGoes d p ev =
    (setJob (victimCleared d p ev) p.victim { job (victimCleared d p ev) p.victim with resident := false },
      (victimSaved d p ev).2) := rfl

theorem moved_victimGoes (d : Dev) (p : Pre) (ev : Upset) : Moved p.victim d (victimGoes d p ev).1 := by
  rw [victimGoes_eq]
  exact (moved_victimCleared d p ev).trans (moved_setJob _ _ _)

theorem victimGoes_away {d : Dev} (hs : SMap.sorted d.qm.jobs = true) (p : Pre) (ev : Upset) :
    (job (victimGoes d p ev).1 p.victim).resident = false := by
  rw [victimGoes_eq]
  exact congrArg Job.resident (job_setJob_sorted ((moved_victimCleared d p ev).jobs hs) _ _)

/-! ### The incoming job (R330) -/

theorem moved_readSave (i j : Nat) (l : List SaveGran) (x : Moving) : Moved i x.1 (readSave j l x).1 := by
  induction l generalizing x with
  | nil => exact .refl i x.1
  | cons g r ih =>
    have hread := (queueSide_moveRead j x.1 (gKey 11 j 0) g.sid (evHere x.2)).moved i
    unfold readSave
    split
    · rename_i h
      rw [h] at hread
      exact hread
    · rename_i d1 h
      rw [h] at hread
      exact hread.trans (ih (d1, evNext x.2))

theorem moved_freeSave (d : Dev) (j : Nat) : Moved j d (freeSave d j) := by
  unfold freeSave
  split
  · rename_i a _
    exact ((heapSide_dropGrans (fun g : SaveGran => g.sid) a.grans d).moved j).trans (moved_setJob _ j _)
  · exact .refl j d

theorem heapSide_restoreGran (d : Dev) (g : SaveGran) : HeapSide d (restoreGran d g) := by
  unfold restoreGran
  split
  · exact heapSide_copyGran _ _ _
  · exact (heapSide_newGran _).trans ((heapSide_setRoot _ _ _).trans (heapSide_copyGran _ _ _))

theorem heapSide_reallocT1 (j : Nat) (d : Dev) (oid : Nat) : HeapSide d (reallocT1 j d oid) := by
  unfold reallocT1
  split
  · split
    · exact heapSide_claimCopy _ _ _ _
    · exact heapSide_setObj _ _ _
  · exact .refl d

theorem moved_restoreJob (d : Dev) (j : Nat) (ev : Upset) : Moved j d (restoreJob d j ev) := by
  have hlost (d : Dev) (src : Nat) (c : Cap) : Moved j d (latchQm d j src c) := (queueSide_latch _ _ _ _ _).moved j
  unfold restoreJob
  split
  · exact .refl j d
  · rename_i a _
    have hread := moved_readSave j j a.grans (d, ev)
    have hback (d : Dev) : HeapSide d (a.grans.foldl restoreGran (a.t1oids.foldl (reallocT1 j) d)) :=
      (HeapSide.foldl _ (heapSide_reallocT1 j) _ _).trans (HeapSide.foldl _ heapSide_restoreGran _ _)
    split
    · rename_i h
      rw [h] at hread
      exact hread.trans ((hlost _ _ _).trans ((moved_setJob _ j _).trans (moved_freeSave _ j)))
    · rename_i h
      rw [h] at hread
      exact hread.trans (((hback _).moved j).trans (moved_freeSave _ j))

/-! ### VICTIM_OUT -/

section Out
variable {d : Dev} {p : Pre}

/-- The incoming job may take the place of the victim: no command that the slice's end treats runs, no prefetch of the victim is
in transfer, no other job is in the way, and the dies are awake. -/
structure SwitchReady (d : Dev) (p : Pre) : Prop where
  only : d.qm.pres = [p]
  ended : p.endedAt ≠ none
  quiet : ∀ e ∈ d.qm.cmds, affectedBy d p e.2 = false
  still : pfMoving d p.victim = false
  alone : ∀ k, k ≠ p.victim → k ≠ p.incoming → (job d k).resident = false ∧ (job d k).awaits = false
  awake : sleepingDies d (job d p.incoming).place = []
  active : isActive d p.incoming = true
  resident : (job d p.victim).resident = true

/-- The module when the victim has gone and the PREEMPT is over. -/
def victimGone (d : Dev) (p : Pre) (ev : Upset) : Dev := dropPre (victimGoes d p ev).1 p.uid

theorem isActive_victimGone (hs : SMap.sorted d.qm.jobs = true) (hne : p.victim ≠ p.incoming) (ev : Upset) :
    isActive (victimGone d p ev) p.incoming = isActive d p.incoming := by
  have hjob : job (victimGone d p ev) p.incoming = job d p.incoming := (moved_victimGoes d p ev).others hs _ hne.symm
  unfold isActive
  rw [hjob]

/-- No other job that is resident, or will be, conflicts with the incoming one. -/
theorem SwitchReady.noOthers (h : SwitchReady d p) (hs : SMap.sorted d.qm.jobs = true) :
    d.qm.jobs.all (fun e => e.1 == p.victim || e.1 == p.incoming || !(e.2.resident || e.2.awaits) ||
      (conflictCores (job d p.incoming).place e.2.place).isEmpty) = true := by
  rw [List.all_eq_true]
  intro e he
  by_cases hv : e.1 = p.victim
  · simp [hv]
  by_cases hi : e.1 = p.incoming
  · simp [hi]
  have hjob : job d e.1 = e.2 := by
    unfold job SMap.getD
    rw [SMap.get?_of_mem hs he]
    rfl
  obtain ⟨hres, hawait⟩ := h.alone e.1 hv hi
  rw [hjob] at hres hawait
  simp [hres, hawait]

theorem opVictimOut_switches (h : SwitchReady d p) (hs : SMap.sorted d.qm.jobs = true) (hne : p.victim ≠ p.incoming)
    (ev : Upset) : opVictimOut d p.uid ev = requestCommit (becomeResident
      (restoreJob (victimGone d p ev) p.incoming (victimGoes d p ev).2) p.incoming) p.uid := by
  have hfind : d.qm.pres.find? (fun q => q.uid == p.uid) = some p := by
    rw [h.only]
    simp
  have hended : p.endedAt.isNone = false := by simpa [Option.isSome_iff_ne_none] using h.ended
  have hquiet : d.qm.cmds.any (fun e => affectedBy d p e.2) = false :=
    List.any_eq_false.mpr fun e he => by rw [h.quiet e he]; decide
  have hactive : isActive (dropPre (victimGoes d p ev).1 p.uid) p.incoming = true :=
    (isActive_victimGone hs hne ev).trans h.active
  unfold opVictimOut
  rw [hfind]
  dsimp only
  rw [hended, hquiet, h.still, h.noOthers hs, h.awake, h.resident, if_neg (by decide), if_neg (by decide), if_pos rfl, hactive,
    if_neg (by decide)]
  rfl

/-- What the switch leaves (R326). -/
theorem opVictimOut_out (h : SwitchReady d p) (hs : TablesSorted d) (hne : p.victim ≠ p.incoming) {c : Cmd}
    (hc : cmd d p.uid = some c) (hrun : c.phase = .running) (hcores : c.coresLeft = []) (ht4 : c.t4left = 0) (ev : Upset) :
    let t := opVictimOut d p.uid ev
    t.qm.pres = [] ∧ (job t p.victim).resident = false ∧ (job t p.incoming).resident = true ∧
      (job t p.incoming).sliceStart = d.now ∧ WorkedNow t p.uid ∧ t.orb = d.orb ∧ t.boot = d.boot := by
  rw [opVictimOut_switches h hs.jobs hne]
  have haway := victimGoes_away hs.jobs p ev
  have hgoes := moved_victimGoes d p ev
  have hrest := moved_restoreJob (victimGone d p ev) p.incoming (victimGoes d p ev).2
  have hpres : (victimGone d p ev).qm.pres = [] := by
    change (victimGoes d p ev).1.qm.pres.filter (fun q => q.uid != p.uid) = []
    rw [hgoes.pres, h.only]
    simp
  have hjobs : SMap.sorted (victimGone d p ev).qm.jobs = true := hgoes.jobs hs.jobs
  have hres := admitted_becomeResident (hrest.jobs hjobs) (hrest.cores (hgoes.cores hs.cores)) p.incoming
  have hvictim := (hres.others _ hne).trans (hrest.others hjobs _ hne)
  generalize restoreJob (victimGone d p ev) p.incoming (victimGoes d p ev).2 = r at hrest hres hvictim ⊢
  have hnow : r.now = d.now := hrest.now.trans hgoes.now
  have horb : r.orb = d.orb := hrest.orb.trans hgoes.orb
  have hboot : r.boot = d.boot := hrest.boot.trans hgoes.boot
  have hcmds : r.qm.cmds = d.qm.cmds := hrest.cmds.trans hgoes.cmds
  have hcmd : cmd (becomeResident r p.incoming) p.uid = some c := by
    unfold cmd at hc ⊢
    rw [hres.rest]
    change SMap.get? r.qm.cmds p.uid = some c
    rw [hcmds]
    exact hc
  have hworked := worked_requestCommit hcmd hrun hcores ht4
  obtain ⟨l, q, hreq⟩ := requestCommit_qm (becomeResident r p.incoming) p.uid
  rw [hreq] at hworked ⊢
  refine ⟨?_, ?_, ?_, ?_, hworked, ?_, ?_⟩
  · change (becomeResident r p.incoming).qm.pres = []
    rw [hres.rest]
    exact hrest.pres.trans hpres
  · change (job (becomeResident r p.incoming) p.victim).resident = false
    rw [hvictim]
    exact haway
  · change (job (becomeResident r p.incoming) p.incoming).resident = true
    rw [hres.own]
    rfl
  · change (job (becomeResident r p.incoming) p.incoming).sliceStart = d.now
    rw [hres.own]
    exact hnow
  · change (becomeResident r p.incoming).orb = d.orb
    rw [hres.rest]
    exact horb
  · change (becomeResident r p.incoming).boot = d.boot
    rw [hres.rest]
    exact hboot

end Out

/-- Settles O50: the slice's end ends or marks the victim's commands one by one and leaves the others; the switch moves the two
jobs and leaves the commands, so that the PREEMPT's own command requests its commit. -/
theorem slicesEndAndJobsArePreempted : Obligations.SlicesEndAndJobsArePreempted := by
  unfold Obligations.SlicesEndAndJobsArePreempted
  intro s hlive hs
  refine ⟨fun j hactive hresident hlength hpassed => ⟨fun hp => ?next, fun p hp hv he hown => ?ends⟩,
    fun uid c hc => ⟨fun ha => ?unaffected, fun p t0 ha hphase hmem hv he hdue => ?overrun⟩,
    fun uid c ev hm hpriv hnow => ?preempts,
    fun uid c p ev hp hu he hquiet hstill hne halone hawake hactive hresident hc hrun hcores ht4 => ?out⟩
  case next =>
    have hpass : SlicePassed s.dev j.val := ⟨hactive, hresident, hlength, hpassed⟩
    obtain ⟨hstart, hend, hjob⟩ := nextSlice_holds hpass
    exact completes_okDev hlive (congrArg (okDev s) (opSliceEnd_alone hpass hp)) ⟨hstart, hend, hjob, rfl⟩
  case ends =>
    have hpass : SlicePassed s.dev j.val := ⟨hactive, hresident, hlength, hpassed⟩
    obtain ⟨hpres, hjobs, hout⟩ := endSlice_side hs hp hown
    exact completes_okDev hlive (congrArg (okDev s) (opSliceEnd_preempted hpass hp hv he))
      ⟨hpres, hjobs, hout, fun u c hc => endSlice_treats hs hp hown hc⟩
  case unaffected => exact completes_okDev hlive (congrArg (okDev s) (opOverrun_unaffected hc ha)) rfl
  case overrun =>
    have hended : c.phase ≠ .ended := by
      rcases hphase with h | h <;> rw [h] <;> decide
    exact completes_okDev hlive (congrArg (okDev s) (opOverrun_due hc ha hphase hmem hv he hdue))
      (endCmd_ends hs.cmds hc hended stKilled 0 false).1
  case preempts =>
    intro v i kill down hvictim hincoming hres haway hidle hsave hmap hendless
    refine completes_okDev hlive (congrArg (okDev s)
      (opPreempt_waits hm ⟨hpriv, hnow, hvictim, hincoming, hres, haway, hidle, hsave, hmap, hendless⟩ ev)) ⟨rfl, ?_, rfl⟩
    exact cmd_setCmd_same _ uid _
  case out =>
    subst hu
    exact completes_okDev hlive rfl
      (opVictimOut_out ⟨hp, he, hquiet, hstill, halone, hawake, hactive, hresident⟩ hs hne hc hrun hcores ht4 ev)

end Sys2Proof.Machine
